-- ==== Sys2Proof/Word.lean ====
section
/-! DEFINITION. The word types of the KX-8516 (spec/00_scope.md, R3): a byte is 8 bits, a word 16, a dword 32 and a
qword 64 bits; scalar registers and addresses are qwords, a submission entry or a morsel token is 64 bytes. -/

namespace Sys2Proof

abbrev Byte := BitVec 8
abbrev Dword := BitVec 32
abbrev Qword := BitVec 64

/-- A 64-byte structure: a submission entry (R140), a morsel token (R180) or one HBM line (R422). -/
abbrev Line := BitVec 512

/-- A vector register: 512 bytes (R268). -/
abbrev VReg := BitVec 4096

/-- A mask register: one bit for each byte of a vector register (R268). -/
abbrev MReg := BitVec 512

end Sys2Proof
end

