-- ==== Sys2Proof/Syntax.lean ====
section
/-! DEFINITION. The commands of the KX-8516: what the board, the host, the drives and the device's own engines make
happen, one constructor for each row of spec/opcode_table.json, each whole and indivisible
(spec/95_what_each_step_holds.md). The operands carry what comes from outside the block or cannot be measured by a
clock of the block: an address, a value, a pin, a sensor reading, a duration, the word that a core fetched. -/

namespace Sys2Proof

/-- Where a register access lands (R89, R101): the base address register or window. -/
inductive Space where
  | bar0 | window | bar2
  deriving DecidableEq, Repr

/-- An access to a base address register (R88, R104): the function that makes it, the space, the byte offset in the
space and the width in bytes, and whether a write arrives poisoned (R132). -/
structure Access where
  fn : Nat
  space : Space
  off : Nat
  size : Nat
  poisoned : Bool := false
  deriving DecidableEq, Repr

/-- The items of configuration space whose values the spec gives (R88, R112 to R115, R132) or which its rules read: the
MSI-X control bits (R118), memory space (R88), the ATS enable (R132), the PTM and AER registers (R446, R473), the four
HDM decoders (R134). `bar` and `vfBar` are the 32-bit base address registers; a 64-bit one takes two of them. -/
inductive CfgItem where
  | vendorId | deviceId | subsystemVendorId | subsystemId | classCode | revisionId | maxPayload | ari
  | totalVfs | initialVfs | numVfs | firstVfOffset | vfStride | pageSizes | vfDeviceId | vfEnable | routingId
  | memorySpace | msixEnable | msixFnMask | msixTableSize | ptmEnable | aerUncorrStatus | aerCorrStatus | aerUncorrSeverity
  | powerState | bar (i : Fin 6) | vfBar (i : Fin 6) | tagSupport | aspmSupport | l1Substates | noSoftReset
  | atsPageAligned | atsGlobalInvalidate | atsQueueDepth | atsEnable
  | hdmBase (i : Fin 4) | hdmSize (i : Fin 4) | hdmWays (i : Fin 4) | hdmGran (i : Fin 4) | hdmOn (i : Fin 4)
  deriving DecidableEq, Repr


/-- What a drive tells DSP when it is identified (R367, R369, R376, R391, R396, R398): namespace size in 4 KiB blocks, 512-byte
blocks, a namespace that the device supports, volatile write cache, deallocated blocks read as zero, the largest
transfer in blocks, MTFA, I/O queue pairs, link speed and width, the power state that PS4 takes, and the first 48
bytes of its block 0. -/
structure DriveInfo where
  blocks : Nat
  lba512 : Bool
  supported : Bool
  vwc : Bool
  zeroes : Bool
  maxBlocks : Nat
  mtfa : Nat
  queues : Nat
  speed : Nat
  width : Nat
  deepState : Nat
  label : List Byte
  deriving DecidableEq, Repr

/-- The commands and indivisible steps of the device, one constructor for each row of spec/opcode_table.json. -/
inductive Instr where
  /-- MAIN_RAILS_START (R41): When aux has been in range 50 ms, P54V is at 40 V or more, PWR_EN is high and no stop is latched, the module soft-starts and raises its main rails in order. -/
  | mainRailsStart (auxMs : Nat) (mv : Nat) (lowMs : Nat) (removed : Bool)
  /-- RAILS_UP (R41): The main rails reach their limits, PWR_GOOD rises and a cold reset begins. -/
  | railsUp
  /-- HOLDUP_CHARGED (R41): The hold-up bank reaches 57 V and HOLDUP_OK is set. -/
  | holdupCharged (mv : Nat)
  /-- THERM_TRIP (R33): A junction sensor reads 115 °C or more; the module asserts THERM_TRIP_N, removes its main rails and latches the trip. -/
  | thermTrip (celsius : Nat)
  /-- PWR_EN_FALL (R43): PWR_EN falls while the rails are up; the module performs the orderly stop and removes its rails within 10 ms. -/
  | pwrEnFall
  /-- AUX_POWER_UP (R62): P3V3_AUX comes within range; the pull-up switches close and the SLOT_ID straps are sampled for the SMBus address. -/
  | auxPowerUp (mv : Nat) (straps : Nat)
  /-- AUX_LOSS (R44): P3V3_AUX leaves its range while PWR_GOOD is high; the module runs on from the standby converter and raises AUX_LOSS. -/
  | auxLoss (mv : Nat)
  /-- SUPPLY_LOW (R55): INPUT has been between 38 V and 40 V for 100 µs, and the SUPPLY_LOW alert cause is raised. -/
  | supplyLow (mv : Nat) (us : Nat)
  /-- SUPPLY_HIGH (R55): INPUT has been above 60 V for 100 µs, and the SUPPLY_HIGH alert cause is raised. -/
  | supplyHigh (mv : Nat) (us : Nat)
  /-- SURGE (R46): INPUT rises above 63 V; the surge is ridden through, or it is an input fault if another ridden surge began within 100 ms. -/
  | surge (mv : Nat) (us : Nat)
  /-- INPUT_FAULT (R47): INPUT leaves its thresholds; the input switch opens, the hold-up switch closes, the module reefs to CLOSE and SUPPLY_LOSS is asserted. -/
  | inputFault (mv : Nat) (us : Nat)
  /-- INPUT_RECOVERY (R48): INPUT has stayed between 39 V and 60 V for 100 µs; the input switch closes, the bank recharges and the supply-loss reef is lifted. -/
  | inputRecovery (mv : Nat) (us : Nat)
  /-- BROWN_OUT (R49): An input fault has lasted 1 ms without recovery, or began with HOLDUP_OK at 0; a brown-out is declared. -/
  | brownOut
  /-- RAIL_OUT_OF_LIMITS (R56): A main rail leaves its limits, and PWR_GOOD falls within 10 µs. -/
  | railOutOfLimits (rail : Nat) (mv : Nat)
  /-- DROOP_SAMPLE (R457): A 20 ns rail sample is taken; a sample below the threshold starts the DROOP demand, and recovery for 10 µs ends it. -/
  | droopSample (rail : Nat) (mv : Nat)
  /-- DROOP_ALERT (R53): A droop reef has lasted more than 1 ms, and the DROOP alert cause is raised. -/
  | droopAlert
  /-- THROTTLE_N_FALL (R54): A low pulse of THROTTLE_N is recognised; the THROTTLE demand applies within 1 µs, and the hold restarts if one is running. -/
  | throttleNFall (lowNs : Nat)
  /-- THROTTLE_N_RISE (R54): THROTTLE_N returns high, and the release hold time starts. -/
  | throttleNRise
  /-- THROTTLE_HOLD_END (R452): HOLD_US has passed since THROTTLE_N rose, and the THROTTLE demand ends. -/
  | throttleHoldEnd
  /-- PLL_LOCK (R67): The root PLL locks after PWR_GOOD rises, and the derived clocks start. -/
  | pllLock
  /-- PLL_LOCK_LOSS (R70): Loss of PLL lock is detected; every derived clock stops, FATAL_AUTO is recorded and relock is attempted. -/
  | pllLockLoss
  /-- PLL_RELOCK (R70): The PLL relocks after a loss of lock, and a warm reset follows. -/
  | pllRelock
  /-- PLL_RELOCK_TIMEOUT (R70): The PLL has not relocked within 10 ms; the module stays stopped with DEVICE_FAULT asserted and health FATAL. -/
  | pllRelockTimeout
  /-- CCLK_DIVIDER_CHANGE (R68): A requested CCLK divider takes effect at the next 12-root-cycle boundary, and only the latest request applies. -/
  | cclkDividerChange
  /-- PERST_N_LOW (R73): PERST_N falls and a warm reset starts its quiesce sequence. -/
  | perstNLow
  /-- PERST_N_RISE (R78): PERST_N rises; the request-retry period and the HIF and QMG milestones run from this moment. -/
  | perstNRise
  /-- HOT_RESET (R71): A PCIe hot reset is received and a warm reset starts. -/
  | hotReset
  /-- LINK_DOWN (R71): The host link goes down and a warm reset starts. -/
  | linkDown
  /-- MGT_WARM_RESET (R73): A write of key 0xA5C3 to MGT_WARM_RESET starts a warm reset within 1 µs; any other value is ignored. -/
  | mgtWarmReset (key : Nat)
  /-- RESET_RELEASE (R73): Once the drives are shut down and the reset record is written, the main domain is released from reset and bring-up restarts. -/
  | resetRelease
  /-- SUBSYSTEM_READY (R79): A subsystem meets its ready condition and sets STATUS.READY. -/
  | subsystemReady (sub : Nat) (failed : Nat)
  /-- MAST_READY (R80): A mast ends its self-test and is made ready, with a spare mapped in if one tile failed, or is marked failed. -/
  | mastReady (mast : Nat) (failMask : Nat)
  /-- MAST_TIMEOUT (R80): A mast is not ready by 600 ms and is marked failed. -/
  | mastTimeout (mast : Nat)
  /-- STACK_TRAINED (R81): A stack finishes training and zero initialisation, its ready bit is set, and the next stack starts training. -/
  | stackTrained (stack : Nat)
  /-- STACK_TIMEOUT (R81): A stack is not ready within its time; it is marked failed and training of the next stack begins. -/
  | stackTimeout (stack : Nat)
  /-- DRIVE_PERST_RELEASE (R391): At 500 ms + 50 ms × p, DSP releases DRV_PERST_N of a present drive and starts to enable and identify it. -/
  | drivePerstRelease (port : Nat)
  /-- DRIVE_ENUMERATED (R391): A drive port completes initialisation and becomes READY, or UNSUPPORTED. -/
  | driveEnumerated (port : Nat) (info : DriveInfo)
  /-- DRIVE_LATE (R82): A present drive is not ready by 3 s, and its port is marked late. -/
  | driveLate (port : Nat)
  /-- DRIVE_READY_TIMEOUT (R82): A late drive passes its own ready timeout, and the port is marked failed. -/
  | driveReadyTimeout (port : Nat)
  /-- VOLUME_ASSEMBLY (R370): When every present port is ready or failed, or at 3 s, CVC assembles the volume from the labels and sets READY. -/
  | volumeAssembly
  /-- CONFIG_REQUEST (R85): A configuration request reaches a function; it completes with Request Retry Status until HIF is ready. -/
  | configRequest (fn : Nat) (item : CfgItem) (wr : Option Nat)
  /-- LINK_TRAINED (R109): The host link trains at a supported rate and width, or stays down and raises DEVICE_FAULT. -/
  | linkTrained (speed : Nat) (width : Nat) (flit : Bool) (cxl : Bool) (reversed : Bool)
  /-- LANE_FAILURE (R111): A lane fails in service; the link retrains narrower, DEGRADED and LINK_CHANGE are set, and Darning records the event. -/
  | laneFailure
  /-- D3HOT_ENTRY (R112): PF0 enters D3hot and QMG stops fetching descriptors of every function. -/
  | d3hotEntry
  /-- D0_RETURN (R112): PF0 returns to D0 and fetching resumes. -/
  | d0Return
  /-- VF_ENABLE (R116): VF Enable is set and VF1 to VFNumVFs become present. -/
  | vfEnable (numVfs : Nat)
  /-- VF_DISABLE (R116): VF Enable is cleared; every enabled VF is reset by FLR before it disappears, and its grants are kept. -/
  | vfDisable
  /-- FLR (R125): A function-level reset stops the function, kills its tasks, aborts its entries, stops its channels, releases or orphans its locks, clears its contexts and resets its function state. -/
  | flr (fn : Nat)
  /-- MSIX_UNMASK (R118): A vector or function mask is cleared with the pending bit set, and one message is sent. -/
  | msixUnmask (fn : Nat) (vec : Nat)
  /-- MODERATION_TIMER (R119): DELAY_US has passed since the oldest unsignalled completion of a CQ, and one message is sent. -/
  | moderationTimer (fn : Nat) (qid : Nat)
  /-- QOS_WINDOW_END (R120): A 10 µs accounting window ends; the budgets, caps and debt are re-evaluated and any QOS_CAPPED is counted. -/
  | qosWindowEnd
  /-- ATS_INVALIDATE (R132): An ATS invalidation request is received and completes after every request that used the entry. -/
  | atsInvalidate (fn : Nat) (addr : Nat) (len : Nat)
  /-- DOE_REQUEST (R132): A DOE object, for Discovery or CMA/SPDM, reaches PF0's mailbox and is answered. -/
  | doeRequest (kind : Nat) (req : List Byte)
  /-- CXL_SNOOP (R133): A CXL.cache snoop is received and answered with a miss. -/
  | cxlSnoop (addr : Nat)
  /-- CXL_MEM_READ (R134): A CXL.mem read is served from a carve-out, or returns poison outside every carve-out and raises CXL_MEM_REFUSED. -/
  | cxlMemRead (hpa : Nat) (len : Nat)
  /-- CXL_MEM_WRITE (R134): A CXL.mem write is applied within a carve-out, or dropped and logged outside every carve-out. -/
  | cxlMemWrite (hpa : Nat) (data : List Byte)
  /-- CARVE_OUT_ENABLE (R136): A write that sets HIF_CO ENABLE is checked for overlap and stack readiness, then applied or refused. -/
  | carveOutEnable (co : Nat)
  /-- CARVE_OUT_DISABLE (R136): A write that clears HIF_CO ENABLE takes effect after the accepted CXL.mem accesses to the carve-out complete. -/
  | carveOutDisable (co : Nat)
  /-- REGISTER_WRITE (R7): A write to a register that has no row of its own is applied under its access code, or denied under the access rules. -/
  | registerWrite (acc : Access) (v : Nat)
  /-- SOFT_RESET (R76): A write of CONTROL.SOFT_RESET resets the subsystem's jobs and page registers as its row of the table lays down. -/
  | softReset (sub : Nat) (enable : Bool)
  /-- ENABLE (R93): A write of CONTROL.ENABLE stops or allows the start of new jobs in the subsystem. -/
  | enable (sub : Nat) (on : Bool)
  /-- IRQ_SET (R92): A write to IRQ_SET sets IRQ_STATUS bits as if the causes had occurred, and may send a message. -/
  | irqSet (sub : Nat) (v : Nat)
  /-- IRQ_STATUS_WRITE (R92): A W1C write to IRQ_STATUS clears bits, and sends a message if the masked value stays non-zero. -/
  | irqStatusWrite (sub : Nat) (v : Nat)
  /-- IRQ_ENABLE_WRITE (R92): A write to IRQ_ENABLE changes the mask, and sends a message if the masked value is non-zero after it. -/
  | irqEnableWrite (sub : Nat) (v : Nat)
  /-- EXPERT_UNLOCK (R94): A write of the KEY unlocks the expert window with 0x5EA5, or locks it with any other value. -/
  | expertUnlock (sub : Nat) (key : Nat)
  /-- SQ_DOORBELL (R147): A write to SQ_TAIL causes at least one read of slot H of the SQ. -/
  | sqDoorbell (fn : Nat) (qid : Nat) (tail : Nat)
  /-- CQ_DOORBELL (R147): A write to CQ_INDEX causes QMG to re-read the OWN of the slot at T and to drain the pending completions. -/
  | cqDoorbell (fn : Nat) (qid : Nat) (index : Nat)
  /-- SQ_FETCH (R146): An SQ wins arbitration; QMG reads slots from H, takes the entries with OWN = 1 and clears their OWN. -/
  | sqFetch
  /-- ENTRY_HAND_ON (R142): A fetched entry that nothing holds back any longer is handed to its executing subsystem. -/
  | entryHandOn (fn : Nat) (qid : Nat)
  /-- CQ_RECHECK (R150): The re-read interval expires for a CQ with pending completions; QMG re-reads the OWN at T and writes pending completions. -/
  | cqRecheck (fn : Nat) (qid : Nat)
  /-- ADMIN_QUEUE_ENABLE (R152): A write of 1 to QMG_ADM_CONTROL.ENABLE checks the settings and sets ENABLED, or sets ERROR. -/
  | adminQueueEnable (fn : Nat)
  /-- ADMIN_QUEUE_DISABLE (R152): A write of 0 to ENABLE stops fetching and starts a disable that aborts the entries that have not started. -/
  | adminQueueDisable (fn : Nat)
  /-- ADMIN_DISABLE_END (R152): The last admin completion is written or counted, a final message is sent, and ENABLED falls. -/
  | adminDisableEnd (fn : Nat)
  /-- CREATE_QUEUE (R155): The admin command CREATE_QUEUE checks its fields and activates a queue pair. -/
  | createQueue (fn : Nat)
  /-- DESTROY_QUEUE (R162): The admin command DESTROY_QUEUE aborts the queue's entries, writes completions and frees the pair. -/
  | destroyQueue (fn : Nat)
  /-- RESET_QUEUE (R162): The admin command RESET_QUEUE aborts the queue's entries, writes completions and returns the queue to ACTIVE. -/
  | resetQueue (fn : Nat)
  /-- QMG_FN_QLIMIT (R139): A write of a function's dynamic queue limit is applied, or refused and logged if it is too large. -/
  | qmgFnQlimit (fn : Nat) (limit : Nat)
  /-- GRAPH_LOAD (R187): The admin command GRAPH_LOAD checks the image and loads the graph into a slot. -/
  | graphLoad (fn : Nat)
  /-- GRAPH_UNLOAD (R189): The admin command GRAPH_UNLOAD frees a loaded graph slot, or is refused. -/
  | graphUnload (fn : Nat)
  /-- RUN (R191): A RUN descriptor is handed to BSN, checked, and fails at once or waits for its flows and banks. -/
  | run (fn : Nat) (qid : Nat)
  /-- RUN_START (R191): The flows and banks of a waiting RUN become available; it allocates them, fetches its parameters, zeroes its areas and starts its sources. -/
  | runStart (run : Nat) (host : Nat)
  /-- BANK_HOLD (R303): A RUN has waited 1 ms for Sorting Table banks, and free banks are held for it from then on. -/
  | bankHold (run : Nat)
  /-- SOURCE_MORSEL (R183): A source reads the next entry of its list and makes the morsel with the next sequence number. -/
  | sourceMorsel (run : Nat) (node : Nat) (host : Nat)
  /-- TASK_MAKE (R203): A waiting token or source entry meets the conditions; Bosun grants a table entry and makes a task, or a FINAL task. -/
  | taskMake
  /-- TOKEN_FORWARD (R204): An EMPTY or SKIPPED token is forwarded through a node once its outgoing queues have room. -/
  | tokenForward (run : Nat) (edge : Nat)
  /-- PEG_FILL (R207): Bosun fills an empty peg with the preferred eligible task and takes its output buffers. -/
  | pegFill (kind : Nat) (unit : Nat)
  /-- STAGING_DONE (R210): Staging of a pegged task's context, constants and first instruction lines completes. -/
  | stagingDone (tile : Nat) (peg : Nat)
  /-- TASK_START (R211): A pegged CORE task starts after the running task ends, with a scrub first on a change of function. -/
  | taskStart (tile : Nat)
  /-- TASK_TIMEOUT (R218): A task reaches start + limit; it is killed with TASK_TIMEOUT and TIMEOUT is raised. -/
  | taskTimeout (task : Nat)
  /-- TOKEN_PLACE (R216): Room appears for the output tokens of an ENDING task; they are placed and the task's entry is freed. -/
  | tokenPlace (task : Nat)
  /-- SLOT_RELEASE (R228): The slot at HEAD of a flow is complete; its tokens are released and HEAD advances. -/
  | slotRelease (flow : Nat)
  /-- RUN_END (R195): Every SINK of the run is finished; the last segment is closed and the final completion is posted. -/
  | runEnd (run : Nat)
  /-- SEGMENT_RECHECK (R193): A SINK waiting for a segment re-reads the segment entry at the interval, or on a CQ_INDEX write. -/
  | segmentRecheck (run : Nat)
  /-- CANCEL_TASK (R223): The admin command CANCEL of TASK scope kills the tasks of one node and SEQ, and skips that SEQ's waiting token. -/
  | cancelTask (fn : Nat)
  /-- CANCEL_RUN (R224): The admin command CANCEL of RUN scope stops a run, ends its tasks and flows, and posts its final completion. -/
  | cancelRun (fn : Nat)
  /-- CANCEL_FUNCTION (R225): The admin command CANCEL of FUNCTION scope cancels every active run of the function. -/
  | cancelFunction (fn : Nat)
  /-- LOCKSTEP_DISAGREEMENT (R233): The two copies of a BSN stop disagree; the cycle's decisions are undone and the stop halts for 1 µs, or escalates under R234. -/
  | lockstepDisagreement (stop : Nat)
  /-- LOCKSTEP_HALT_END (R233): The 1 µs halt ends and the stop recomputes the undone decisions. -/
  | lockstepHaltEnd (stop : Nat)
  /-- INJECT_WEST (R233): A write of BSN_LOCKSTEP_TEST.INJECT_WEST forces a disagreement in the west stop. -/
  | injectWest
  /-- INJECT_EAST (R233): A write of BSN_LOCKSTEP_TEST.INJECT_EAST forces a disagreement in the east stop. -/
  | injectEast
  /-- BSN_FN_RESV (R200): A write of a task table reservation is applied, or refused with RESV_REFUSED. -/
  | bsnFnResv (fn : Nat) (v : Nat)
  /-- DEFERRED_FAULT (R258): A translation, poison or uncorrectable fault of an issued HBM access reaches the core and ends the task. -/
  | deferredFault (tile : Nat) (n : Nat)
  /-- UNCORRECTABLE_FETCH (R262): An instruction fetch returns a poisoned or uncorrectable line; the task ends with UNCORRECTABLE_DATA FETCH. -/
  | uncorrectableFetch (tile : Nat) (found : Bool)
  /-- MAINT_ENTER (R267): A write of OCA_TILE MAINT_ENTER runs a maintenance program on a SPARE tile, or is ignored and logged. -/
  | maintEnter (tile : Nat) (program : Nat)
  /-- CORE_RESET (R75): A write of OCA_TILE CORE_RESET stops, scrubs and invalidates a tile, killing its running task. -/
  | coreReset (tile : Nat)
  /-- MAINT_PROGRAM_END (R267): A maintenance program ends; the tile is scrubbed to SPARE or SERVICE, or to FAILED, and MAINT_DONE is raised. -/
  | maintProgramEnd (tile : Nat) (pass_ : Bool)
  /-- OCA_ECC_INJECT (R263): A write with GO arms an ECC error injection into a tile in MAINTENANCE, or is ignored and logged. -/
  | ocaEccInject (tile : Nat) (target : Nat) (double : Bool)
  /-- NOP (R244): The instruction does nothing. -/
  | nop (tile : Nat) (w : Dword)
  /-- END (R257): The instruction waits for the task's outstanding accesses and ends the task normally. -/
  | endTask (tile : Nat) (w : Dword)
  /-- TRAP (R257): The instruction ends the task with TASK_FAULT PROGRAM_TRAP and its 10-bit code. -/
  | trap (tile : Nat) (w : Dword)
  /-- FENCE (R254): The instruction performs every earlier access of the task before any later one. -/
  | fence (tile : Nat) (w : Dword)
  /-- RDCNT (R244): The instruction reads CYCLE, INSTRET or TIME into rd. -/
  | rdcnt (tile : Nat) (w : Dword)
  /-- ADD (R244): Integer add of rs1 and rs2. -/
  | add (tile : Nat) (w : Dword)
  /-- SUB (R244): Integer subtract. -/
  | sub (tile : Nat) (w : Dword)
  /-- AND (R244): Bitwise AND. -/
  | and (tile : Nat) (w : Dword)
  /-- OR (R244): Bitwise OR. -/
  | or (tile : Nat) (w : Dword)
  /-- XOR (R244): Bitwise XOR. -/
  | xor (tile : Nat) (w : Dword)
  /-- ANDN (R244): rs1 AND NOT rs2. -/
  | andn (tile : Nat) (w : Dword)
  /-- ORN (R244): rs1 OR NOT rs2. -/
  | orn (tile : Nat) (w : Dword)
  /-- XNOR (R244): Bitwise XNOR. -/
  | xnor (tile : Nat) (w : Dword)
  /-- SLL (R244): Shift left logical by rs2[5:0]. -/
  | sll (tile : Nat) (w : Dword)
  /-- SRL (R244): Shift right logical. -/
  | srl (tile : Nat) (w : Dword)
  /-- SRA (R244): Shift right arithmetic. -/
  | sra (tile : Nat) (w : Dword)
  /-- ROL (R244): Rotate left. -/
  | rol (tile : Nat) (w : Dword)
  /-- ROR (R244): Rotate right. -/
  | ror (tile : Nat) (w : Dword)
  /-- MIN (R244): Signed minimum. -/
  | min (tile : Nat) (w : Dword)
  /-- MAX (R244): Signed maximum. -/
  | max (tile : Nat) (w : Dword)
  /-- MINU (R244): Unsigned minimum. -/
  | minu (tile : Nat) (w : Dword)
  /-- MAXU (R244): Unsigned maximum. -/
  | maxu (tile : Nat) (w : Dword)
  /-- CLZ (R244): Count leading zeros. -/
  | clz (tile : Nat) (w : Dword)
  /-- CTZ (R244): Count trailing zeros. -/
  | ctz (tile : Nat) (w : Dword)
  /-- POPC (R244): Population count. -/
  | popc (tile : Nat) (w : Dword)
  /-- BSWAP (R244): Byte swap. -/
  | bswap (tile : Nat) (w : Dword)
  /-- SEXTB (R244): Sign-extend a byte. -/
  | sextb (tile : Nat) (w : Dword)
  /-- SEXTH (R244): Sign-extend a halfword. -/
  | sexth (tile : Nat) (w : Dword)
  /-- SEXTW (R244): Sign-extend a word. -/
  | sextw (tile : Nat) (w : Dword)
  /-- ZEXTB (R244): Zero-extend a byte. -/
  | zextb (tile : Nat) (w : Dword)
  /-- ZEXTH (R244): Zero-extend a halfword. -/
  | zexth (tile : Nat) (w : Dword)
  /-- ZEXTW (R244): Zero-extend a word. -/
  | zextw (tile : Nat) (w : Dword)
  /-- ADDW (R244): 32-bit add with the result sign-extended. -/
  | addw (tile : Nat) (w : Dword)
  /-- SUBW (R244): 32-bit subtract with the result sign-extended. -/
  | subw (tile : Nat) (w : Dword)
  /-- SLLW (R244): 32-bit shift left with the result sign-extended. -/
  | sllw (tile : Nat) (w : Dword)
  /-- SRLW (R244): 32-bit shift right logical with the result sign-extended. -/
  | srlw (tile : Nat) (w : Dword)
  /-- CRC32CB (R245): Folds 1 byte of rs2 into the CRC-32C register in rs1. -/
  | crc32cb (tile : Nat) (w : Dword)
  /-- CRC32CH (R245): Folds 2 bytes into the CRC-32C register. -/
  | crc32ch (tile : Nat) (w : Dword)
  /-- CRC32CW (R245): Folds 4 bytes into the CRC-32C register. -/
  | crc32cw (tile : Nat) (w : Dword)
  /-- CRC32CD (R245): Folds 8 bytes into the CRC-32C register. -/
  | crc32cd (tile : Nat) (w : Dword)
  /-- MUL (R244): Low 64 bits of the product. -/
  | mul (tile : Nat) (w : Dword)
  /-- MULH (R244): High product, signed. -/
  | mulh (tile : Nat) (w : Dword)
  /-- MULHU (R244): High product, unsigned. -/
  | mulhu (tile : Nat) (w : Dword)
  /-- MULHSU (R244): High product, signed by unsigned. -/
  | mulhsu (tile : Nat) (w : Dword)
  /-- MULW (R244): 32-bit multiply. -/
  | mulw (tile : Nat) (w : Dword)
  /-- DIV (R245): Signed divide, with defined results for zero and overflow. -/
  | div (tile : Nat) (w : Dword)
  /-- DIVU (R245): Unsigned divide. -/
  | divu (tile : Nat) (w : Dword)
  /-- REM (R245): Signed remainder. -/
  | rem (tile : Nat) (w : Dword)
  /-- REMU (R245): Unsigned remainder. -/
  | remu (tile : Nat) (w : Dword)
  /-- DIVW (R245): 32-bit signed divide. -/
  | divw (tile : Nat) (w : Dword)
  /-- DIVUW (R245): 32-bit unsigned divide. -/
  | divuw (tile : Nat) (w : Dword)
  /-- REMW (R245): 32-bit signed remainder. -/
  | remw (tile : Nat) (w : Dword)
  /-- REMUW (R245): 32-bit unsigned remainder. -/
  | remuw (tile : Nat) (w : Dword)
  /-- CMP (R243): Compares two registers under cond and writes predicate pd. -/
  | cmp (tile : Nat) (w : Dword)
  /-- CMPI (R243): Compares a register with an immediate under cond and writes predicate pd. -/
  | cmpi (tile : Nat) (w : Dword)
  /-- PAND (R244): Predicate AND. -/
  | pand (tile : Nat) (w : Dword)
  /-- POR (R244): Predicate OR. -/
  | por (tile : Nat) (w : Dword)
  /-- PXOR (R244): Predicate XOR. -/
  | pxor (tile : Nat) (w : Dword)
  /-- PANDN (R244): Predicate ps1 AND NOT ps2. -/
  | pandn (tile : Nat) (w : Dword)
  /-- PTOX (R244): Copies p7 to p0 into an x register. -/
  | ptox (tile : Nat) (w : Dword)
  /-- XTOP (R244): Loads p1 to p7 from an x register. -/
  | xtop (tile : Nat) (w : Dword)
  /-- ADDI (R243): Add of a sign-extended immediate. -/
  | addi (tile : Nat) (w : Dword)
  /-- ANDI (R243): AND with a zero-extended immediate. -/
  | andi (tile : Nat) (w : Dword)
  /-- ORI (R243): OR with a zero-extended immediate. -/
  | ori (tile : Nat) (w : Dword)
  /-- XORI (R243): XOR with a zero-extended immediate. -/
  | xori (tile : Nat) (w : Dword)
  /-- SLLI (R243): Shift left by an immediate. -/
  | slli (tile : Nat) (w : Dword)
  /-- SRLI (R243): Shift right logical by an immediate. -/
  | srli (tile : Nat) (w : Dword)
  /-- SRAI (R243): Shift right arithmetic by an immediate. -/
  | srai (tile : Nat) (w : Dword)
  /-- ROLI (R243): Rotate left by an immediate. -/
  | roli (tile : Nat) (w : Dword)
  /-- RORI (R243): Rotate right by an immediate. -/
  | rori (tile : Nat) (w : Dword)
  /-- LUI (R243): rd = sext(imm17) << 12. -/
  | lui (tile : Nat) (w : Dword)
  /-- ADDPC (R243): rd = pc + sext(imm17) × 4. -/
  | addpc (tile : Nat) (w : Dword)
  /-- BR (R247): Branch, taken when its predicate holds, to pc + off22 × 4. -/
  | br (tile : Nat) (w : Dword)
  /-- CALL (R247): Sets x31 to pc + 4 and branches. -/
  | call (tile : Nat) (w : Dword)
  /-- JR (R247): Indirect jump to rs1 + imm12, writing the link to rd. -/
  | jr (tile : Nat) (w : Dword)
  /-- LB (R250): Load a signed byte. -/
  | lb (tile : Nat) (w : Dword)
  /-- LH (R250): Load a signed halfword. -/
  | lh (tile : Nat) (w : Dword)
  /-- LW (R250): Load a signed word. -/
  | lw (tile : Nat) (w : Dword)
  /-- LD (R250): Load a doubleword. -/
  | ld (tile : Nat) (w : Dword)
  /-- LBU (R250): Load an unsigned byte. -/
  | lbu (tile : Nat) (w : Dword)
  /-- LHU (R250): Load an unsigned halfword. -/
  | lhu (tile : Nat) (w : Dword)
  /-- LWU (R250): Load an unsigned word. -/
  | lwu (tile : Nat) (w : Dword)
  /-- PREFETCH (R256): Brings an HBM line into the mast cache without faulting. -/
  | prefetch (tile : Nat) (w : Dword)
  /-- SB (R250): Store a byte. -/
  | sb (tile : Nat) (w : Dword)
  /-- SH (R250): Store a halfword. -/
  | sh (tile : Nat) (w : Dword)
  /-- SW (R250): Store a word. -/
  | sw (tile : Nat) (w : Dword)
  /-- SD (R250): Store a doubleword. -/
  | sd (tile : Nat) (w : Dword)
  /-- ATOMIC_ADD (R245): Atomic add to memory, returning the old value. -/
  | atomicAdd (tile : Nat) (w : Dword)
  /-- ATOMIC_AND (R245): Atomic AND. -/
  | atomicAnd (tile : Nat) (w : Dword)
  /-- ATOMIC_OR (R245): Atomic OR. -/
  | atomicOr (tile : Nat) (w : Dword)
  /-- ATOMIC_XOR (R245): Atomic XOR. -/
  | atomicXor (tile : Nat) (w : Dword)
  /-- ATOMIC_MIN (R245): Atomic signed minimum. -/
  | atomicMin (tile : Nat) (w : Dword)
  /-- ATOMIC_MAX (R245): Atomic signed maximum. -/
  | atomicMax (tile : Nat) (w : Dword)
  /-- ATOMIC_MINU (R245): Atomic unsigned minimum. -/
  | atomicMinu (tile : Nat) (w : Dword)
  /-- ATOMIC_MAXU (R245): Atomic unsigned maximum. -/
  | atomicMaxu (tile : Nat) (w : Dword)
  /-- ATOMIC_SWAP (R245): Atomic swap. -/
  | atomicSwap (tile : Nat) (w : Dword)
  /-- ATOMIC_CAS (R245): Atomic compare-and-swap against rd. -/
  | atomicCas (tile : Nat) (w : Dword)
  /-- MAINTENANCE_OP (R266): A MAJOR 0x1D maintenance operation runs in MAINTENANCE, or raises MAINTENANCE_ONLY in SERVICE. -/
  | maintenanceOp (tile : Nat) (w : Dword)
  /-- VECTOR_START (R281): A queued vector instruction starts in its unit once the unit is free and its sources are ready. -/
  | vectorStart (tile : Nat)
  /-- VSETVL (R279): Sets vl to the minimum of x[rs1] and MAXEL. -/
  | vsetvl (tile : Nat) (w : Dword)
  /-- VRDVL (R279): Reads vl. -/
  | vrdvl (tile : Nat) (w : Dword)
  /-- VRDRS (R279): Reads vrs after the earlier vector memory instructions complete. -/
  | vrdrs (tile : Nat) (w : Dword)
  /-- VWRRS (R279): Writes vrs. -/
  | vwrrs (tile : Nat) (w : Dword)
  /-- MAND (R279): Mask AND. -/
  | mand (tile : Nat) (w : Dword)
  /-- MOR (R279): Mask OR. -/
  | mor (tile : Nat) (w : Dword)
  /-- MXOR (R279): Mask XOR. -/
  | mxor (tile : Nat) (w : Dword)
  /-- MANDN (R279): Mask ms1 AND NOT ms2. -/
  | mandn (tile : Nat) (w : Dword)
  /-- MPOPC (R279): Counts the active set mask elements. -/
  | mpopc (tile : Nat) (w : Dword)
  /-- MFIRST (R279): Finds the lowest set active mask element. -/
  | mfirst (tile : Nat) (w : Dword)
  /-- MSETLT (R279): Sets the mask elements below x[rs1]. -/
  | msetlt (tile : Nat) (w : Dword)
  /-- MMOV (R279): Copies a mask over the active elements. -/
  | mmov (tile : Nat) (w : Dword)
  /-- VMV (R276): Vector move. -/
  | vmv (tile : Nat) (w : Dword)
  /-- VBCAST (R276): Broadcasts a scalar. -/
  | vbcast (tile : Nat) (w : Dword)
  /-- VEXTRACT (R276): Extracts one element to rd. -/
  | vextract (tile : Nat) (w : Dword)
  /-- VINSERT (R276): Inserts a scalar into one element. -/
  | vinsert (tile : Nat) (w : Dword)
  /-- VADD (R276): Vector add, with a vector or scalar operand. -/
  | vadd (tile : Nat) (w : Dword)
  /-- VSUB (R276): Vector subtract. -/
  | vsub (tile : Nat) (w : Dword)
  /-- VMIN (R276): Vector signed minimum. -/
  | vmin (tile : Nat) (w : Dword)
  /-- VMAX (R276): Vector signed maximum. -/
  | vmax (tile : Nat) (w : Dword)
  /-- VMINU (R276): Vector unsigned minimum. -/
  | vminu (tile : Nat) (w : Dword)
  /-- VMAXU (R276): Vector unsigned maximum. -/
  | vmaxu (tile : Nat) (w : Dword)
  /-- VSADDU (R276): Unsigned saturating add. -/
  | vsaddu (tile : Nat) (w : Dword)
  /-- VSSUBU (R276): Unsigned saturating subtract. -/
  | vssubu (tile : Nat) (w : Dword)
  /-- VAND (R276): Vector AND. -/
  | vand (tile : Nat) (w : Dword)
  /-- VOR (R276): Vector OR. -/
  | vor (tile : Nat) (w : Dword)
  /-- VXOR (R276): Vector XOR. -/
  | vxor (tile : Nat) (w : Dword)
  /-- VANDN (R276): Vector AND NOT. -/
  | vandn (tile : Nat) (w : Dword)
  /-- VSLL (R276): Vector shift left. -/
  | vsll (tile : Nat) (w : Dword)
  /-- VSRL (R276): Vector shift right logical. -/
  | vsrl (tile : Nat) (w : Dword)
  /-- VSRA (R276): Vector shift right arithmetic. -/
  | vsra (tile : Nat) (w : Dword)
  /-- VROR (R276): Vector rotate right. -/
  | vror (tile : Nat) (w : Dword)
  /-- VMUL (R276): Vector multiply, low part. -/
  | vmul (tile : Nat) (w : Dword)
  /-- VMULH (R276): Vector multiply, signed high part. -/
  | vmulh (tile : Nat) (w : Dword)
  /-- VMULHU (R276): Vector multiply, unsigned high part. -/
  | vmulhu (tile : Nat) (w : Dword)
  /-- VMADD (R276): Vector multiply-add. -/
  | vmadd (tile : Nat) (w : Dword)
  /-- VCMP (R274): Vector-vector compare into a mask register. -/
  | vcmp (tile : Nat) (w : Dword)
  /-- VCMPX (R274): Vector-scalar compare into a mask register. -/
  | vcmpx (tile : Nat) (w : Dword)
  /-- VZEXT (R276): Zero-extending widen. -/
  | vzext (tile : Nat) (w : Dword)
  /-- VSEXT (R276): Sign-extending widen. -/
  | vsext (tile : Nat) (w : Dword)
  /-- VTRUNC (R276): Truncating narrow. -/
  | vtrunc (tile : Nat) (w : Dword)
  /-- VSATNU (R276): Unsigned saturating narrow. -/
  | vsatnu (tile : Nat) (w : Dword)
  /-- VMERGE (R276): Selects between vs1 and vs2 by the mask. -/
  | vmerge (tile : Nat) (w : Dword)
  /-- VCOMPRESS (R276): Packs the active elements to the front. -/
  | vcompress (tile : Nat) (w : Dword)
  /-- VSLIDEDN (R276): Slides the elements down. -/
  | vslidedn (tile : Nat) (w : Dword)
  /-- VSLIDEUP (R276): Slides the elements up. -/
  | vslideup (tile : Nat) (w : Dword)
  /-- VREDSUM (R278): Sum reduction to rd. -/
  | vredsum (tile : Nat) (w : Dword)
  /-- VREDMIN (R278): Signed minimum reduction. -/
  | vredmin (tile : Nat) (w : Dword)
  /-- VREDMAX (R278): Signed maximum reduction. -/
  | vredmax (tile : Nat) (w : Dword)
  /-- VREDMINU (R278): Unsigned minimum reduction. -/
  | vredminu (tile : Nat) (w : Dword)
  /-- VREDMAXU (R278): Unsigned maximum reduction. -/
  | vredmaxu (tile : Nat) (w : Dword)
  /-- VREDAND (R278): AND reduction. -/
  | vredand (tile : Nat) (w : Dword)
  /-- VREDOR (R278): OR reduction. -/
  | vredor (tile : Nat) (w : Dword)
  /-- VREDXOR (R278): XOR reduction. -/
  | vredxor (tile : Nat) (w : Dword)
  /-- VFADD (R277): Floating-point add. -/
  | vfadd (tile : Nat) (w : Dword)
  /-- VFSUB (R277): Floating-point subtract. -/
  | vfsub (tile : Nat) (w : Dword)
  /-- VFMUL (R277): Floating-point multiply. -/
  | vfmul (tile : Nat) (w : Dword)
  /-- VFMADD (R277): Fused floating-point multiply-add. -/
  | vfmadd (tile : Nat) (w : Dword)
  /-- VFMIN (R277): Floating-point minimum. -/
  | vfmin (tile : Nat) (w : Dword)
  /-- VFMAX (R277): Floating-point maximum. -/
  | vfmax (tile : Nat) (w : Dword)
  /-- VFREDSUM (R278): Floating-point sum reduction by a pairwise tree. -/
  | vfredsum (tile : Nat) (w : Dword)
  /-- VFREDMAX (R278): Floating-point maximum reduction. -/
  | vfredmax (tile : Nat) (w : Dword)
  /-- VFCVT_F_I (R277): Converts integer to floating point. -/
  | vfcvtFI (tile : Nat) (w : Dword)
  /-- VFCVT_I_F (R277): Converts floating point to integer, saturating. -/
  | vfcvtIF (tile : Nat) (w : Dword)
  /-- VFWIDEN (R277): Converts binary32 to binary64. -/
  | vfwiden (tile : Nat) (w : Dword)
  /-- VFNARROW (R277): Converts binary64 to binary32. -/
  | vfnarrow (tile : Nat) (w : Dword)
  /-- VFCMP (R277): Floating-point compare into a mask register. -/
  | vfcmp (tile : Nat) (w : Dword)
  /-- VCRC32C (R276): Folds vector elements into per-element CRC-32C registers. -/
  | vcrc32c (tile : Nat) (w : Dword)
  /-- VPOPC (R276): Per-element population count. -/
  | vpopc (tile : Nat) (w : Dword)
  /-- VCLZ (R276): Per-element leading zeros. -/
  | vclz (tile : Nat) (w : Dword)
  /-- VCTZ (R276): Per-element trailing zeros. -/
  | vctz (tile : Nat) (w : Dword)
  /-- VID (R276): Writes each element's index. -/
  | vid (tile : Nat) (w : Dword)
  /-- VIOTA (R276): Writes the prefix count of the active mask elements. -/
  | viota (tile : Nat) (w : Dword)
  /-- VLD (R284): Unit-stride vector load. -/
  | vld (tile : Nat) (w : Dword)
  /-- VLDS (R284): Strided vector load. -/
  | vlds (tile : Nat) (w : Dword)
  /-- VLDX (R284): Indexed gather load. -/
  | vldx (tile : Nat) (w : Dword)
  /-- VLDXFF (R288): First-fault gather load. -/
  | vldxff (tile : Nat) (w : Dword)
  /-- VST (R284): Unit-stride vector store. -/
  | vst (tile : Nat) (w : Dword)
  /-- VSTS (R284): Strided vector store. -/
  | vsts (tile : Nat) (w : Dword)
  /-- VSTX (R289): Indexed scatter store in element order. -/
  | vstx (tile : Nat) (w : Dword)
  /-- VLDFF (R288): First-fault unit-stride load. -/
  | vldff (tile : Nat) (w : Dword)
  /-- VLDSFF (R288): First-fault strided load. -/
  | vldsff (tile : Nat) (w : Dword)
  /-- VLDMASK (R292): Loads a one-bit-per-row mask from memory. -/
  | vldmask (tile : Nat) (w : Dword)
  /-- VSTMASK (R292): Stores a mask to memory one bit per row. -/
  | vstmask (tile : Nat) (w : Dword)
  /-- VLSEG2 (R293): Two-field structure load, legal only in MAINTENANCE. -/
  | vlseg2 (tile : Nat) (w : Dword)
  /-- VLSEG3 (R293): Three-field structure load, legal only in MAINTENANCE. -/
  | vlseg3 (tile : Nat) (w : Dword)
  /-- VLSEG4 (R293): Four-field structure load, legal only in MAINTENANCE. -/
  | vlseg4 (tile : Nat) (w : Dword)
  /-- EXCHANGE_TASK (R173): An EXCHANGE task partitions its rows by key CRC and emits one token per non-empty partition. -/
  | exchangeTask (task : Nat)
  /-- SINK_TASK (R194): A SINK task writes a result block for its token into the segment stream. -/
  | sinkTask (task : Nat)
  /-- HOLD_READ_TASK (R175): A HOLD_READ task takes range locks and has CVC read one extent record into a morsel buffer. -/
  | holdReadTask (task : Nat)
  /-- MATCH_BUILD_TASK (R307): A MATCH_BUILD job inserts an entry for each keyed row into its table. -/
  | matchBuildTask (task : Nat)
  /-- MATCH_PROBE_TASK (R310): A MATCH_PROBE job searches the table for each keyed row and writes its output under MODE. -/
  | matchProbeTask (task : Nat)
  /-- DECOMP_TASK (R325): A DECOMP job decompresses the tagged column streams of a token into its output buffer. -/
  | decompTask (task : Nat)
  /-- COMP_TASK (R326): A COMP job compresses every column of a token into tagged streams. -/
  | compTask (task : Nat)
  /-- MOVE_TASK_IN (R350): A MOVE task with DIR 0x00 copies one host morsel into HBM and rewrites its pointers. -/
  | moveTaskIn (task : Nat) (host : Nat)
  /-- MOVE_TASK_OUT (R351): A MOVE task with DIR 0x01 writes its morsel as a block to the host. -/
  | moveTaskOut (task : Nat) (host : Nat := 0)
  /-- ENGINE_JOB_END (R328): An engine job finishes; its result or outputs are written and its completion or tokens follow. -/
  | engineJobEnd (kind : Nat) (unit : Nat)
  /-- BANK_CLEAR_DONE (R304): A released Sorting Table bank finishes clearing its copy and returns to the pool, or is retired and replaced. -/
  | bankClearDone (bank : Nat)
  /-- AMU_SCRUB_ENTRY (R315): The AMU scrub compares one entry's match cells with its copy and rewrites it if they differ. -/
  | amuScrubEntry (bank : Nat) (found : Nat := 0)
  /-- AMU_INJECT (R316): A write with GO injects a bit flip into a bank entry or its copy, or is ignored and logged. -/
  | amuInject (bank : Nat) (entry : Nat) (copyBits : Bool)
  /-- ENGINE_CLEAR_DONE (R320): A Mangle engine finishes clearing its history and context for a new function. -/
  | engineClearDone (engine : Nat)
  /-- DECOMPRESS (R327): A Mangle job descriptor with OP DECOMPRESS is checked and runs a decompression job. -/
  | decompress (engine : Nat)
  /-- COMPRESS (R327): A Mangle job descriptor with OP COMPRESS is checked and runs a compression job. -/
  | compress (engine : Nat)
  /-- MGL_INJECT (R330): A write with GO makes the next verification of an engine compare unequal. -/
  | mglInject (engine : Nat)
  /-- ENGINE_SWAP (R464): A marked Mangle engine pauses its job, saves its state, and the spare restores it and takes the logical engine. -/
  | engineSwap
  /-- COPY (R347): A MOVE entry of KIND COPY is checked and runs a transfer on a channel. -/
  | copy (fn : Nat) (qid : Nat)
  /-- MANGLE_JOB (R349): A MOVE entry of KIND MANGLE_JOB reads a job descriptor and hands the job to a Mangle engine. -/
  | mangleJob (fn : Nat) (qid : Nat)
  /-- HAL_CH_CFG (R342): A write assigns a channel, or sets its mode and completion settings, or is refused while the channel is busy. -/
  | halChCfg (channel : Nat) (v : Nat)
  /-- START (R355): A write of HAL_CH_CTRL.START checks a register-mode transfer and starts it, or arms it for a requester. -/
  | start (channel : Nat)
  /-- CLEAR (R362): A write of HAL_CH_CTRL.CLEAR returns a HALTED register-mode channel to IDLE. -/
  | clear (channel : Nat)
  /-- STOP (R361): A write of HAL_CH_CTRL.STOP stops a register-mode channel at a burst boundary. -/
  | stop (channel : Nat)
  /-- BURST_START (R352): A channel starts its next burst when depth, pacing and any requester allow. -/
  | burstStart (channel : Nat) (level : Bool)
  /-- BURST_END (R352): A burst's last write is performed; at the end of the count the job completes, or DONE or a pulse is produced. -/
  | burstEnd (channel : Nat)
  /-- CHANNEL_HALT (R362): A burst read meets an uncorrectable or poisoned line or a failed translation, and the channel halts. -/
  | channelHalt (channel : Nat) (host : Nat)
  /-- STOP_TIMEOUT (R361): 10 µs after a stop, the outstanding host read data is discarded and the channel finishes stopping. -/
  | stopTimeout (channel : Nat)
  /-- EVENT_PULSE (R356): A pulse on a Bosun event input adds 1 to REQ_PENDING of each selecting channel, or sets REQ_LOST. -/
  | eventPulse (line : Nat)
  /-- READ (R373): The volume command READ is checked, accepted and transferred from the drives. -/
  | read (fn : Nat) (qid : Nat) (host : Nat)
  /-- WRITE (R373): The volume command WRITE is checked, accepted and written to the drives with parity. -/
  | write (fn : Nat) (qid : Nat) (host : Nat)
  /-- FLUSH (R378): The volume command FLUSH sends NVMe Flush to the members that have a volatile write cache. -/
  | flush (fn : Nat) (qid : Nat)
  /-- DEALLOCATE (R377): The volume command DEALLOCATE deallocates the whole chunks or stripes of its range. -/
  | deallocate (fn : Nat) (qid : Nat)
  /-- ADMISSION (R381): The FIFO head, or a command within its function's reservation, is admitted once its lock entries and staging are available. -/
  | admission
  /-- DRIVE_COMPLETION (R386): A drive completes an NVMe command; CVC advances the command, repairs from parity where needed, or completes it. -/
  | driveCompletion (tag : Nat) (status : Nat) (dword0 : Nat) (data : List Byte)
  /-- DRIVE_TIMEOUT (R386): A drive command exceeds the timeout; the controller is reset and the outstanding commands are reissued, or the member goes missing. -/
  | driveTimeout (tag : Nat) (reinit : Bool)
  /-- REBUILD_STRIPE (R388): The rebuild reconstructs the next stripe onto the spare and relabels the volume at the end. -/
  | rebuildStripe
  /-- RESYNC_STRIPE (R389): The resync recomputes the parity of the next stripe that needs it. -/
  | resyncStripe
  /-- CREATE (R371): CVC_VOL_CTRL operation CREATE deallocates the members and writes labels, or is refused. -/
  | create
  /-- DESTROY (R371): CVC_VOL_CTRL operation DESTROY zeroes the labels, or is refused. -/
  | destroy
  /-- ADD_SPARE (R371): CVC_VOL_CTRL operation ADD_SPARE writes a spare label on a port, or is refused. -/
  | addSpare (port : Nat)
  /-- REMOVE_SPARE (R371): CVC_VOL_CTRL operation REMOVE_SPARE zeroes the spare's label, or is refused. -/
  | removeSpare
  /-- CVC_FN_RESV (R382): A write of a function's range-lock reservation is applied, or refused with RESV_REFUSED. -/
  | cvcFnResv (fn : Nat) (v : Nat)
  /-- CMD_RESV (R384): A write of a function's command-slot reservation is applied, or refused with RESV_REFUSED. -/
  | cmdResv (fn : Nat) (v : Nat)
  /-- DRIVE_REMOVAL (R390): A drive's presence pin rises; the port is shut down and its member goes missing. -/
  | driveRemoval (port : Nat)
  /-- DRIVE_INSERTION (R390): A presence pin has stayed low for 100 ms, and the new drive is trained as foreign or unassigned. -/
  | driveInsertion (port : Nat)
  /-- RETRAIN (R386): A write of DSP_PORT RETRAIN retrains a drive link, and its outstanding commands follow the timeout rules. -/
  | retrain (port : Nat)
  /-- DISABLE (R390): A write of 1 to DSP_PORT DISABLE holds the port in reset, and its member or spare is lost. -/
  | disable (port : Nat)
  /-- DISABLE_CLEAR (R390): A write of 0 to DISABLE after 1 handles a present drive as newly inserted. -/
  | disableClear (port : Nat)
  /-- DRIVE_ADMIN (R394): The admin command DRIVE_ADMIN passes one accepted NVMe admin command to a drive port. -/
  | driveAdmin
  /-- FW_ACTIVATE (R396): The admin command FW_ACTIVATE quiesces volume work and activates committed drive firmware, or answers QUEUES_BUSY. -/
  | fwActivate (ok : Nat)
  /-- PS_ENTRY (R398): A power-state condition has held for its idle timer, and the module enters the next state. -/
  | psEntry (state : Nat)
  /-- PS_WAKE (R399): Work breaks the condition of the state held, and the module starts its exit to PS0. -/
  | psWake
  /-- PS_EXIT (R399): The exit latency ends, the module is in PS0, and the waiting work proceeds. -/
  | psExit
  /-- CLAIM (R404): A CLAIM in DGE_SLOT_CTRL takes a context for ALG, or is refused with NO_CONTEXT. -/
  | claim (fn : Nat) (slot : Nat) (alg : Nat)
  /-- RELEASE (R411): A RELEASE frees the slot, discards queued blocks and zeroes the context. -/
  | release (fn : Nat) (slot : Nat)
  /-- KEYED (R407): KEYED marks an open idle context as holding key-derived state. -/
  | keyed (fn : Nat) (slot : Nat)
  /-- LAST (R405): LAST marks the current or next block as the message's last. -/
  | last (fn : Nat) (slot : Nat)
  /-- EXPORT (R408): EXPORT writes the context's state record, wrapped if the context is KEYED, into RECORD. -/
  | exportContext (fn : Nat) (slot : Nat)
  /-- IMPORT (R408): IMPORT checks a state record and loads it into the context, or sets ERROR. -/
  | importContext (fn : Nat) (slot : Nat)
  /-- RESTART (R402): RESTART returns the context to the initial state of its ALG and keeps the claim. -/
  | restart (fn : Nat) (slot : Nat)
  /-- RECORD_TRANSFER_DONE (R408): An export or import completes and BUSY clears. -/
  | recordTransferDone (fn : Nat) (slot : Nat)
  /-- DGE_SLOT_DATA (R405): A write of 8 message bytes adds to the current block and queues the block when it is complete. -/
  | dgeSlotData (fn : Nat) (slot : Nat) (v : Nat)
  /-- BLOCK_ABSORBED (R406): A pipeline absorbs a queued block; BUSY clears, BLOCKS increments, and the LAST block gives DONE and the digest. -/
  | blockAbsorbed (fn : Nat) (slot : Nat)
  /-- DGE_SLOT_CMP (R409): A read of DGE_SLOT_CMP compares DIGEST with EXPECT through two comparators. -/
  | dgeSlotCmp (fn : Nat) (slot : Nat) (disagree : Bool)
  /-- CONTEXT_ZEROED (R411): A released context has been zeroed and returns to the pool. -/
  | contextZeroed
  /-- CONTEXT_CLEAR (R410): A bus error or an alarm clears every context, draws a new device key and makes the claimed slots LOST. -/
  | contextClear (cause : Nat)
  /-- DGE_ALARM_TEST (R410): A write with GO clears every context as an alarm of cause ALARM_FATAL. -/
  | dgeAlarmTest
  /-- MAP (R419): HMC_MAP_CTRL operation MAP installs valid leaves, zeroing pages reused from another owner. -/
  | map
  /-- UNMAP (R419): HMC_MAP_CTRL operation UNMAP invalidates leaves, TLB entries and mast-cache copies. -/
  | unmap
  /-- PROTECT (R419): HMC_MAP_CTRL operation PROTECT replaces WRITE and EXEC of valid leaves. -/
  | protect
  /-- QUERY (R419): HMC_MAP_CTRL operation QUERY returns a leaf's PPN, WRITE and EXEC. -/
  | query
  /-- MAP_DONE (R420): A map command completes; BUSY falls and MAP_DONE is raised. -/
  | mapDone
  /-- SCRUB_READ (R425): Scrub reads the next line of a stack, writes back corrections, poisons uncorrectable lines and tracks sticky candidates. -/
  | scrubRead (stack : Nat) (cells : Nat)
  /-- ROW_REPAIR_DONE (R465): A row repair completes, the lines are written back raw, and the history record is written. -/
  | rowRepairDone (stack : Nat)
  /-- BUCKET_WINDOW (R426): A bucket window starts; each stack's level leaks and its filter empties. -/
  | bucketWindow
  /-- WRITE_RAW (R434): The test window stores data and check bytes raw into an eligible line, or the access is refused. -/
  | writeRaw
  /-- READ_RAW (R434): The test window loads a line raw and reports what a normal read would find. -/
  | readRaw
  /-- POISON_MARKING (R479): Bosun matches a newly poisoned arena line to run buffers and marks the referring tokens POISON. -/
  | poisonMarking (line : Nat)
  /-- LOG_ENTRY_WRITE (R444): A record has been 2 µs in the reorder buffer and is written to the event log. -/
  | logEntryWrite
  /-- MARK (R442): A write to TSU_MARK records a MARK event. -/
  | mark (detail : Nat)
  /-- PTM_DIALOGUE (R446): The PTM period expires and TSU starts a PTM dialogue. -/
  | ptmDialogue
  /-- PTM_RESPONSE (R446): A PTM Response completes a dialogue and sets LOCAL, HOST and RATE together. -/
  | ptmResponse (host : Nat) (rate : Nat)
  /-- PTM_TIMEOUT (R447): A dialogue gets no response within 10 ms, or is invalidated; FAILED is set and PTM_FAIL is raised. -/
  | ptmTimeout (invalidated : Bool)
  /-- CONTROLLER_WINDOW_END (R454): At each accounting window end the power controller compares the means with PEAK and LIMIT and moves its demand. -/
  | controllerWindowEnd (dw : Nat) (mv : Nat) (uj : Nat)
  /-- THERMAL_SAMPLE (R456): The 10 µs sensor read starts or ends the THERMAL demand. -/
  | thermalSample (die : Nat) (hbm : Nat)
  /-- STEP_DOWN (R452): STEP_US has passed since the last change, and the level in force falls by one. -/
  | stepDown
  /-- PWR_LIMIT (R454): A write of the sustained limit is applied from the next window end, or refused if it is out of range. -/
  | pwrLimit (watts : Nat) (hyst : Nat)
  /-- PWR_REEF_FLOOR (R451): A write of the floor level sets the FLOOR demand. -/
  | pwrReefFloor (level : Nat)
  /-- WEAR_WINDOW (R461): A 3,600 s wear window starts and the per-window counts restart. -/
  | wearWindow
  /-- TILE_SWAP (R462): A marked tile is drained, scrubbed and replaced by the mast's spare. -/
  | tileSwap
  /-- DRAIN_TIMEOUT (R462): The running task of a draining tile passes DRAIN_US, and the tile is core-reset. -/
  | drainTimeout
  /-- DRN_SWAP_CTRL (R461): A write with GO marks a tile, bank or engine for a swap, or is refused. -/
  | drnSwapCtrl (kind : Nat) (unit : Nat)
  /-- LINK_CRC_ERROR (R467): A Rigging flit fails CRC and is replayed; at the threshold the wire group is steered to the spare. -/
  | linkCrcError (link : Nat) (group : Nat)
  /-- SNAP_CTRL_CLEAR (R484): A write of MGT_SNAP_CTRL.CLEAR clears the snapshot and overflow headers, or is refused while PRESERVE is 1. -/
  | snapCtrlClear
  /-- CLEAR_RECORDS (R484): A write of MGT_SNAP_CTRL.CLEAR_RECORDS discards the power-loss and reset records. -/
  | clearRecords
  /-- GET_HEALTH (R485): The sideband command GET_HEALTH returns the health state and fault and bring-up status. -/
  | getHealth
  /-- READ_LOG (R485): The sideband command READ_LOG returns a subsystem's error log. -/
  | readLog (sub : Nat)
  /-- READ_RECORD (R485): The sideband command READ_RECORD returns one 4 KiB page of a record. -/
  | readRecord (kind : Nat) (page : Nat)
  /-- CLEAR_SNAPSHOT (R485): The sideband command CLEAR_SNAPSHOT clears the snapshot whatever PRESERVE holds. -/
  | clearSnapshot
  /-- WARM_RESET (R485): The sideband command WARM_RESET starts a warm reset, or answers NOT_READY. -/
  | warmReset
  /-- READ_IDENTITY (R485): The sideband command READ_IDENTITY returns 16 identity records. -/
  | readIdentity (first : Nat)
  /-- SET_PRESERVE (R485): The sideband command SET_PRESERVE writes MGT_SNAP_PRESERVE. -/
  | setPreserve (on : Bool)
  /-- MCTP_CONTROL_MESSAGE (R485): Auheund answers an MCTP control message. -/
  | mctpControlMessage (req : List Byte)
  /-- PLDM_MESSAGE (R485): Auheund answers a PLDM base, platform or firmware update message. -/
  | pldmMessage (req : List Byte)
  /-- SENSOR_REFRESH (R486): The 100 ms refresh updates the PLDM sensors and sends an event on a change of health. -/
  | sensorRefresh
  /-- AUX_SUPPLY_REMOVED (R44): P3V3_AUX falls out of range while the main rails are not up; the aux pull-up switches open, Auheund is reset and the module stays off drawing at most 10 µA. -/
  | auxSupplyRemoved
  /-- REGISTER_READ (R7): A read of a register with behaviour of its own: an RC field returns its value and resets, a 64-bit low-dword read latches the high dword, or a denied read counts in HIF_FN_DENIED and may be captured. -/
  | registerRead (acc : Access)
  /-- HBM_ACCESS_PERFORMED (R254): An outstanding HBM load, store, atomic, vector element access or instruction-cache fill of a core is performed, and its data returns to the tile. -/
  | hbmAccessPerformed (tile : Nat) (n : Nat) (found : Nat)
  /-- SPDM_MESSAGE (R485): Auheund receives an SPDM message over MCTP on the SMBus or on PCIe VDM and answers it, including KEY_EXCHANGE for IDE_KM. -/
  | spdmMessage (req : List Byte)
  deriving DecidableEq, Repr

end Sys2Proof
end

