-- ==== Sys2Proof/Decode.lean ====
section
/-! DEFINITION. The commands that table words spell. spec/opcode_table.json gives none of its rows bits (every row's
fields are empty), so no word spells a command. The words of the operator core are operands of its commands, decoded
in Machine/Operands.lean. -/

namespace Sys2Proof

/-- The command that a word of the table's bits spells: no row gives bits. -/
def decodeTableWord (_nbits _w : Nat) : Option Instr := none

end Sys2Proof
end

