-- ==== Sys2Proof/Machine/Crc.lean ====
section
/-! DEFINITION. CRC-32C (the Castagnoli polynomial, reflected, initial value 0xFFFF_FFFF, final inversion; R168, R306)
and its single steps. -/

namespace Sys2Proof.Machine

/-- One bit of the reflected CRC-32C division. -/
def crcBit (c : BitVec 32) : BitVec 32 := if c.getLsbD 0 then (c >>> 1) ^^^ 0x82F63B78#32 else c >>> 1

/-- One byte into a running CRC-32C. -/
def crcByte (c : BitVec 32) (b : Byte) : BitVec 32 :=
  let x := c ^^^ b.zeroExtend 32
  crcBit (crcBit (crcBit (crcBit (crcBit (crcBit (crcBit (crcBit x)))))))

/-- Bytes into a running CRC-32C. -/
def crcBytes (c : BitVec 32) (d : List Byte) : BitVec 32 := d.foldl crcByte c

/-- The CRC-32C of bytes. -/
def crc32c (d : List Byte) : BitVec 32 := (crcBytes 0xFFFFFFFF#32 d) ^^^ 0xFFFFFFFF#32

end Sys2Proof.Machine
end

