-- ==== Sys2Proof/Config.lean ====
section
/-! DEFINITION. What an implementation fixes and the free values: constants without a body, so that nothing can be
proved of the value they take. A value that the spec leaves open is one of them, applied to the counter of the State
or to the operands that it depends on. -/

namespace Sys2Proof

/-- A value that the spec leaves open, by the number of the draw. -/
opaque Config.freeNat : Nat → Nat

/-- Which of the free places of a subsystem's region its error log takes (`ERR_LOG_PTR.LOG_BASE`, R90, R91): no chapter
states it. -/
opaque Config.logBase : Nat → Nat

/-- `CAPS.SUB_CAPS` of the pages whose chapter states none (HIF, RIG, MGT; R91). -/
opaque Config.subCaps : Nat → Nat

/-- The bytes of the identity records that differ from module to module (LOT, WAFER, POS_X, POS_Y; R87). -/
opaque Config.identityByte : Nat → Nat → Byte

/-- The sections of a fatal snapshot that the spec does not describe, in the internal layout of stepping B1 (R482). -/
opaque Config.snapshotBody : Nat → List Byte

/-- The number of those sections. -/
opaque Config.snapshotSections : Nat → Nat

/-- The answer of the SPDM responder, by the draw (R132): the SPDM standard, not the spec, states it. -/
opaque Config.spdmAnswer : Nat → List Byte → List Byte

/-- The answer to an MCTP control message, by the draw (R485): the MCTP standard states it. -/
opaque Config.mctpAnswer : Nat → List Byte → List Byte

/-- The answer to a PLDM message of types 0, 2 and 5, by the draw (R485): the PLDM standards state it. -/
opaque Config.pldmAnswer : Nat → List Byte → List Byte

/-- Whether a PLDM message clears an alert cause, by the cause's bit in `PWR_ALERT_STATUS` (R55): the PLDM standards state
it. -/
opaque Config.pldmClears : Nat → List Byte → Bool

/-- Whether the receiver has events enabled after a PLDM message (R486): the PLDM standards state it. -/
opaque Config.pldmEvents : Bool → List Byte → Bool

/-- The IDE streams that a message of an SPDM session programs, by the draw (R132): the stream (0 the link stream, 1 to 4
the selective ones), the draw that gives its AES-GCM-256 keys, its address blocks and its routing-ID blocks. The IDE_KM
standard states them. -/
opaque Config.ideStreams : Nat → List Byte → List (Nat × Nat × List (Nat × Nat) × List (Nat × Nat))

/-- The answer to a DOE Discovery object, by the draw (R132): the PCIe specification states it. -/
opaque Config.doeDiscovery : Nat → List Byte → List Byte

/-- What the decoder of R422 finds in a line whose data and check bytes were stored raw: 0 clean, 1 corrected, 2
uncorrectable, 3 poison (modulo 4). The spec does not give the code's polynomial or the poison mask. -/
opaque Config.eccClass : Line → BitVec 32 → Nat

/-- The data that the decoder returns for a corrected line. -/
opaque Config.eccData : Line → BitVec 32 → Line

/-- The symbol in error of a corrected line. -/
opaque Config.eccSymbol : Line → BitVec 32 → Nat

/-- The check bytes of a line, and the poison pattern's (R422, R423). -/
opaque Config.eccCheck : Line → Bool → BitVec 32

/-- Which two of the remaining values a step of the pairwise tree of VFREDSUM joins, by n and the step (R278): the shape
depends only on n, and the spec does not give it. -/
opaque Config.sumShape : Nat → Nat → Nat × Nat

/-- What a codec is given: format, level, whether the stream begins and ends here, whether the data reach the payload's
end, whether the content checksum is wanted, the saved context, the bit of the first byte at which the data begin, the
history, the dictionary and the data. -/
structure CodecIn where
  format : Nat
  level : Nat
  first : Bool
  last : Bool
  whole : Bool
  checksum : Bool
  ctx : List Byte
  bit : Nat
  hist : List Byte
  dict : List Byte
  data : List Byte

/-- The bits of a format's payload that the match finder writes for data, the stream ending with them or not, and the bits
that close it (R324: the ratio is not specified). -/
opaque Config.codecBits : CodecIn → Bool → List Bool
opaque Config.codecClose : CodecIn → Bool → List Bool

/-- The counts of data bytes at which that payload has a symbol's end. -/
opaque Config.codecCuts : CodecIn → List Nat

/-- The sequences of a Zstandard compressed block, from what the frame hands on to it, the dictionary and its bytes: the
bytes that each takes, its literals, its offset and match length, and what it hands on; none where it is malformed. RFC
8878 states it, not the spec. -/
opaque Config.zstdBlock : List Byte → List Byte → List Byte → Option (List (Nat × List Byte × Nat × Nat × List Byte))

/-- The content of a dictionary (RFC 8878). -/
opaque Config.dictContent : List Byte → List Byte

/-- A dictionary is one of the RFC 8878 format (R337). -/
opaque Config.dictOk : List Byte → Bool

/-- The device key of the digest engine, by the draw that gave it (R408: from MGT's random source). -/
opaque Config.deviceKey : Nat → BitVec 256

/-- The bank and row of a line of a stack, by its stack offset (R465): the spec does not give them. -/
opaque Config.rowOf : Nat → Nat × Nat

/-- Repair resources of a bank as shipped, and those that a stack reports after a number of repairs (R465). -/
opaque Config.pprOfBank : Nat → Nat
opaque Config.pprLeft : Nat → Nat → Nat

/-- The set of a mast cache that a function's copy of a line takes, and that of an instruction cache that a line takes (R249,
R253): the spec gives the ways, not which bits of the address choose the set. -/
opaque Config.mastSet : Nat → Nat → Nat
opaque Config.icacheSet : Nat → Nat

/-- Whether the walk of a function's page is made and reads a line of its tables, by the draw (R417, R418, R421). -/
opaque Config.walkReads : Nat → Nat → Nat → Nat → Bool

/-- The page of the device area that Auheund's maintenance translation gives a virtual page, with leave to write and to
execute (R266, R415). -/
opaque Config.maintPage : Nat → Option (Nat × Bool × Bool)

/-- The row of an SRAM array in which a corrected error lay, by the draw (R466). -/
opaque Config.sramRow : Nat → Nat

end Sys2Proof
end

