-- ==== Sys2Proof/Machine/Fields.lean ====
section
/-! DEFINITION. The register fields of the device, one constant for each field of each register map of the spec
(spec/03_clocks_reset_bringup.md to spec/19_faults_and_containment.md): its number in the register store, its place
in its register, its access code (R7) and its reset value (R9). Reserved bits (R4) are no fields: they read 0. -/

namespace Sys2Proof.Machine

/-- The access codes of R7. -/
inductive Acc where
  | ro | rw | w1c | w1s | rc | wo
  deriving DecidableEq, Repr

/-- A register field: its number, lowest bit, length, access code, reset value, whether R97 marks it expert, and the
number of the OVR_EN bit that its override register has (R95; 0: no override register). -/
structure Field where
  id : Nat
  lo : Nat
  len : Nat
  acc : Acc
  rst : Nat
  expert : Bool
  ovr : Nat
  deriving DecidableEq, Repr

/-- The field of the override register X_ of the same name (R95): same place, its own number. -/
def Field.x (f : Field) : Field := { f with id := f.id + 1024 }

-- spec/03_clocks_reset_bringup.md
/-- `MGT_READY_MAP_SUB`.SUB_READY [16:1], RO. -/
def fMGT_READY_MAP_SUB_SUB_READY : Field := ⟨1, 1, 16, .ro, 0, false, 0⟩
/-- `MGT_READY_MAP_MAST`.MAST_READY [31:0], RO. -/
def fMGT_READY_MAP_MAST_MAST_READY : Field := ⟨2, 0, 32, .ro, 0, false, 0⟩
/-- `MGT_FAIL_MAP_MAST`.MAST_FAIL [31:0], RO. -/
def fMGT_FAIL_MAP_MAST_MAST_FAIL : Field := ⟨3, 0, 32, .ro, 0, false, 0⟩
/-- `MGT_READY_MAP_MEM`.STACK_READY [7:0], RO. -/
def fMGT_READY_MAP_MEM_STACK_READY : Field := ⟨4, 0, 8, .ro, 0, false, 0⟩
/-- `MGT_READY_MAP_MEM`.PORT_READY [15:8], RO. -/
def fMGT_READY_MAP_MEM_PORT_READY : Field := ⟨5, 8, 8, .ro, 0, false, 0⟩
/-- `MGT_FAIL_MAP_MEM`.STACK_FAIL [7:0], RO. -/
def fMGT_FAIL_MAP_MEM_STACK_FAIL : Field := ⟨6, 0, 8, .ro, 0, false, 0⟩
/-- `MGT_FAIL_MAP_MEM`.PORT_FAIL [15:8], RO. -/
def fMGT_FAIL_MAP_MEM_PORT_FAIL : Field := ⟨7, 8, 8, .ro, 0, false, 0⟩
/-- `MGT_FAIL_MAP_MEM`.PORT_LATE [23:16], RO. -/
def fMGT_FAIL_MAP_MEM_PORT_LATE : Field := ⟨8, 16, 8, .ro, 0, false, 0⟩
/-- `MGT_BRINGUP_STATUS`.DONE [0:0], RO. -/
def fMGT_BRINGUP_STATUS_DONE : Field := ⟨9, 0, 1, .ro, 0, false, 0⟩
/-- `MGT_BRINGUP_STATUS`.DEGRADED [1:1], RO. -/
def fMGT_BRINGUP_STATUS_DEGRADED : Field := ⟨10, 1, 1, .ro, 0, false, 0⟩
/-- `MGT_BRINGUP_STATUS`.ELAPSED_MS [31:16], RO. -/
def fMGT_BRINGUP_STATUS_ELAPSED_MS : Field := ⟨11, 16, 16, .ro, 0, false, 0⟩
/-- `MGT_RESET_CAUSE`.COLD [0:0], W1C. -/
def fMGT_RESET_CAUSE_COLD : Field := ⟨12, 0, 1, .w1c, 1, false, 0⟩
/-- `MGT_RESET_CAUSE`.PERST [1:1], W1C. -/
def fMGT_RESET_CAUSE_PERST : Field := ⟨13, 1, 1, .w1c, 0, false, 0⟩
/-- `MGT_RESET_CAUSE`.HOT_RESET [2:2], W1C. -/
def fMGT_RESET_CAUSE_HOT_RESET : Field := ⟨14, 2, 1, .w1c, 0, false, 0⟩
/-- `MGT_RESET_CAUSE`.WARM_REG [3:3], W1C. -/
def fMGT_RESET_CAUSE_WARM_REG : Field := ⟨15, 3, 1, .w1c, 0, false, 0⟩
/-- `MGT_RESET_CAUSE`.WARM_SIDEBAND [4:4], W1C. -/
def fMGT_RESET_CAUSE_WARM_SIDEBAND : Field := ⟨16, 4, 1, .w1c, 0, false, 0⟩
/-- `MGT_RESET_CAUSE`.FATAL_AUTO [5:5], W1C. -/
def fMGT_RESET_CAUSE_FATAL_AUTO : Field := ⟨17, 5, 1, .w1c, 0, false, 0⟩
/-- `MGT_LAST_STOP`.CAUSE [3:0], RO. -/
def fMGT_LAST_STOP_CAUSE : Field := ⟨18, 0, 4, .ro, 0, false, 0⟩
/-- `MGT_BOOT_COUNT`.COUNT [31:0], RO. -/
def fMGT_BOOT_COUNT_COUNT : Field := ⟨19, 0, 32, .ro, 0, false, 0⟩
/-- `MGT_WARM_RESET`.KEY [15:0], WO. -/
def fMGT_WARM_RESET_KEY : Field := ⟨20, 0, 16, .wo, 0, false, 0⟩

-- spec/04_register_pages_and_address_map.md
/-- `ID`.SUB_ID [7:0], RO. -/
def fID_SUB_ID : Field := ⟨21, 0, 8, .ro, 0, false, 0⟩
/-- `ID`.CODE [31:8], RO. -/
def fID_CODE : Field := ⟨22, 8, 24, .ro, 0, false, 0⟩
/-- `VERSION`.MINOR [7:0], RO. -/
def fVERSION_MINOR : Field := ⟨23, 0, 8, .ro, 0, false, 0⟩
/-- `VERSION`.MAJOR [15:8], RO. -/
def fVERSION_MAJOR : Field := ⟨24, 8, 8, .ro, 1, false, 0⟩
/-- `VERSION`.STEPPING [23:16], RO. -/
def fVERSION_STEPPING : Field := ⟨25, 16, 8, .ro, 177, false, 0⟩
/-- `CAPS`.SOFT_RESET [0:0], RO. -/
def fCAPS_SOFT_RESET : Field := ⟨26, 0, 1, .ro, 0, false, 0⟩
/-- `CAPS`.ERR_LOG [1:1], RO. -/
def fCAPS_ERR_LOG : Field := ⟨27, 1, 1, .ro, 1, false, 0⟩
/-- `CAPS`.ARRAYS [15:8], RO. -/
def fCAPS_ARRAYS : Field := ⟨28, 8, 8, .ro, 0, false, 0⟩
/-- `CAPS`.SUB_CAPS [63:16], RO. -/
def fCAPS_SUB_CAPS : Field := ⟨29, 16, 48, .ro, 0, false, 0⟩
/-- `CONTROL`.SOFT_RESET [0:0], WO. -/
def fCONTROL_SOFT_RESET : Field := ⟨30, 0, 1, .wo, 0, false, 0⟩
/-- `CONTROL`.ENABLE [1:1], RW. -/
def fCONTROL_ENABLE : Field := ⟨31, 1, 1, .rw, 1, false, 0⟩
/-- `STATUS`.READY [0:0], RO. -/
def fSTATUS_READY : Field := ⟨32, 0, 1, .ro, 0, false, 0⟩
/-- `STATUS`.FAULT [1:1], RO. -/
def fSTATUS_FAULT : Field := ⟨33, 1, 1, .ro, 0, false, 0⟩
/-- `STATUS`.BUSY [2:2], RO. -/
def fSTATUS_BUSY : Field := ⟨34, 2, 1, .ro, 0, false, 0⟩
/-- `IRQ_STATUS`.ERR [0:0], W1C. -/
def fIRQ_STATUS_ERR : Field := ⟨35, 0, 1, .w1c, 0, false, 0⟩
/-- `IRQ_STATUS`.FAULT [1:1], W1C. -/
def fIRQ_STATUS_FAULT : Field := ⟨36, 1, 1, .w1c, 0, false, 0⟩
/-- `IRQ_STATUS`.SUB [31:2], W1C. -/
def fIRQ_STATUS_SUB : Field := ⟨37, 2, 30, .w1c, 0, false, 0⟩
/-- `IRQ_ENABLE`.ERR [0:0], RW. -/
def fIRQ_ENABLE_ERR : Field := ⟨38, 0, 1, .rw, 0, false, 0⟩
/-- `IRQ_ENABLE`.FAULT [1:1], RW. -/
def fIRQ_ENABLE_FAULT : Field := ⟨39, 1, 1, .rw, 0, false, 0⟩
/-- `IRQ_ENABLE`.SUB [31:2], RW. -/
def fIRQ_ENABLE_SUB : Field := ⟨40, 2, 30, .rw, 0, false, 0⟩
/-- `IRQ_SET`.ERR [0:0], W1S. -/
def fIRQ_SET_ERR : Field := ⟨41, 0, 1, .w1s, 0, false, 0⟩
/-- `IRQ_SET`.FAULT [1:1], W1S. -/
def fIRQ_SET_FAULT : Field := ⟨42, 1, 1, .w1s, 0, false, 0⟩
/-- `IRQ_SET`.SUB [31:2], W1S. -/
def fIRQ_SET_SUB : Field := ⟨43, 2, 30, .w1s, 0, false, 0⟩
/-- `ERR_COUNT`.COUNT [31:0], RC. -/
def fERR_COUNT_COUNT : Field := ⟨44, 0, 32, .rc, 0, false, 0⟩
/-- `ERR_LOG_PTR`.LOG_BASE [17:0], RO. -/
def fERR_LOG_PTR_LOG_BASE : Field := ⟨45, 0, 18, .ro, 0, false, 0⟩
/-- `ERR_LOG_PTR`.NEXT [21:18], RO. -/
def fERR_LOG_PTR_NEXT : Field := ⟨46, 18, 4, .ro, 0, false, 0⟩
/-- `ERR_LOG_PTR`.WRAPPED [31:31], W1C. -/
def fERR_LOG_PTR_WRAPPED : Field := ⟨47, 31, 1, .w1c, 0, false, 0⟩
/-- `EXPERT_UNLOCK`.KEY [15:0], WO. -/
def fEXPERT_UNLOCK_KEY : Field := ⟨48, 0, 16, .wo, 0, false, 0⟩
/-- `EXPERT_UNLOCK`.UNLOCKED [16:16], RO. -/
def fEXPERT_UNLOCK_UNLOCKED : Field := ⟨49, 16, 1, .ro, 0, false, 0⟩
/-- `EXPERT_UNLOCK`.DENIED [17:17], W1C. -/
def fEXPERT_UNLOCK_DENIED : Field := ⟨50, 17, 1, .w1c, 0, false, 0⟩
/-- `HIF_FN_STATUS`.READY [0:0], RO. -/
def fHIF_FN_STATUS_READY : Field := ⟨51, 0, 1, .ro, 0, false, 0⟩
/-- `HIF_FN_STATUS`.RESET_BUSY [1:1], RO. -/
def fHIF_FN_STATUS_RESET_BUSY : Field := ⟨52, 1, 1, .ro, 0, false, 0⟩
/-- `HIF_FN_ID`.FN [10:0], RO. -/
def fHIF_FN_ID_FN : Field := ⟨53, 0, 11, .ro, 0, false, 0⟩
/-- `HIF_FN_DENIED`.COUNT [15:0], RC. -/
def fHIF_FN_DENIED_COUNT : Field := ⟨54, 0, 16, .rc, 0, false, 0⟩
/-- `HIF_DENIED_INFO`.FN [10:0], RO. -/
def fHIF_DENIED_INFO_FN : Field := ⟨55, 0, 11, .ro, 0, false, 0⟩
/-- `HIF_DENIED_INFO`.WRITE [11:11], RO. -/
def fHIF_DENIED_INFO_WRITE : Field := ⟨56, 11, 1, .ro, 0, false, 0⟩
/-- `HIF_DENIED_INFO`.KIND [14:12], RO. -/
def fHIF_DENIED_INFO_KIND : Field := ⟨57, 12, 3, .ro, 0, false, 0⟩
/-- `HIF_DENIED_INFO`.MORE [30:30], W1C. -/
def fHIF_DENIED_INFO_MORE : Field := ⟨58, 30, 1, .w1c, 0, false, 0⟩
/-- `HIF_DENIED_INFO`.VALID [31:31], W1C. -/
def fHIF_DENIED_INFO_VALID : Field := ⟨59, 31, 1, .w1c, 0, false, 0⟩
/-- `HIF_DENIED_ADDR`.OFFSET [23:0], RO. -/
def fHIF_DENIED_ADDR_OFFSET : Field := ⟨60, 0, 24, .ro, 0, false, 0⟩
/-- `HIF_DENIED_ADDR`.SPACE [25:24], RO. -/
def fHIF_DENIED_ADDR_SPACE : Field := ⟨61, 24, 2, .ro, 0, false, 0⟩

-- spec/05_host_link_and_functions.md
/-- `HIF_LINK_STATUS`.SPEED [3:0], RO. -/
def fHIF_LINK_STATUS_SPEED : Field := ⟨62, 0, 4, .ro, 0, false, 0⟩
/-- `HIF_LINK_STATUS`.WIDTH [8:4], RO. -/
def fHIF_LINK_STATUS_WIDTH : Field := ⟨63, 4, 5, .ro, 0, false, 0⟩
/-- `HIF_LINK_STATUS`.FLIT [9:9], RO. -/
def fHIF_LINK_STATUS_FLIT : Field := ⟨64, 9, 1, .ro, 0, false, 0⟩
/-- `HIF_LINK_STATUS`.CXL [10:10], RO. -/
def fHIF_LINK_STATUS_CXL : Field := ⟨65, 10, 1, .ro, 0, false, 0⟩
/-- `HIF_LINK_STATUS`.REVERSED [11:11], RO. -/
def fHIF_LINK_STATUS_REVERSED : Field := ⟨66, 11, 1, .ro, 0, false, 0⟩
/-- `HIF_LINK_STATUS`.DEGRADED [12:12], RO. -/
def fHIF_LINK_STATUS_DEGRADED : Field := ⟨67, 12, 1, .ro, 0, false, 0⟩
/-- `HIF_LINK_CONTROL`.MAX_SPEED [3:0], RW. -/
def fHIF_LINK_CONTROL_MAX_SPEED : Field := ⟨68, 0, 4, .rw, 4, false, 1601⟩
/-- `HIF_LINK_CONTROL`.L0P_EN [4:4], RW. -/
def fHIF_LINK_CONTROL_L0P_EN : Field := ⟨69, 4, 1, .rw, 1, false, 1601⟩
/-- `HIF_LINK_CONTROL`.CXLMEM_WEIGHT [15:8], RW. -/
def fHIF_LINK_CONTROL_CXLMEM_WEIGHT : Field := ⟨70, 8, 8, .rw, 64, false, 1601⟩
/-- `HIF_FN_QOS`.CORE_WEIGHT [7:0], RW. -/
def fHIF_FN_QOS_CORE_WEIGHT : Field := ⟨71, 0, 8, .rw, 16, false, 0⟩
/-- `HIF_FN_QOS`.CORE_CAP [15:8], RW. -/
def fHIF_FN_QOS_CORE_CAP : Field := ⟨72, 8, 8, .rw, 0, false, 0⟩
/-- `HIF_FN_QOS`.HBM_WEIGHT [23:16], RW. -/
def fHIF_FN_QOS_HBM_WEIGHT : Field := ⟨73, 16, 8, .rw, 16, false, 0⟩
/-- `HIF_FN_QOS`.HBM_CAP [31:24], RW. -/
def fHIF_FN_QOS_HBM_CAP : Field := ⟨74, 24, 8, .rw, 0, false, 0⟩
/-- `HIF_FN_QOS`.LINK_WEIGHT [39:32], RW. -/
def fHIF_FN_QOS_LINK_WEIGHT : Field := ⟨75, 32, 8, .rw, 16, false, 0⟩
/-- `HIF_FN_QOS`.LINK_CAP [47:40], RW. -/
def fHIF_FN_QOS_LINK_CAP : Field := ⟨76, 40, 8, .rw, 0, false, 0⟩
/-- `HIF_FLR_RESULT`.UNPOSTED [15:0], RO. -/
def fHIF_FLR_RESULT_UNPOSTED : Field := ⟨77, 0, 16, .ro, 0, false, 0⟩
/-- `HIF_FLR_RESULT`.ORPHANED [25:16], RO. -/
def fHIF_FLR_RESULT_ORPHANED : Field := ⟨78, 16, 10, .ro, 0, false, 0⟩
/-- `HIF_FLR_RESULT`.VALID [31:31], W1C. -/
def fHIF_FLR_RESULT_VALID : Field := ⟨79, 31, 1, .w1c, 0, false, 0⟩
/-- `HIF_CO`.ENABLE [0:0], RW. -/
def fHIF_CO_ENABLE : Field := ⟨80, 0, 1, .rw, 0, false, 0⟩
/-- `HIF_CO`.BASE [26:16], RW. -/
def fHIF_CO_BASE : Field := ⟨81, 16, 11, .rw, 0, false, 0⟩
/-- `HIF_CO`.UNITS [42:32], RW. -/
def fHIF_CO_UNITS : Field := ⟨82, 32, 11, .rw, 0, false, 0⟩
/-- `HIF_FN_IRQ_STATUS`.QOS_CAPPED [0:0], W1C. -/
def fHIF_FN_IRQ_STATUS_QOS_CAPPED : Field := ⟨83, 0, 1, .w1c, 0, false, 0⟩
/-- `HIF_FN_IRQ_STATUS`.DENIED [1:1], W1C. -/
def fHIF_FN_IRQ_STATUS_DENIED : Field := ⟨84, 1, 1, .w1c, 0, false, 0⟩
/-- `HIF_FN_IRQ_STATUS`.CQ_FULL [2:2], W1C. -/
def fHIF_FN_IRQ_STATUS_CQ_FULL : Field := ⟨85, 2, 1, .w1c, 0, false, 0⟩
/-- `HIF_FN_IRQ_ENABLE`.QOS_CAPPED [0:0], RW. -/
def fHIF_FN_IRQ_ENABLE_QOS_CAPPED : Field := ⟨86, 0, 1, .rw, 0, false, 0⟩
/-- `HIF_FN_IRQ_ENABLE`.DENIED [1:1], RW. -/
def fHIF_FN_IRQ_ENABLE_DENIED : Field := ⟨87, 1, 1, .rw, 0, false, 0⟩
/-- `HIF_FN_IRQ_ENABLE`.CQ_FULL [2:2], RW. -/
def fHIF_FN_IRQ_ENABLE_CQ_FULL : Field := ⟨88, 2, 1, .rw, 0, false, 0⟩
/-- `HIF_FN_EVENT_VECTOR`.VECTOR [10:0], RW. -/
def fHIF_FN_EVENT_VECTOR_VECTOR : Field := ⟨89, 0, 11, .rw, 0, false, 0⟩
/-- `HIF_FN_MOD`.MAX_COUNT [7:0], RW. -/
def fHIF_FN_MOD_MAX_COUNT : Field := ⟨90, 0, 8, .rw, 1, false, 0⟩
/-- `HIF_FN_MOD`.DELAY_US [23:8], RW. -/
def fHIF_FN_MOD_DELAY_US : Field := ⟨91, 8, 16, .rw, 0, false, 0⟩

-- spec/06_queues_and_rings.md
/-- `QMG_ADM_SQ_BASE`.BASE [63:12], RW. -/
def fQMG_ADM_SQ_BASE_BASE : Field := ⟨92, 12, 52, .rw, 0, false, 0⟩
/-- `QMG_ADM_CQ_BASE`.BASE [63:12], RW. -/
def fQMG_ADM_CQ_BASE_BASE : Field := ⟨93, 12, 52, .rw, 0, false, 0⟩
/-- `QMG_ADM_CONFIG`.SQ_LOG2 [4:0], RW. -/
def fQMG_ADM_CONFIG_SQ_LOG2 : Field := ⟨94, 0, 5, .rw, 4, false, 0⟩
/-- `QMG_ADM_CONFIG`.CQ_LOG2 [12:8], RW. -/
def fQMG_ADM_CONFIG_CQ_LOG2 : Field := ⟨95, 8, 5, .rw, 4, false, 0⟩
/-- `QMG_ADM_CONFIG`.MOD [19:16], RW. -/
def fQMG_ADM_CONFIG_MOD : Field := ⟨96, 16, 4, .rw, 0, false, 0⟩
/-- `QMG_ADM_CONFIG`.IRQ_EN [20:20], RW. -/
def fQMG_ADM_CONFIG_IRQ_EN : Field := ⟨97, 20, 1, .rw, 0, false, 0⟩
/-- `QMG_ADM_VECTOR`.VECTOR [10:0], RW. -/
def fQMG_ADM_VECTOR_VECTOR : Field := ⟨98, 0, 11, .rw, 0, false, 0⟩
/-- `QMG_ADM_CONTROL`.ENABLE [0:0], RW. -/
def fQMG_ADM_CONTROL_ENABLE : Field := ⟨99, 0, 1, .rw, 0, false, 0⟩
/-- `QMG_ADM_STATUS`.ENABLED [0:0], RO. -/
def fQMG_ADM_STATUS_ENABLED : Field := ⟨100, 0, 1, .ro, 0, false, 0⟩
/-- `QMG_ADM_STATUS`.ERROR [1:1], RO. -/
def fQMG_ADM_STATUS_ERROR : Field := ⟨101, 1, 1, .ro, 0, false, 0⟩
/-- `QMG_ADM_STATUS`.CQ_FULL [2:2], RO. -/
def fQMG_ADM_STATUS_CQ_FULL : Field := ⟨102, 2, 1, .ro, 0, false, 0⟩
/-- `QMG_ADM_STATUS`.ERR_SUB [15:8], RO. -/
def fQMG_ADM_STATUS_ERR_SUB : Field := ⟨103, 8, 8, .ro, 0, false, 0⟩
/-- `QMG_ADM_STATUS`.UNPOSTED [31:16], RO. -/
def fQMG_ADM_STATUS_UNPOSTED : Field := ⟨104, 16, 16, .ro, 0, false, 0⟩
/-- `QMG_FN_QCOUNT`.IN_USE [12:0], RO. -/
def fQMG_FN_QCOUNT_IN_USE : Field := ⟨105, 0, 13, .ro, 0, false, 0⟩
/-- `QMG_FN_QCOUNT`.LIMIT [28:16], RO. -/
def fQMG_FN_QCOUNT_LIMIT : Field := ⟨106, 16, 13, .ro, 0, false, 0⟩
/-- `QMG_FN_CQ_FULL`.LAST_QID [12:0], RO. -/
def fQMG_FN_CQ_FULL_LAST_QID : Field := ⟨107, 0, 13, .ro, 0, false, 0⟩
/-- `QMG_FN_CQ_FULL`.COUNT [28:16], RO. -/
def fQMG_FN_CQ_FULL_COUNT : Field := ⟨108, 16, 13, .ro, 0, false, 0⟩
/-- `QMG_PL_ARB`.WEIGHT [7:0], RW. -/
def fQMG_PL_ARB_WEIGHT : Field := ⟨109, 0, 8, .rw, 16, false, 1602⟩
/-- `QMG_PL_ARB`.BURST [14:8], RW. -/
def fQMG_PL_ARB_BURST : Field := ⟨110, 8, 7, .rw, 8, false, 1602⟩
/-- `QMG_DYN_ARB`.WEIGHT [7:0], RW. -/
def fQMG_DYN_ARB_WEIGHT : Field := ⟨111, 0, 8, .rw, 64, false, 1603⟩
/-- `QMG_DYN_ARB`.BURST [14:8], RW. -/
def fQMG_DYN_ARB_BURST : Field := ⟨112, 8, 7, .rw, 16, false, 1603⟩
/-- `QMG_QPOOL`.IN_USE [14:0], RO. -/
def fQMG_QPOOL_IN_USE : Field := ⟨113, 0, 15, .ro, 0, false, 0⟩
/-- `QMG_QPOOL`.FREE [30:16], RO. -/
def fQMG_QPOOL_FREE : Field := ⟨114, 16, 15, .ro, 15351, false, 0⟩
/-- `QMG_QSEL`.FN [10:0], RW. -/
def fQMG_QSEL_FN : Field := ⟨115, 0, 11, .rw, 0, false, 1604⟩
/-- `QMG_QSEL`.QID [28:16], RW. -/
def fQMG_QSEL_QID : Field := ⟨116, 16, 13, .rw, 0, false, 1604⟩
/-- `QMG_QVIEW`.STATE [2:0], RO. -/
def fQMG_QVIEW_STATE : Field := ⟨117, 0, 3, .ro, 0, false, 0⟩
/-- `QMG_QVIEW`.CQ_FULL [3:3], RO. -/
def fQMG_QVIEW_CQ_FULL : Field := ⟨118, 3, 1, .ro, 0, false, 0⟩
/-- `QMG_QVIEW`.CLASS [5:4], RO. -/
def fQMG_QVIEW_CLASS : Field := ⟨119, 4, 2, .ro, 0, false, 0⟩
/-- `QMG_QVIEW`.PENDING [13:8], RO. -/
def fQMG_QVIEW_PENDING : Field := ⟨120, 8, 6, .ro, 0, false, 0⟩
/-- `QMG_QVIEW`.SQ_HEAD [31:16], RO. -/
def fQMG_QVIEW_SQ_HEAD : Field := ⟨121, 16, 16, .ro, 0, false, 0⟩
/-- `QMG_QVIEW`.CQ_TAIL [47:32], RO. -/
def fQMG_QVIEW_CQ_TAIL : Field := ⟨122, 32, 16, .ro, 0, false, 0⟩
/-- `QMG_QVIEW`.WAITING [63:48], RO. -/
def fQMG_QVIEW_WAITING : Field := ⟨123, 48, 16, .ro, 0, false, 0⟩
/-- `QMG_CQ_RECHECK`.INTERVAL_US [15:0], RW. -/
def fQMG_CQ_RECHECK_INTERVAL_US : Field := ⟨124, 0, 16, .rw, 100, false, 0⟩
/-- `QMG_FN_QLIMIT`.LIMIT [12:0], RW. -/
def fQMG_FN_QLIMIT_LIMIT : Field := ⟨125, 0, 13, .rw, 0, false, 0⟩
/-- `QMG_FN_QLIMIT`.IN_USE [28:16], RO. -/
def fQMG_FN_QLIMIT_IN_USE : Field := ⟨126, 16, 13, .ro, 0, false, 0⟩

-- spec/08_bosun_scheduler.md
/-- `BSN_TABLE_STATUS`.IN_USE [12:0], RO. -/
def fBSN_TABLE_STATUS_IN_USE : Field := ⟨127, 0, 13, .ro, 0, false, 0⟩
/-- `BSN_TABLE_STATUS`.SHARED_FREE [28:16], RO. -/
def fBSN_TABLE_STATUS_SHARED_FREE : Field := ⟨128, 16, 13, .ro, 2046, false, 0⟩
/-- `BSN_TABLE_RESV`.RESV_SUM [12:0], RO. -/
def fBSN_TABLE_RESV_RESV_SUM : Field := ⟨129, 0, 13, .ro, 2050, false, 0⟩
/-- `BSN_TABLE_RESV`.SHARED_SIZE [28:16], RO. -/
def fBSN_TABLE_RESV_SHARED_SIZE : Field := ⟨130, 16, 13, .ro, 2046, false, 0⟩
/-- `BSN_TASK_LIMIT`.DEFAULT_US [15:0], RW. -/
def fBSN_TASK_LIMIT_DEFAULT_US : Field := ⟨131, 0, 16, .rw, 200, false, 1605⟩
/-- `BSN_AFFINITY`.HOLD_US [7:0], RW. -/
def fBSN_AFFINITY_HOLD_US : Field := ⟨132, 0, 8, .rw, 20, false, 1606⟩
/-- `BSN_AFFINITY`.SCRUB_ON_IDLE [8:8], RW. -/
def fBSN_AFFINITY_SCRUB_ON_IDLE : Field := ⟨133, 8, 1, .rw, 0, false, 1606⟩
/-- `BSN_PL_LIST`.LIST [5:0], RW. -/
def fBSN_PL_LIST_LIST : Field := ⟨134, 0, 6, .rw, 0, false, 1607⟩
/-- `BSN_QOS_MAP`.CLASS_0 [1:0], RW. -/
def fBSN_QOS_MAP_CLASS_0 : Field := ⟨135, 0, 2, .rw, 0, false, 1608⟩
/-- `BSN_QOS_MAP`.CLASS_1 [5:4], RW. -/
def fBSN_QOS_MAP_CLASS_1 : Field := ⟨136, 4, 2, .rw, 1, false, 1608⟩
/-- `BSN_QOS_MAP`.CLASS_2 [9:8], RW. -/
def fBSN_QOS_MAP_CLASS_2 : Field := ⟨137, 8, 2, .rw, 1, false, 1608⟩
/-- `BSN_QOS_MAP`.CLASS_3 [13:12], RW. -/
def fBSN_QOS_MAP_CLASS_3 : Field := ⟨138, 12, 2, .rw, 1, false, 1608⟩
/-- `BSN_QOS_MAP`.CLASS_4 [17:16], RW. -/
def fBSN_QOS_MAP_CLASS_4 : Field := ⟨139, 16, 2, .rw, 1, false, 1608⟩
/-- `BSN_QOS_MAP`.CLASS_5 [21:20], RW. -/
def fBSN_QOS_MAP_CLASS_5 : Field := ⟨140, 20, 2, .rw, 1, false, 1608⟩
/-- `BSN_QOS_MAP`.CLASS_6 [25:24], RW. -/
def fBSN_QOS_MAP_CLASS_6 : Field := ⟨141, 24, 2, .rw, 1, false, 1608⟩
/-- `BSN_QOS_MAP`.CLASS_7 [29:28], RW. -/
def fBSN_QOS_MAP_CLASS_7 : Field := ⟨142, 28, 2, .rw, 1, false, 1608⟩
/-- `BSN_LOCKSTEP`.RECOVERED [15:0], RO. -/
def fBSN_LOCKSTEP_RECOVERED : Field := ⟨143, 0, 16, .ro, 0, false, 0⟩
/-- `BSN_LOCKSTEP`.FATAL [16:16], RO. -/
def fBSN_LOCKSTEP_FATAL : Field := ⟨144, 16, 1, .ro, 0, false, 0⟩
/-- `BSN_LOCKSTEP_TS`.TS [63:0], RO. -/
def fBSN_LOCKSTEP_TS_TS : Field := ⟨145, 0, 64, .ro, 0, false, 0⟩
/-- `BSN_FLOW_SEL`.FLOW [9:0], RW. -/
def fBSN_FLOW_SEL_FLOW : Field := ⟨146, 0, 10, .rw, 0, false, 1609⟩
/-- `BSN_FLOW_VIEW`.STATE [1:0], RO. -/
def fBSN_FLOW_VIEW_STATE : Field := ⟨147, 0, 2, .ro, 0, false, 0⟩
/-- `BSN_FLOW_VIEW`.DONE [14:8], RO. -/
def fBSN_FLOW_VIEW_DONE : Field := ⟨148, 8, 7, .ro, 0, false, 0⟩
/-- `BSN_FLOW_VIEW`.FN [26:16], RO. -/
def fBSN_FLOW_VIEW_FN : Field := ⟨149, 16, 11, .ro, 0, false, 0⟩
/-- `BSN_FLOW_VIEW`.HEAD [63:32], RO. -/
def fBSN_FLOW_VIEW_HEAD : Field := ⟨150, 32, 32, .ro, 0, false, 0⟩
/-- `BSN_SCRUB_COUNT`.COUNT [63:0], RO. -/
def fBSN_SCRUB_COUNT_COUNT : Field := ⟨151, 0, 64, .ro, 0, false, 0⟩
/-- `BSN_LOCKSTEP_TEST`.INJECT_WEST [0:0], WO. -/
def fBSN_LOCKSTEP_TEST_INJECT_WEST : Field := ⟨152, 0, 1, .wo, 0, false, 0⟩
/-- `BSN_LOCKSTEP_TEST`.INJECT_EAST [1:1], WO. -/
def fBSN_LOCKSTEP_TEST_INJECT_EAST : Field := ⟨153, 1, 1, .wo, 0, false, 0⟩
/-- `BSN_FN_00`.LIST [5:0], RW. -/
def fBSN_FN_LIST : Field := ⟨154, 0, 6, .rw, 0, false, 0⟩
/-- `BSN_FN_00`.RESV [27:16], RW, expert. -/
def fBSN_FN_RESV : Field := ⟨155, 16, 12, .rw, 2, true, 0⟩
/-- `BSN_FN_04`.HELD [12:0], RO. -/
def fBSN_FN_HELD : Field := ⟨156, 0, 13, .ro, 0, false, 0⟩
/-- `BSN_FN_04`.RUNNING [28:16], RO. -/
def fBSN_FN_RUNNING : Field := ⟨157, 16, 13, .ro, 0, false, 0⟩
/-- `BSN_FN_08`.FLOWS [10:0], RO. -/
def fBSN_FN_FLOWS : Field := ⟨158, 0, 11, .ro, 0, false, 0⟩
/-- `BSN_FN_08`.RUNS [31:16], RO. -/
def fBSN_FN_RUNS : Field := ⟨159, 16, 16, .ro, 0, false, 0⟩

-- spec/09_operator_core.md
/-- `OCA_TILE_SUMMARY`.IN_SERVICE [9:0], RO. -/
def fOCA_TILE_SUMMARY_IN_SERVICE : Field := ⟨160, 0, 10, .ro, 0, false, 0⟩
/-- `OCA_TILE_SUMMARY`.IN_MAINT [19:10], RO. -/
def fOCA_TILE_SUMMARY_IN_MAINT : Field := ⟨161, 10, 10, .ro, 0, false, 0⟩
/-- `OCA_TILE_SUMMARY`.FAILED [29:20], RO. -/
def fOCA_TILE_SUMMARY_FAILED : Field := ⟨162, 20, 10, .ro, 0, false, 0⟩
/-- `OCA_CORRECTED`.LOCAL_STORE [31:0], RC. -/
def fOCA_CORRECTED_LOCAL_STORE : Field := ⟨163, 0, 32, .rc, 0, false, 0⟩
/-- `OCA_CORRECTED`.REGISTERS [47:32], RC. -/
def fOCA_CORRECTED_REGISTERS : Field := ⟨164, 32, 16, .rc, 0, false, 0⟩
/-- `OCA_CORRECTED`.ICACHE [63:48], RC. -/
def fOCA_CORRECTED_ICACHE : Field := ⟨165, 48, 16, .rc, 0, false, 0⟩
/-- `OCA_MEM_POLICY`.MAX_LOADS [4:0], RW. -/
def fOCA_MEM_POLICY_MAX_LOADS : Field := ⟨166, 0, 5, .rw, 16, false, 1610⟩
/-- `OCA_ECC_INJECT`.TILE [9:0], WO. -/
def fOCA_ECC_INJECT_TILE : Field := ⟨167, 0, 10, .wo, 0, false, 0⟩
/-- `OCA_ECC_INJECT`.TARGET [11:10], WO. -/
def fOCA_ECC_INJECT_TARGET : Field := ⟨168, 10, 2, .wo, 0, false, 0⟩
/-- `OCA_ECC_INJECT`.DOUBLE [12:12], WO. -/
def fOCA_ECC_INJECT_DOUBLE : Field := ⟨169, 12, 1, .wo, 0, false, 0⟩
/-- `OCA_ECC_INJECT`.GO [13:13], WO. -/
def fOCA_ECC_INJECT_GO : Field := ⟨170, 13, 1, .wo, 0, false, 0⟩
/-- `OCA_TILE_00`.STATE [2:0], RO. -/
def fOCA_TILE_STATE : Field := ⟨171, 0, 3, .ro, 0, false, 0⟩
/-- `OCA_TILE_00`.LOGICAL [13:4], RO. -/
def fOCA_TILE_LOGICAL : Field := ⟨172, 4, 10, .ro, 1023, false, 0⟩
/-- `OCA_TILE_00`.FN_VALID [14:14], RO. -/
def fOCA_TILE_FN_VALID : Field := ⟨173, 14, 1, .ro, 0, false, 0⟩
/-- `OCA_TILE_00`.FN [25:15], RO. -/
def fOCA_TILE_FN : Field := ⟨174, 15, 11, .ro, 0, false, 0⟩
/-- `OCA_TILE_04`.CORE_RESET [0:0], WO. -/
def fOCA_TILE_CORE_RESET : Field := ⟨175, 0, 1, .wo, 0, false, 0⟩
/-- `OCA_TILE_04`.MAINT_ENTER [1:1], WO. -/
def fOCA_TILE_MAINT_ENTER : Field := ⟨176, 1, 1, .wo, 0, false, 0⟩
/-- `OCA_TILE_04`.PROGRAM [15:8], WO. -/
def fOCA_TILE_PROGRAM : Field := ⟨177, 8, 8, .wo, 0, false, 0⟩
/-- `OCA_TILE_08`.TASKS [31:0], RO. -/
def fOCA_TILE_TASKS : Field := ⟨178, 0, 32, .ro, 0, false, 0⟩
/-- `OCA_TILE_0C`.FAULTS [15:0], RO. -/
def fOCA_TILE_FAULTS : Field := ⟨179, 0, 16, .ro, 0, false, 0⟩
/-- `OCA_TILE_0C`.CORRECTED [31:16], RO. -/
def fOCA_TILE_CORRECTED : Field := ⟨180, 16, 16, .ro, 0, false, 0⟩
/-- `OCA_TILE_10`.BUSY_CYCLES [63:0], RO. -/
def fOCA_TILE_BUSY_CYCLES : Field := ⟨181, 0, 64, .ro, 0, false, 0⟩
/-- `OCA_TILE_18`.MAINT_PROGRAM [7:0], RO. -/
def fOCA_TILE_MAINT_PROGRAM : Field := ⟨182, 0, 8, .ro, 0, false, 0⟩
/-- `OCA_TILE_18`.MAINT_DONE [8:8], RO. -/
def fOCA_TILE_MAINT_DONE : Field := ⟨183, 8, 1, .ro, 0, false, 0⟩
/-- `OCA_TILE_18`.MAINT_PASS [9:9], RO. -/
def fOCA_TILE_MAINT_PASS : Field := ⟨184, 9, 1, .ro, 0, false, 0⟩

-- spec/11_associative_match.md
/-- `AMU_POOL`.FREE [6:0], RO. -/
def fAMU_POOL_FREE : Field := ⟨185, 0, 7, .ro, 0, false, 0⟩
/-- `AMU_POOL`.IN_USE [14:8], RO. -/
def fAMU_POOL_IN_USE : Field := ⟨186, 8, 7, .ro, 0, false, 0⟩
/-- `AMU_POOL`.CLEARING [22:16], RO. -/
def fAMU_POOL_CLEARING : Field := ⟨187, 16, 7, .ro, 0, false, 0⟩
/-- `AMU_POOL`.HOLDING [23:23], RO. -/
def fAMU_POOL_HOLDING : Field := ⟨188, 23, 1, .ro, 0, false, 0⟩
/-- `AMU_POOL`.IN_SERVICE [30:24], RO. -/
def fAMU_POOL_IN_SERVICE : Field := ⟨189, 24, 7, .ro, 0, false, 0⟩
/-- `AMU_FALSE_HITS`.COUNT [31:0], RC. -/
def fAMU_FALSE_HITS_COUNT : Field := ⟨190, 0, 32, .rc, 0, false, 0⟩
/-- `AMU_SCRUB`.PERIOD_MS [7:0], RW. -/
def fAMU_SCRUB_PERIOD_MS : Field := ⟨191, 0, 8, .rw, 1, false, 1611⟩
/-- `AMU_SCRUB_FIXED`.COUNT [31:0], RC. -/
def fAMU_SCRUB_FIXED_COUNT : Field := ⟨192, 0, 32, .rc, 0, false, 0⟩
/-- `AMU_SEARCHES`.COUNT [63:0], RO. -/
def fAMU_SEARCHES_COUNT : Field := ⟨193, 0, 64, .ro, 0, false, 0⟩
/-- `AMU_TSEL`.FN [10:0], RW. -/
def fAMU_TSEL_FN : Field := ⟨194, 0, 11, .rw, 0, false, 1612⟩
/-- `AMU_TSEL`.TABLE [13:11], RW. -/
def fAMU_TSEL_TABLE : Field := ⟨195, 11, 3, .rw, 0, false, 1612⟩
/-- `AMU_TSEL`.RUN_TAG [31:16], RW. -/
def fAMU_TSEL_RUN_TAG : Field := ⟨196, 16, 16, .rw, 0, false, 1612⟩
/-- `AMU_TVIEW`.VALID [0:0], RO. -/
def fAMU_TVIEW_VALID : Field := ⟨197, 0, 1, .ro, 0, false, 0⟩
/-- `AMU_TVIEW`.HASHED [1:1], RO. -/
def fAMU_TVIEW_HASHED : Field := ⟨198, 1, 1, .ro, 0, false, 0⟩
/-- `AMU_TVIEW`.SPILLED [2:2], RO. -/
def fAMU_TVIEW_SPILLED : Field := ⟨199, 2, 1, .ro, 0, false, 0⟩
/-- `AMU_TVIEW`.DAMAGED [3:3], RO. -/
def fAMU_TVIEW_DAMAGED : Field := ⟨200, 3, 1, .ro, 0, false, 0⟩
/-- `AMU_TVIEW`.KEY_UNITS [6:4], RO. -/
def fAMU_TVIEW_KEY_UNITS : Field := ⟨201, 4, 3, .ro, 0, false, 0⟩
/-- `AMU_TVIEW`.BANKS [14:8], RO. -/
def fAMU_TVIEW_BANKS : Field := ⟨202, 8, 7, .ro, 0, false, 0⟩
/-- `AMU_TVIEW`.ENTRIES [34:16], RO. -/
def fAMU_TVIEW_ENTRIES : Field := ⟨203, 16, 19, .ro, 0, false, 0⟩
/-- `AMU_TVIEW`.MULTI_ROWS [63:35], RO. -/
def fAMU_TVIEW_MULTI_ROWS : Field := ⟨204, 35, 29, .ro, 0, false, 0⟩
/-- `AMU_RETIRE`.THRESHOLD [15:0], RW. -/
def fAMU_RETIRE_THRESHOLD : Field := ⟨205, 0, 16, .rw, 64, false, 0⟩
/-- `AMU_INJECT`.BANK [6:0], WO. -/
def fAMU_INJECT_BANK : Field := ⟨206, 0, 7, .wo, 0, false, 0⟩
/-- `AMU_INJECT`.ENTRY [18:7], WO. -/
def fAMU_INJECT_ENTRY : Field := ⟨207, 7, 12, .wo, 0, false, 0⟩
/-- `AMU_INJECT`.COPY [19:19], WO. -/
def fAMU_INJECT_COPY : Field := ⟨208, 19, 1, .wo, 0, false, 0⟩
/-- `AMU_INJECT`.GO [20:20], WO. -/
def fAMU_INJECT_GO : Field := ⟨209, 20, 1, .wo, 0, false, 0⟩
/-- `AMU_BANK_00`.STATE [2:0], RO. -/
def fAMU_BANK_STATE : Field := ⟨210, 0, 3, .ro, 0, false, 0⟩
/-- `AMU_BANK_00`.RETIRE_MARK [3:3], RO. -/
def fAMU_BANK_RETIRE_MARK : Field := ⟨211, 3, 1, .ro, 0, false, 0⟩
/-- `AMU_BANK_00`.LOGICAL [10:4], RO. -/
def fAMU_BANK_LOGICAL : Field := ⟨212, 4, 7, .ro, 127, false, 0⟩
/-- `AMU_BANK_00`.FN_VALID [11:11], RO. -/
def fAMU_BANK_FN_VALID : Field := ⟨213, 11, 1, .ro, 0, false, 0⟩
/-- `AMU_BANK_00`.FN [22:12], RO. -/
def fAMU_BANK_FN : Field := ⟨214, 12, 11, .ro, 0, false, 0⟩
/-- `AMU_BANK_00`.TABLE [25:23], RO. -/
def fAMU_BANK_TABLE : Field := ⟨215, 23, 3, .ro, 0, false, 0⟩
/-- `AMU_BANK_00`.KEY_UNITS [28:26], RO. -/
def fAMU_BANK_KEY_UNITS : Field := ⟨216, 26, 3, .ro, 0, false, 0⟩
/-- `AMU_BANK_04`.USED [12:0], RO. -/
def fAMU_BANK_USED : Field := ⟨217, 0, 13, .ro, 0, false, 0⟩
/-- `AMU_BANK_08`.FALSE_HITS [15:0], RO. -/
def fAMU_BANK_FALSE_HITS : Field := ⟨218, 0, 16, .ro, 0, false, 0⟩
/-- `AMU_BANK_08`.SCRUB_FIXED [31:16], RO. -/
def fAMU_BANK_SCRUB_FIXED : Field := ⟨219, 16, 16, .ro, 0, false, 0⟩
/-- `AMU_BANK_10`.SEARCHES [63:0], RO. -/
def fAMU_BANK_SEARCHES : Field := ⟨220, 0, 64, .ro, 0, false, 0⟩
/-- `AMU_FN`.LIMIT [6:0], RW. -/
def fAMU_FN_LIMIT : Field := ⟨221, 0, 7, .rw, 64, false, 0⟩
/-- `AMU_FN`.HELD [22:16], RO. -/
def fAMU_FN_HELD : Field := ⟨222, 16, 7, .ro, 0, false, 0⟩

-- spec/12_mangle_compression.md
/-- `MGL_VERIFY`.GRAPH [0:0], RW. -/
def fMGL_VERIFY_GRAPH : Field := ⟨223, 0, 1, .rw, 0, false, 1613⟩
/-- `MGL_VERIFY`.FORCE [1:1], RW. -/
def fMGL_VERIFY_FORCE : Field := ⟨224, 1, 1, .rw, 0, false, 1613⟩
/-- `MGL_GRAPH_COMP`.BLOCK_KIB [12:0], RW. -/
def fMGL_GRAPH_COMP_BLOCK_KIB : Field := ⟨225, 0, 13, .rw, 256, false, 1614⟩
/-- `MGL_POOL`.IN_SERVICE [4:0], RO. -/
def fMGL_POOL_IN_SERVICE : Field := ⟨226, 0, 5, .ro, 0, false, 0⟩
/-- `MGL_POOL`.BUSY [12:8], RO. -/
def fMGL_POOL_BUSY : Field := ⟨227, 8, 5, .ro, 0, false, 0⟩
/-- `MGL_POOL`.SPARES_LEFT [17:16], RO. -/
def fMGL_POOL_SPARES_LEFT : Field := ⟨228, 16, 2, .ro, 0, false, 0⟩
/-- `MGL_VERIFY_FAILS`.COUNT [31:0], RC. -/
def fMGL_VERIFY_FAILS_COUNT : Field := ⟨229, 0, 32, .rc, 0, false, 0⟩
/-- `MGL_CHECK_FAILS`.COUNT [31:0], RC. -/
def fMGL_CHECK_FAILS_COUNT : Field := ⟨230, 0, 32, .rc, 0, false, 0⟩
/-- `MGL_BYTES_IN`.COUNT [63:0], RO. -/
def fMGL_BYTES_IN_COUNT : Field := ⟨231, 0, 64, .ro, 0, false, 0⟩
/-- `MGL_BYTES_OUT`.COUNT [63:0], RO. -/
def fMGL_BYTES_OUT_COUNT : Field := ⟨232, 0, 64, .ro, 0, false, 0⟩
/-- `MGL_RETIRE`.THRESHOLD [15:0], RW. -/
def fMGL_RETIRE_THRESHOLD : Field := ⟨233, 0, 16, .rw, 4, false, 0⟩
/-- `MGL_INJECT`.ENGINE [4:0], WO. -/
def fMGL_INJECT_ENGINE : Field := ⟨234, 0, 5, .wo, 0, false, 0⟩
/-- `MGL_INJECT`.GO [5:5], WO. -/
def fMGL_INJECT_GO : Field := ⟨235, 5, 1, .wo, 0, false, 0⟩
/-- `MGL_ENGINE_00`.STATE [2:0], RO. -/
def fMGL_ENGINE_STATE : Field := ⟨236, 0, 3, .ro, 0, false, 0⟩
/-- `MGL_ENGINE_00`.RETIRE_MARK [3:3], RO. -/
def fMGL_ENGINE_RETIRE_MARK : Field := ⟨237, 3, 1, .ro, 0, false, 0⟩
/-- `MGL_ENGINE_00`.LOGICAL [8:4], RO. -/
def fMGL_ENGINE_LOGICAL : Field := ⟨238, 4, 5, .ro, 31, false, 0⟩
/-- `MGL_ENGINE_00`.FN_VALID [9:9], RO. -/
def fMGL_ENGINE_FN_VALID : Field := ⟨239, 9, 1, .ro, 0, false, 0⟩
/-- `MGL_ENGINE_00`.FN [20:10], RO. -/
def fMGL_ENGINE_FN : Field := ⟨240, 10, 11, .ro, 0, false, 0⟩
/-- `MGL_ENGINE_04`.JOBS [31:0], RO. -/
def fMGL_ENGINE_JOBS : Field := ⟨241, 0, 32, .ro, 0, false, 0⟩
/-- `MGL_ENGINE_08`.VERIFY_FAILS [15:0], RO. -/
def fMGL_ENGINE_VERIFY_FAILS : Field := ⟨242, 0, 16, .ro, 0, false, 0⟩
/-- `MGL_ENGINE_10`.BYTES_OUT [63:0], RO. -/
def fMGL_ENGINE_BYTES_OUT : Field := ⟨243, 0, 64, .ro, 0, false, 0⟩

-- spec/13_halyard_dma.md
/-- `HAL_GPIO_MAP`.MODE_0 [1:0], RW. -/
def fHAL_GPIO_MAP_MODE_0 : Field := ⟨244, 0, 2, .rw, 0, false, 1615⟩
/-- `HAL_GPIO_MAP`.MODE_1 [3:2], RW. -/
def fHAL_GPIO_MAP_MODE_1 : Field := ⟨245, 2, 2, .rw, 0, false, 1615⟩
/-- `HAL_GPIO_MAP`.MODE_2 [5:4], RW. -/
def fHAL_GPIO_MAP_MODE_2 : Field := ⟨246, 4, 2, .rw, 0, false, 1615⟩
/-- `HAL_GPIO_MAP`.MODE_3 [7:6], RW. -/
def fHAL_GPIO_MAP_MODE_3 : Field := ⟨247, 6, 2, .rw, 0, false, 1615⟩
/-- `HAL_GPIO_MAP`.MODE_4 [9:8], RW. -/
def fHAL_GPIO_MAP_MODE_4 : Field := ⟨248, 8, 2, .rw, 0, false, 1615⟩
/-- `HAL_GPIO_MAP`.MODE_5 [11:10], RW. -/
def fHAL_GPIO_MAP_MODE_5 : Field := ⟨249, 10, 2, .rw, 0, false, 1615⟩
/-- `HAL_GPIO_MAP`.MODE_6 [13:12], RW. -/
def fHAL_GPIO_MAP_MODE_6 : Field := ⟨250, 12, 2, .rw, 0, false, 1615⟩
/-- `HAL_GPIO_MAP`.MODE_7 [15:14], RW. -/
def fHAL_GPIO_MAP_MODE_7 : Field := ⟨251, 14, 2, .rw, 0, false, 1615⟩
/-- `HAL_CH_DONE`.DONE [63:0], W1C. -/
def fHAL_CH_DONE_DONE : Field := ⟨252, 0, 64, .w1c, 0, false, 0⟩
/-- `HAL_BYTES`.COUNT [63:0], RO. -/
def fHAL_BYTES_COUNT : Field := ⟨253, 0, 64, .ro, 0, false, 0⟩

-- spec/14_column_volume.md
/-- `CVC_VOL_CFG`.MEMBERS [3:0], RW. -/
def fCVC_VOL_CFG_MEMBERS : Field := ⟨254, 0, 4, .rw, 0, false, 1616⟩
/-- `CVC_VOL_CFG`.PARITY [4:4], RW. -/
def fCVC_VOL_CFG_PARITY : Field := ⟨255, 4, 1, .rw, 0, false, 1616⟩
/-- `CVC_VOL_CFG`.CHUNK_LOG2 [11:8], RW. -/
def fCVC_VOL_CFG_CHUNK_LOG2 : Field := ⟨256, 8, 4, .rw, 4, false, 1616⟩
/-- `CVC_VOL_CFG`.SPARE_PORT [18:16], RW. -/
def fCVC_VOL_CFG_SPARE_PORT : Field := ⟨257, 16, 3, .rw, 0, false, 1616⟩
/-- `CVC_VOL_CFG`.SPARE_EN [19:19], RW. -/
def fCVC_VOL_CFG_SPARE_EN : Field := ⟨258, 19, 1, .rw, 0, false, 1616⟩
/-- `CVC_VOL_CFG`.MEMBER_PORT_0 [34:32], RW. -/
def fCVC_VOL_CFG_MEMBER_PORT_0 : Field := ⟨259, 32, 3, .rw, 0, false, 1616⟩
/-- `CVC_VOL_CFG`.MEMBER_PORT_1 [38:36], RW. -/
def fCVC_VOL_CFG_MEMBER_PORT_1 : Field := ⟨260, 36, 3, .rw, 1, false, 1616⟩
/-- `CVC_VOL_CFG`.MEMBER_PORT_2 [42:40], RW. -/
def fCVC_VOL_CFG_MEMBER_PORT_2 : Field := ⟨261, 40, 3, .rw, 2, false, 1616⟩
/-- `CVC_VOL_CFG`.MEMBER_PORT_3 [46:44], RW. -/
def fCVC_VOL_CFG_MEMBER_PORT_3 : Field := ⟨262, 44, 3, .rw, 3, false, 1616⟩
/-- `CVC_VOL_CFG`.MEMBER_PORT_4 [50:48], RW. -/
def fCVC_VOL_CFG_MEMBER_PORT_4 : Field := ⟨263, 48, 3, .rw, 4, false, 1616⟩
/-- `CVC_VOL_CFG`.MEMBER_PORT_5 [54:52], RW. -/
def fCVC_VOL_CFG_MEMBER_PORT_5 : Field := ⟨264, 52, 3, .rw, 5, false, 1616⟩
/-- `CVC_VOL_CFG`.MEMBER_PORT_6 [58:56], RW. -/
def fCVC_VOL_CFG_MEMBER_PORT_6 : Field := ⟨265, 56, 3, .rw, 6, false, 1616⟩
/-- `CVC_VOL_CFG`.MEMBER_PORT_7 [62:60], RW. -/
def fCVC_VOL_CFG_MEMBER_PORT_7 : Field := ⟨266, 60, 3, .rw, 7, false, 1616⟩
/-- `CVC_VOL_CTRL`.OP [2:0], WO. -/
def fCVC_VOL_CTRL_OP : Field := ⟨267, 0, 3, .wo, 0, false, 0⟩
/-- `CVC_VOL_CTRL`.PORT [10:8], WO. -/
def fCVC_VOL_CTRL_PORT : Field := ⟨268, 8, 3, .wo, 0, false, 0⟩
/-- `CVC_VOL_STATUS`.STATE [2:0], RO. -/
def fCVC_VOL_STATUS_STATE : Field := ⟨269, 0, 3, .ro, 0, false, 0⟩
/-- `CVC_VOL_STATUS`.RESYNC [3:3], RO. -/
def fCVC_VOL_STATUS_RESYNC : Field := ⟨270, 3, 1, .ro, 0, false, 0⟩
/-- `CVC_VOL_STATUS`.OP_BUSY [4:4], RO. -/
def fCVC_VOL_STATUS_OP_BUSY : Field := ⟨271, 4, 1, .ro, 0, false, 0⟩
/-- `CVC_VOL_STATUS`.LAST_RESULT [6:5], RO. -/
def fCVC_VOL_STATUS_LAST_RESULT : Field := ⟨272, 5, 2, .ro, 0, false, 0⟩
/-- `CVC_VOL_STATUS`.MISSING [23:16], RO. -/
def fCVC_VOL_STATUS_MISSING : Field := ⟨273, 16, 8, .ro, 0, false, 0⟩
/-- `CVC_VOL_STATUS`.FOREIGN [31:24], RO. -/
def fCVC_VOL_STATUS_FOREIGN : Field := ⟨274, 24, 8, .ro, 0, false, 0⟩
/-- `CVC_VOL_STATUS`.GENERATION [63:32], RO. -/
def fCVC_VOL_STATUS_GENERATION : Field := ⟨275, 32, 32, .ro, 0, false, 0⟩
/-- `CVC_VOL_BLOCKS`.VALUE [63:0], RO. -/
def fCVC_VOL_BLOCKS_VALUE : Field := ⟨276, 0, 64, .ro, 0, false, 0⟩
/-- `CVC_VOL_ID`.VALUE [63:0], RO. -/
def fCVC_VOL_ID_VALUE : Field := ⟨277, 0, 64, .ro, 0, false, 0⟩
/-- `CVC_LOCKS`.IN_USE [9:0], RO. -/
def fCVC_LOCKS_IN_USE : Field := ⟨278, 0, 10, .ro, 0, false, 0⟩
/-- `CVC_LOCKS`.ORPHANED [19:10], RO. -/
def fCVC_LOCKS_ORPHANED : Field := ⟨279, 10, 10, .ro, 0, false, 0⟩
/-- `CVC_LOCKS`.FIFO [31:20], RO. -/
def fCVC_LOCKS_FIFO : Field := ⟨280, 20, 12, .ro, 0, false, 0⟩
/-- `CVC_LOCK_RESV`.RESV_SUM [9:0], RO. -/
def fCVC_LOCK_RESV_RESV_SUM : Field := ⟨281, 0, 10, .ro, 0, false, 0⟩
/-- `CVC_LOCK_RESV`.SHARED_SIZE [25:16], RO. -/
def fCVC_LOCK_RESV_SHARED_SIZE : Field := ⟨282, 16, 10, .ro, 512, false, 0⟩
/-- `CVC_COMMANDS`.IN_CVC [11:0], RO. -/
def fCVC_COMMANDS_IN_CVC : Field := ⟨283, 0, 12, .ro, 0, false, 0⟩
/-- `CVC_DRIVE_TIMEOUT`.MS [15:0], RW. -/
def fCVC_DRIVE_TIMEOUT_MS : Field := ⟨284, 0, 16, .rw, 10000, false, 1617⟩
/-- `CVC_REBUILD`.RATE_MBS [15:0], RW. -/
def fCVC_REBUILD_RATE_MBS : Field := ⟨285, 0, 16, .rw, 1000, false, 1618⟩
/-- `CVC_REBUILD_POS`.STRIPE [47:0], RO. -/
def fCVC_REBUILD_POS_STRIPE : Field := ⟨286, 0, 48, .ro, 0, false, 0⟩
/-- `CVC_PS_CAPS`.EXIT_US_1 [15:0], RO. -/
def fCVC_PS_CAPS_EXIT_US_1 : Field := ⟨287, 0, 16, .ro, 50, false, 0⟩
/-- `CVC_PS_CAPS`.EXIT_US_2 [31:16], RO. -/
def fCVC_PS_CAPS_EXIT_US_2 : Field := ⟨288, 16, 16, .ro, 500, false, 0⟩
/-- `CVC_PS_CAPS`.EXIT_US_3 [47:32], RO. -/
def fCVC_PS_CAPS_EXIT_US_3 : Field := ⟨289, 32, 16, .ro, 5000, false, 0⟩
/-- `CVC_PS_CAPS`.EXIT_US_4 [63:48], RO. -/
def fCVC_PS_CAPS_EXIT_US_4 : Field := ⟨290, 48, 16, .ro, 50000, false, 0⟩
/-- `CVC_PS_TIMER`.IDLE_US [30:0], RW. -/
def fCVC_PS_TIMER_IDLE_US : Field := ⟨291, 0, 31, .rw, 0, false, 1619⟩
/-- `CVC_PS_STATUS`.STATE [2:0], RO. -/
def fCVC_PS_STATUS_STATE : Field := ⟨292, 0, 3, .ro, 0, false, 0⟩
/-- `CVC_PS_STATUS`.WAKING [3:3], RO. -/
def fCVC_PS_STATUS_WAKING : Field := ⟨293, 3, 1, .ro, 0, false, 0⟩
/-- `CVC_PS_STATUS`.WAKES [31:16], RO. -/
def fCVC_PS_STATUS_WAKES : Field := ⟨294, 16, 16, .ro, 0, false, 0⟩
/-- `CVC_MEDIA`.REPAIRED [31:0], RC. -/
def fCVC_MEDIA_REPAIRED : Field := ⟨295, 0, 32, .rc, 0, false, 0⟩
/-- `CVC_MEDIA`.TIMEOUTS [63:32], RC. -/
def fCVC_MEDIA_TIMEOUTS : Field := ⟨296, 32, 32, .rc, 0, false, 0⟩
/-- `CVC_FN_00`.GRANT_BASE [47:0], RW. -/
def fCVC_FN_GRANT_BASE : Field := ⟨297, 0, 48, .rw, 0, false, 0⟩
/-- `CVC_FN_08`.GRANT_BLOCKS [47:0], RW. -/
def fCVC_FN_GRANT_BLOCKS : Field := ⟨298, 0, 48, .rw, 0, false, 0⟩
/-- `CVC_FN_10`.ENABLE [0:0], RW. -/
def fCVC_FN_ENABLE : Field := ⟨299, 0, 1, .rw, 0, false, 0⟩
/-- `CVC_FN_10`.READ_ONLY [1:1], RW. -/
def fCVC_FN_READ_ONLY : Field := ⟨300, 1, 1, .rw, 0, false, 0⟩
/-- `CVC_FN_10`.RESV [25:16], RW, expert. -/
def fCVC_FN_RESV : Field := ⟨301, 16, 10, .rw, 0, true, 0⟩
/-- `CVC_FN_14`.HELD [9:0], RO. -/
def fCVC_FN_HELD : Field := ⟨302, 0, 10, .ro, 0, false, 0⟩
/-- `CVC_FN_14`.CMDS [27:16], RO. -/
def fCVC_FN_CMDS : Field := ⟨303, 16, 12, .ro, 0, false, 0⟩
/-- `CVC_FN_18`.CMD_RESV [11:0], RW, expert. -/
def fCVC_FN_CMD_RESV : Field := ⟨304, 0, 12, .rw, 1, true, 0⟩
/-- `CVC_FN_18`.CMD_LIMIT [27:16], RW. -/
def fCVC_FN_CMD_LIMIT : Field := ⟨305, 16, 12, .rw, 256, false, 0⟩
/-- `DSP_PORT_00`.STATE [2:0], RO. -/
def fDSP_PORT_STATE : Field := ⟨306, 0, 3, .ro, 0, false, 0⟩
/-- `DSP_PORT_00`.PRESENT [3:3], RO. -/
def fDSP_PORT_PRESENT : Field := ⟨307, 3, 1, .ro, 0, false, 0⟩
/-- `DSP_PORT_00`.SPEED [6:4], RO. -/
def fDSP_PORT_SPEED : Field := ⟨308, 4, 3, .ro, 0, false, 0⟩
/-- `DSP_PORT_00`.WIDTH [9:7], RO. -/
def fDSP_PORT_WIDTH : Field := ⟨309, 7, 3, .ro, 0, false, 0⟩
/-- `DSP_PORT_00`.VWC [10:10], RO. -/
def fDSP_PORT_VWC : Field := ⟨310, 10, 1, .ro, 0, false, 0⟩
/-- `DSP_PORT_00`.ROLE [12:11], RO. -/
def fDSP_PORT_ROLE : Field := ⟨311, 11, 2, .ro, 0, false, 0⟩
/-- `DSP_PORT_00`.INDEX [15:13], RO. -/
def fDSP_PORT_INDEX : Field := ⟨312, 13, 3, .ro, 0, false, 0⟩
/-- `DSP_PORT_00`.LBA512 [16:16], RO. -/
def fDSP_PORT_LBA512 : Field := ⟨313, 16, 1, .ro, 0, false, 0⟩
/-- `DSP_PORT_04`.IO_QUEUES [4:0], RO. -/
def fDSP_PORT_IO_QUEUES : Field := ⟨314, 0, 5, .ro, 0, false, 0⟩
/-- `DSP_PORT_04`.MTFA [31:16], RO. -/
def fDSP_PORT_MTFA : Field := ⟨315, 16, 16, .ro, 0, false, 0⟩
/-- `DSP_PORT_08`.BLOCKS [63:0], RO. -/
def fDSP_PORT_BLOCKS : Field := ⟨316, 0, 64, .ro, 0, false, 0⟩
/-- `DSP_PORT_10`.ERRORS [15:0], RO. -/
def fDSP_PORT_ERRORS : Field := ⟨317, 0, 16, .ro, 0, false, 0⟩
/-- `DSP_PORT_10`.TIMEOUTS [31:16], RO. -/
def fDSP_PORT_TIMEOUTS : Field := ⟨318, 16, 16, .ro, 0, false, 0⟩
/-- `DSP_PORT_14`.DRIVE_PS [4:0], RO. -/
def fDSP_PORT_DRIVE_PS : Field := ⟨319, 0, 5, .ro, 0, false, 0⟩
/-- `DSP_PORT_18`.COMMANDS [63:0], RO. -/
def fDSP_PORT_COMMANDS : Field := ⟨320, 0, 64, .ro, 0, false, 0⟩
/-- `DSP_PORT_20`.RETRAIN [0:0], WO. -/
def fDSP_PORT_RETRAIN : Field := ⟨321, 0, 1, .wo, 0, false, 0⟩
/-- `DSP_PORT_20`.DISABLE [1:1], RW. -/
def fDSP_PORT_DISABLE : Field := ⟨322, 1, 1, .rw, 0, false, 0⟩

-- spec/15_digest_engine.md
/-- `DGE_POOL`.FREE [6:0], RO. -/
def fDGE_POOL_FREE : Field := ⟨323, 0, 7, .ro, 64, false, 0⟩
/-- `DGE_POOL`.CLAIMED [14:8], RO. -/
def fDGE_POOL_CLAIMED : Field := ⟨324, 8, 7, .ro, 0, false, 0⟩
/-- `DGE_POOL`.QUEUED [22:16], RO. -/
def fDGE_POOL_QUEUED : Field := ⟨325, 16, 7, .ro, 0, false, 0⟩
/-- `DGE_BLOCKS`.COUNT [63:0], RO. -/
def fDGE_BLOCKS_COUNT : Field := ⟨326, 0, 64, .ro, 0, false, 0⟩
/-- `DGE_CLEAR_CAUSE`.BUS_ERROR [0:0], W1C. -/
def fDGE_CLEAR_CAUSE_BUS_ERROR : Field := ⟨327, 0, 1, .w1c, 0, false, 0⟩
/-- `DGE_CLEAR_CAUSE`.ALARM_GLITCH [1:1], W1C. -/
def fDGE_CLEAR_CAUSE_ALARM_GLITCH : Field := ⟨328, 1, 1, .w1c, 0, false, 0⟩
/-- `DGE_CLEAR_CAUSE`.ALARM_TEST_PORT [2:2], W1C. -/
def fDGE_CLEAR_CAUSE_ALARM_TEST_PORT : Field := ⟨329, 2, 1, .w1c, 0, false, 0⟩
/-- `DGE_CLEAR_CAUSE`.ALARM_FATAL [3:3], W1C. -/
def fDGE_CLEAR_CAUSE_ALARM_FATAL : Field := ⟨330, 3, 1, .w1c, 0, false, 0⟩
/-- `DGE_CLEAR_CAUSE`.SOFT_RESET [4:4], W1C. -/
def fDGE_CLEAR_CAUSE_SOFT_RESET : Field := ⟨331, 4, 1, .w1c, 0, false, 0⟩
/-- `DGE_CLEAR_CAUSE`.COUNT [31:16], RO. -/
def fDGE_CLEAR_CAUSE_COUNT : Field := ⟨332, 16, 16, .ro, 0, false, 0⟩
/-- `DGE_ALARM_TEST`.GO [0:0], WO. -/
def fDGE_ALARM_TEST_GO : Field := ⟨333, 0, 1, .wo, 0, false, 0⟩
/-- `DGE_FN_00`.LIMIT [4:0], RW. -/
def fDGE_FN_LIMIT : Field := ⟨334, 0, 5, .rw, 4, false, 0⟩
/-- `DGE_FN_00`.HELD [20:16], RO. -/
def fDGE_FN_HELD : Field := ⟨335, 16, 5, .ro, 0, false, 0⟩
/-- `DGE_FN_04`.EPOCH [31:0], RO. -/
def fDGE_FN_EPOCH : Field := ⟨336, 0, 32, .ro, 0, false, 0⟩

-- spec/16_memory_translation_ecc.md
/-- `HMC_MAP_VA`.VPN [47:21], RW. -/
def fHMC_MAP_VA_VPN : Field := ⟨337, 21, 27, .rw, 0, false, 1620⟩
/-- `HMC_MAP_PA`.PPN [38:21], RW. -/
def fHMC_MAP_PA_PPN : Field := ⟨338, 21, 18, .rw, 0, false, 1621⟩
/-- `HMC_MAP_ARGS`.FN [10:0], RW. -/
def fHMC_MAP_ARGS_FN : Field := ⟨339, 0, 11, .rw, 0, false, 1622⟩
/-- `HMC_MAP_ARGS`.WRITE [11:11], RW. -/
def fHMC_MAP_ARGS_WRITE : Field := ⟨340, 11, 1, .rw, 0, false, 1622⟩
/-- `HMC_MAP_ARGS`.EXEC [12:12], RW. -/
def fHMC_MAP_ARGS_EXEC : Field := ⟨341, 12, 1, .rw, 0, false, 1622⟩
/-- `HMC_MAP_ARGS`.COUNT [30:13], RW. -/
def fHMC_MAP_ARGS_COUNT : Field := ⟨342, 13, 18, .rw, 0, false, 1622⟩
/-- `HMC_MAP_CTRL`.OP [2:0], WO. -/
def fHMC_MAP_CTRL_OP : Field := ⟨343, 0, 3, .wo, 0, false, 0⟩
/-- `HMC_MAP_STATUS`.BUSY [0:0], RO. -/
def fHMC_MAP_STATUS_BUSY : Field := ⟨344, 0, 1, .ro, 0, false, 0⟩
/-- `HMC_MAP_STATUS`.RESULT [3:1], RO. -/
def fHMC_MAP_STATUS_RESULT : Field := ⟨345, 1, 3, .ro, 0, false, 0⟩
/-- `HMC_MAP_STATUS`.DONE_PAGES [21:4], RO. -/
def fHMC_MAP_STATUS_DONE_PAGES : Field := ⟨346, 4, 18, .ro, 0, false, 0⟩
/-- `HMC_SCRUB_CFG`.PASS_MIN [15:0], RW. -/
def fHMC_SCRUB_CFG_PASS_MIN : Field := ⟨347, 0, 16, .rw, 60, false, 1623⟩
/-- `HMC_SCRUB_CFG`.ENABLE [16:16], RW. -/
def fHMC_SCRUB_CFG_ENABLE : Field := ⟨348, 16, 1, .rw, 1, false, 1623⟩
/-- `HMC_BUCKET_CFG`.CAPACITY [11:0], RW. -/
def fHMC_BUCKET_CFG_CAPACITY : Field := ⟨349, 0, 12, .rw, 64, false, 1624⟩
/-- `HMC_BUCKET_CFG`.LEAK [23:12], RW. -/
def fHMC_BUCKET_CFG_LEAK : Field := ⟨350, 12, 12, .rw, 4, false, 1624⟩
/-- `HMC_BUCKET_CFG`.WINDOW_S [30:24], RW. -/
def fHMC_BUCKET_CFG_WINDOW_S : Field := ⟨351, 24, 7, .rw, 60, false, 1624⟩
/-- `HMC_POISON_COUNT`.COUNT [31:0], RC. -/
def fHMC_POISON_COUNT_COUNT : Field := ⟨352, 0, 32, .rc, 0, false, 0⟩
/-- `HMC_TEST_ADDR`.LINE [38:6], RW. -/
def fHMC_TEST_ADDR_LINE : Field := ⟨353, 6, 33, .rw, 0, false, 0⟩
/-- `HMC_TEST_CTRL`.OP [1:0], WO. -/
def fHMC_TEST_CTRL_OP : Field := ⟨354, 0, 2, .wo, 0, false, 0⟩
/-- `HMC_TEST_CHECK`.CHECK [31:0], RW. -/
def fHMC_TEST_CHECK_CHECK : Field := ⟨355, 0, 32, .rw, 0, false, 0⟩
/-- `HMC_TEST_RESULT`.DECODE [1:0], RO. -/
def fHMC_TEST_RESULT_DECODE : Field := ⟨356, 0, 2, .ro, 0, false, 0⟩
/-- `HMC_TEST_RESULT`.SYMBOL [8:2], RO. -/
def fHMC_TEST_RESULT_SYMBOL : Field := ⟨357, 2, 7, .ro, 0, false, 0⟩
/-- `HMC_TEST_RESULT`.REFUSED [9:9], RO. -/
def fHMC_TEST_RESULT_REFUSED : Field := ⟨358, 9, 1, .ro, 0, false, 0⟩
/-- `HMC_TEST_DATA`.BYTES [31:0], RW. -/
def fHMC_TEST_DATA_BYTES : Field := ⟨359, 0, 32, .rw, 0, false, 0⟩
/-- `HMC_STACK_00`.STATE [1:0], RO. -/
def fHMC_STACK_STATE : Field := ⟨360, 0, 2, .ro, 0, false, 0⟩
/-- `HMC_STACK_00`.STAGING [2:2], RO. -/
def fHMC_STACK_STAGING : Field := ⟨361, 2, 1, .ro, 0, false, 0⟩
/-- `HMC_STACK_00`.SCRUB_ACTIVE [3:3], RO. -/
def fHMC_STACK_SCRUB_ACTIVE : Field := ⟨362, 3, 1, .ro, 0, false, 0⟩
/-- `HMC_STACK_04`.BUCKET [15:0], RO. -/
def fHMC_STACK_BUCKET : Field := ⟨363, 0, 16, .ro, 0, false, 0⟩
/-- `HMC_STACK_04`.OVERFLOWS [31:16], RO. -/
def fHMC_STACK_OVERFLOWS : Field := ⟨364, 16, 16, .ro, 0, false, 0⟩
/-- `HMC_STACK_08`.CORRECTED [31:0], RO. -/
def fHMC_STACK_CORRECTED : Field := ⟨365, 0, 32, .ro, 0, false, 0⟩
/-- `HMC_STACK_0C`.UNCORR [15:0], RO. -/
def fHMC_STACK_UNCORR : Field := ⟨366, 0, 16, .ro, 0, false, 0⟩
/-- `HMC_STACK_0C`.POISON_WRITES [31:16], RO. -/
def fHMC_STACK_POISON_WRITES : Field := ⟨367, 16, 16, .ro, 0, false, 0⟩
/-- `HMC_STACK_10`.SCRUB_POS [35:0], RO. -/
def fHMC_STACK_SCRUB_POS : Field := ⟨368, 0, 36, .ro, 0, false, 0⟩
/-- `HMC_STACK_10`.PASSES [63:36], RO. -/
def fHMC_STACK_PASSES : Field := ⟨369, 36, 28, .ro, 0, false, 0⟩
/-- `HMC_STACK_18`.STICKY_HELD [7:0], RO. -/
def fHMC_STACK_STICKY_HELD : Field := ⟨370, 0, 8, .ro, 0, false, 0⟩
/-- `HMC_STACK_18`.STICKY_SENT [15:8], RO. -/
def fHMC_STACK_STICKY_SENT : Field := ⟨371, 8, 8, .ro, 0, false, 0⟩
/-- `HMC_STACK_18`.STICKY_DROPPED [23:16], RO. -/
def fHMC_STACK_STICKY_DROPPED : Field := ⟨372, 16, 8, .ro, 0, false, 0⟩
/-- `HMC_FN_00`.PAGES [17:0], RO. -/
def fHMC_FN_PAGES : Field := ⟨373, 0, 18, .ro, 0, false, 0⟩
/-- `HMC_FN_04`.FAULTS [15:0], RO. -/
def fHMC_FN_FAULTS : Field := ⟨374, 0, 16, .ro, 0, false, 0⟩

-- spec/17_time_and_events.md
/-- `TSU_COUNT`.COUNT [63:0], RO. -/
def fTSU_COUNT_COUNT : Field := ⟨375, 0, 64, .ro, 0, false, 0⟩
/-- `TSU_LOG_SEL`.SOURCES [16:0], RW. -/
def fTSU_LOG_SEL_SOURCES : Field := ⟨376, 0, 17, .rw, 131071, false, 1625⟩
/-- `TSU_LOG_SEL`.TILES [17:17], RW. -/
def fTSU_LOG_SEL_TILES : Field := ⟨377, 17, 1, .rw, 1, false, 1625⟩
/-- `TSU_LOG_TOTAL`.TOTAL [63:0], RO. -/
def fTSU_LOG_TOTAL_TOTAL : Field := ⟨378, 0, 64, .ro, 0, false, 0⟩
/-- `TSU_LOG_LOST`.COUNT [31:0], RC. -/
def fTSU_LOG_LOST_COUNT : Field := ⟨379, 0, 32, .rc, 0, false, 0⟩
/-- `TSU_MARK`.DETAIL [31:0], WO. -/
def fTSU_MARK_DETAIL : Field := ⟨380, 0, 32, .wo, 0, false, 0⟩
/-- `TSU_PTM_CTRL`.ENABLE [0:0], RW. -/
def fTSU_PTM_CTRL_ENABLE : Field := ⟨381, 0, 1, .rw, 0, false, 1626⟩
/-- `TSU_PTM_CTRL`.PERIOD_MS [15:8], RW. -/
def fTSU_PTM_CTRL_PERIOD_MS : Field := ⟨382, 8, 8, .rw, 10, false, 1626⟩
/-- `TSU_PTM_STATUS`.VALID [0:0], RO. -/
def fTSU_PTM_STATUS_VALID : Field := ⟨383, 0, 1, .ro, 0, false, 0⟩
/-- `TSU_PTM_STATUS`.FAILED [1:1], W1C. -/
def fTSU_PTM_STATUS_FAILED : Field := ⟨384, 1, 1, .w1c, 0, false, 0⟩
/-- `TSU_PTM_STATUS`.SYNCS [31:16], RO. -/
def fTSU_PTM_STATUS_SYNCS : Field := ⟨385, 16, 16, .ro, 0, false, 0⟩
/-- `TSU_PTM_LOCAL`.LOCAL [63:0], RO. -/
def fTSU_PTM_LOCAL_LOCAL : Field := ⟨386, 0, 64, .ro, 0, false, 0⟩
/-- `TSU_PTM_HOST`.HOST [63:0], RO. -/
def fTSU_PTM_HOST_HOST : Field := ⟨387, 0, 64, .ro, 0, false, 0⟩
/-- `TSU_PTM_RATE`.RATE [31:0], RO. -/
def fTSU_PTM_RATE_RATE : Field := ⟨388, 0, 32, .ro, 0, false, 0⟩
/-- `TSU_LOG_00`.ENTRY_LO [63:0], RO. -/
def fTSU_LOG_ENTRY_LO : Field := ⟨389, 0, 64, .ro, 0, false, 0⟩
/-- `TSU_LOG_08`.ENTRY_HI [63:0], RO. -/
def fTSU_LOG_ENTRY_HI : Field := ⟨390, 0, 64, .ro, 0, false, 0⟩

-- spec/18_power_reefing_and_spares.md
/-- `PWR_LIMIT`.LIMIT_W [9:0], RW. -/
def fPWR_LIMIT_LIMIT_W : Field := ⟨391, 0, 10, .rw, 800, false, 1627⟩
/-- `PWR_LIMIT`.HYST_W [17:10], RW. -/
def fPWR_LIMIT_HYST_W : Field := ⟨392, 10, 8, .rw, 40, false, 1627⟩
/-- `PWR_REEF_STATUS`.LEVEL [1:0], RO. -/
def fPWR_REEF_STATUS_LEVEL : Field := ⟨393, 0, 2, .ro, 0, false, 0⟩
/-- `PWR_REEF_STATUS`.CONTROLLER [3:2], RO. -/
def fPWR_REEF_STATUS_CONTROLLER : Field := ⟨394, 2, 2, .ro, 0, false, 0⟩
/-- `PWR_REEF_STATUS`.THERMAL [5:4], RO. -/
def fPWR_REEF_STATUS_THERMAL : Field := ⟨395, 4, 2, .ro, 0, false, 0⟩
/-- `PWR_REEF_STATUS`.THROTTLE [7:6], RO. -/
def fPWR_REEF_STATUS_THROTTLE : Field := ⟨396, 6, 2, .ro, 0, false, 0⟩
/-- `PWR_REEF_STATUS`.DROOP [9:8], RO. -/
def fPWR_REEF_STATUS_DROOP : Field := ⟨397, 8, 2, .ro, 0, false, 0⟩
/-- `PWR_REEF_STATUS`.SUPPLY [11:10], RO. -/
def fPWR_REEF_STATUS_SUPPLY : Field := ⟨398, 10, 2, .ro, 0, false, 0⟩
/-- `PWR_REEF_STATUS`.FLOOR [13:12], RO. -/
def fPWR_REEF_STATUS_FLOOR : Field := ⟨399, 12, 2, .ro, 0, false, 0⟩
/-- `PWR_REEF_STATUS`.STEPPING [14:14], RO. -/
def fPWR_REEF_STATUS_STEPPING : Field := ⟨400, 14, 1, .ro, 0, false, 0⟩
/-- `PWR_REEF_FLOOR`.LEVEL [1:0], RW. -/
def fPWR_REEF_FLOOR_LEVEL : Field := ⟨401, 0, 2, .rw, 0, false, 1628⟩
/-- `PWR_REEF_MAP`.THROTTLE [1:0], RW. -/
def fPWR_REEF_MAP_THROTTLE : Field := ⟨402, 0, 2, .rw, 2, false, 1629⟩
/-- `PWR_REEF_MAP`.DROOP [3:2], RW. -/
def fPWR_REEF_MAP_DROOP : Field := ⟨403, 2, 2, .rw, 2, false, 1629⟩
/-- `PWR_REEF_MAP`.THERMAL [5:4], RW. -/
def fPWR_REEF_MAP_THERMAL : Field := ⟨404, 4, 2, .rw, 2, false, 1629⟩
/-- `PWR_REEF_MAP`.SUPPLY_LOSS [7:6], RO. -/
def fPWR_REEF_MAP_SUPPLY_LOSS : Field := ⟨405, 6, 2, .ro, 3, false, 1629⟩
/-- `PWR_THROTTLE_CFG`.HOLD_US [15:0], RW. -/
def fPWR_THROTTLE_CFG_HOLD_US : Field := ⟨406, 0, 16, .rw, 100, false, 1630⟩
/-- `PWR_THERMAL_CFG`.WARN_C [7:0], RW. -/
def fPWR_THERMAL_CFG_WARN_C : Field := ⟨407, 0, 8, .rw, 100, false, 1631⟩
/-- `PWR_THERMAL_CFG`.RELEASE_C [15:8], RW. -/
def fPWR_THERMAL_CFG_RELEASE_C : Field := ⟨408, 8, 8, .rw, 5, false, 1631⟩
/-- `PWR_INPUT`.MILLIVOLTS [15:0], RO. -/
def fPWR_INPUT_MILLIVOLTS : Field := ⟨409, 0, 16, .ro, 0, false, 0⟩
/-- `PWR_INPUT`.WATTS_X10 [31:16], RO. -/
def fPWR_INPUT_WATTS_X10 : Field := ⟨410, 16, 16, .ro, 0, false, 0⟩
/-- `PWR_INPUT`.MEAN_10MS_X10 [47:32], RO. -/
def fPWR_INPUT_MEAN_10MS_X10 : Field := ⟨411, 32, 16, .ro, 0, false, 0⟩
/-- `PWR_TEMP`.DIE_MAX_C [7:0], RO. -/
def fPWR_TEMP_DIE_MAX_C : Field := ⟨412, 0, 8, .ro, 0, false, 0⟩
/-- `PWR_TEMP`.HBM_MAX_C [15:8], RO. -/
def fPWR_TEMP_HBM_MAX_C : Field := ⟨413, 8, 8, .ro, 0, false, 0⟩
/-- `PWR_ENERGY`.MICROJOULES [63:0], RO. -/
def fPWR_ENERGY_MICROJOULES : Field := ⟨414, 0, 64, .ro, 0, false, 0⟩
/-- `PWR_REEF_TIME`.TICKS [63:0], RO. -/
def fPWR_REEF_TIME_TICKS : Field := ⟨415, 0, 64, .ro, 0, false, 0⟩
/-- `PWR_SUPPLY_STATUS`.HOLDUP_OK [0:0], RO. -/
def fPWR_SUPPLY_STATUS_HOLDUP_OK : Field := ⟨416, 0, 1, .ro, 0, false, 0⟩
/-- `PWR_SUPPLY_STATUS`.ON_HOLDUP [1:1], RO. -/
def fPWR_SUPPLY_STATUS_ON_HOLDUP : Field := ⟨417, 1, 1, .ro, 0, false, 0⟩
/-- `PWR_SUPPLY_STATUS`.AUX_OK [2:2], RO. -/
def fPWR_SUPPLY_STATUS_AUX_OK : Field := ⟨418, 2, 1, .ro, 0, false, 0⟩
/-- `PWR_ALERT_STATUS`.SUPPLY_LOW [0:0], W1C. -/
def fPWR_ALERT_STATUS_SUPPLY_LOW : Field := ⟨419, 0, 1, .w1c, 0, false, 0⟩
/-- `PWR_ALERT_STATUS`.SUPPLY_HIGH [1:1], W1C. -/
def fPWR_ALERT_STATUS_SUPPLY_HIGH : Field := ⟨420, 1, 1, .w1c, 0, false, 0⟩
/-- `PWR_ALERT_STATUS`.SUPPLY_LOSS [2:2], W1C. -/
def fPWR_ALERT_STATUS_SUPPLY_LOSS : Field := ⟨421, 2, 1, .w1c, 0, false, 0⟩
/-- `PWR_ALERT_STATUS`.AUX_LOSS [3:3], W1C. -/
def fPWR_ALERT_STATUS_AUX_LOSS : Field := ⟨422, 3, 1, .w1c, 0, false, 0⟩
/-- `PWR_ALERT_STATUS`.DROOP [4:4], W1C. -/
def fPWR_ALERT_STATUS_DROOP : Field := ⟨423, 4, 1, .w1c, 0, false, 0⟩
/-- `PWR_ALERT_STATUS`.THERMAL_WARN [5:5], W1C. -/
def fPWR_ALERT_STATUS_THERMAL_WARN : Field := ⟨424, 5, 1, .w1c, 0, false, 0⟩
/-- `PWR_ALERT_STATUS`.DEVICE_FAULT [6:6], W1C. -/
def fPWR_ALERT_STATUS_DEVICE_FAULT : Field := ⟨425, 6, 1, .w1c, 0, false, 0⟩
/-- `PWR_ALERT_ENABLE`.SUPPLY_LOW [0:0], RW. -/
def fPWR_ALERT_ENABLE_SUPPLY_LOW : Field := ⟨426, 0, 1, .rw, 1, false, 1632⟩
/-- `PWR_ALERT_ENABLE`.SUPPLY_HIGH [1:1], RW. -/
def fPWR_ALERT_ENABLE_SUPPLY_HIGH : Field := ⟨427, 1, 1, .rw, 1, false, 1632⟩
/-- `PWR_ALERT_ENABLE`.SUPPLY_LOSS [2:2], RW. -/
def fPWR_ALERT_ENABLE_SUPPLY_LOSS : Field := ⟨428, 2, 1, .rw, 1, false, 1632⟩
/-- `PWR_ALERT_ENABLE`.AUX_LOSS [3:3], RW. -/
def fPWR_ALERT_ENABLE_AUX_LOSS : Field := ⟨429, 3, 1, .rw, 1, false, 1632⟩
/-- `PWR_ALERT_ENABLE`.DROOP [4:4], RW. -/
def fPWR_ALERT_ENABLE_DROOP : Field := ⟨430, 4, 1, .rw, 1, false, 1632⟩
/-- `PWR_ALERT_ENABLE`.THERMAL_WARN [5:5], RW. -/
def fPWR_ALERT_ENABLE_THERMAL_WARN : Field := ⟨431, 5, 1, .rw, 1, false, 1632⟩
/-- `PWR_ALERT_ENABLE`.DEVICE_FAULT [6:6], RW. -/
def fPWR_ALERT_ENABLE_DEVICE_FAULT : Field := ⟨432, 6, 1, .rw, 1, false, 1632⟩
/-- `PWR_STEP_DOWN`.STEP_US [15:0], RW. -/
def fPWR_STEP_DOWN_STEP_US : Field := ⟨433, 0, 16, .rw, 20, false, 0⟩
/-- `PWR_RAIL_00`.NOMINAL_MV [15:0], RO. -/
def fPWR_RAIL_NOMINAL_MV : Field := ⟨434, 0, 16, .ro, 0, false, 0⟩
/-- `PWR_RAIL_00`.DROOP_MV [31:16], RO. -/
def fPWR_RAIL_DROOP_MV : Field := ⟨435, 16, 16, .ro, 0, false, 0⟩
/-- `PWR_RAIL_04`.MILLIVOLTS [15:0], RO. -/
def fPWR_RAIL_MILLIVOLTS : Field := ⟨436, 0, 16, .ro, 0, false, 0⟩
/-- `PWR_RAIL_04`.DROOPS [31:16], RO. -/
def fPWR_RAIL_DROOPS : Field := ⟨437, 16, 16, .ro, 0, false, 0⟩
/-- `PWR_RAIL_08`.MILLIWATTS [31:0], RO. -/
def fPWR_RAIL_MILLIWATTS : Field := ⟨438, 0, 32, .ro, 0, false, 0⟩
/-- `DRN_POLICY`.AUTO [0:0], RW. -/
def fDRN_POLICY_AUTO : Field := ⟨439, 0, 1, .rw, 1, false, 1633⟩
/-- `DRN_POLICY`.ROW_REPAIR [1:1], RW. -/
def fDRN_POLICY_ROW_REPAIR : Field := ⟨440, 1, 1, .rw, 1, false, 1633⟩
/-- `DRN_POLICY`.LINK_REPAIR [2:2], RW. -/
def fDRN_POLICY_LINK_REPAIR : Field := ⟨441, 2, 1, .rw, 1, false, 1633⟩
/-- `DRN_POLICY`.DRAIN_US [27:12], RW. -/
def fDRN_POLICY_DRAIN_US : Field := ⟨442, 12, 16, .rw, 250, false, 1633⟩
/-- `DRN_SWAP_CTRL`.KIND [1:0], WO. -/
def fDRN_SWAP_CTRL_KIND : Field := ⟨443, 0, 2, .wo, 0, false, 0⟩
/-- `DRN_SWAP_CTRL`.UNIT [11:2], WO. -/
def fDRN_SWAP_CTRL_UNIT : Field := ⟨444, 2, 10, .wo, 0, false, 0⟩
/-- `DRN_SWAP_CTRL`.GO [12:12], WO. -/
def fDRN_SWAP_CTRL_GO : Field := ⟨445, 12, 1, .wo, 0, false, 0⟩
/-- `DRN_SWAP_STATUS`.BUSY [0:0], RO. -/
def fDRN_SWAP_STATUS_BUSY : Field := ⟨446, 0, 1, .ro, 0, false, 0⟩
/-- `DRN_SWAP_STATUS`.KIND [2:1], RO. -/
def fDRN_SWAP_STATUS_KIND : Field := ⟨447, 1, 2, .ro, 0, false, 0⟩
/-- `DRN_SWAP_STATUS`.UNIT [12:3], RO. -/
def fDRN_SWAP_STATUS_UNIT : Field := ⟨448, 3, 10, .ro, 0, false, 0⟩
/-- `DRN_SWAP_STATUS`.STEP [15:13], RO. -/
def fDRN_SWAP_STATUS_STEP : Field := ⟨449, 13, 3, .ro, 0, false, 0⟩
/-- `DRN_SWAP_STATUS`.LAST_RESULT [17:16], RO. -/
def fDRN_SWAP_STATUS_LAST_RESULT : Field := ⟨450, 16, 2, .ro, 0, false, 0⟩
/-- `DRN_SPARES`.TILES_LEFT [5:0], RO. -/
def fDRN_SPARES_TILES_LEFT : Field := ⟨451, 0, 6, .ro, 0, false, 0⟩
/-- `DRN_SPARES`.BANKS_LEFT [8:6], RO. -/
def fDRN_SPARES_BANKS_LEFT : Field := ⟨452, 6, 3, .ro, 0, false, 0⟩
/-- `DRN_SPARES`.ENGINES_LEFT [10:9], RO. -/
def fDRN_SPARES_ENGINES_LEFT : Field := ⟨453, 9, 2, .ro, 0, false, 0⟩
/-- `DRN_HISTORY_TOTAL`.TOTAL [31:0], RO. -/
def fDRN_HISTORY_TOTAL_TOTAL : Field := ⟨454, 0, 32, .ro, 0, false, 0⟩
/-- `DRN_SRAM`.PENDING [15:0], RO. -/
def fDRN_SRAM_PENDING : Field := ⟨455, 0, 16, .ro, 0, false, 0⟩
/-- `DRN_SRAM`.APPLIED [31:16], RO. -/
def fDRN_SRAM_APPLIED : Field := ⟨456, 16, 16, .ro, 0, false, 0⟩
/-- `DRN_THRESH`.TILE_CORR [7:0], RW. -/
def fDRN_THRESH_TILE_CORR : Field := ⟨457, 0, 8, .rw, 16, false, 0⟩
/-- `DRN_THRESH`.SRAM_CORR [15:8], RW. -/
def fDRN_THRESH_SRAM_CORR : Field := ⟨458, 8, 8, .rw, 8, false, 0⟩
/-- `DRN_THRESH`.LINK_ERR [23:16], RW. -/
def fDRN_THRESH_LINK_ERR : Field := ⟨459, 16, 8, .rw, 32, false, 0⟩
/-- `DRN_CORE_MAP`.TILE [9:0], RO. -/
def fDRN_CORE_MAP_TILE : Field := ⟨460, 0, 10, .ro, 0, false, 0⟩
/-- `DRN_CORE_MAP`.VALID [10:10], RO. -/
def fDRN_CORE_MAP_VALID : Field := ⟨461, 10, 1, .ro, 1, false, 0⟩
/-- `DRN_TILE_WEAR_00`.CORRECTED [15:0], RO. -/
def fDRN_TILE_WEAR_CORRECTED : Field := ⟨462, 0, 16, .ro, 0, false, 0⟩
/-- `DRN_TILE_WEAR_00`.UNCORR [23:16], RO. -/
def fDRN_TILE_WEAR_UNCORR : Field := ⟨463, 16, 8, .ro, 0, false, 0⟩
/-- `DRN_TILE_WEAR_00`.WINDOW_CORR [31:24], RO. -/
def fDRN_TILE_WEAR_WINDOW_CORR : Field := ⟨464, 24, 8, .ro, 0, false, 0⟩
/-- `DRN_TILE_WEAR_04`.RETIRED [0:0], RO. -/
def fDRN_TILE_WEAR_RETIRED : Field := ⟨465, 0, 1, .ro, 0, false, 0⟩
/-- `DRN_TILE_WEAR_04`.MARKED [1:1], RO. -/
def fDRN_TILE_WEAR_MARKED : Field := ⟨466, 1, 1, .ro, 0, false, 0⟩
/-- `DRN_STACK_00`.PPR_USED [15:0], RO. -/
def fDRN_STACK_PPR_USED : Field := ⟨467, 0, 16, .ro, 0, false, 0⟩
/-- `DRN_STACK_00`.PPR_LEFT [31:16], RO. -/
def fDRN_STACK_PPR_LEFT : Field := ⟨468, 16, 16, .ro, 0, false, 0⟩
/-- `DRN_STACK_04`.UNREPAIRABLE [15:0], RO. -/
def fDRN_STACK_UNREPAIRABLE : Field := ⟨469, 0, 16, .ro, 0, false, 0⟩
/-- `DRN_LINK_00`.GROUP_SWAPPED [5:0], RO. -/
def fDRN_LINK_GROUP_SWAPPED : Field := ⟨470, 0, 6, .ro, 63, false, 0⟩
/-- `DRN_LINK_00`.DEGRADED [6:6], RO. -/
def fDRN_LINK_DEGRADED : Field := ⟨471, 6, 1, .ro, 0, false, 0⟩
/-- `DRN_LINK_00`.ERRORS [31:16], RO. -/
def fDRN_LINK_ERRORS : Field := ⟨472, 16, 16, .ro, 0, false, 0⟩
/-- `DRN_HISTORY_0`.RECORD [63:0], RO. -/
def fDRN_HISTORY_0_RECORD : Field := ⟨473, 0, 64, .ro, 0, false, 0⟩
/-- `DRN_HISTORY_1`.RECORD [63:0], RO. -/
def fDRN_HISTORY_1_RECORD : Field := ⟨474, 0, 64, .ro, 0, false, 0⟩
/-- `DRN_HISTORY_2`.RECORD [63:0], RO. -/
def fDRN_HISTORY_2_RECORD : Field := ⟨475, 0, 64, .ro, 0, false, 0⟩
/-- `DRN_HISTORY_3`.RECORD [63:0], RO. -/
def fDRN_HISTORY_3_RECORD : Field := ⟨476, 0, 64, .ro, 0, false, 0⟩

-- spec/19_faults_and_containment.md
/-- `MGT_FAULT_STATUS`.WORST [2:0], RO. -/
def fMGT_FAULT_STATUS_WORST : Field := ⟨477, 0, 3, .ro, 0, false, 0⟩
/-- `MGT_FAULT_STATUS`.FIRST_SOURCE [14:3], RO. -/
def fMGT_FAULT_STATUS_FIRST_SOURCE : Field := ⟨478, 3, 12, .ro, 0, false, 0⟩
/-- `MGT_FAULT_STATUS`.CONTAINED [31:16], RO. -/
def fMGT_FAULT_STATUS_CONTAINED : Field := ⟨479, 16, 16, .ro, 0, false, 0⟩
/-- `MGT_RECORD_SEL`.KIND [1:0], RW. -/
def fMGT_RECORD_SEL_KIND : Field := ⟨480, 0, 2, .rw, 0, false, 1634⟩
/-- `MGT_RECORD_SEL`.PAGE [15:8], RW. -/
def fMGT_RECORD_SEL_PAGE : Field := ⟨481, 8, 8, .rw, 0, false, 1634⟩
/-- `MGT_RECORD_STATUS`.SNAP_VALID [0:0], RO. -/
def fMGT_RECORD_STATUS_SNAP_VALID : Field := ⟨482, 0, 1, .ro, 0, false, 0⟩
/-- `MGT_RECORD_STATUS`.PLR_VALID [1:1], RO. -/
def fMGT_RECORD_STATUS_PLR_VALID : Field := ⟨483, 1, 1, .ro, 0, false, 0⟩
/-- `MGT_RECORD_STATUS`.RESET_VALID [2:2], RO. -/
def fMGT_RECORD_STATUS_RESET_VALID : Field := ⟨484, 2, 1, .ro, 0, false, 0⟩
/-- `MGT_RECORD_STATUS`.PRESERVED [3:3], RO. -/
def fMGT_RECORD_STATUS_PRESERVED : Field := ⟨485, 3, 1, .ro, 0, false, 0⟩
/-- `MGT_RECORD_STATUS`.OVERFLOW [7:4], RO. -/
def fMGT_RECORD_STATUS_OVERFLOW : Field := ⟨486, 4, 4, .ro, 0, false, 0⟩
/-- `MGT_RECORD_STATUS`.BYTES [28:8], RO. -/
def fMGT_RECORD_STATUS_BYTES : Field := ⟨487, 8, 21, .ro, 0, false, 0⟩
/-- `MGT_SNAP_CTRL`.CLEAR [0:0], WO. -/
def fMGT_SNAP_CTRL_CLEAR : Field := ⟨488, 0, 1, .wo, 0, false, 0⟩
/-- `MGT_SNAP_CTRL`.CLEAR_RECORDS [1:1], WO. -/
def fMGT_SNAP_CTRL_CLEAR_RECORDS : Field := ⟨489, 1, 1, .wo, 0, false, 0⟩
/-- `MGT_SNAP_PRESERVE`.PRESERVE [0:0], RW. -/
def fMGT_SNAP_PRESERVE_PRESERVE : Field := ⟨490, 0, 1, .rw, 0, false, 1635⟩

-- spec/05_host_link_and_functions.md
/-- `HIF_FN_CORE_TIME`.COUNT [63:0], RO. -/
def fHIF_FN_CORE_TIME_COUNT : Field := ⟨491, 0, 64, .ro, 0, false, 0⟩
/-- `HIF_FN_HBM_BYTES`.COUNT [63:0], RO. -/
def fHIF_FN_HBM_BYTES_COUNT : Field := ⟨492, 0, 64, .ro, 0, false, 0⟩
/-- `HIF_FN_LINK_TX_BYTES`.COUNT [63:0], RO. -/
def fHIF_FN_LINK_TX_BYTES_COUNT : Field := ⟨493, 0, 64, .ro, 0, false, 0⟩
/-- `HIF_FN_LINK_RX_BYTES`.COUNT [63:0], RO. -/
def fHIF_FN_LINK_RX_BYTES_COUNT : Field := ⟨494, 0, 64, .ro, 0, false, 0⟩
/-- `HIF_FN_CAPPED`.COUNT [31:0], RO. -/
def fHIF_FN_CAPPED_COUNT : Field := ⟨495, 0, 32, .ro, 0, false, 0⟩
/-- `HIF_FN_QOS_VIEW`.QOS [47:0], RO. -/
def fHIF_FN_QOS_VIEW_QOS : Field := ⟨496, 0, 48, .ro, 68720525328, false, 0⟩

-- spec/13_halyard_dma.md
/-- `HAL_CH_CFG`.ASSIGNED [0:0], RW. -/
def fHAL_CH_CFG_ASSIGNED : Field := ⟨497, 0, 1, .rw, 0, false, 0⟩
/-- `HAL_CH_CFG`.MODE [1:1], RW. -/
def fHAL_CH_CFG_MODE : Field := ⟨498, 1, 1, .rw, 0, false, 0⟩
/-- `HAL_CH_CFG`.COMPAT [2:2], RW. -/
def fHAL_CH_CFG_COMPAT : Field := ⟨499, 2, 1, .rw, 0, false, 0⟩
/-- `HAL_CH_CFG`.IRQ_EN [3:3], RW. -/
def fHAL_CH_CFG_IRQ_EN : Field := ⟨500, 3, 1, .rw, 0, false, 0⟩
/-- `HAL_CH_CFG`.FN [14:4], RW. -/
def fHAL_CH_CFG_FN : Field := ⟨501, 4, 11, .rw, 0, false, 0⟩
/-- `HAL_CH_CFG`.VECTOR [26:16], RW. -/
def fHAL_CH_CFG_VECTOR : Field := ⟨502, 16, 11, .rw, 16, false, 0⟩
/-- `HAL_CH_RATE`.SHARE [7:0], RW. -/
def fHAL_CH_RATE_SHARE : Field := ⟨503, 0, 8, .rw, 0, false, 0⟩
/-- `HAL_CH_RATE`.BURST_LINES [14:8], RW. -/
def fHAL_CH_RATE_BURST_LINES : Field := ⟨504, 8, 7, .rw, 16, false, 0⟩
/-- `HAL_CH_RATE`.DEPTH [20:16], RW. -/
def fHAL_CH_RATE_DEPTH : Field := ⟨505, 16, 5, .rw, 16, false, 0⟩
/-- `HAL_CH_STATUS`.STATE [2:0], RO. -/
def fHAL_CH_STATUS_STATE : Field := ⟨506, 0, 3, .ro, 0, false, 0⟩
/-- `HAL_CH_STATUS`.LAST_STATUS [11:4], RO. -/
def fHAL_CH_STATUS_LAST_STATUS : Field := ⟨507, 4, 8, .ro, 0, false, 0⟩
/-- `HAL_CH_STATUS`.LAST_SUB [19:12], RO. -/
def fHAL_CH_STATUS_LAST_SUB : Field := ⟨508, 12, 8, .ro, 0, false, 0⟩
/-- `HAL_CH_STATUS`.REQ_PENDING [23:20], RO. -/
def fHAL_CH_STATUS_REQ_PENDING : Field := ⟨509, 20, 4, .ro, 0, false, 0⟩
/-- `HAL_CH_STATUS`.REQ_LOST [24:24], W1C. -/
def fHAL_CH_STATUS_REQ_LOST : Field := ⟨510, 24, 1, .w1c, 0, false, 0⟩
/-- `HAL_CH_STATUS`.ERR_VALID [25:25], W1C. -/
def fHAL_CH_STATUS_ERR_VALID : Field := ⟨511, 25, 1, .w1c, 0, false, 0⟩
/-- `HAL_CH_STATUS`.ERR_HOST [26:26], RO. -/
def fHAL_CH_STATUS_ERR_HOST : Field := ⟨512, 26, 1, .ro, 0, false, 0⟩
/-- `HAL_CH_CTRL`.START [0:0], WO. -/
def fHAL_CH_CTRL_START : Field := ⟨513, 0, 1, .wo, 0, false, 0⟩
/-- `HAL_CH_CTRL`.CLEAR [1:1], WO. -/
def fHAL_CH_CTRL_CLEAR : Field := ⟨514, 1, 1, .wo, 0, false, 0⟩
/-- `HAL_CH_CTRL`.STOP [2:2], WO. -/
def fHAL_CH_CTRL_STOP : Field := ⟨515, 2, 1, .wo, 0, false, 0⟩
/-- `HAL_CH_CTRL`.REQ_SEL [12:8], RW. -/
def fHAL_CH_CTRL_REQ_SEL : Field := ⟨516, 8, 5, .rw, 0, false, 0⟩
/-- `HAL_CH_CTRL`.PULSE_SEL [20:16], RW. -/
def fHAL_CH_CTRL_PULSE_SEL : Field := ⟨517, 16, 5, .rw, 0, false, 0⟩
/-- `HAL_CH_SRC`.ADDR [63:0], RW. -/
def fHAL_CH_SRC_ADDR : Field := ⟨518, 0, 64, .rw, 0, false, 0⟩
/-- `HAL_CH_DST`.ADDR [63:0], RW. -/
def fHAL_CH_DST_ADDR : Field := ⟨519, 0, 64, .rw, 0, false, 0⟩
/-- `HAL_CH_COUNT`.COUNT [31:0], RW. -/
def fHAL_CH_COUNT_COUNT : Field := ⟨520, 0, 32, .rw, 0, false, 0⟩
/-- `HAL_CH_FORMAT`.SW [2:0], RW. -/
def fHAL_CH_FORMAT_SW : Field := ⟨521, 0, 3, .rw, 0, false, 0⟩
/-- `HAL_CH_FORMAT`.DW [5:3], RW. -/
def fHAL_CH_FORMAT_DW : Field := ⟨522, 3, 3, .rw, 0, false, 0⟩
/-- `HAL_CH_FORMAT`.SRC_SPACE [9:8], RW. -/
def fHAL_CH_FORMAT_SRC_SPACE : Field := ⟨523, 8, 2, .rw, 0, false, 0⟩
/-- `HAL_CH_FORMAT`.DST_SPACE [11:10], RW. -/
def fHAL_CH_FORMAT_DST_SPACE : Field := ⟨524, 10, 2, .rw, 0, false, 0⟩
/-- `HAL_CH_FORMAT`.CXL_CACHE [12:12], RW. -/
def fHAL_CH_FORMAT_CXL_CACHE : Field := ⟨525, 12, 1, .rw, 0, false, 0⟩
/-- `HAL_CH_SSTRIDE`.STRIDE [31:0], RW. -/
def fHAL_CH_SSTRIDE_STRIDE : Field := ⟨526, 0, 32, .rw, 0, false, 0⟩
/-- `HAL_CH_DSTRIDE`.STRIDE [31:0], RW. -/
def fHAL_CH_DSTRIDE_STRIDE : Field := ⟨527, 0, 32, .rw, 0, false, 0⟩
/-- `HAL_CH_DONE_BYTES`.BYTES [31:0], RO. -/
def fHAL_CH_DONE_BYTES_BYTES : Field := ⟨528, 0, 32, .ro, 0, false, 0⟩
/-- `HAL_CH_ERR_ADDR`.ADDR [63:0], RO. -/
def fHAL_CH_ERR_ADDR_ADDR : Field := ⟨529, 0, 64, .ro, 0, false, 0⟩

-- spec/15_digest_engine.md
/-- `DGE_SLOT_CTRL`.CLAIM [0:0], WO. -/
def fDGE_SLOT_CTRL_CLAIM : Field := ⟨530, 0, 1, .wo, 0, false, 0⟩
/-- `DGE_SLOT_CTRL`.RELEASE [1:1], WO. -/
def fDGE_SLOT_CTRL_RELEASE : Field := ⟨531, 1, 1, .wo, 0, false, 0⟩
/-- `DGE_SLOT_CTRL`.KEYED [2:2], WO. -/
def fDGE_SLOT_CTRL_KEYED : Field := ⟨532, 2, 1, .wo, 0, false, 0⟩
/-- `DGE_SLOT_CTRL`.LAST [3:3], WO. -/
def fDGE_SLOT_CTRL_LAST : Field := ⟨533, 3, 1, .wo, 0, false, 0⟩
/-- `DGE_SLOT_CTRL`.EXPORT [4:4], WO. -/
def fDGE_SLOT_CTRL_EXPORT : Field := ⟨534, 4, 1, .wo, 0, false, 0⟩
/-- `DGE_SLOT_CTRL`.IMPORT [5:5], WO. -/
def fDGE_SLOT_CTRL_IMPORT : Field := ⟨535, 5, 1, .wo, 0, false, 0⟩
/-- `DGE_SLOT_CTRL`.RESTART [6:6], WO. -/
def fDGE_SLOT_CTRL_RESTART : Field := ⟨536, 6, 1, .wo, 0, false, 0⟩
/-- `DGE_SLOT_CTRL`.ALG [10:8], WO. -/
def fDGE_SLOT_CTRL_ALG : Field := ⟨537, 8, 3, .wo, 0, false, 0⟩
/-- `DGE_SLOT_STATUS`.STATE [2:0], RO. -/
def fDGE_SLOT_STATUS_STATE : Field := ⟨538, 0, 3, .ro, 0, false, 0⟩
/-- `DGE_SLOT_STATUS`.BUSY [3:3], RO. -/
def fDGE_SLOT_STATUS_BUSY : Field := ⟨539, 3, 1, .ro, 0, false, 0⟩
/-- `DGE_SLOT_STATUS`.KEYED [4:4], RO. -/
def fDGE_SLOT_STATUS_KEYED : Field := ⟨540, 4, 1, .ro, 0, false, 0⟩
/-- `DGE_SLOT_STATUS`.ALG [7:5], RO. -/
def fDGE_SLOT_STATUS_ALG : Field := ⟨541, 5, 3, .ro, 0, false, 0⟩
/-- `DGE_SLOT_STATUS`.LAST_STATUS [15:8], RO. -/
def fDGE_SLOT_STATUS_LAST_STATUS : Field := ⟨542, 8, 8, .ro, 0, false, 0⟩
/-- `DGE_SLOT_STATUS`.LAST_SUB [23:16], RO. -/
def fDGE_SLOT_STATUS_LAST_SUB : Field := ⟨543, 16, 8, .ro, 0, false, 0⟩
/-- `DGE_SLOT_STATUS`.QWORDS [28:24], RO. -/
def fDGE_SLOT_STATUS_QWORDS : Field := ⟨544, 24, 5, .ro, 0, false, 0⟩
/-- `DGE_SLOT_DATA`.DATA [63:0], WO. -/
def fDGE_SLOT_DATA_DATA : Field := ⟨545, 0, 64, .wo, 0, false, 0⟩
/-- `DGE_SLOT_BLOCKS`.COUNT [63:0], RO. -/
def fDGE_SLOT_BLOCKS_COUNT : Field := ⟨546, 0, 64, .ro, 0, false, 0⟩
/-- `DGE_SLOT_CMP`.MATCH [0:0], RO. -/
def fDGE_SLOT_CMP_MATCH : Field := ⟨547, 0, 1, .ro, 0, false, 0⟩
/-- `DGE_SLOT_CMP`.MATCH_N [1:1], RO. -/
def fDGE_SLOT_CMP_MATCH_N : Field := ⟨548, 1, 1, .ro, 0, false, 0⟩
/-- `DGE_SLOT_DIGEST`.BYTES [31:0], RO. -/
def fDGE_SLOT_DIGEST_BYTES : Field := ⟨549, 0, 32, .ro, 0, false, 0⟩
/-- `DGE_SLOT_EXPECT`.BYTES [31:0], WO. -/
def fDGE_SLOT_EXPECT_BYTES : Field := ⟨550, 0, 32, .wo, 0, false, 0⟩
/-- `DGE_SLOT_RECORD`.BYTES [31:0], RW. -/
def fDGE_SLOT_RECORD_BYTES : Field := ⟨551, 0, 32, .rw, 0, false, 0⟩

end Sys2Proof.Machine
end

