-- ==== Sys2Proof/Machine/Map.lean ====
section
/-! DEFINITION. Sparse maps in one canonical form: keys strictly rising, and no entry equal to what an unlisted key
reads as. Registers, memories, queues, tasks and every other table of the State are such maps, so that equal contents
are equal data. -/

namespace Sys2Proof.Machine

/-- A sparse map from a number to a value, in rising key order. -/
abbrev NMap (α : Type) := List (Nat × α)

/-- The entry at key `k`. -/
def find {α : Type} : NMap α → Nat → Option α
  | [], _ => none
  | (k, v) :: rest, q => if q = k then some v else find rest q

/-- The map with key `q` holding `v`, in rising key order. -/
def put {α : Type} : NMap α → Nat → α → NMap α
  | [], q, v => [(q, v)]
  | (k, w) :: rest, q, v =>
    if q < k then (q, v) :: (k, w) :: rest
    else if q = k then (q, v) :: rest
    else (k, w) :: put rest q v

/-- The map without key `q`. -/
def del {α : Type} : NMap α → Nat → NMap α
  | [], _ => []
  | (k, w) :: rest, q => if q = k then del rest q else (k, w) :: del rest q

/-- The value at `k` where an unlisted key reads as `d`. -/
def getD {α : Type} (d : α) (m : NMap α) (k : Nat) : α := (find m k).getD d

/-- Write `v` at `k` where an unlisted key reads as `d`: writing `d` removes the entry. -/
def setD {α : Type} [DecidableEq α] (d : α) (m : NMap α) (k : Nat) (v : α) : NMap α :=
  if v = d then del m k else put m k v

/-- Every key of the map is above `b`, and the keys strictly rise. -/
def risingFrom {α : Type} : Nat → NMap α → Bool
  | _, [] => true
  | b, (k, _) :: rest => decide (b ≤ k) && risingFrom (k + 1) rest

/-- The canonical form over default `d`. -/
def wfMap {α : Type} [DecidableEq α] (d : α) (m : NMap α) : Bool :=
  risingFrom 0 m && m.all (fun kv => decide (kv.2 ≠ d))

/-- Byte memory: unlisted bytes read as zero (the canonical form of Host.Cell). -/
abbrev Mem := List Host.Cell

/-- One byte of a memory. -/
def Mem.byte (m : Mem) (a : Nat) : Byte := getD 0 m a

/-- A memory with one byte written. -/
def Mem.poke (m : Mem) (a : Nat) (b : Byte) : Mem := setD 0 m a b

/-- `n` bytes from address `a`, first byte first. -/
def Mem.bytes (m : Mem) (a : Nat) : Nat → List Byte
  | 0 => []
  | n + 1 => Mem.byte m a :: Mem.bytes m (a + 1) n

/-- Bytes stored at rising addresses from `a`. -/
def Mem.store (m : Mem) (a : Nat) : List Byte → Mem
  | [] => m
  | b :: rest => Mem.store (Mem.poke m a b) (a + 1) rest

/-- `m` is in canonical form. -/
def Mem.wf (m : Mem) : Bool := wfMap (0 : Byte) m

/-- The little-endian number that bytes spell (R3). -/
def leNat : List Byte → Nat
  | [] => 0
  | b :: rest => b.toNat + 256 * leNat rest

/-- `n` bytes that spell a number, least significant first (R3). -/
def leBytes : Nat → Nat → List Byte
  | 0, _ => []
  | n + 1, v => BitVec.ofNat 8 v :: leBytes n (v / 256)

end Sys2Proof.Machine
end

