-- ==== Sys2Proof/Machine/State.lean ====
section
/-! DEFINITION. The state of the device as plain data: every register, table, queue, memory, counter, mode and pin
that the spec gives it, and the queue of commands that wait. -/

namespace Sys2Proof.Machine

/-- What the main domain does (R41, R67, R70, R73, R476). -/
inductive Phase where
  /-- The main rails are off. -/
  | off
  /-- Soft start: the main rails are coming up (R41). -/
  | starting
  /-- `PWR_GOOD` is high and the root PLL has not locked yet (R67). -/
  | unlocked
  /-- The derived clocks run. -/
  | run
  /-- A warm reset is in progress (R73). -/
  | warm
  /-- The root PLL lost its lock (R70). -/
  | pllLost
  /-- The root PLL did not relock within 10 ms (R70). -/
  | pllFailed
  deriving DecidableEq, Repr

/-- The module: supplies, switches, pins and latches (spec/02_module_power_and_pins.md). -/
structure Board where
  phase : Phase
  pwrGood : Bool
  auxOk : Bool
  pwrEn : Bool
  /-- How the rails last went down while a new start still needs `PWR_EN` low for 10 ms (R33, R52, R57); 0: none. -/
  stopLatch : Nat
  inputMv : Nat
  inputSwitch : Bool
  holdupSwitch : Bool
  holdupOk : Bool
  /-- When the input fault in progress began, on the clock `now` (R47), and the TSU count then (R51). -/
  faultAt : Option Nat
  faultTs : Nat
  /-- `HOLDUP_OK` when that fault began (R49). -/
  faultHoldup : Bool
  /-- When the last surge that was ridden through began, on the clock `now` (R46). -/
  surgeAt : Option Nat
  /-- The 7-bit SMBus address sampled from `SLOT_ID` (R62). -/
  smbusAddr : Option Nat
  thermTrip : Bool
  perstN : Bool
  /-- `THROTTLE_N` is recognised low (R54). -/
  throttleLow : Bool
  /-- When `THROTTLE_N` rose while its hold time runs, on the clock `now` (R54). -/
  throttleRise : Option Nat
  /-- Bit p: `DRV_PERST_N[p]` is driven high. -/
  drvPerstN : Nat
  /-- Bit p: `DRV_PRSNT_N[p]` is low, a drive is present (R63). -/
  drvPresent : Nat
  /-- When the droop reef began, on the clock `now` (R53). -/
  droopAt : Option Nat
  /-- The DROOP alert was raised for the reef in progress (R53). -/
  droopAlerted : Bool
  /-- Rails below their threshold that have not recovered yet: rail to the time of its first good sample on the
  clock `now` plus 1, or 0 while it is low (R452, R457). -/
  droopRails : NMap Nat
  deriving DecidableEq, Repr

/-- The clock root (R66 to R70). -/
structure Clocks where
  /-- The CCLK divider: 3, 4 or 6. -/
  div : Nat
  /-- The latest request that has not taken effect (R68). -/
  divReq : Option Nat
  /-- The TCLK tick, of even number, that begins at the first boundary of 12 root cycles after that request (R68). -/
  divAt : Nat
  /-- The TSU counter (R436). -/
  tsu : Nat
  /-- Time in units of 1.25 ns, which passes whether or not the derived clocks run. The module keeps it where it works
  without them; no reset reaches it. -/
  now : Nat
  /-- The count of CCLK half-cycles. -/
  cyc : Nat
  /-- The time `now` at `PWR_GOOD` or at the last reset release (R78). -/
  releaseAt : Nat
  /-- Bring-up waits for `PERST_N` to rise after a merged warm reset (R77). -/
  held : Bool
  /-- TSU count at which the warm reset in progress began (R73). -/
  warmAt : Nat
  /-- The time `now` at which the root PLL lost its lock (R70). -/
  lostAt : Nat
  /-- The stack that trains next (R81). -/
  stackNext : Nat
  /-- Volume assembly has been done (R370). -/
  assembled : Bool
  deriving DecidableEq, Repr

/-- What the block sends to its neighbours: the model's record of its outputs. -/
inductive Out where
  /-- An MSI-X message (R118). -/
  | msix (fn vec : Nat)
  /-- The data of a register read (R107). -/
  | readData (fn v : Nat)
  /-- A configuration request completed with Request Retry Status (R85). -/
  | requestRetry (fn : Nat)
  /-- A configuration request completed, with the value read. -/
  | cfgDone (fn v : Nat)
  /-- An AER message of a function (R132, R473): correctable, or uncorrectable as ERR_FATAL or ERR_NONFATAL. -/
  | aer (fn : Nat) (uncorrectable fatal : Bool)
  /-- An ATS invalidation completed (R132). -/
  | atsDone (fn addr : Nat)
  /-- The answer from PF0's DOE mailbox (R132). -/
  | doe (resp : List Byte)
  /-- A CXL.cache snoop answered with a miss (R133). -/
  | snoopMiss (addr : Nat)
  /-- CXL.mem read data, with its poison mark (R134). -/
  | cxlData (data : List Byte) (poison : Bool)
  /-- A PTM request sent to the host (R446). -/
  | ptmRequest
  /-- An answer on the sideband: command code, response code (0 success, 1 NOT_READY), payload (R485). -/
  | sideband (code : Nat) (rc : Nat) (resp : List Byte)
  /-- A PlatformEventMessage for a change of the health state (R486). -/
  | platformEvent (health : Nat)
  /-- An NVMe I/O command on a drive port: opcode, start LBA, LBAs, tag, FUA, and the bytes of a Write (R376, R392). -/
  | nvme (port opcode slba blocks tag : Nat) (fua : Bool) (data : List Byte)
  /-- An NVMe admin command on a drive port: opcode, NSID, CDW10 to CDW15 and the bytes sent (R394, R396). -/
  | nvmeAdmin (port opcode nsid tag : Nat) (cdw data : List Byte)
  /-- An abrupt or normal shutdown notification (CC.SHN) to a drive controller (R50). -/
  | driveShutdown (port shn : Nat)
  /-- Bytes written to host memory (R19). -/
  | hostWrite (addr : Nat) (data : List Byte)
  /-- An event pulse on a GPIO pin or an internal pulse line (R358). -/
  | pulse (line : Nat)
  deriving DecidableEq, Repr

/-- One entry of a page's error log (R472). -/
structure ErrEntry where
  ts : Nat
  source : Nat
  cls : Nat
  fn : Option Nat
  status : Nat
  sub : Nat
  unit : Nat
  addr : Nat
  kind : Nat
  cause : Nat
  deriving DecidableEq, Repr

/-- One record of the TSU event log (R443). -/
structure LogRec where
  ts : Nat
  source : Nat
  kind : Nat
  fn : Option Nat
  detail : Nat
  deriving DecidableEq, Repr

/-- A volume write listed in a stop record (R483). -/
structure StopEntry where
  fn : Nat
  qid : Nat
  cid : Nat
  slba : Nat
  blocks : Nat
  deriving DecidableEq, Repr

/-- A stop record: the power-loss record of R51 or the reset record of R74 (R483). -/
structure StopRecord where
  kind : Nat
  cause : Nat
  step : Nat
  faultTs : Nat
  declTs : Nat
  boot : Nat
  entries : List StopEntry
  /-- The volume blocks of the entries, start and count: what R389 needs and the record's layout does not hold. -/
  ranges : List (Nat × Nat)
  deriving DecidableEq, Repr

/-- A fatal snapshot, or an overflow header (R482). -/
structure Snapshot where
  cls : Nat
  cause : Nat
  source : Nat
  ts : Nat
  boot : Nat
  unit : Nat
  sections : Nat
  body : List Byte
  deriving DecidableEq, Repr

/-- A record of the swap history (R469). -/
structure HistRec where
  ts : Nat
  boot : Nat
  kind : Nat
  cause : Nat
  logical : Nat
  old : Nat
  new : Nat
  detail : Nat
  seq : Nat
  deriving DecidableEq, Repr

/-- An MSI-X table entry (R117): address, data, and vector control with its mask bit. -/
structure Msix where
  addr : Nat
  data : Nat
  masked : Bool
  deriving DecidableEq, Repr

/-- The reset value of an MSI-X table entry: masked (R125). -/
def Msix.blank : Msix := ⟨0, 0, true⟩

/-- What a function has used of one budget in the accounting window in progress, and its debt (R120, R122). -/
structure Budget where
  used : Nat
  debt : Nat
  deriving DecidableEq, Repr

/-- The QoS accounts of one function (R120 to R124). -/
structure QosAcct where
  core : Budget
  hbm : Budget
  tx : Budget
  rx : Budget
  /-- A cap held back work in the window (R122). -/
  held : Bool
  deriving DecidableEq, Repr

def QosAcct.zero : QosAcct := ⟨⟨0, 0⟩, ⟨0, 0⟩, ⟨0, 0⟩, ⟨0, 0⟩, false⟩

/-- An IDE stream that has keys (R132): the draw that gave them, at most 8 address and 4 routing-ID association blocks. -/
structure IdeStream where
  key : Nat
  addrs : List (Nat × Nat)
  rids : List (Nat × Nat)
  deriving DecidableEq, Repr

/-- The host interface beside its registers (spec/05_host_link_and_functions.md). -/
structure Hif where
  linkUp : Bool
  /-- Writable configuration items, keyed function × 128 + item. -/
  cfg : NMap Nat
  /-- MSI-X tables, keyed function × 2,048 + vector. -/
  msix : NMap Msix
  /-- Pending bits, same key (R118). -/
  pba : NMap Bool
  /-- QoS accounts by function. -/
  qos : NMap QosAcct
  /-- The accounting windows closed so far (R120). -/
  qosWindow : Nat
  /-- Capacities of the accounting window in progress: ready cores × ticks, HBM bytes, link bytes per direction. -/
  capCore : Nat
  capHbm : Nat
  capLink : Nat
  /-- Budgets in force, the layout of `HIF_FN_QOS` (R124), by function. -/
  inForce : NMap Nat
  /-- Payload bytes of CXL.mem in the accounting window in progress, device to host and host to device (R123). -/
  cxlTx : Nat
  cxlRx : Nat
  /-- The translation cache of ATS (R132): function and 4 KiB page, at most 4,096 entries. -/
  atc : List (Nat × Nat)
  /-- IDE streams with keys: 0 the link stream, 1 to 4 the selective streams (R132). -/
  ide : NMap IdeStream
  /-- Invalidations that wait for the requests that use their entries: function, address, length (R132). -/
  atsWait : List (Nat × Nat × Nat)
  /-- Carve-outs whose ENABLE was set in PS3 and reads 1 once PS3 has been left (R399). -/
  coWait : List Nat
  /-- Latched high dwords of 64-bit reads (R105): function × 2^30 + page to register offset and value. -/
  readLatch : NMap (Nat × Nat)
  /-- Held low dwords of 64-bit writes (R105): function × 2^30 + page to register offset and value. -/
  writeHold : NMap (Nat × Nat)
  deriving DecidableEq, Repr

/-- The time and event unit beside its registers and counter (R442 to R447). -/
structure Tsu where
  /-- The reorder buffer, oldest first (R444). -/
  reorder : List LogRec
  /-- The log ring, by index. -/
  log : NMap LogRec
  /-- TSU count at which the PTM dialogue in progress began. -/
  dialogue : Option Nat
  /-- TSU count at which the last dialogue began (R446). -/
  lastDialogue : Nat
  /-- The PTM context was given by an earlier dialogue: its count and host time. -/
  lastSync : Option (Nat × Nat)
  deriving DecidableEq, Repr

/-- Reefing beside its registers (R449 to R458). -/
structure Reef where
  /-- Mean input power of the last windows in 0.1 W, newest first, at most 1,000 (R454). -/
  windows : List Nat
  /-- Windows since the CONTROLLER demand last rose (R454). -/
  sinceRise : Nat
  /-- The accounting windows closed so far. -/
  lastWindow : Nat
  /-- TSU count of the last change of the level in force (R452). -/
  changedAt : Nat
  /-- TSU count since which every sensor has read below the release temperature (R456). -/
  coolSince : Option Nat
  /-- The THERMAL demand is active (R456). -/
  thermal : Bool
  deriving DecidableEq, Repr

/-- A unit that waits for a swap or is being swapped (R461, R462, R464): kind 0 tile, 1 bank, 2 engine. -/
structure Swap where
  kind : Nat
  unit : Nat
  cause : Nat
  step : Nat
  since : Nat
  deriving DecidableEq, Repr

/-- Darning beside its registers (R459 to R470). -/
structure Darn where
  /-- Marked units that wait, in service order. -/
  marks : List Swap
  current : Option Swap
  history : NMap HistRec
  /-- SRAM rows on the persistent repair list (R466): unit kind × 2^32 + row. -/
  sramRows : List Nat
  /-- Corrected errors per SRAM row in the window (R466). -/
  rowCorr : NMap Nat
  /-- CRC errors per wire group in the window (R467): link direction × 64 + group. -/
  groupErr : NMap Nat
  /-- The wear windows of R461 closed so far. -/
  wearWindow : Nat
  /-- Rows under repair: stack, pseudo-channel, bank, row (R465). -/
  repairs : List (Nat × Nat × Nat × Nat)
  /-- Rows repaired in a bank of a stack (R465): (stack × 32 + pseudo-channel) × 64 + bank. -/
  pprBank : NMap Nat
  deriving DecidableEq, Repr

/-- Auheund's non-volatile store (R51, R74, R482). -/
structure Store where
  powerLoss : Option StopRecord
  resetRec : Option StopRecord
  snapshot : Option Snapshot
  overflow : List Snapshot
  /-- How the main rails last went down, loaded into `MGT_LAST_STOP` at each cold reset. -/
  lastStop : Nat
  /-- The health state last reported (R486). -/
  health : Nat
  /-- What the last stop or reset left for the resync of R389: 0 nothing, 1 a power-loss record, 2 a reset record,
  3 the main rails went down with no record. -/
  lastRec : Nat
  /-- Values of the PLDM sensors 1 to 7 at the last refresh (R486). -/
  sensors : List Nat
  /-- The receiver has enabled events (R486). -/
  eventsOn : Bool
  deriving DecidableEq, Repr

/-- A completion entry (R143) without its QID and OWN. -/
structure Cqe where
  cid : Nat
  status : Nat
  sub : Nat
  more : Bool
  resultLen : Nat
  ts : Nat
  specific : Nat
  deriving DecidableEq, Repr

/-- How far a fetched submission entry has come (R142, R153). -/
inductive Stage where
  /-- Fetched, not handed on. -/
  | fetched
  /-- Handed to its executing subsystem, not started. -/
  | handed
  /-- A RUN that passed its checks and waits for its flows and banks: not started (R142). -/
  | held
  /-- In execution. -/
  | started
  deriving DecidableEq, Repr

/-- A submission entry that QMG has fetched and whose completion has not been produced. -/
structure Entry where
  /-- The model's own number of the entry. -/
  tag : Nat
  line : Line
  stage : Stage
  deriving DecidableEq, Repr

/-- A queue pair (R137, R138). -/
structure Queue where
  /-- 0 ADMIN, 1 GRAPH, 2 VOLUME, 3 MOVE. -/
  cls : Nat
  sqBase : Nat
  cqBase : Nat
  sqLog : Nat
  cqLog : Nat
  mod : Nat
  irqEn : Bool
  vector : Nat
  /-- H of R146. -/
  head : Nat
  /-- T of R150. -/
  tail : Nat
  /-- A doorbell asked for a read of slot H that has not found it empty since (R146, R147). -/
  poll : Bool
  /-- The slot at T is known to be free (R150). -/
  known : Bool
  /-- TSU count of the last read of the OWN at T (R150). -/
  readAt : Nat
  fetched : List Entry
  /-- The pending buffer, oldest first (R164). -/
  pend : List Cqe
  /-- Producers that wait with their completion, longest first, with the tag of their entry (R164). -/
  waiting : List (Cqe × Nat)
  cqFull : Bool
  /-- Unsignalled completions and the count at which the oldest was posted (R119). -/
  unsignalled : Nat
  oldest : Nat
  /-- An admin queue that is being disabled (R152). -/
  disabling : Bool
  deriving DecidableEq, Repr

/-- The queue manager beside its registers. -/
structure Qmg where
  /-- Queue pairs in use, keyed function × 8,192 + queue ID. -/
  queues : NMap Queue
  /-- The next entry's tag. -/
  nextTag : Nat
  /-- The function whose admin queue the admin arbiter visits next (R158). -/
  adminNext : Nat
  /-- The last grant went to the admin arbiter (R158). -/
  lastAdmin : Bool
  /-- Credits of the nine participants in the round (R159). -/
  credit : List Nat
  /-- The participant being visited, and what its visit may still take. -/
  cur : Nat
  left : Nat
  /-- The function that the dynamic group serves and what remains of its quantum (R160). -/
  groupFn : Nat
  groupLeft : Nat
  /-- The queue ID at which each function's last visit ended (R160). -/
  lastQid : NMap Nat
  deriving DecidableEq, Repr

/-- What names a fetched entry: its function, queue and tag. -/
structure Ref where
  fn : Nat
  qid : Nat
  tag : Nat
  deriving DecidableEq, Repr

/-- The check bytes of a line (R422, R423): correct, the poison pattern, or bytes that the test window stored raw. -/
inductive Check where
  | good
  | poison
  | raw (v : BitVec 32)
  deriving DecidableEq, Repr

/-- A leaf of a function's translation (R417). -/
structure Leaf where
  ppn : Nat
  write : Bool
  exec : Bool
  deriving DecidableEq, Repr

/-- The owner of a physical page (R416). -/
inductive Owner where
  | free
  | fn (f : Nat)
  | shared
  | device
  deriving DecidableEq, Repr

/-- A map command in progress (R419, R420). -/
structure MapCmd where
  op : Nat
  fn : Nat
  vpn : Nat
  ppn : Nat
  count : Nat
  write : Bool
  exec : Bool
  deriving DecidableEq, Repr

/-- The memory controllers beside their registers (spec/16_memory_translation_ecc.md). -/
structure Hmc where
  /-- Leaves, keyed function × 2^27 + virtual page. -/
  leaves : NMap Leaf
  /-- The table stack of a function (R417). -/
  tableStack : NMap Nat
  owner : NMap Owner
  /-- The last owner of a page, plus 1 (R416). -/
  lastOwner : NMap Nat
  /-- Check bytes of the lines that are not good, by line number. -/
  check : NMap Check
  /-- Lines corrected since the bucket window began, by stack (R424). -/
  filter : NMap (List Nat)
  /-- Sticky candidates of a stack, oldest first: line number and count (R427). -/
  sticky : NMap (List (Nat × Nat))
  /-- TSU count at which the bucket window in progress ends, once a first one has ended (R426). -/
  bucketEnd : Option Nat
  /-- The map command in progress and its outcome. -/
  map : Option MapCmd
  deriving DecidableEq, Repr

/-- A node of a loaded graph (R169). -/
structure Node where
  kind : Nat
  pass : Bool
  stateful : Bool
  windowed : Bool
  inPorts : Nat
  outPorts : Nat
  maxTasks : Nat
  recOff : Nat
  recLen : Nat
  codeOff : Nat
  codeLen : Nat
  lsBytes : Nat
  limitUs : Nat
  stateBytes : Nat
  deriving DecidableEq, Repr

/-- An edge of a loaded graph (R170). -/
structure Edge where
  src : Nat
  srcPort : Nat
  dst : Nat
  dstPort : Nat
  ordered : Bool
  depend : Bool
  depth : Nat
  slotBytes : Nat
  deriving DecidableEq, Repr

/-- A loaded graph (R168, R187): its tables and parameter block, and where its image lies. -/
structure Graph where
  image : Nat
  imageBytes : Nat
  nodes : List Node
  edges : List Edge
  params : List Byte
  codeOff : Nat
  codeBytes : Nat
  arenaPages : Nat
  runParamBytes : Nat
  amuBanks : Nat
  deriving DecidableEq, Repr

/-- A morsel token (R180), with the buffers that it refers to (R179) and the order of its arrival. -/
structure Token where
  seq : Nat
  flow : Nat
  empty : Bool
  skipped : Bool
  poison : Bool
  cols : Nat
  rows : Nat
  node : Nat
  subseq : Nat
  part : Nat
  srcTs : Nat
  sel : Nat
  fn : Nat
  colset : Nat
  runTag : Nat
  col0 : Nat
  timeLo : Nat
  timeHi : Nat
  /-- Buffers referred to: edge × 256 + index. -/
  bufs : List Nat
  /-- The order in which tokens were placed. -/
  stamp : Nat
  deriving DecidableEq, Repr

/-- The states of a task (R216). -/
inductive TaskState where
  | ready | pegged | running | ending
  deriving DecidableEq, Repr

/-- Where a pegged or running task is: a tile's peg A, peg B or pipeline; an engine of a kind (its logical index);
nowhere. -/
inductive Place where
  | none
  | pegA (tile : Nat)
  | pegB (tile : Nat)
  | tile (tile : Nat)
  | mangle (engine : Nat)
  | amu (table : Nat)
  | halyard (channel : Nat)
  | cvc
  | sink
  deriving DecidableEq, Repr

/-- A task (R198). -/
structure Task where
  fn : Nat
  /-- The run, by the tag of its RUN entry. -/
  run : Nat
  node : Nat
  port : Nat
  /-- The input token; a source task and a FINAL task have none. -/
  token : Option Token
  /-- The sequence number that its outputs carry (R183, R488). -/
  seq : Nat
  isSource : Bool
  isFinal : Bool
  state : TaskState
  place : Place
  staged : Bool
  home : Option Nat
  /-- TSU count of the start (R218). -/
  start : Nat
  list : Nat
  /-- The order in which tasks were made. -/
  made : Nat
  /-- Output buffers taken (R177): port and buffer. -/
  bufs : List (Nat × Nat)
  /-- Output tokens that wait for room (R25, R26): port and token. -/
  outs : List (Nat × Token)
  /-- The status with which it ended. -/
  status : Nat
  sub : Nat
  late : Bool
  closeBelow : Nat
  /-- What an engine's finished work gives: status, sub-status and output tokens. -/
  result : Option (Nat × Nat × List (Nat × Token))
  deriving DecidableEq, Repr

/-- The progress of a source node of a run (R183). -/
structure Source where
  /-- Entries in its list. -/
  count : Nat
  /-- The next morsel's sequence number. -/
  next : Nat
  /-- The source makes no further morsel. -/
  stopped : Bool
  deriving DecidableEq, Repr

/-- A RUN entry that QMG has fetched and whose completion has not been produced, with all that it holds (R189 to
R195). -/
structure Run where
  fn : Nat
  qid : Nat
  graph : Nat
  runTag : Nat
  stopOnFault : Bool
  arena : Nat
  arenaPages : Nat
  segCount : Nat
  segLog : Nat
  segTable : Nat
  paramAddr : Nat
  started : Bool
  /-- TSU count at which the RUN began to wait (R303). -/
  waitAt : Nat
  /-- Sorting Table banks are held for it (R303). -/
  holding : Bool
  /-- The parameter block with the fields bound (R172). -/
  params : List Byte
  /-- Flows by edge. -/
  flows : List (Nat × Nat)
  /-- Tokens that wait on an edge, oldest first. -/
  queues : NMap (List Token)
  sources : NMap Source
  /-- Buffers held for drives that still write into them (R492): edge × 256 + index to the drive commands left. -/
  bufs : NMap Nat
  /-- CLOSE_BELOW of WINDOWED nodes (R186). -/
  closeBelow : NMap Nat
  /-- One more than the highest SEQ that reached a node (R488). -/
  highSeq : NMap Nat
  /-- Nodes whose FINAL task was made; nodes whose FINAL task has ended (R184). -/
  finalMade : List Nat
  finalDone : List Nat
  /-- Segment in use, bytes in it, whether its entry was read with OWN = 1, and the address in it (R193). -/
  seg : Nat
  segPos : Nat
  segOpen : Bool
  segAddr : Nat
  /-- Tokens that reached a SINK with SKIPPED set (R195). -/
  skips : Nat
  /-- The first status other than SUCCESS, with its stamp and source for the event order (R195). -/
  first : Option (Nat × Nat × Nat × Nat)
  /-- Fault records written, and records lost (R261). -/
  faultRecs : Nat
  faultLost : Nat
  /-- The stamp of the last fault record, and the records with that stamp in event order, each under its source (R439). -/
  faultAt : Nat
  faultTail : List (Nat × List Byte)
  /-- Extent records that sources have read and whose tasks have not ended (R175): node × 2^32 + sequence number. -/
  records : NMap (List Byte)
  /-- The SINK task that is writing blocks, the bytes that it has still to write, its status and sub-status, and a kill
  that waits for the end of the block (R490). -/
  sink : Option Nat
  segRest : List Byte
  sinkEnd : Nat × Nat
  sinkKill : Option (Nat × Nat)
  deriving DecidableEq, Repr

/-- An ordered flow (R226, R227). -/
structure Flow where
  fn : Nat
  run : Nat
  edge : Nat
  head : Nat
  /-- Lineage counts of the window, by SEQ; a SEQ that is not listed has not been made. -/
  counts : NMap Nat
  /-- Outputs of D that wait for release: SEQ to (port, SUBSEQ of the input token, token). -/
  outs : NMap (List (Nat × Nat × Token))
  /-- The release of the slot at HEAD has begun: what is left of its outputs are the tokens that it has still to place, in
  order (R228, R229). -/
  leaving : Bool
  deriving DecidableEq, Repr

/-- The scheduler beside its registers (spec/07_pipeline_graphs.md, spec/08_bosun_scheduler.md). -/
structure Bosun where
  /-- Loaded graphs, function × 64 + GRAPH_ID. -/
  graphs : NMap Graph
  /-- Runs fetched and not completed, by the tag of their entry. -/
  runs : NMap Run
  tasks : NMap Task
  flows : NMap Flow
  nextMade : Nat
  /-- Started runs of each function (RUN_TAG). -/
  runTags : NMap Nat
  /-- The function that last received a shared entry (R201). -/
  lastShared : Nat
  /-- The shared part was exhausted when a token waited, and has had no free entry since (R202). -/
  tableFull : Bool
  /-- The count of dispatches, and each function's last one (R208). -/
  dispatches : Nat
  lastDispatch : NMap Nat
  /-- TSU count of the last recovered lockstep disagreement (R234). -/
  lockAt : Option Nat
  /-- Halted stops, 0 west and 1 east, with the TSU count at which the halt began (R233). -/
  halts : NMap Nat
  /-- Stops with an injected disagreement pending (R233). -/
  inject : List Nat
  /-- The decisions of both copies in the cycles of the last two disagreements (R235): the TSU count, the stop, and the two
  decisions, as numbers that the spec does not define. -/
  decisions : List (Nat × Nat × Nat × Nat)
  deriving DecidableEq, Repr

/-- What a snapshot of Bosun holds (R235). -/
structure BosunShot where
  tasks : NMap Task
  /-- The head of each ready list that has one: list and task. -/
  heads : List (Nat × Nat)
  /-- The content of the pegs and job slots. -/
  pegs : List (Place × Nat)
  flows : NMap Flow
  decisions : List (Nat × Nat × Nat × Nat)
  deriving DecidableEq, Repr

/-- The image of Bosun's state in a snapshot: the internal layout of stepping B1, which the spec does not give (R482). -/
opaque Config.bosunImage : BosunShot → List Byte
/-- What an access of a core to HBM does (R245, R250, R253, R284). -/
inductive AccKind where
  /-- A scalar load of `size` bytes into the access's rd. -/
  | load (size : Nat) (signed : Bool)
  /-- A scalar store. -/
  | store (data : List Byte)
  /-- An atomic: operation code, size in bytes, rs2, and the value of rd before it. -/
  | atomic (op size : Nat) (operand old : Qword)
  /-- A field of an element of a vector memory instruction, named by the instruction's stamp. -/
  | vec (elem field : Nat)
  /-- A PREFETCH (R256). -/
  | prefetch
  deriving DecidableEq, Repr

/-- An access of a core to HBM that has been sent and not performed (R237, R254, R281). -/
structure MemAcc where
  kind : AccKind
  va : Nat
  len : Nat
  /-- The register that a load or atomic writes; 0 for none. -/
  rd : Nat
  /-- The program order of its instruction. -/
  stamp : Nat
  pc : Nat
  word : Dword
  deriving DecidableEq, Repr

/-- A Scavex instruction in the vector instruction queue, with the operands that it took at issue (R280). -/
structure VEntry where
  word : Dword
  pc : Nat
  stamp : Nat
  /-- x[rs1] and x[rs2]. -/
  a : Qword
  b : Qword
  vl : Nat
  /-- The scalar register that it writes; 0 for none. -/
  rd : Nat
  deriving DecidableEq, Repr

/-- How far one element field of a vector memory instruction has come. -/
inductive SlotState where
  | waits
  | sent
  | done (d : List Byte)
  deriving DecidableEq, Repr

/-- One field of an active element of a vector memory instruction (R284, R293). -/
structure Slot where
  elem : Nat
  field : Nat
  addr : Nat
  len : Nat
  /-- The bytes that a store writes. -/
  data : List Byte
  /-- The store covers every byte of the line (R432). -/
  full : Bool
  state : SlotState
  deriving DecidableEq, Repr

/-- Where a vector memory instruction stops: element, status, sub-status and address (R287). -/
structure VStop where
  elem : Nat
  status : Nat
  sub : Nat
  addr : Nat
  deriving DecidableEq, Repr

/-- A vector memory instruction in progress (R286 to R293). -/
structure VMem where
  word : Dword
  pc : Nat
  stamp : Nat
  load : Bool
  firstFault : Bool
  /-- VLDMASK or VSTMASK: `vrs` is ignored and kept (R292). -/
  mask : Bool
  /-- The first vector register, or the mask register, that a load writes, the count of registers, and the element's
  width in bytes. -/
  dst : Nat
  fields : Nat
  width : Nat
  /-- n, and the active elements' mask, for VLDMASK. -/
  n : Nat
  vm : MReg
  /-- The first active element that it processed. -/
  first : Nat
  /-- Fields that are not complete yet, in element order. -/
  slots : List Slot
  stop : Option VStop
  deriving DecidableEq, Repr

/-- A core tile beside its registers (spec/09_operator_core.md, spec/10_scavex_vector.md). -/
structure Core where
  /-- The running task. -/
  task : Option Nat
  /-- TSU count since which the tile has run tasks of one function (R209). -/
  fnSince : Nat
  pc : Nat
  x : NMap Qword
  /-- p1 to p7 in bits [7:1]. -/
  p : Nat
  v : NMap VReg
  m : NMap MReg
  vl : Nat
  vrs : Nat
  /-- The count of CCLK half-cycles at the task's start (CYCLE). -/
  cycStart : Nat
  instret : Nat
  /-- The 256 KiB local store. -/
  ls : Mem
  /-- The banks of pegs A and B (R210). -/
  bankA : Mem
  bankB : Mem
  /-- The instruction cache, by line address. -/
  icache : NMap Line
  /-- Lines of the instruction cache with a parity error (R263). -/
  icBad : List Nat
  accs : List MemAcc
  vq : List VEntry
  vmem : List VMem
  /-- The program order of the next instruction. -/
  stamp : Nat
  /-- The pc was reached by a branch. -/
  branched : Bool
  /-- A maintenance program that a fault stopped. -/
  halted : Bool
  /-- Errors armed by `OCA_ECC_INJECT`: target, uncorrectable. -/
  armed : List (Nat × Bool)
  /-- Local store words (by offset ÷ 8) and words of the register files that hold an injected error: uncorrectable. Scalar
  register r has number r, predicate p 32 + p, word k of vector register r 256 + 64r + k, and word k of mask register r
  4,096 + 8r + k. -/
  lsBad : NMap Bool
  regBad : NMap Bool
  /-- TSU counts at which a core reset of the tile and a scrub end (R75, R213, R265). -/
  resetEnd : Nat
  scrubEnd : Nat
  deriving DecidableEq, Repr

/-- A copy of a line in a mast cache (R253): the mast, the function and the line that tag it, and whether HBM has not its
data yet. Its data are those of the line: the copies are coherent, and `State.hbm` is what every reader finds. -/
structure MastLine where
  mast : Nat
  fn : Nat
  line : Nat
  dirty : Bool
  deriving DecidableEq, Repr

/-- A tile that holds nothing. -/
def Core.zero : Core :=
  { task := none, fnSince := 0, pc := 0, x := [], p := 0, v := [], m := [], vl := 0, vrs := 0, cycStart := 0,
    instret := 0, ls := [], bankA := [], bankB := [], icache := [], icBad := [], accs := [], vq := [], vmem := [], stamp := 0, branched := false,
    halted := false, armed := [], lsBad := [], regBad := [], resetEnd := 0, scrubEnd := 0 }

/-- An entry of a Sorting Table bank (R299): its match cells, and its copy with the key, payload and payload-valid. -/
structure AmuEntry where
  cells : Nat
  key : Nat
  payload : Nat
  pvalid : Bool
  /-- The copy holds an uncorrectable error. -/
  bad : Bool
  deriving DecidableEq, Repr

/-- A match table of a run (R301). -/
structure AmuTable where
  keyUnits : Nat
  hashed : Bool
  /-- Physical banks by position. -/
  banks : List Nat
  spilled : Bool
  damaged : Bool
  entries : Nat
  multiRows : Nat
  /-- Bytes of the build's keys, and the type of its payload column; none before its first build. -/
  keyBytes : Option Nat
  payType : Option Nat
  deriving DecidableEq, Repr

/-- The Sorting Table beside its registers (spec/11_associative_match.md). -/
structure Amu where
  /-- Valid entries, keyed bank × 4,096 + entry. -/
  entries : NMap AmuEntry
  /-- Tables, keyed run × 8 + table. -/
  tables : NMap AmuTable
  /-- Physical banks that a run took, in ascending logical number. -/
  runBanks : NMap (List Nat)
  /-- The RUN for which free banks are held (R303). -/
  hold : Option Nat
  /-- The function to which free banks went last. -/
  lastFn : Nat
  /-- TSU count at which a bank entered CLEARING. -/
  clearAt : NMap Nat
  /-- The entry that the scrub of a bank compares next, and the TSU count of its last comparison. -/
  scrubAt : NMap (Nat × Nat)
  deriving DecidableEq, Repr

def Amu.reset : Amu :=
  { entries := [], tables := [], runBanks := [], hold := none, lastFn := 0, clearAt := [], scrubAt := [] }

/-- The outcome of a descriptor job of Mangle, as its result record gives it (R328). -/
structure MglResult where
  status : Nat
  sub : Nat
  saved : Bool
  inBit : Nat
  consumed : Nat
  outPrimary : Nat
  outChain : Nat
  crc : Nat
  blocks : Nat
  ts : Nat
  /-- The address of the state area and the record that the job saves there when it ends (R331). -/
  state : Option (Nat × List Byte)
  deriving DecidableEq, Repr

/-- A job in a slot of a Mangle engine (R319): a task, or a descriptor job that a Halyard channel handed over (R349). -/
structure MglJob where
  fn : Nat
  task : Option Nat
  /-- The channel and the entry's queue ID and tag. -/
  channel : Nat
  qid : Nat
  tag : Nat
  desc : Nat
  /-- The 128 bytes of the descriptor. -/
  bytes : List Byte
  result : Option MglResult
  /-- TSU count at which the job took its slot (R320). -/
  since : Nat
  deriving DecidableEq, Repr

/-- A dictionary in the cache of an engine (R337). -/
structure MglDict where
  fn : Nat
  addr : Nat
  crc : Nat
  data : List Byte
  deriving DecidableEq, Repr

/-- Mangle beside its registers (spec/12_mangle_compression.md), by logical engine. -/
structure Mgl where
  /-- Jobs of an engine, the running one first. -/
  jobs : NMap (List MglJob)
  /-- TSU count at which an engine's last job ended. -/
  idleAt : NMap Nat
  /-- Physical engines whose next verification compares unequal. -/
  inject : List Nat
  /-- Dictionary caches, by physical engine (R337). -/
  dicts : NMap MglDict
  deriving DecidableEq, Repr

def Mgl.reset : Mgl := { jobs := [], idleAt := [], inject := [], dicts := [] }

/-- A transfer of a Halyard channel (R345): addresses, byte count, element widths and strides. -/
structure Xfer where
  src : Nat
  dst : Nat
  count : Nat
  sw : Nat
  dw : Nat
  sstride : Nat
  dstride : Nat
  srcHost : Bool
  dstHost : Bool
  cxl : Bool
  deriving DecidableEq, Repr

/-- A burst that is started and not ended (R352): its first byte of the stream in processing order, its length, and the
TSU count of its start. -/
structure Burst where
  off : Nat
  len : Nat
  start : Nat
  deriving DecidableEq, Repr

/-- What holds a slot of a channel. -/
inductive HalWork where
  /-- A COPY entry, by queue ID and tag. -/
  | copy (qid tag : Nat)
  /-- A MANGLE_JOB entry; the engine and whether its job has been handed over. -/
  | mangle (qid tag desc : Nat) (engine : Option Nat)
  /-- A register-mode transfer. -/
  | register
  /-- A task of a MOVE node. -/
  | task (t : Nat)
  deriving DecidableEq, Repr

/-- A job in a slot of a Halyard channel (R343). -/
structure HalJob where
  fn : Nat
  work : HalWork
  x : Xfer
  /-- Stream bytes of the bursts started, and of those whose writes are all performed. -/
  next : Nat
  done : Nat
  bursts : List Burst
  /-- The status with which the job ends once its bursts have ended. -/
  ending : Option (Nat × Nat)
  /-- A partial write met a bad line (R432). -/
  soft : Bool
  deriving DecidableEq, Repr

/-- Halyard beside its registers (spec/13_halyard_dma.md), by channel. -/
structure Hal where
  /-- Jobs of a channel, the running one first. -/
  jobs : NMap (List HalJob)
  /-- The tick before which the next burst may not start (R353). -/
  spacing : NMap Nat
  /-- TSU count of a stop. -/
  stopAt : NMap Nat
  /-- The entry whose completion a channel last produced and which may still wait for room (R165). -/
  produced : NMap Ref
  deriving DecidableEq, Repr

def Hal.reset : Hal := { jobs := [], spacing := [], stopAt := [], produced := [] }

/-- The assembled volume (R366 to R370). -/
structure Volume where
  members : Nat
  parity : Bool
  chunkLog : Nat
  stripes : Nat
  /-- Ports of the members. -/
  ports : List Nat
  spare : Option Nat
  /-- Missing members, by index. -/
  missing : List Nat
  /-- The member that is rebuilt onto the spare. -/
  rebuild : Option Nat
  /-- Stripes that await resync: ranges [first, end), ascending. -/
  resync : List (Nat × Nat)
  deriving DecidableEq, Repr

/-- A drive command that CVC has sent and that has not ended. -/
structure DriveCmd where
  tag : Nat
  port : Nat
  /-- NVMe opcode: 0 Flush, 1 Write, 2 Read, 9 Dataset Management. -/
  op : Nat
  /-- Member block and count of 4 KiB blocks. -/
  block : Nat
  count : Nat
  data : List Byte
  fua : Bool
  /-- The CVC command that it serves; the fetch, if it reads for one; the member. -/
  cmd : Nat
  item : Option Nat
  member : Nat
  since : Nat
  /-- It was reissued after a reset of the controller. -/
  again : Bool
  deriving DecidableEq, Repr

/-- Blocks of a member that a command needs: read from the member, or reconstructed from the others (R386, R387). -/
structure Fetch where
  member : Nat
  block : Nat
  count : Nat
  recon : Bool
  /-- Write the reconstructed blocks back to the member. -/
  repair : Bool
  /-- Bytes received, keyed member × 2^48 + block. -/
  parts : NMap (List Byte)
  fail : Option Nat
  deriving DecidableEq, Repr

/-- A range-lock entry (R379, R380): volume blocks [lo, hi), and whether a write holds it. -/
structure Lock where
  lo : Nat
  hi : Nat
  write : Bool
  deriving DecidableEq, Repr

/-- Kinds of the commands in CVC. -/
inductive VolKind where
  | read | write | flush | deallocate
  /-- A HOLD_READ task. -/
  | holdRead
  /-- A stripe of the rebuild or of the resync. -/
  | rebuild | resync
  deriving DecidableEq, Repr

/-- How far a command has come (R380, R381). -/
inductive VolStage where
  /-- In the admission FIFO. -/
  | fifo
  /-- Admitted; it waits for conflicting commands. -/
  | admitted
  /-- Reading from the drives. -/
  | fetching
  /-- Writing to the drives. -/
  | writing
  deriving DecidableEq, Repr

/-- A command in CVC. -/
structure VolCmd where
  fn : Nat
  kind : VolKind
  /-- Queue ID and tag of its entry. -/
  entry : Option (Nat × Nat)
  task : Option Nat
  /-- Volume block ranges in the order of the data: start and count. -/
  ranges : List (Nat × Nat)
  /-- The buffer: addresses and lengths, in host memory or in the function's HBM. -/
  host : Bool
  segs : List (Nat × Nat)
  fua : Bool
  locks : List Lock
  staging : Nat
  stage : VolStage
  fetches : List Fetch
  /-- Ports whose members' blocks were reconstructed, absorbed or left without parity; ports that reported an error. -/
  lost : Nat
  errs : Nat
  status : Nat
  sub : Nat
  /-- It belongs to nothing any more; its locks go when its last drive command ends (R127, R492). -/
  orphan : Bool
  /-- The buffer of a HOLD_READ that is held until then: run and buffer. -/
  held : Option (Nat × Nat)
  deriving DecidableEq, Repr

/-- A command that CVC works on by itself. -/
def VolCmd.internal (c : VolCmd) : Bool := c.kind = .rebuild || c.kind = .resync

/-- A DRIVE_ADMIN that waits for its drive (R394): its entry and what it passed on. -/
structure AdminJob where
  entry : Nat
  tag : Nat
  port : Nat
  opcode : Nat
  addr : Nat
  bytes : Nat
  since : Nat
  deriving DecidableEq, Repr

/-- FW_ACTIVATE in progress (R396). -/
structure FwJob where
  tag : Nat
  ports : Nat
  slot : Nat
  deriving DecidableEq, Repr

/-- Hold beside its registers (spec/14_column_volume.md). -/
structure Cvc where
  vol : Option Volume
  /-- What each port's drive identified itself as. -/
  drives : NMap DriveInfo
  /-- Commands by number, which is the order of acceptance. -/
  cmds : NMap VolCmd
  nextCmd : Nat
  drv : List DriveCmd
  nextTag : Nat
  /-- TSU count at which the last stripe of the rebuild began. -/
  rebuildAt : Nat
  fw : Option FwJob
  admin : Option AdminJob
  /-- The last tick at which the condition of power state n was broken (R398). -/
  psBroken : NMap Nat
  deriving DecidableEq, Repr

def Cvc.reset : Cvc :=
  { vol := none, drives := [], cmds := [], nextCmd := 1, drv := [], nextTag := 1, rebuildAt := 0, fw := none,
    admin := none, psBroken := [] }

/-- A slot of the digest engine (R402 to R411). -/
structure DgeSlot where
  /-- 0 FREE, 1 OPEN, 2 DONE, 3 ERROR, 4 LOST. -/
  st : Nat
  alg : Nat
  keyed : Bool
  /-- The block being filled or the next one is the last; the block before was. -/
  last : Bool
  wasLast : Bool
  /-- 0 idle, 1 a block, 2 an export, 3 an import in progress. -/
  busy : Nat
  /-- Bytes of the current block. -/
  buf : List Byte
  /-- The chaining value. -/
  chain : List Byte
  blocks : Nat
  status : Nat
  sub : Nat
  digest : List Byte
  expect : List Byte
  image : List Byte
  deriving DecidableEq, Repr

/-- A FREE slot that holds nothing. -/
def DgeSlot.blank : DgeSlot :=
  { st := 0, alg := 0, keyed := false, last := false, wasLast := false, busy := 0, buf := [], chain := [], blocks := 0,
    status := 0, sub := 0, digest := [], expect := [], image := [] }

/-- The digest engine beside its registers (spec/15_digest_engine.md). -/
structure Dge where
  /-- Slots by function × 16 + slot. -/
  slots : NMap DgeSlot
  /-- Slots whose block waits or is absorbed, oldest first, with the block and its last mark (R406). -/
  ready : List (Nat × List Byte × Bool)
  /-- Slots whose block was in a pipeline when `CONTROL.ENABLE` fell: no other block is begun until it rises (R91). -/
  begun : List Nat
  /-- Released contexts that are being zeroed: TSU counts of the release (R411). -/
  zeroing : List Nat
  /-- The draw that gave the device key (R408). -/
  key : Nat
  deriving DecidableEq, Repr

def Dge.reset : Dge := { slots := [], ready := [], begun := [], zeroing := [], key := 0 }


/-- The state of the device. -/
structure State where
  /-- Register fields, by field number × 65,536 + index (spec/04_register_pages_and_address_map.md, R97). -/
  regs : NMap Nat
  board : Board
  clk : Clocks
  hif : Hif
  tsu : Tsu
  reef : Reef
  darn : Darn
  store : Store
  /-- Error log entries, by subsystem × 16 + index (R472). -/
  errLog : NMap ErrEntry
  /-- Subsystems that took a CONTAINED_FATAL fault (R475). -/
  failedSubs : List Nat
  /-- Subsystems whose soft reset waits until they are idle (R76). -/
  softPending : List Nat
  qmg : Qmg
  hmc : Hmc
  bsn : Bosun
  /-- Core tiles, by physical index. -/
  oca : NMap Core
  /-- Copies in the mast caches, oldest first (R253). -/
  mast : List MastLine
  amu : Amu
  mgl : Mgl
  hal : Hal
  cvc : Cvc
  dge : Dge
  /-- Host memory: the environment's, which the device reads and writes over the link (R19). -/
  hostMem : Mem
  /-- HBM by device physical address (R414). -/
  hbm : Mem
  /-- What the block has sent, newest last: the model's own record. -/
  out : List Out
  /-- Draws of free values so far: the model's own counter. -/
  draws : Nat
  /-- The commands that wait, first in, first out. -/
  pending : List Instr
  deriving DecidableEq, Repr

/-- Why a step stops. -/
inductive Fault where
  /-- Raised by SUPPLY_HIGH, SURGE and INPUT_FAULT when INPUT is above 80 V: outside the absolute maximum, where R45
  guarantees no behaviour. Safe: nothing is claimed of the device after it. -/
  | beyondAbsoluteMaximum
  deriving DecidableEq, Repr

/-- Why a command is refused. -/
inductive Refusal where
  /-- A command whose meaning is not written, by its mnemonic. Safe: nothing is claimed of it. -/
  | notModelled (mnemonic : String)
  deriving DecidableEq, Repr

def Board.reset : Board :=
  { phase := .unlocked, pwrGood := true, auxOk := true, pwrEn := true, stopLatch := 0, inputMv := 54000,
    inputSwitch := true, holdupSwitch := false, holdupOk := false, faultAt := none, faultTs := 0, faultHoldup := false,
    surgeAt := none,
    smbusAddr := some 0x58, thermTrip := false, perstN := false, throttleLow := false, throttleRise := none,
    drvPerstN := 0, drvPresent := 0, droopAt := none, droopAlerted := false, droopRails := [] }

def Clocks.reset : Clocks :=
  { div := 3, divReq := none, divAt := 0, tsu := 0, now := 0, cyc := 0, releaseAt := 0, held := false, warmAt := 0,
    lostAt := 0, stackNext := 0, assembled := false }

def Hif.reset : Hif :=
  { linkUp := false, cfg := [], msix := [], pba := [], qos := [], qosWindow := 0, capCore := 0,
    capHbm := 0, capLink := 0, inForce := [], cxlTx := 0, cxlRx := 0, atc := [], ide := [], atsWait := [], coWait := [],
    readLatch := [], writeHold := [] }

def Tsu.reset : Tsu := { reorder := [], log := [], dialogue := none, lastDialogue := 0, lastSync := none }

def Reef.reset : Reef :=
  { windows := [], sinceRise := 100, lastWindow := 0, changedAt := 0, thermal := false, coolSince := none }

def Darn.reset : Darn :=
  { marks := [], current := none, history := [], sramRows := [], rowCorr := [], groupErr := [], wearWindow := 0,
    repairs := [], pprBank := [] }

def Qmg.reset : Qmg :=
  { queues := [], nextTag := 0, adminNext := 0, lastAdmin := false, credit := [], cur := 8, left := 0,
    groupFn := 0, groupLeft := 0, lastQid := [] }

def Hmc.reset : Hmc :=
  { leaves := [], tableStack := [], owner := [], lastOwner := [], check := [], filter := [], sticky := [],
    bucketEnd := none, map := none }

def Bosun.reset : Bosun :=
  { graphs := [], runs := [], tasks := [], flows := [], nextMade := 0, runTags := [], lastShared := 0,
    tableFull := false, dispatches := 0, lastDispatch := [], lockAt := none, halts := [], inject := [],
    decisions := [] }

def Store.reset : Store :=
  { powerLoss := none, resetRec := none, snapshot := none, overflow := [], lastStop := 0, health := 1,
    lastRec := 0, sensors := [], eventsOn := false }

/-- The machine right after a cold reset (R71): every register at the value of its Reset column (R9), HBM zero, the
TSU count 0, nothing ready, no command waiting. The pins are those of a module whose rails have just come up. -/
def State.reset : State :=
  { regs := [], board := Board.reset, clk := Clocks.reset, hif := Hif.reset, tsu := Tsu.reset, reef := Reef.reset,
    darn := Darn.reset, store := Store.reset, errLog := [], failedSubs := [], softPending := [],
    qmg := Qmg.reset, hmc := Hmc.reset, bsn := Bosun.reset, oca := [], mast := [],
    amu := Amu.reset, mgl := Mgl.reset, hal := Hal.reset, cvc := Cvc.reset, dge := Dge.reset,
    hostMem := [], hbm := [], out := [], draws := 0, pending := [] }

end Sys2Proof.Machine
end

