-- ==== Sys2Proof/Machine/Ops.lean ====
section
/-! DEFINITION. The named operations that every family uses: register fields, free values, interrupts and MSI-X
messages, the TSU event records, the error logs and classes of faults, alerts, and host memory. -/

namespace Sys2Proof.Machine

/-- The outcome of a command. -/
abbrev Res := Host.Outcome State Fault Refusal

/-- Apply `f` where `c` holds. -/
def onlyIf (c : Bool) (f : State → State) (s : State) : State := if c then f s else s

/-- A command whose enabling condition `c` is met has its effect `f`; one whose condition is not met is no step of
the device and leaves the state (DESIGN CHOICE, notes/assumptions/2.md). -/
def enabled (c : Bool) (f : State → State) (s : State) : Res :=
  .next (if c then { f s with pending := s.pending } else s)

/-- A command that the clock root does not see: no power, reset, bring-up or reef command (R66 to R70). -/
def steady (c : Bool) (f : State → State) (s : State) : Res :=
  .next (if c then { f s with pending := s.pending, clk := s.clk } else s)

/-- A change that the clock root does not see. -/
def State.offClock (s : State) (f : State → State) : State := { f s with clk := s.clk }

/-- A command of bring-up: it moves the clock root's notes of bring-up, not the CCLK divider or the counters (R78 to
R84). -/
def paced (c : Bool) (f : State → State) (s : State) : Res :=
  .next (if c then
    { f s with
      pending := s.pending,
      clk := { (f s).clk with
        div := s.clk.div, divReq := s.clk.divReq, divAt := s.clk.divAt, tsu := s.clk.tsu, now := s.clk.now, cyc := s.clk.cyc } }
  else s)

/-- What no command of a tile reaches: queues, engines, volume, digest contexts, host memory, the board. -/
def State.outsideCores (old new : State) : State :=
  { new with
    pending := old.pending, clk := old.clk, board := old.board, reef := old.reef, failedSubs := old.failedSubs,
    softPending := old.softPending, qmg := old.qmg, amu := old.amu, mgl := old.mgl, hal := old.hal, cvc := old.cvc,
    dge := old.dge, hostMem := old.hostMem }

/-- A command of a tile (chapters 9 and 10). -/
def coreStep (c : Bool) (f : State → State) (s : State) : Res := .next (if c then s.outsideCores (f s) else s)

/-- What no command of a digest slot reaches (chapter 15): memory, tasks, queues, engines, volume, the board. -/
def State.outsideDigest (old new : State) : State :=
  { new with
    pending := old.pending, clk := old.clk, board := old.board, reef := old.reef, darn := old.darn,
    failedSubs := old.failedSubs, softPending := old.softPending, qmg := old.qmg, hmc := old.hmc, bsn := old.bsn,
    oca := old.oca, amu := old.amu, mgl := old.mgl, hal := old.hal, cvc := old.cvc, hostMem := old.hostMem,
    hbm := old.hbm }

/-- A command of a digest slot. -/
def digestStep (c : Bool) (f : State → State) (s : State) : Res := .next (if c then s.outsideDigest (f s) else s)

/-! ### Numbers -/

/-- A number cut to `n` bits. -/
def lowBits (n v : Nat) : Nat := v % 2 ^ n

/-- Bits [lo + len - 1 : lo] of a number. -/
def bitField (v lo len : Nat) : Nat := (v / 2 ^ lo) % 2 ^ len

/-- A number with bit `b` set. -/
def withBit (v b : Nat) : Nat := v ||| 2 ^ b

/-- A number with bit `b` clear. -/
def withoutBit (v b : Nat) : Nat := if v.testBit b then v - 2 ^ b else v

/-- Bits of `n`-bit `v` that `m` does not have. -/
def clearBits (v m : Nat) : Nat := v ^^^ (v &&& m)

/-- The number of bits of `v` below `n` that are 1. -/
def countBits (n v : Nat) : Nat := ((List.range n).filter (fun b => v.testBit b)).length

/-- A saturating counter of `n` bits. -/
def satAdd (n v k : Nat) : Nat := min (v + k) (2 ^ n - 1)

/-- The number of a truth value. -/
def bit (b : Bool) : Nat := if b then 1 else 0

/-! ### Register fields (R7, R9, R97) -/

/-- The subsystem code of R11 in ASCII, first letter in the low byte (R91). -/
def subsystemCode : Nat → Nat
  | 1 => 0x464948 | 2 => 0x474D51 | 3 => 0x4E5342 | 4 => 0x41434F | 5 => 0x474952 | 6 => 0x434D48 | 7 => 0x4C4148
  | 8 => 0x554D41 | 9 => 0x4C474D | 10 => 0x435643 | 11 => 0x505344 | 12 => 0x454744 | 13 => 0x555354
  | 14 => 0x525750 | 15 => 0x4E5244 | 16 => 0x54474D | _ => 0

/-- The pages whose soft reset acts (R76): OCA, HAL, AMU, MGL, CVC, DSP, DGE and DRN. -/
def softResets (sub : Nat) : Bool := [4, 7, 8, 9, 10, 11, 12, 15].contains sub

/-- The value of a field with index `i` after a cold reset (R9): the Reset column, where it depends on the page, the
function or the element worked out here. The spec gives the reset value of OVR_EN alone of an override register (R95);
the model takes for each of its fields the plain value of the basic field's column, also where that depends on the
function or the element (DESIGN CHOICE, notes/assumptions/89.md). -/
def Field.resetAt (f : Field) (i : Nat) : Nat :=
  if f.id = fID_SUB_ID.id then i
  else if f.id = fID_CODE.id then subsystemCode i
  else if f.id = fCAPS_SOFT_RESET.id then (if softResets i then 1 else 0)
  else if f.id = fHIF_FN_ID_FN.id then i
  else if f.id = fHIF_FN_EVENT_VECTOR_VECTOR.id then (if i = 0 then 16 else 0)
  else if f.id = fQMG_ADM_VECTOR_VECTOR.id then (if i = 0 then 16 else 0)
  else if f.id = fQMG_FN_QCOUNT_LIMIT.id then (if i = 0 then 1015 else 14)
  else if f.id = fQMG_FN_QLIMIT_LIMIT.id then (if i = 0 then 1015 else 14)
  else if f.id = fBSN_QOS_MAP_CLASS_0.id then (if i = 0 then 0 else 1)
  else if f.id = fBSN_FN_LIST.id then i % 64
  else if f.id = fCVC_PS_TIMER_IDLE_US.id then
    (if i = 0 then 1000 else if i = 1 then 10000 else if i = 2 then 1000000 else 0)
  else if f.id = fDRN_CORE_MAP_TILE.id then 17 * (i / 16) + i % 16
  else f.rst

/-- The place of a field with index `i` in the register store. -/
def Field.key (f : Field) (i : Nat) : Nat := f.id * 65536 + i

/-- The value held in a field with index `i`. -/
def State.rd (s : State) (f : Field) (i : Nat) : Nat := getD (f.resetAt i) s.regs (f.key i)

/-- Write a field with index `i`; the value is cut to the field's width. -/
def State.wr (s : State) (f : Field) (i v : Nat) : State :=
  { s with regs := setD (f.resetAt i) s.regs (f.key i) (lowBits f.len v) }

/-- Add to a counter field that saturates. -/
def State.bumpSat (s : State) (f : Field) (i k : Nat) : State := s.wr f i (satAdd f.len (s.rd f i) k)

/-- Add to a counter field that wraps. -/
def State.bumpWrap (s : State) (f : Field) (i k : Nat) : State := s.wr f i (s.rd f i + k)

/-- The OVR_EN bit of the override register that `f` has (R95), as a field. -/
def Field.ovrEn (f : Field) : Field := ⟨f.ovr, 31, 1, .rw, 0, true, 0⟩

/-- The value of an RW setting that governs: the override's while its OVR_EN is 1 (R95). -/
def State.setting (s : State) (f : Field) (i : Nat) : Nat :=
  if f.ovr ≠ 0 ∧ s.rd f.ovrEn i = 1 then s.rd f.x i else s.rd f i

/-- A setting whose value 0 reads as 1. -/
def State.setting1 (s : State) (f : Field) (i : Nat) : Nat := max 1 (s.setting f i)

/-! ### Free values and outputs -/

/-- The next free value. -/
def State.free (s : State) : Nat := Config.freeNat s.draws

/-- The state after a free value was drawn. -/
def State.drawn (s : State) : State := { s with draws := s.draws + 1 }

/-- Send something to a neighbour. -/
def State.emit (s : State) (o : Out) : State := { s with out := s.out ++ [o] }

/-! ### Phases -/

/-- The derived clocks run and no reset or fatal fault holds the device back. -/
def State.running (s : State) : Bool := s.board.phase = .run

/-- TCLK runs (R69): the clock root is locked. -/
def State.ticking (s : State) : Bool := s.board.phase = .run || s.board.phase = .warm

/-- The derived clocks run (R67, R70). -/
def State.clocked (s : State) : Bool := s.running || s.board.phase = .warm

/-- Auheund is powered: aux is in range, or the standby converter runs from the main supply (R44, R72). -/
def State.auheundOn (s : State) : Bool := s.board.auxOk || s.board.phase ≠ .off

/-- The main rails are up. -/
def State.railsUp (s : State) : Bool := !(s.board.phase = .off || s.board.phase = .starting)

/-- `STATUS.READY` of a subsystem. -/
def State.ready (s : State) (sub : Nat) : Bool := s.rd fSTATUS_READY sub = 1

/-- A subsystem that starts new jobs: ready, its ENABLE at 1 (R93), and not in a CONTAINED_FATAL state (R475). -/
def State.starts (s : State) (sub : Nat) : Bool :=
  s.running && s.ready sub && s.rd fCONTROL_ENABLE sub = 1 && !s.failedSubs.contains sub

/-- A time of `us` microseconds in TCLK ticks (R441). -/
def ticksOfUs (us : Nat) : Nat := us * 800

/-- A time of `ms` milliseconds in TCLK ticks. -/
def ticksOfMs (ms : Nat) : Nat := ms * 800000

/-! ### Configuration space (R113 to R118) -/

/-- The number of a configuration item. -/
def cfgCode : CfgItem → Nat
  | .vendorId => 0 | .deviceId => 1 | .subsystemVendorId => 2 | .subsystemId => 3 | .classCode => 4
  | .revisionId => 5 | .maxPayload => 6 | .ari => 7 | .totalVfs => 8 | .initialVfs => 9 | .numVfs => 10
  | .firstVfOffset => 11 | .vfStride => 12 | .pageSizes => 13 | .vfDeviceId => 14 | .vfEnable => 15
  | .routingId => 16 | .memorySpace => 17 | .msixEnable => 18 | .msixFnMask => 19 | .msixTableSize => 20
  | .ptmEnable => 21 | .aerUncorrStatus => 22 | .aerCorrStatus => 23 | .aerUncorrSeverity => 24 | .powerState => 25
  | .bar i => 26 + i.val | .vfBar i => 32 + i.val | .tagSupport => 38 | .aspmSupport => 39 | .l1Substates => 40
  | .noSoftReset => 41 | .atsPageAligned => 42 | .atsGlobalInvalidate => 43 | .atsQueueDepth => 44 | .atsEnable => 45
  | .hdmBase i => 64 + i.val | .hdmSize i => 68 + i.val | .hdmWays i => 72 + i.val | .hdmGran i => 76 + i.val
  | .hdmOn i => 80 + i.val

/-- The bits of a base address register that software may write: those above the size of what it maps (R88). Each of
the three BARs is 64 bits wide and takes two registers, the upper one whole. `vf` says that it is one of PF0's SR-IOV
capability. -/
def barMask (vf : Bool) (i : Fin 6) : Nat :=
  match vf, i.val with
  | false, 0 => 2 ^ 32 - 2 ^ 23
  | false, 2 => 2 ^ 32 - 2 ^ 24
  | true, 0 => 2 ^ 32 - 2 ^ 17
  | false, 1 | false, 3 | true, 1 => 2 ^ 32 - 1
  | _, _ => 0

/-- The type bits of a base address register: 64-bit and non-prefetchable in the lower half of each of the three (R88). -/
def barType (vf : Bool) (i : Fin 6) : Nat := if i.val = 0 ∨ (i.val = 2 ∧ !vf) then 4 else 0

/-- The value of a configuration item of a function that nothing has written (R88, R112 to R114, R117, R132).
`tagSupport` has a bit each for 10-bit requester and completer and 14-bit requester and completer tags, `aspmSupport` one
each for L0s and L1. The host assigns PF0's bus number B (R115); the model takes B = 0, so that VFn reads n (DESIGN
CHOICE, notes/assumptions/89.md). The HDM decoders are off at reset, and the values of the fields of an off decoder are
1 way, 256 bytes and no range (DESIGN CHOICE, notes/assumptions/89.md). -/
def cfgResetAt (item : CfgItem) (fn : Nat) : Nat :=
  match item with
  | .vendorId => if fn = 0 then 0x1F6B else 0xFFFF
  | .deviceId => if fn = 0 then 0x8516 else 0xFFFF
  | .subsystemVendorId => 0x1F6B
  | .subsystemId => 0x8516
  | .classCode => 0x120000
  | .revisionId => 0xB1
  | .maxPayload => 512
  | .ari => 1
  | .totalVfs => if fn = 0 then 1024 else 0
  | .initialVfs => if fn = 0 then 1024 else 0
  | .firstVfOffset => if fn = 0 then 1 else 0
  | .vfStride => if fn = 0 then 1 else 0
  | .pageSizes => if fn = 0 then 0x3F else 0
  | .vfDeviceId => if fn = 0 then 0x8517 else 0
  | .routingId => fn
  | .msixTableSize => if fn = 0 then 2048 else 64
  | .aerUncorrSeverity => 0x462030
  | .numVfs | .vfEnable | .memorySpace | .msixEnable | .msixFnMask | .ptmEnable | .aerUncorrStatus
  | .aerCorrStatus | .powerState | .l1Substates | .atsEnable | .hdmBase _ | .hdmSize _ | .hdmOn _ => 0
  | .bar i => if fn = 0 then barType false i else 0
  | .vfBar i => if fn = 0 then barType true i else 0
  | .tagSupport => 15
  | .aspmSupport => 2
  | .noSoftReset => if fn = 0 then 1 else 0
  | .atsPageAligned | .atsGlobalInvalidate => 1
  | .atsQueueDepth => 32
  | .hdmWays _ => 1
  | .hdmGran _ => 256

/-- A configuration item of a function. -/
def State.cfg (s : State) (fn : Nat) (item : CfgItem) : Nat :=
  getD (cfgResetAt item fn) s.hif.cfg (fn * 128 + cfgCode item)

/-- Write a configuration item of a function. -/
def State.setCfg (s : State) (fn : Nat) (item : CfgItem) (v : Nat) : State :=
  { s with hif := { s.hif with cfg := setD (cfgResetAt item fn) s.hif.cfg (fn * 128 + cfgCode item) v } }

/-- A function is present: PF0, or a VF below NumVFs while VF Enable is 1 (R116). -/
def State.present (s : State) (fn : Nat) : Bool :=
  fn = 0 || (s.cfg 0 .vfEnable = 1 && fn ≤ s.cfg 0 .numVfs)

/-- A request to a function reaches it: the pins of the host link work, HIF is ready and the function is present (R34,
R85, R116). -/
def State.live (s : State) (fn : Nat) : Bool := s.running && s.board.pwrGood && s.ready 1 && s.present fn

/-- An access to a BAR of a function reaches it: its BARs are decoded only while its memory space is enabled (R88). -/
def State.reaches (s : State) (fn : Nat) : Bool := s.live fn && s.cfg fn .memorySpace = 1

/-! ### Latches of 64-bit registers (R105) -/

/-- The 4 KiB page of a function's base address register (0 BAR0, 1 a VF's window, 2 BAR2) that an offset lies in. -/
def pageOf (fn space off : Nat) : Nat := fn * 2 ^ 30 + space * 2 ^ 20 + off / 4096

/-- A function accesses a page: what was latched or held of it before is taken, or is gone (R105). -/
def State.atPage (s : State) (fn space off : Nat) : State :=
  { s with hif := { s.hif with
      readLatch := del s.hif.readLatch (pageOf fn space off), writeHold := del s.hif.writeHold (pageOf fn space off) } }

/-- PF0 writes at an offset of the region of a subsystem. -/
def State.atRegion (s : State) (sub off : Nat) : State := s.atPage 0 0 (sub * 0x40000 + off)

/-- A function writes at an offset of its window. -/
def State.atWindow (s : State) (fn off : Nat) : State := s.atPage fn (if fn = 0 then 0 else 1) off

/-- A function writes a register of its digest slot. -/
def State.atSlot (s : State) (fn sl : Nat) : State := s.atWindow fn (0x4000 + 0x400 * sl)

/-- The number of MSI-X vectors of a function (R117). -/
def vectorsOf (fn : Nat) : Nat := if fn = 0 then 2048 else 64

/-! ### MSI-X messages (R118) -/

/-- The MSI-X table entry of a vector. -/
def State.msixEntry (s : State) (fn v : Nat) : Msix := getD Msix.blank s.hif.msix (fn * 2048 + v)

/-- The pending bit of a vector. -/
def State.msixPending (s : State) (fn v : Nat) : Bool := getD false s.hif.pba (fn * 2048 + v)

def State.setPending (s : State) (fn v : Nat) (b : Bool) : State :=
  { s with hif := { s.hif with pba := setD false s.hif.pba (fn * 2048 + v) b } }

/-- A vector whose message is held back: its own mask bit or the function's is set. -/
def State.vecMasked (s : State) (fn v : Nat) : Bool :=
  (s.msixEntry fn v).masked || s.cfg fn .msixFnMask = 1

/-- Send one message on a vector, or set its pending bit while it is masked; nothing while MSI-X is disabled or
the pins of the host link do not work (R34), and nothing from step 1 of a warm reset or of the quiesce of a FATAL fault until HIF is ready again (R73, R118, R476). -/
def State.message (s : State) (fn v : Nat) : State :=
  if !s.running || !s.board.pwrGood || !s.ready 1 || s.cfg fn .msixEnable ≠ 1 then s
  else if s.vecMasked fn v then s.setPending fn v true
  else s.emit (.msix fn v)

/-! ### TSU event records (R442, R444) -/

/-- Whether `TSU_LOG_SEL` selects a source. -/
def State.logSelected (s : State) (source : Nat) : Bool :=
  if source < 0x400 then (s.setting fTSU_LOG_SEL_SOURCES 0).testBit source
  else s.setting fTSU_LOG_SEL_TILES 0 = 1

/-- Bits of a page's `IRQ_STATUS` (R91). -/
def State.irqStatus (s : State) (sub : Nat) : Nat :=
  s.rd fIRQ_STATUS_ERR sub + 2 * s.rd fIRQ_STATUS_FAULT sub + 4 * s.rd fIRQ_STATUS_SUB sub

def State.setIrqStatus (s : State) (sub v : Nat) : State :=
  ((s.wr fIRQ_STATUS_ERR sub (v % 2)).wr fIRQ_STATUS_FAULT sub (v / 2 % 2)).wr fIRQ_STATUS_SUB sub (v / 4)

/-- Bits of a page's `IRQ_ENABLE`. -/
def State.irqEnable (s : State) (sub : Nat) : Nat :=
  s.rd fIRQ_ENABLE_ERR sub + 2 * s.rd fIRQ_ENABLE_FAULT sub + 4 * s.rd fIRQ_ENABLE_SUB sub

def State.setIrqEnable (s : State) (sub v : Nat) : State :=
  ((s.wr fIRQ_ENABLE_ERR sub (v % 2)).wr fIRQ_ENABLE_FAULT sub (v / 2 % 2)).wr fIRQ_ENABLE_SUB sub (v / 4)

/-- The masked value of a page (R92). -/
def State.irqMasked (s : State) (sub : Nat) : Nat := s.irqStatus sub &&& s.irqEnable sub

/-- Set one bit of a page's `IRQ_STATUS` and send the message of R92 where the masked value leaves zero. -/
def State.setIrqBit (s : State) (sub b : Nat) : State :=
  let t := s.setIrqStatus sub (withBit (s.irqStatus sub) b)
  if s.irqMasked sub = 0 ∧ t.irqMasked sub ≠ 0 then t.message 0 (sub - 1) else t

/-- A record that finds the reorder buffer full: it is counted, and LOG_LOST is raised (R444). The cause bit's own
record is lost with it. -/
def State.recordLost (s : State) : State :=
  let t := s.bumpSat fTSU_LOG_LOST_COUNT 0 1
  if (t.irqStatus 13).testBit 2 then t
  else
    let u := t.setIrqBit 13 2
    if u.logSelected 13 then u.bumpSat fTSU_LOG_LOST_COUNT 0 1 else u

/-- Deliver a record to TSU (R442, R444). -/
def State.record (s : State) (source kind : Nat) (fn : Option Nat) (detail : Nat) : State :=
  if !s.ticking || !s.logSelected source then s
  else if s.tsu.reorder.length < 512 then
    { s with tsu := { s.tsu with
        reorder := s.tsu.reorder ++ [⟨s.clk.tsu, source, kind, fn, lowBits 32 detail⟩] } }
  else s.recordLost

/-! ### Interrupt causes (R92) -/

/-- Raise cause bit `b` of a page: nothing further where it is already set (R92). -/
def State.raise (s : State) (sub b : Nat) : State :=
  if (s.irqStatus sub).testBit b then s else (s.setIrqBit sub b).record sub 1 none b

/-- Bits of a function's `HIF_FN_IRQ_STATUS` and `HIF_FN_IRQ_ENABLE`. -/
def State.fnIrqStatus (s : State) (fn : Nat) : Nat :=
  s.rd fHIF_FN_IRQ_STATUS_QOS_CAPPED fn + 2 * s.rd fHIF_FN_IRQ_STATUS_DENIED fn + 4 * s.rd fHIF_FN_IRQ_STATUS_CQ_FULL fn

def State.setFnIrqStatus (s : State) (fn v : Nat) : State :=
  ((s.wr fHIF_FN_IRQ_STATUS_QOS_CAPPED fn (v % 2)).wr fHIF_FN_IRQ_STATUS_DENIED fn (v / 2 % 2)).wr
    fHIF_FN_IRQ_STATUS_CQ_FULL fn (v / 4 % 2)

def State.fnIrqEnable (s : State) (fn : Nat) : Nat :=
  s.rd fHIF_FN_IRQ_ENABLE_QOS_CAPPED fn + 2 * s.rd fHIF_FN_IRQ_ENABLE_DENIED fn + 4 * s.rd fHIF_FN_IRQ_ENABLE_CQ_FULL fn

def State.setFnIrqEnable (s : State) (fn v : Nat) : State :=
  ((s.wr fHIF_FN_IRQ_ENABLE_QOS_CAPPED fn (v % 2)).wr fHIF_FN_IRQ_ENABLE_DENIED fn (v / 2 % 2)).wr
    fHIF_FN_IRQ_ENABLE_CQ_FULL fn (v / 4 % 2)

/-- Raise a function event: bit 0 QOS_CAPPED, 1 DENIED, 2 CQ_FULL; one message on `HIF_FN_EVENT_VECTOR` where the
masked value leaves zero. -/
def State.raiseFn (s : State) (fn b : Nat) : State :=
  if (s.fnIrqStatus fn).testBit b then s
  else
    let t := s.setFnIrqStatus fn (withBit (s.fnIrqStatus fn) b)
    let u := if (s.fnIrqStatus fn &&& s.fnIrqEnable fn) = 0 ∧ (t.fnIrqStatus fn &&& t.fnIrqEnable fn) ≠ 0
      then t.message fn (s.rd fHIF_FN_EVENT_VECTOR_VECTOR fn) else t
    u.record 1 1 (some fn) b

/-! ### Alerts (R55) -/

/-- The alert causes, in the bit order of `PWR_ALERT_STATUS`. -/
def alertFields : List (Field × Field) :=
  [(fPWR_ALERT_STATUS_SUPPLY_LOW, fPWR_ALERT_ENABLE_SUPPLY_LOW),
   (fPWR_ALERT_STATUS_SUPPLY_HIGH, fPWR_ALERT_ENABLE_SUPPLY_HIGH),
   (fPWR_ALERT_STATUS_SUPPLY_LOSS, fPWR_ALERT_ENABLE_SUPPLY_LOSS),
   (fPWR_ALERT_STATUS_AUX_LOSS, fPWR_ALERT_ENABLE_AUX_LOSS),
   (fPWR_ALERT_STATUS_DROOP, fPWR_ALERT_ENABLE_DROOP),
   (fPWR_ALERT_STATUS_THERMAL_WARN, fPWR_ALERT_ENABLE_THERMAL_WARN),
   (fPWR_ALERT_STATUS_DEVICE_FAULT, fPWR_ALERT_ENABLE_DEVICE_FAULT)]

/-- Latch an alert cause; PWR's ALERT cause is raised with it. -/
def State.alert (s : State) (f : Field) : State := (s.wr f 0 1).raise 14 4

/-- `ALERT_N` is low: a latched cause is enabled (R55). -/
def State.alertLow (s : State) : Bool := alertFields.any (fun p => s.rd p.1 0 = 1 && s.setting p.2 0 = 1)

/-! ### Error logs and fault classes (R472 to R476) -/

/-- The fields of a log entry that the caller gives; the time is that of the write. -/
def State.entry (s : State) (source cls : Nat) : ErrEntry :=
  ⟨s.clk.tsu, source, cls, none, 0, 0, 0xFFFF, 0, 0, 0⟩

/-- Write an entry to a page's error log: NEXT advances modulo 16, ERR_COUNT counts, ERR is raised, and the cause
bit of the entry with it (R91, R472). -/
def State.writeLog (s : State) (sub : Nat) (e : ErrEntry) : State :=
  let i := s.rd fERR_LOG_PTR_NEXT sub
  let k := sub * 16 + i
  let s1 := if (find s.errLog k).isSome then s.wr fERR_LOG_PTR_WRAPPED sub 1 else s
  let s2 := { s1 with errLog := put s1.errLog k e }
  let s3 := (s2.wr fERR_LOG_PTR_NEXT sub ((i + 1) % 16)).bumpSat fERR_COUNT_COUNT sub 1
  let s4 := (s3.record sub 2 e.fn i).raise sub 0
  if e.cause = 0 then s4 else s4.raise sub e.cause

/-- `STATUS.FAULT` of a page rises, with its cause (R473). -/
def State.pageFault (s : State) (sub : Nat) : State :=
  if s.rd fSTATUS_FAULT sub = 1 then s else (s.wr fSTATUS_FAULT sub 1).raise sub 1

/-- The ready task of a list that was made first. -/
def headTask (list : Nat) : NMap Task → Option (Nat × Nat)
  | [] => none
  | (k, x) :: rest =>
    if x.state = .ready ∧ x.list = list then
      match headTask list rest with
      | some (j, made) => if made < x.made then some (j, made) else some (k, x.made)
      | none => some (k, x.made)
    else headTask list rest

/-- What Bosun writes into a snapshot (R235). -/
def Bosun.shot (b : Bosun) : BosunShot :=
  { tasks := b.tasks, heads := (List.range 64).filterMap (fun l => (headTask l b.tasks).map (fun k => (l, k.1))),
    pegs := (b.tasks.filter (fun kt => kt.2.place ≠ .none)).map (fun kt => (kt.2.place, kt.1)), flows := b.flows,
    decisions := b.decisions }

/-- A section of a snapshot: its header and its body (R482). -/
def section_ (source : Nat) (body : List Byte) : List Byte :=
  leBytes 2 source ++ leBytes 2 0 ++ leBytes 4 body.length ++ leBytes 8 0 ++ body

/-- Write a snapshot, or its header into the overflow list where one is held (R482): the section of Bosun where it is the
source (R235), and the others, which the spec leaves open. -/
def State.snap (s : State) (sub : Nat) (e : ErrEntry) : State :=
  let own := if sub = 3 then section_ 3 (Config.bosunImage s.bsn.shot) else []
  let body := (own ++ Config.snapshotBody s.draws).take (2 ^ 20 - 64)
  let h : Snapshot := ⟨e.cls, e.cause, sub, s.clk.tsu, s.rd fMGT_BOOT_COUNT_COUNT 0, e.unit,
    Config.snapshotSections s.draws + (if sub = 3 then 1 else 0), body⟩
  let s := s.drawn
  match s.store.snapshot with
  | none => { s with store := { s.store with snapshot := some h } }
  | some _ =>
    if s.store.overflow.length < 8 then
      { s with store := { s.store with overflow := s.store.overflow ++ [{ h with body := [], sections := 0 }] } }
    else s

/-- An uncorrectable error in the AER status of a function, with the message that its severity bit chooses (R132, R473). -/
def State.aerError (s : State) (fn b : Nat) : State :=
  (s.setCfg fn .aerUncorrStatus (withBit (s.cfg fn .aerUncorrStatus) b)).emit
    (.aer fn true ((s.cfg fn .aerUncorrSeverity).testBit b))

/-- A poisoned transaction of the link that a function's request caused is logged in that function (R132); the bit is
that of Poisoned TLP Received in the PCIe specification (PRESUMED, notes/assumptions/91.md). -/
def State.aerPoison (s : State) (fn : Nat) : State := s.aerError fn 12

/-- A read of host memory for a function failed with a status: a poisoned completion is logged in the function. -/
def State.hostFailed (s : State) (fn status : Nat) : State := if status = 0x21 then s.aerPoison fn else s

/-- AER in PF0 (R473): Uncorrectable Internal Error, bit 22, or Correctable Internal Error, bit 14. -/
def State.aer (s : State) (uncorrectable : Bool) : State :=
  if uncorrectable then s.aerError 0 22
  else (s.setCfg 0 .aerCorrStatus (withBit (s.cfg 0 .aerCorrStatus) 14)).emit (.aer 0 false false)

/-- `MGT_FAULT_STATUS` after a fault of class 0 to 4. -/
def State.noteClass (s : State) (cls source : Nat) : State :=
  let s1 := if 3 ≤ cls ∧ cls ≤ 4 ∧ s.rd fMGT_FAULT_STATUS_WORST 0 < 3 then s.wr fMGT_FAULT_STATUS_FIRST_SOURCE 0 source else s
  let s2 := if cls ≤ 4 ∧ s1.rd fMGT_FAULT_STATUS_WORST 0 < cls then s1.wr fMGT_FAULT_STATUS_WORST 0 cls else s1
  if cls = 2 then s2.bumpSat fMGT_FAULT_STATUS_CONTAINED 0 1 else s2

/-- The reporting of R473 for a fault of class 2 or 3 of a page: FAULT, DEVICE_FAULT and AER; class 3 writes a
snapshot (R482). -/
def State.report (s : State) (sub : Nat) (e : ErrEntry) : State :=
  let s1 := s.noteClass e.cls e.source
  if e.cls = 2 then ((s1.pageFault sub).alert fPWR_ALERT_STATUS_DEVICE_FAULT).aer false
  else if e.cls = 3 ∨ e.cls = 4 then
    (((s1.pageFault sub).alert fPWR_ALERT_STATUS_DEVICE_FAULT).aer true).snap sub e
  else s1

/-- A fault of class 1, 2, 3 or 5 (or 0 where its chapter logs it): the log entry and its reporting. -/
def State.fault (s : State) (sub : Nat) (e : ErrEntry) : State := (s.writeLog sub e).report sub e

/-- A refused setting or an ignored request: a NOTICE entry (R473). -/
def State.notice (s : State) (sub unit : Nat) : State :=
  s.fault sub { s.entry sub 5 with unit := unit }

/-- An expert-only write of PF0 to the page of a subsystem: it acts in an unlocked page, and sets DENIED in a locked
one (R94). -/
def State.expertWrite (s : State) (sub : Nat) (f : State → State) : State :=
  if s.rd fEXPERT_UNLOCK_UNLOCKED sub = 1 then f s else s.wr fEXPERT_UNLOCK_DENIED sub 1

/-! ### Host memory (R19) -/

/-- Bytes of host memory. -/
def State.hostRead (s : State) (a n : Nat) : List Byte := Mem.bytes s.hostMem a n

/-- Write bytes to host memory over the link. -/
def State.hostWrite (s : State) (a : Nat) (d : List Byte) : State :=
  ({ s with hostMem := Mem.store s.hostMem a d }).emit (.hostWrite a d)

end Sys2Proof.Machine
end

