-- ==== Sys2Proof/Machine/Qos.lean ====
section
/-! DEFINITION. QoS budgets (spec/05_host_link_and_functions.md R120 to R124), denied accesses
(spec/04_register_pages_and_address_map.md R102), and accounted host traffic. -/

namespace Sys2Proof.Machine

/-- The budgets of a function as its registers hold them, in the layout of `HIF_FN_QOS`. -/
def State.qosWritten (s : State) (fn : Nat) : Nat :=
  s.rd fHIF_FN_QOS_CORE_WEIGHT fn + 2 ^ 8 * s.rd fHIF_FN_QOS_CORE_CAP fn + 2 ^ 16 * s.rd fHIF_FN_QOS_HBM_WEIGHT fn
    + 2 ^ 24 * s.rd fHIF_FN_QOS_HBM_CAP fn + 2 ^ 32 * s.rd fHIF_FN_QOS_LINK_WEIGHT fn
    + 2 ^ 40 * s.rd fHIF_FN_QOS_LINK_CAP fn

/-- The reset value of the layout: weights 0x10, caps 0. -/
def qosDefault : Nat := 0x10 + 2 ^ 16 * 0x10 + 2 ^ 32 * 0x10

/-- The budgets of a function in force (R124). -/
def State.qosForce (s : State) (fn : Nat) : Nat := getD qosDefault s.hif.inForce fn

def State.coreWeight (s : State) (fn : Nat) : Nat := max 1 (bitField (s.qosForce fn) 0 8)
def State.coreCap (s : State) (fn : Nat) : Nat := bitField (s.qosForce fn) 8 8
def State.hbmCap (s : State) (fn : Nat) : Nat := bitField (s.qosForce fn) 24 8
def State.hbmWeight (s : State) (fn : Nat) : Nat := max 1 (bitField (s.qosForce fn) 16 8)
def State.linkWeight (s : State) (fn : Nat) : Nat := max 1 (bitField (s.qosForce fn) 32 8)
def State.linkCap (s : State) (fn : Nat) : Nat := bitField (s.qosForce fn) 40 8

/-- The accounts of a function. -/
def State.acct (s : State) (fn : Nat) : QosAcct := getD QosAcct.zero s.hif.qos fn

def State.setAcct (s : State) (fn : Nat) (a : QosAcct) : State :=
  { s with hif := { s.hif with qos := setD QosAcct.zero s.hif.qos fn a } }

/-- A budget is at its cap: `cap`/256 of the window's capacity is used, debt counted (R122); cap 0 is uncapped. -/
def atCap (cap capacity : Nat) (b : Budget) : Bool := cap ≠ 0 && cap * capacity / 256 ≤ b.used + b.debt

def State.coreCapped (s : State) (fn : Nat) : Bool := atCap (s.coreCap fn) s.hif.capCore (s.acct fn).core
def State.hbmCapped (s : State) (fn : Nat) : Bool := atCap (s.hbmCap fn) s.hif.capHbm (s.acct fn).hbm
def State.txCapped (s : State) (fn : Nat) : Bool := atCap (s.linkCap fn) s.hif.capLink (s.acct fn).tx
def State.rxCapped (s : State) (fn : Nat) : Bool := atCap (s.linkCap fn) s.hif.capLink (s.acct fn).rx

/-- The cap of either direction of the host link holds a function back (R160). -/
def State.linkCapped (s : State) (fn : Nat) : Bool := s.txCapped fn || s.rxCapped fn

/-! ### Shares (R121) -/

/-- A function has used its share: `weight` of `total` of the window's capacity. -/
def overShare (capacity total used weight : Nat) : Bool := decide (capacity * weight ≤ used * total)

/-- A function may use more of a budget that the functions `demand` wait for: it has part of its share left, or none of
them has, so that what they leave passes to it (R121). `used` and `weight` are read for each function. -/
def mayShare (capacity : Nat) (used weight : Nat → Nat) (demand : List Nat) (fn : Nat) : Bool :=
  let fns := (fn :: demand.filter (fun g => g ≠ fn)).eraseDups
  let total := (fns.map weight).foldl (· + ·) 0
  !overShare capacity total (used fn) (weight fn) || fns.all (fun g => overShare capacity total (used g) (weight g))

/-- A cap held back work of the function in the window (R122). -/
def State.heldBack (s : State) (fn : Nat) : State := s.setAcct fn { s.acct fn with held := true }

/-- Charge core time in TCLK ticks (R120). -/
def State.chargeCore (s : State) (fn ticks : Nat) : State :=
  let a := s.acct fn
  (s.setAcct fn { a with core := { a.core with used := a.core.used + ticks } }).bumpWrap fHIF_FN_CORE_TIME_COUNT fn ticks

/-- The function number under which a tile in MAINTENANCE makes its accesses: none of the device's functions (R266). -/
def maintFn : Nat := 1025

/-- Charge HBM lines read or written by cores and engines; a maintenance program runs for no function. -/
def State.chargeHbm (s : State) (fn lines : Nat) : State :=
  if fn = maintFn then s
  else
    let a := s.acct fn
    (s.setAcct fn { a with hbm := { a.hbm with used := a.hbm.used + 64 * lines } }).bumpWrap
      fHIF_FN_HBM_BYTES_COUNT fn (64 * lines)

/-- Charge device-to-host payload bytes. -/
def State.chargeTx (s : State) (fn bytes : Nat) : State :=
  let a := s.acct fn
  (s.setAcct fn { a with tx := { a.tx with used := a.tx.used + bytes } }).bumpWrap
    fHIF_FN_LINK_TX_BYTES_COUNT fn bytes

/-- Charge host-to-device payload bytes. -/
def State.chargeRx (s : State) (fn bytes : Nat) : State :=
  let a := s.acct fn
  (s.setAcct fn { a with rx := { a.rx with used := a.rx.used + bytes } }).bumpWrap
    fHIF_FN_LINK_RX_BYTES_COUNT fn bytes

/-- Host pages of 4 KiB that `n` bytes touch. -/
def hostPages (a n : Nat) : List Nat :=
  if n = 0 then [] else (List.range ((a + n - 1) / 4096 - a / 4096 + 1)).map (fun i => a / 4096 + i)

/-- An entry joins the translation cache of 4,096 entries; which one gives way to it is open (R132). -/
def State.atcPut (s : State) (e : Nat × Nat) : State :=
  if s.hif.atc.contains e then s
  else if s.hif.atc.length < 4096 then { s with hif := { s.hif with atc := s.hif.atc ++ [e] } }
  else { s.drawn with hif := { s.hif with atc := s.hif.atc.eraseIdx (s.free % 4096) ++ [e] } }

/-- A request of a function to host memory uses its translations where ATS is enabled for it (R132). -/
def State.atsUse (s : State) (fn a n : Nat) : State :=
  if s.cfg fn .atsEnable = 1 then (hostPages a n).foldl (fun (s : State) p => s.atcPut (fn, p)) s else s

/-- A read of host memory for a function, charged. -/
def State.hostGet (s : State) (fn a n : Nat) : State := (s.atsUse fn a n).chargeRx fn n

/-- A write to host memory for a function, charged. -/
def State.hostPut (s : State) (fn a : Nat) (d : List Byte) : State :=
  ((s.hostWrite a d).atsUse fn a d.length).chargeTx fn d.length

/-- The capacity of the link in a window: the usable rate of R110 times 10 µs, per direction. Without FLIT mode the
table gives no rate, and the FLIT figure is taken (DEDUCED, notes/assumptions/14.md). -/
def State.linkCapacity (s : State) : Nat :=
  let full := match s.rd fHIF_LINK_STATUS_SPEED 0 with
    | 4 => 1210000 | 3 => 605000 | 2 => 303000 | 1 => 151000 | _ => 0
  let full8 := match s.rd fHIF_LINK_STATUS_SPEED 0 with
    | 4 => 605000 | 3 => 303000 | 2 => 151000 | 1 => 76000 | _ => 0
  let full4 := match s.rd fHIF_LINK_STATUS_SPEED 0 with
    | 4 => 303000 | 3 => 151000 | 2 => 76000 | 1 => 38000 | _ => 0
  if s.rd fHIF_LINK_STATUS_WIDTH 0 = 16 then full
  else if s.rd fHIF_LINK_STATUS_WIDTH 0 = 8 then full8
  else if s.rd fHIF_LINK_STATUS_WIDTH 0 = 4 then full4 else 0

/-- Ready logical cores (R120): mapped to a tile, in a ready mast. -/
def State.readyCores (s : State) : Nat :=
  ((List.range 512).filter (fun c => (s.rd fMGT_READY_MAP_MAST_MAST_READY 0).testBit (c / 16)
    && s.rd fDRN_CORE_MAP_VALID c = 1)).length

/-- A denied access (R102): counted for its function, captured by HIF when no capture is held, and an event of the
function. `space` is 0 PF0 BAR0, 1 a VF window, 2 PF0 BAR2. -/
def State.denied (s : State) (fn : Nat) (write : Bool) (kind off space : Nat) : State :=
  let t := (s.bumpSat fHIF_FN_DENIED_COUNT fn 1).raiseFn fn 1
  if t.rd fHIF_DENIED_INFO_VALID 0 = 1 then t.wr fHIF_DENIED_INFO_MORE 0 1
  else
    let u := ((t.wr fHIF_DENIED_INFO_FN 0 fn).wr fHIF_DENIED_INFO_WRITE 0 (bit write)).wr fHIF_DENIED_INFO_KIND 0 kind
    let v := ((u.wr fHIF_DENIED_ADDR_OFFSET 0 off).wr fHIF_DENIED_ADDR_SPACE 0 space).wr fHIF_DENIED_INFO_VALID 0 1
    v.raise 1 2

end Sys2Proof.Machine
end

