-- ==== Sys2Proof/Machine/Hbm.lean ====
section
/-! DEFINITION. Reads and writes of HBM: translation, the classes of lines, poison, and the accesses of engines
(spec/16_memory_translation_ecc.md R413 to R433), and the mast caches (R253, R430). `State.hbm` holds what every reader
finds: a dirty line's data, too, which its copy still has to write back (DEDUCED, notes/assumptions/12.md). The TLBs are
coherent copies without state of their own here; that one may spare a walk is a free value. -/

namespace Sys2Proof.Machine

/-- Bytes of one stack: 36 GiB (R134). -/
def stackBytes : Nat := 38654705664

/-- The stack of a device physical address (R414). -/
def stackOf (dpa : Nat) : Nat := dpa / stackBytes

/-- Bytes of a page: 2 MiB. -/
def pageBytes : Nat := 2097152

/-- A stack's ready bit (R81). -/
def State.stackReady (s : State) (st : Nat) : Bool := (s.rd fMGT_READY_MAP_MEM_STACK_READY 0).testBit st

/-! ### Classes of lines, and translation (R417, R421, R422) -/

/-- The 64 data bytes of a line as stored. -/
def State.lineData (s : State) (line : Nat) : Line := BitVec.ofNat 512 (leNat (Mem.bytes s.hbm (64 * line) 64))

/-- The check bytes of a line. -/
def State.checkOf (s : State) (line : Nat) : Check := getD .good s.hmc.check line

/-- The class of a line: 0 clean, 1 corrected, 2 uncorrectable, 3 poison (R422). -/
def State.lineClass (s : State) (line : Nat) : Nat :=
  match s.checkOf line with
  | .good => 0
  | .poison => 3
  | .raw v => Config.eccClass (s.lineData line) v % 4

/-- How an access uses a page (R421). -/
inductive Use where
  | read | write | exec
  deriving DecidableEq, Repr

/-- The leaf of a virtual page. The maintenance translation maps pages in the lower half of the stacks' device areas
(R266, R415); which ones is open. -/
def State.leafOf (s : State) (fn vpn : Nat) : Option Leaf :=
  if fn = maintFn then
    (Config.maintPage vpn).map (fun (pwe : Nat × Bool × Bool) =>
      ⟨18432 * (pwe.1 / 16 % 8) + 0x8FC000000 / pageBytes + pwe.1 % 16, pwe.2.1, pwe.2.2⟩)
  else find s.hmc.leaves (fn * 2 ^ 27 + vpn)

/-- A line lies in the upper 32 MiB of a stack's device area, which holds the translation tables (R417). -/
def tableLine (line : Nat) : Bool := decide (stackBytes - 33554432 ≤ 64 * line % stackBytes)

/-- The walk of a function's page reads a line of its table stack that is uncorrectable or poisoned (R417, R421): which
lines hold its tables is open, and so is whether a TLB spares the walk. -/
def State.walkBad (s : State) (fn vpn : Nat) : Bool :=
  s.hmc.check.any (fun (lc : Nat × Check) => tableLine lc.1 && decide (2 ≤ s.lineClass lc.1)
    && find s.hmc.tableStack fn = some (stackOf (64 * lc.1)) && Config.walkReads s.draws fn vpn lc.1)

/-- The sub-status of a failed translation, or the device physical address (R417, R421). -/
def State.translate (s : State) (fn va : Nat) (u : Use) : Except Nat Nat :=
  if s.walkBad fn (va % 2 ^ 48 / pageBytes) then .error 0x05
  else match s.leafOf fn (va % 2 ^ 48 / pageBytes) with
  | none => .error 0x01
  | some l =>
    if u = .write ∧ !l.write then .error 0x02
    else if u = .exec ∧ !l.exec then .error 0x03
    else
      let dpa := l.ppn * pageBytes + va % pageBytes
      if !s.stackReady (stackOf dpa) then .error 0x04 else .ok dpa

/-- HMC counts a translation fault (R421). -/
def State.countFault (s : State) (fn : Nat) : State := if fn = maintFn then s else s.bumpSat fHMC_FN_FAULTS fn 1

/-! ### Copies in the mast caches (R253, R420, R430) -/

/-- The copy that a mast holds of a line for a function. -/
def State.copyOf (s : State) (m fn line : Nat) : Option MastLine :=
  s.mast.find? (fun c => c.mast = m && c.fn = fn && c.line = line)

/-- The copies that satisfy `p` are written back: each dirty one is a line written in HBM for its function. -/
def State.writeBackCopies (s : State) (p : MastLine → Bool) : State :=
  (s.mast.filter (fun c => c.dirty && p c)).foldl (fun s c => s.chargeHbm c.fn 1)
    { s with mast := s.mast.map (fun c => if p c then { c with dirty := false } else c) }

/-- The copies that satisfy `p` are written back and invalidated. -/
def State.dropCopies (s : State) (p : MastLine → Bool) : State :=
  let u := s.writeBackCopies p
  { u with mast := u.mast.filter (fun c => !p c) }

/-- A write has reached a line: no copy of it stays. -/
def State.dropLine (s : State) (line : Nat) : State := s.dropCopies (fun c => c.line = line)

/-- A mast cache takes a copy: 4,096 sets of 16 ways; which copy of a full set gives way is open. -/
def State.mastPut (s : State) (c : MastLine) : State :=
  let same := s.mast.filter (fun o => o.mast = c.mast && Config.mastSet o.fn o.line % 4096 = Config.mastSet c.fn c.line % 4096)
  let u := if s.mast.length < 16 ∨ same.length < 16 then s
    else match same[s.free % 16]? with
      | none => s
      | some v => s.drawn.dropCopies (fun o => o = v)
  { u with mast := u.mast ++ [c] }

/-! ### Lines read and written (R422 to R424, R428) -/

def State.setCheck (s : State) (line : Nat) (c : Check) : State :=
  { s with hmc := { s.hmc with check := setD .good s.hmc.check line c } }

/-- Store the bytes of a whole line with check bytes `c`. -/
def State.putLine (s : State) (line : Nat) (l : Line) (c : Check) : State :=
  ({ s with hbm := Mem.store s.hbm (64 * line) (leBytes 64 l.toNat) }).setCheck line c

/-- The owner of a page (R416): device-area pages are owned by the device. -/
def State.ownerOf (s : State) (ppn : Nat) : Owner := getD .free s.hmc.owner ppn

/-- A correction enters the stack's leaky bucket (R426). -/
def State.bucketAdd (s : State) (st : Nat) : State :=
  let cap := s.setting1 fHMC_BUCKET_CFG_CAPACITY 0
  if s.rd fHMC_STACK_BUCKET st < cap then s.bumpSat fHMC_STACK_BUCKET st 1
  else (s.bumpSat fHMC_STACK_OVERFLOWS st 1).raise 6 2

/-- Count a corrected line (R424): a demand read counts in the bucket once a window while the filter of 64 holds the
line; Scrub's corrections always count. -/
def State.noteCorrected (s : State) (line : Nat) (scrub : Bool) : State :=
  let st := stackOf (64 * line)
  let held := getD [] s.hmc.filter st
  let t := s.bumpSat fHMC_STACK_CORRECTED st 1
  let u := { t with hmc := { t.hmc with
    filter := if held.contains line ∨ 64 ≤ held.length then t.hmc.filter else put t.hmc.filter st (held ++ [line]) } }
  if scrub ∨ !held.contains line then u.bucketAdd st else u

/-- A line found uncorrectable (R428): the poison pattern is written over its check bytes, and it is counted and
logged with its address and the owner of its page. No cache keeps a poisoned line; the line of a dirty copy is that
copy's to write. -/
def State.noteUncorrectable (s : State) (line : Nat) : State :=
  let dpa := 64 * line
  let fn := match s.ownerOf (dpa / pageBytes) with | .fn f => some f | _ => none
  let u := if s.mast.any (fun c => c.line = line && c.dirty) then s else (s.dropLine line).setCheck line .poison
  let t := (u.bumpSat fHMC_STACK_UNCORR (stackOf dpa) 1).bumpSat fHMC_POISON_COUNT_COUNT 0 1
  t.fault 6 { t.entry 6 1 with fn := fn, unit := stackOf dpa, addr := dpa, kind := 1, cause := 3 }

/-- A read of a line as stored: the corrected data is written back, an uncorrectable line is poisoned. -/
def State.readStored (s : State) (line : Nat) : State :=
  match s.lineClass line with
  | 1 =>
    let v := match s.checkOf line with | .raw v => v | _ => 0
    (s.putLine line (Config.eccData (s.lineData line) v) .good).noteCorrected line false
  | 2 => s.noteUncorrectable line
  | _ => s

/-- A demand read of a line: a dirty copy is written back first. -/
def State.readLine (s : State) (line : Nat) : State := (s.writeBackCopies (fun c => c.line = line)).readStored line

/-- What a unit other than a core or Halyard finds in the lines that it reads (R429): 0 for good data, else the
sub-status of POISONED. -/
def State.linesSub (s : State) (lines : List Nat) : Nat :=
  if lines.any (fun l => s.lineClass l = 2) then 0x40
  else if lines.any (fun l => s.lineClass l = 3) then 0x41 else 0

/-- The virtual addresses of the lines that `n` bytes from `va` touch. -/
def lineVas (va n : Nat) : List Nat :=
  if n = 0 then [] else (List.range ((va + n - 1) / 64 - va / 64 + 1)).map (fun i => 64 * (va / 64 + i))

/-- Translate every line of a range: the first failure, or the lines. -/
def State.rangeLines (s : State) (fn : Nat) (u : Use) : List Nat → Except Nat (List Nat)
  | [] => .ok []
  | va :: rest =>
    match s.translate fn va u with
    | .error e => .error e
    | .ok dpa =>
      match s.rangeLines fn u rest with
      | .error e => .error e
      | .ok ls => .ok (dpa / 64 :: ls)

/-- What an access gave: a status and sub-status (0 for success), the bytes, and the state after it. -/
structure Got where
  status : Nat
  sub : Nat
  data : List Byte
  st : State

/-- The bytes of lines, in order. -/
def State.linesBytes (s : State) (ls : List Nat) : List Byte := (ls.map (fun l => Mem.bytes s.hbm (64 * l) 64)).flatten

/-- A read of `n` bytes at `va` by an engine or service unit for a function (R421, R429). -/
def State.engineRead (s : State) (fn va n : Nat) : Got :=
  match s.rangeLines fn .read (lineVas va n) with
  | .error e => ⟨0x22, e, [], s.countFault fn⟩
  | .ok ls =>
    let sub := s.linesSub ls
    let t := (ls.foldl State.readLine s).chargeHbm fn ls.length
    if sub ≠ 0 then ⟨0x21, sub, [], t⟩ else ⟨0, 0, ((t.linesBytes ls).drop (va % 64)).take n, t⟩

/-- Store pieces, each an address and its bytes. -/
def Mem.storeAll (m : Mem) (ps : List (Nat × List Byte)) : Mem := ps.foldl (fun m p => Mem.store m p.1 p.2) m

/-- One write of a line that enables the bytes of some pieces (R431, R432); the answer says whether the line stays
marked bad. -/
def State.writeInLine (s : State) (line : Nat) (ps : List (Nat × List Byte)) : State × Bool :=
  let s := s.dropLine line
  if (ps.map (fun p => p.2.length)).foldl (· + ·) 0 = 64 then
    (({ s with hbm := Mem.storeAll s.hbm ps }).setCheck line .good, false)
  else
    let t := s.readLine line
    if t.lineClass line = 3 then
      (({ t with hbm := Mem.storeAll t.hbm ps }).bumpSat fHMC_STACK_POISON_WRITES (stackOf (64 * line)) 1, true)
    else (({ t with hbm := Mem.storeAll t.hbm ps }).setCheck line .good, false)

/-- Write bytes at a device physical address within one line. -/
def State.writeWithinLine (s : State) (dpa : Nat) (d : List Byte) : State × Bool := s.writeInLine (dpa / 64) [(dpa, d)]

/-- Cut `n` bytes at address `a` into the pieces that lie within one line each. -/
def linePieces (a : Nat) (d : List Byte) : Nat → List (Nat × List Byte)
  | 0 => []
  | fuel + 1 =>
    if d = [] then []
    else
      let k := 64 - a % 64
      (a, d.take k) :: linePieces (a + k) (d.drop k) fuel

/-- A write of bytes at `va` by an engine for a function: a translation fault moves nothing; a partial write over a bad
line is merged and gives POISONED 0x42 (R421, R432). -/
def State.engineWrite (s : State) (fn va : Nat) (d : List Byte) : Got :=
  match s.rangeLines fn .write (lineVas va d.length) with
  | .error e => ⟨0x22, e, [], s.countFault fn⟩
  | .ok ls =>
    let r := (linePieces va d (d.length + 1)).foldl (fun (acc : State × Bool) p =>
      match acc.1.translate fn p.1 .write with
      | .error _ => acc
      | .ok dpa =>
        let w := acc.1.writeWithinLine dpa p.2
        (w.1, acc.2 || w.2)) (s, false)
    let t := r.1.chargeHbm fn ls.length
    if r.2 then ⟨0x21, 0x42, [], t⟩ else ⟨0, 0, [], t⟩

/-- The home stack of an address (R14): the stack of its page, if it translates. -/
def State.homeStack (s : State) (fn va : Nat) : Option Nat :=
  match s.leafOf fn (va % 2 ^ 48 / pageBytes) with
  | none => none
  | some l => some (stackOf (l.ppn * pageBytes))

end Sys2Proof.Machine
end

