-- ==== Sys2Proof/Machine/Queue.lean ====
section
/-! DEFINITION. Queue pairs, the OWN protocol, arbitration, completions and the admin queue
(spec/06_queues_and_rings.md). Queue reset and destroy, which end work in every subsystem, stand in Teardown.lean. -/

namespace Sys2Proof.Machine

/-! ### Fields of a submission entry (R140, R3) -/

/-- Bits [lo + len - 1 : lo] of the field that begins at byte `b` of an entry. -/
def entryBits (l : Line) (b lo len : Nat) : Nat := bitField l.toNat (8 * b + lo) len

/-- Whole bytes of an entry, from byte `b`. -/
def entryBytes (l : Line) (b n : Nat) : Nat := entryBits l b 0 (8 * n)

def entryOpcode (l : Line) : Nat := entryBytes l 0 1
def entryFence (l : Line) : Bool := entryBits l 1 0 1 = 1
def entryCid (l : Line) : Nat := entryBytes l 2 2

/-- A reserved bit of the common layout is set (R5, R140). -/
def entryCommonReserved (l : Line) : Bool := entryBits l 1 1 7 ≠ 0 || entryBits l 60 0 31 ≠ 0

/-- Some byte from `b` up to but not including `e` is not zero. -/
def entryNonzero (l : Line) (b e : Nat) : Bool := entryBytes l b (e - b) ≠ 0

/-! ### Queues -/

def queueKey (fn qid : Nat) : Nat := fn * 8192 + qid

def State.queue (s : State) (fn qid : Nat) : Option Queue := find s.qmg.queues (queueKey fn qid)

def State.setQueue (s : State) (fn qid : Nat) (q : Queue) : State :=
  { s with qmg := { s.qmg with queues := put s.qmg.queues (queueKey fn qid) q } }

def State.delQueue (s : State) (fn qid : Nat) : State :=
  { s with qmg := { s.qmg with queues := del s.qmg.queues (queueKey fn qid) } }

/-- Change a queue where it exists. -/
def State.onQueue (s : State) (fn qid : Nat) (f : Queue → Queue) : State :=
  match s.queue fn qid with
  | none => s
  | some q => s.setQueue fn qid (f q)

/-- A queue ID that counts against the dynamic limit (R138, R139). -/
def isDynamic (fn qid : Nat) : Bool := if fn = 0 then 9 ≤ qid else 1 ≤ qid

/-- The largest queue ID of a function (R138). -/
def maxQid (fn : Nat) : Nat := if fn = 0 then 4095 else 6143

/-- Dynamic queues that a function holds. -/
def State.dynamicOf (s : State) (fn : Nat) : Nat :=
  (s.qmg.queues.filter (fun kq => kq.1 / 8192 = fn && isDynamic fn (kq.1 % 8192))).length

/-- Dynamic queues in use, all functions (`QMG_QPOOL.IN_USE`). -/
def State.dynamicAll (s : State) : Nat :=
  (s.qmg.queues.filter (fun kq => isDynamic (kq.1 / 8192) (kq.1 % 8192))).length

/-- A function owns a queue ID: 0 at all times, any other while its queue exists (R102). -/
def State.ownsQueue (s : State) (fn qid : Nat) : Bool := qid = 0 || (s.queue fn qid).isSome

/-- Slots of the rings. -/
def Queue.sqSlots (q : Queue) : Nat := 2 ^ q.sqLog
def Queue.cqSlots (q : Queue) : Nat := 2 ^ q.cqLog

/-- OWN of the slot at T as host memory holds it (R143, R149). -/
def State.cqOwn (s : State) (q : Queue) : Bool :=
  (Mem.byte s.hostMem (q.cqBase + 32 * q.tail + 31)).msb

/-! ### Completions (R143, R144, R164 to R166) -/

/-- Bytes 0 to 27 of a completion entry. -/
def Cqe.head (c : Cqe) (qid : Nat) : List Byte :=
  leBytes 2 c.cid ++ leBytes 2 qid ++ leBytes 1 c.status ++ leBytes 1 c.sub ++ leBytes 1 (bit c.more) ++ leBytes 1 0
    ++ leBytes 8 c.resultLen ++ leBytes 8 c.ts ++ leBytes 4 c.specific

/-- Send a queue's message and clear its unsignalled count (R119). -/
def State.signal (s : State) (fn qid : Nat) : State :=
  match s.queue fn qid with
  | none => s
  | some q =>
    let t := s.setQueue fn qid { q with unsignalled := 0 }
    if q.irqEn then t.message fn q.vector else t

/-- Moderation after a completion was posted (R119). -/
def State.onPost (s : State) (fn qid status : Nat) : State :=
  match s.queue fn qid with
  | none => s
  | some q =>
    let n := q.unsignalled + 1
    let oldest := if q.unsignalled = 0 then s.clk.tsu else q.oldest
    let t := s.setQueue fn qid { q with unsignalled := n, oldest := oldest }
    let p := fn * 16 + q.mod
    if status ≠ 0 ∨ s.rd fHIF_FN_MOD_MAX_COUNT p ≤ n ∨ s.rd fHIF_FN_MOD_DELAY_US p = 0 then t.signal fn qid else t

/-- Write a completion to the slot at T as two posted writes; T advances and the next slot is not known (R144, R150). -/
def State.writeCqe (s : State) (fn qid : Nat) (c : Cqe) : State :=
  match s.queue fn qid with
  | none => s
  | some q =>
    let a := q.cqBase + 32 * q.tail
    let t := (s.hostPut fn a (c.head qid)).hostPut fn (a + 28) (leBytes 4 0)
    t.setQueue fn qid { q with tail := (q.tail + 1) % q.cqSlots, known := false }

/-- Read the OWN of the slot at T unless the slot is known to be free (R150). -/
def State.readOwn (s : State) (fn qid : Nat) : State :=
  match s.queue fn qid with
  | none => s
  | some q =>
    if q.known then s
    else (s.setQueue fn qid { q with known := s.cqOwn q, readAt := s.clk.tsu }).hostGet fn (q.cqBase + 32 * q.tail + 28) 4

def State.slotKnown (s : State) (fn qid : Nat) : Bool := (s.queue fn qid).any Queue.known

/-- Enter CQ_FULL (R164). -/
def State.enterFull (s : State) (fn qid : Nat) : State :=
  match s.queue fn qid with
  | none => s
  | some q =>
    if q.cqFull then s
    else
      let t := (s.setQueue fn qid { q with cqFull := true }).wr fQMG_FN_CQ_FULL_LAST_QID fn qid
      (t.raiseFn fn 2).raise 2 2

/-- Place a completion (R164): in the ring, in the pending buffer, or with its producer. -/
def State.post (s : State) (r : Ref) (c : Cqe) : State :=
  let t := if (s.queue r.fn r.qid).any (fun q => q.pend = []) then s.readOwn r.fn r.qid else s
  match t.queue r.fn r.qid with
  | none => t
  | some q =>
    if q.pend = [] ∧ q.known then (t.writeCqe r.fn r.qid c).onPost r.fn r.qid c.status
    else if q.pend.length < 32 ∧ q.waiting = [] then t.setQueue r.fn r.qid { q with pend := q.pend ++ [c] }
    else (t.setQueue r.fn r.qid { q with waiting := q.waiting ++ [(c, r.tag)] }).enterFull r.fn r.qid

/-- Write the oldest pending completion while slots are free; the longest-waiting producer's joins the buffer, and the
queue leaves CQ_FULL where the buffer has room and no producer waits (R164, R166). -/
def State.drain (s : State) (fn qid : Nat) : Nat → State
  | 0 => s
  | fuel + 1 =>
    let t := s.readOwn fn qid
    match t.queue fn qid with
    | none => t
    | some q =>
      match q.pend, q.known with
      | c :: rest, true =>
        let u := (t.writeCqe fn qid c).onPost fn qid c.status
        let v := u.onQueue fn qid (fun q => match q.waiting with
          | [] => { q with pend := rest }
          | (w, _) :: ws => { q with pend := rest ++ [w], waiting := ws })
        let w := v.onQueue fn qid (fun q =>
          { q with cqFull := q.cqFull && !(q.pend.length < 32 && q.waiting.isEmpty) })
        w.drain fn qid fuel
      | _, _ => t

/-- Re-read the OWN at T and write what can be written (R147, R150). -/
def State.recheck (s : State) (fn qid : Nat) : State :=
  match s.queue fn qid with
  | none => s
  | some q => s.drain fn qid (q.pend.length + q.waiting.length + 1)

/-- The fetched entry that a Ref names. -/
def State.entryOf (s : State) (r : Ref) : Option Entry :=
  match s.queue r.fn r.qid with
  | none => none
  | some q => q.fetched.find? (fun e => e.tag = r.tag)

/-- Set the stage of a fetched entry. -/
def State.setStage (s : State) (r : Ref) (st : Stage) : State :=
  s.onQueue r.fn r.qid (fun q =>
    { q with fetched := q.fetched.map (fun e => if e.tag = r.tag then { e with stage := st } else e) })

/-- Produce the final completion of an entry, stamped now (R144), and place it. -/
def State.complete (s : State) (r : Ref) (status sub resultLen specific : Nat) : State :=
  match s.entryOf r with
  | none => s
  | some e =>
    let t := s.onQueue r.fn r.qid (fun q => { q with fetched := q.fetched.filter (fun x => x.tag ≠ r.tag) })
    t.post r ⟨entryCid e.line, status, sub, false, resultLen, s.clk.tsu, specific⟩

/-- The completion of an entry waits with its producer for room (R164). -/
def State.waits (s : State) (r : Ref) : Bool := (s.queue r.fn r.qid).any (fun q => q.waiting.any (fun w => w.2 = r.tag))

/-- Produce a PARTIAL completion of a RUN (R143). -/
def State.completePartial (s : State) (r : Ref) (status sub resultLen specific : Nat) : State :=
  match s.entryOf r with
  | none => s
  | some e => s.post r ⟨entryCid e.line, status, sub, true, resultLen, s.clk.tsu, specific⟩

/-- Write completions into slots known or found free; each is signalled as R119 says where `sig` is set, and is only
counted as unsignalled where it is not. The answer counts the written and the unwritten (R129, R152, R162). QMG reads
the OWN of each slot that it comes to, as R150 lets it read up to 64 slots ahead, so that it finds every free slot
(DESIGN CHOICE, notes/assumptions/89.md). -/
def State.flushCqes (s : State) (fn qid : Nat) (sig : Bool) : List Cqe → Nat → Nat → State × Nat × Nat
  | [], w, u => (s, w, u)
  | c :: rest, w, u =>
    let t := s.readOwn fn qid
    if t.slotKnown fn qid then
      let v := t.writeCqe fn qid c
      (if sig then v.onPost fn qid c.status
        else v.onQueue fn qid (fun q => { q with unsignalled := q.unsignalled + 1 })).flushCqes fn qid sig rest (w + 1) u
    else t.flushCqes fn qid sig rest w (u + 1)

/-- The completion with which an entry ends when its queue is torn down. -/
def State.abortedCqe (s : State) (status : Nat) (e : Entry) : Cqe :=
  ⟨entryCid e.line, status, 0, false, 0, s.clk.tsu, 0⟩

/-! ### Doorbells (R100, R102, R147) -/

/-- The place of a doorbell for the capture of R102: its offset and space. -/
def doorbellPlace (fn qid off : Nat) : Nat × Nat :=
  if fn = 0 then (0x1000 * qid + off, 2) else (0x8000 + 16 * qid + off, 1)

/-- SQ_DOORBELL: the value is a hint; slot H is read at least once after it (R147). -/
def State.sqDoorbell (s : State) (fn qid : Nat) : State :=
  if s.ownsQueue fn qid then
    s.onQueue fn qid (fun q => { q with poll := q.poll || !q.disabling })
  else
    let p := doorbellPlace fn qid 0
    s.denied fn true 0 p.1 p.2

def execSqDoorbell (fn qid _tail : Nat) (s : State) : Res := steady (s.reaches fn) (fun s => s.sqDoorbell fn qid) s

/-- CQ_DOORBELL: the OWN at T is read again and pending completions are written (R147, R150). -/
def State.cqDoorbell (s : State) (fn qid : Nat) : State :=
  if s.ownsQueue fn qid then s.recheck fn qid
  else
    let p := doorbellPlace fn qid 4
    s.denied fn true 0 p.1 p.2

def execCqDoorbell (fn qid _index : Nat) (s : State) : Res := steady (s.reaches fn) (fun s => s.cqDoorbell fn qid) s

/-- CQ_RECHECK: the re-read interval has passed while the queue holds pending completions or producers (R150). -/
def execCqRecheck (fn qid : Nat) (s : State) : Res :=
  steady (s.running && (s.queue fn qid).any (fun q => (!q.pend.isEmpty || !q.waiting.isEmpty)
      && q.readAt + ticksOfUs (max 1 (s.rd fQMG_CQ_RECHECK_INTERVAL_US 0)) ≤ s.clk.tsu))
    (fun s => s.recheck fn qid) s

/-- MODERATION_TIMER: DELAY_US has passed since the oldest unsignalled completion (R119). -/
def execModerationTimer (fn qid : Nat) (s : State) : Res :=
  steady (s.running && (s.queue fn qid).any (fun q => q.unsignalled ≠ 0
      && q.oldest + ticksOfUs (s.rd fHIF_FN_MOD_DELAY_US (fn * 16 + q.mod)) ≤ s.clk.tsu))
    (fun s => s.signal fn qid) s

/-! ### Handing on (R141, R142, R154) -/

/-- An admin opcode that R154 lists. -/
def adminOpcode (op : Nat) : Bool := [0x01, 0x02, 0x03, 0x10, 0x11, 0x18, 0x20, 0x21].contains op

/-- An opcode that the queue's class lists (R141, R154). -/
def classOpcode (cls op : Nat) : Bool :=
  match cls with
  | 0 => adminOpcode op
  | 1 => op = 1
  | 2 => 1 ≤ op && op ≤ 4
  | _ => op = 1

/-- The checks that precede those of the opcode's chapter (R157): the failure's status and sub-status.
The PF0-only check follows the reserved fields of its opcode, and stands with the opcode. -/
def handOnError (cls : Nat) (l : Line) : Option (Nat × Nat) :=
  if entryCommonReserved l then some (0x10, 0x01)
  else if !classOpcode cls (entryOpcode l) then some (0x10, 0x02)
  else none

/-- The first entry of a queue that has not been handed on, where nothing holds it back (R142): a fence waits for every
earlier entry. -/
def Queue.nextHandOn (q : Queue) : Option Entry :=
  match q.fetched with
  | [] => none
  | e :: rest =>
    match (e :: rest).find? (fun x => x.stage = .fetched) with
    | none => none
    | some x => if (entryFence x.line && x.tag ≠ e.tag) || q.fetched.any (fun y => y.stage = .held) then none else some x

/-! ### The admin queue and CREATE_QUEUE (R152 to R157) -/

/-- A vector that a completion queue of the function may name (R117). -/
def vectorOk (fn v : Nat) : Bool := if fn = 0 then 16 ≤ v && v ≤ 2047 else v ≤ 63

/-- The admin queue that a function's registers describe. -/
def State.adminQueue (s : State) (fn : Nat) : Queue :=
  { cls := 0, sqBase := 4096 * s.rd fQMG_ADM_SQ_BASE_BASE fn, cqBase := 4096 * s.rd fQMG_ADM_CQ_BASE_BASE fn,
    sqLog := s.rd fQMG_ADM_CONFIG_SQ_LOG2 fn, cqLog := s.rd fQMG_ADM_CONFIG_CQ_LOG2 fn,
    mod := s.rd fQMG_ADM_CONFIG_MOD fn, irqEn := s.rd fQMG_ADM_CONFIG_IRQ_EN fn = 1,
    vector := s.rd fQMG_ADM_VECTOR_VECTOR fn, head := 0, tail := 0, poll := false, known := false, readAt := 0,
    fetched := [], pend := [], waiting := [], cqFull := false, unsignalled := 0, oldest := 0, disabling := false }

/-- The checks of R157 that apply to an admin enable: the sub-status of the first failure. -/
def adminError (fn : Nat) (q : Queue) : Option Nat :=
  if q.sqLog < 4 ∨ 12 < q.sqLog ∨ q.cqLog < 4 ∨ 12 < q.cqLog then some 0x08
  else if q.irqEn ∧ !vectorOk fn q.vector then some 0x0A
  else none

/-- Check the settings and enable the admin queue, or set ERROR (R152). -/
def State.adminCheck (s : State) (fn : Nat) : State :=
  let q := s.adminQueue fn
  match adminError fn q with
  | some e => ((s.wr fQMG_ADM_CONTROL_ENABLE fn 0).wr fQMG_ADM_STATUS_ERROR fn 1).wr fQMG_ADM_STATUS_ERR_SUB fn e
  | none => s.setQueue fn 0 q

/-- A write of 1 to `QMG_ADM_CONTROL.ENABLE` (R152); while ENABLED is 1 it is kept. -/
def State.adminEnable (s : State) (fn : Nat) : State :=
  let t := (s.wr fQMG_ADM_CONTROL_ENABLE fn 1).wr fQMG_ADM_STATUS_ERROR fn 0
  if (t.queue fn 0).isSome then t else t.adminCheck fn

/-- The function's admin registers can be written: QMG is ready too (R84). -/
def State.admReaches (s : State) (fn : Nat) : Bool := s.reaches fn && s.ready 2

def execAdminQueueEnable (fn : Nat) (s : State) : Res := steady (s.admReaches fn) (fun s => (s.atWindow fn 0x118).adminEnable fn) s

/-- A write of 0 to ENABLE: fetching stops at once and the disable starts (R152). Entries that have not started stay
in the queue until the disable ends and are aborted then, after the completions of the commands in progress. -/
def State.adminDisable (s : State) (fn : Nat) : State :=
  let t := s.wr fQMG_ADM_CONTROL_ENABLE fn 0
  (t.onQueue fn 0 (fun q => { q with disabling := true, poll := false })).recheck fn 0

def execAdminQueueDisable (fn : Nat) (s : State) : Res := steady (s.admReaches fn) (fun s => (s.atWindow fn 0x118).adminDisable fn) s

/-- ADMIN_DISABLE_END: no admin command is in progress; the pending completions, those of producers that wait and the
ABORTED ones are written and signalled under R119, or counted, one message is sent for what is not signalled yet, and
ENABLED falls (R152). -/
def State.adminDisableEnd (s : State) (fn : Nat) : State :=
  match s.queue fn 0 with
  | none => s
  | some q =>
    let cqes := q.pend ++ q.waiting.map Prod.fst ++ q.fetched.map (s.abortedCqe 0x01)
    let r := s.flushCqes fn 0 true cqes 0 0
    let t := if (r.1.queue fn 0).any (fun q => q.unsignalled ≠ 0) then r.1.signal fn 0 else r.1
    let u := (t.delQueue fn 0).wr fQMG_ADM_STATUS_UNPOSTED fn (min r.2.2 0xFFFF)
    if u.rd fQMG_ADM_CONTROL_ENABLE fn = 1 then u.adminCheck fn else u

def execAdminDisableEnd (fn : Nat) (s : State) : Res :=
  steady (s.running && (s.queue fn 0).any (fun q => q.disabling && !q.fetched.any (fun e => e.stage = .started)))
    (fun s => s.adminDisableEnd fn) s

/-- The admin entry that a function executes next: its first one, handed on, while none is in progress and no completion
of one waits for room (R153, R165). -/
def State.adminNext (s : State) (fn op : Nat) : Option Entry :=
  match s.queue fn 0 with
  | none => none
  | some q =>
    if q.disabling ∨ q.waiting ≠ [] ∨ q.fetched.any (fun e => e.stage = .started) then none
    else
      match q.fetched.find? (fun e => entryOpcode e.line ≠ 0x18 || e.stage ≠ .started) with
      | none => none
      | some e => if e.stage = .handed ∧ entryOpcode e.line = op then some e else none

/-- Run an admin command: its entry is handed to `f`, which gives the status, the sub-status, RESULT_LEN, SPECIFIC and
the new state. -/
def State.adminRun (s : State) (fn op : Nat) (f : Line → State → Nat × Nat × Nat × Nat × State) : State :=
  match s.adminNext fn op with
  | none => s
  | some e =>
    let r := f e.line s
    r.2.2.2.2.complete ⟨fn, 0, e.tag⟩ r.1 r.2.1 r.2.2.1 r.2.2.2.1

/-- The device may execute admin commands. -/
def State.adminReady (s : State) (fn op : Nat) : Bool := s.running && s.ready 2 && (s.adminNext fn op).isSome

/-- PF0 has granted the function a part of the volume: its grant is enabled (R157, R372). -/
def State.volumeGranted (s : State) (fn : Nat) : Bool := s.rd fCVC_FN_ENABLE fn = 1

/-- Channels assigned to a function (R342). -/
def State.channelsOf (s : State) (fn : Nat) : List Nat :=
  (List.range 64).filter (fun c => s.rd fHAL_CH_CFG_ASSIGNED c = 1 && s.rd fHAL_CH_CFG_FN c = fn)

/-- The QID of a queue command is a queue that the function may name (R157). -/
def qidOk (fn qid : Nat) : Bool := 1 ≤ qid && qid ≤ maxQid fn

/-- The checks of R157 for CREATE_QUEUE, after those of `handOnError`. -/
def State.createError (s : State) (fn : Nat) (l : Line) : Option (Nat × Nat) :=
  let qid := entryBytes l 4 2
  let cls := entryBytes l 6 1
  if entryBits l 7 5 3 ≠ 0 ∨ entryBits l 8 5 3 ≠ 0 ∨ entryBits l 9 5 3 ≠ 0 ∨ entryBits l 10 11 5 ≠ 0
      ∨ entryNonzero l 12 16 ∨ entryNonzero l 32 60 then some (0x10, 0x01)
  else if !qidOk fn qid then some (0x10, 0x03)
  else if (s.queue fn qid).isSome then some (0x10, 0x04)
  else if cls = 0 ∨ 3 < cls then some (0x10, 0x0B)
  else if cls = 2 ∧ !s.volumeGranted fn then some (0x23, 0x02)
  else if cls = 3 ∧ s.channelsOf fn = [] then some (0x23, 0x03)
  else if entryBits l 7 0 5 < 4 ∨ 16 < entryBits l 7 0 5 ∨ entryBits l 8 0 5 < 4 ∨ 16 < entryBits l 8 0 5 then
    some (0x10, 0x08)
  else if entryBits l 16 0 12 ≠ 0 ∨ entryBits l 24 0 12 ≠ 0 then some (0x10, 0x09)
  else if entryBits l 9 4 1 = 1 ∧ !vectorOk fn (entryBits l 10 0 11) then some (0x10, 0x0A)
  else if isDynamic fn qid ∧ s.rd fQMG_FN_QLIMIT_LIMIT fn ≤ s.dynamicOf fn then some (0x10, 0x06)
  else if isDynamic fn qid ∧ 15351 ≤ s.dynamicAll then some (0x10, 0x07)
  else none

/-- The queue that a CREATE_QUEUE describes (R155). -/
def createdQueue (l : Line) : Queue :=
  { cls := entryBytes l 6 1, sqBase := entryBytes l 16 8, cqBase := entryBytes l 24 8, sqLog := entryBits l 7 0 5,
    cqLog := entryBits l 8 0 5, mod := entryBits l 9 0 4, irqEn := entryBits l 9 4 1 = 1,
    vector := entryBits l 10 0 11, head := 0, tail := 0, poll := false, known := false, readAt := 0, fetched := [],
    pend := [], waiting := [], cqFull := false, unsignalled := 0, oldest := 0, disabling := false }

/-- CREATE_QUEUE (R155, R157). -/
def execCreateQueue (fn : Nat) (s : State) : Res :=
  steady (s.adminReady fn 0x01)
    (fun s => s.adminRun fn 0x01 (fun l s =>
      match s.createError fn l with
      | some (st, sub) => (st, sub, 0, 0, if sub = 0x07 then s.raise 2 3 else s)
      | none => (0, 0, 0, 0, s.setQueue fn (entryBytes l 4 2) (createdQueue l)))) s

/-- QMG_FN_QLIMIT: PF0 writes a function's dynamic limit; a larger value than its queue IDs allow is refused and logged
(R139). -/
def State.writeQlimit (s : State) (fn limit : Nat) : State :=
  if limit ≤ (if fn = 0 then 4087 else 6143) then s.wr fQMG_FN_QLIMIT_LIMIT fn limit else s.notice 2 0xFFFF

def execQmgFnQlimit (fn limit : Nat) (s : State) : Res :=
  steady (s.reaches 0 && s.ready 2 && fn ≤ 1024) (fun s => (s.atRegion 2 (0x10000 + 4 * fn)).writeQlimit fn (lowBits 13 limit)) s

end Sys2Proof.Machine
end

