-- ==== Sys2Proof/Machine/Graph.lean ====
section
/-! DEFINITION. Graph images: their layout, the checks of GRAPH_LOAD, GRAPH_UNLOAD, and the checks of a RUN
(spec/07_pipeline_graphs.md R168 to R191; spec/11_associative_match.md R302, R303). -/

namespace Sys2Proof.Machine

/-! ### Fields of byte structures -/

/-- The little-endian number in `n` bytes at offset `o`; bytes beyond the end read 0. -/
def fieldAt (d : List Byte) (o n : Nat) : Nat := leNat ((d.drop o).take n)

/-- Bits [lo + len - 1 : lo] of the qword at offset `o`. -/
def bitsAt (d : List Byte) (o lo len : Nat) : Nat := bitField (fieldAt d o 8) lo len

/-- Some byte from `o` up to but not including `e` is not zero. -/
def nonzeroAt (d : List Byte) (o e : Nat) : Bool := ((d.drop o).take (e - o)).any (fun b => b ≠ 0)

/-- Number of distinct values that satisfy `p` below `n`. -/
def countTo (n : Nat) (p : Nat → Bool) : Nat := ((List.range n).filter p).length

/-- Round up to a multiple of `k`. -/
def roundUp (v k : Nat) : Nat := (v + k - 1) / k * k

/-! ### Tables of an image (R168 to R170) -/

def parseNode (d : List Byte) : Node :=
  { kind := fieldAt d 0 1, pass := bitsAt d 1 0 1 = 1, stateful := bitsAt d 1 1 1 = 1, windowed := bitsAt d 1 2 1 = 1,
    inPorts := fieldAt d 2 1, outPorts := fieldAt d 3 1, maxTasks := fieldAt d 4 2, recOff := fieldAt d 8 4,
    recLen := fieldAt d 12 4, codeOff := fieldAt d 16 4, codeLen := fieldAt d 20 4, lsBytes := fieldAt d 24 4,
    limitUs := fieldAt d 28 4, stateBytes := fieldAt d 32 4 }

def parseEdge (d : List Byte) : Edge :=
  { src := fieldAt d 0 1, srcPort := bitsAt d 1 0 3, dst := fieldAt d 2 1, dstPort := bitsAt d 3 0 3,
    ordered := bitsAt d 4 0 1 = 1, depend := bitsAt d 4 1 1 = 1, depth := fieldAt d 5 1, slotBytes := fieldAt d 8 4 }

/-- The graph that an image holds, loaded from address `va`. -/
def parseGraph (va : Nat) (d : List Byte) : Graph :=
  { image := va, imageBytes := fieldAt d 12 4,
    nodes := (List.range (fieldAt d 6 2)).map (fun i => parseNode (d.drop (fieldAt d 16 4 + 64 * i))),
    edges := (List.range (fieldAt d 8 2)).map (fun i => parseEdge (d.drop (fieldAt d 20 4 + 16 * i))),
    params := (d.drop (fieldAt d 24 4)).take (fieldAt d 28 4), codeOff := fieldAt d 32 4, codeBytes := fieldAt d 36 4,
    arenaPages := fieldAt d 40 4, runParamBytes := fieldAt d 44 2, amuBanks := fieldAt d 11 1 }

/-- The parameter record of a node. -/
def nodeRec (params : List Byte) (n : Node) : List Byte := (params.drop n.recOff).take n.recLen

def Graph.node (g : Graph) (i : Nat) : Node :=
  g.nodes.getD i ⟨0, false, false, false, 0, 0, 0, 0, 0, 0, 0, 0, 0, 0⟩

def Graph.edge (g : Graph) (i : Nat) : Edge := g.edges.getD i ⟨0, 0, 0, 0, false, false, 0, 0⟩

/-- The numbers of the edges that satisfy `p`. -/
def Graph.edgesWith (g : Graph) (p : Edge → Bool) : List Nat :=
  (List.range g.edges.length).filter (fun i => p (g.edge i))

/-- Edges that leave a node's output port, and edges that arrive at a node. -/
def Graph.outEdges (g : Graph) (n p : Nat) : List Nat := g.edgesWith (fun e => e.src = n && e.srcPort = p && !e.depend)
def Graph.outAll (g : Graph) (n : Nat) : List Nat := g.edgesWith (fun e => e.src = n)
def Graph.inData (g : Graph) (n : Nat) : List Nat := g.edgesWith (fun e => e.dst = n && !e.depend)
def Graph.inDepend (g : Graph) (n : Nat) : List Nat := g.edgesWith (fun e => e.dst = n && e.depend)

/-- A type code that R178 gives. -/
def typeOk (t : Nat) : Bool := [0, 1, 2, 3, 4, 8, 15].contains t

/-! ### The arena (R176) -/

/-- Bytes of the state regions of the nodes before node `n`. -/
def Graph.stateBefore (g : Graph) (n : Nat) : Nat := ((g.nodes.take n).map Node.stateBytes).foldl (· + ·) 0

/-- The address of a node's state region, from the arena's base. -/
def Graph.stateOff (g : Graph) (n : Nat) : Nat := 65536 + g.stateBefore n

/-- Buffers of an edge (R176). -/
def Edge.buffers (e : Edge) : Nat :=
  if e.depend ∨ e.slotBytes = 0 then 0 else if e.ordered then e.depth + 64 else e.depth

/-- The offset of buffer `k` of edge `e` in the arena. -/
def Graph.bufOff (g : Graph) (e k : Nat) : Nat :=
  g.stateOff g.nodes.length + ((g.edges.take e).map (fun x => x.buffers * x.slotBytes)).foldl (· + ·) 0
    + k * (g.edge e).slotBytes

/-- Bytes of the whole arena. -/
def Graph.arenaBytes (g : Graph) : Nat := g.bufOff g.edges.length 0

/-! ### The checks of R188, in its order -/

/-- Reserved fields of the descriptor. -/
def loadReserved (l : Line) : Bool :=
  entryBits l 4 6 2 ≠ 0 || entryNonzero l 5 8 || entryBits l 14 0 16 ≠ 0 || entryNonzero l 20 60

/-- Two ranges overlap. -/
def overlaps (a n b m : Nat) : Bool := a < b + m && b < a + n && 0 < n && 0 < m

/-- The tables and blocks of the image: offset and length. -/
def imageParts (d : List Byte) : List (Nat × Nat) :=
  [(fieldAt d 16 4, 64 * fieldAt d 6 2), (fieldAt d 20 4, 16 * fieldAt d 8 2), (fieldAt d 24 4, fieldAt d 28 4),
   (fieldAt d 32 4, fieldAt d 36 4)]

/-- 0x23: placement (R168). DESIGN CHOICE (notes/assumptions/89.md): an empty parameter or code block is held to the
same offsets as a full one, and a PARAM_BYTES or CODE_BYTES out of range or no multiple is reported here too. -/
def placementBad (d : List Byte) : Bool :=
  let ps := imageParts d
  ps.any (fun p => p.1 % 64 ≠ 0 || p.1 < 64 || fieldAt d 12 4 < p.1 + p.2)
    || (List.range 4).any (fun i => (List.range i).any (fun j =>
        overlaps (ps.getD i (0, 0)).1 (ps.getD i (0, 0)).2 (ps.getD j (0, 0)).1 (ps.getD j (0, 0)).2))
    || fieldAt d 28 4 % 8 ≠ 0 || 1048576 < fieldAt d 28 4 || fieldAt d 36 4 % 64 ≠ 0

/-- 0x26: a KIND or a flag that does not fit the kind (R169). -/
def kindBad (n : Node) : Bool :=
  n.kind = 0 || 9 < n.kind || (n.pass && !([1, 2, 5].contains n.kind)) || (n.stateful && n.kind ≠ 1)
    || (n.windowed && n.kind ≠ 1)

/-- 0x27: an edge names a missing node or port, or a port rule fails (R170, R171). -/
def portsBad (g : Graph) : Bool :=
  g.edges.any (fun e => g.nodes.length ≤ e.src || g.nodes.length ≤ e.dst
      || (g.node e.src).outPorts ≤ e.srcPort
      || (if e.depend then e.dstPort ≠ 0 else (g.node e.dst).inPorts ≤ e.dstPort))
    || g.nodes.any (fun n => 8 < n.inPorts || 8 < n.outPorts)
    || (List.range g.nodes.length).any (fun i =>
        (List.range (g.node i).inPorts).any (fun p =>
            (g.edgesWith (fun e => e.dst = i && e.dstPort = p && !e.depend)).length ≠ 1)
        || (List.range (g.node i).outPorts).any (fun p =>
            let k := (g.edgesWith (fun e => e.src = i && e.srcPort = p)).length
            k < 1 || 4 < k))

/-- Remove from `alive` every node that no alive node feeds, `fuel` times. -/
def peel (g : Graph) (alive : List Nat) : Nat → List Nat
  | 0 => alive
  | fuel + 1 =>
    peel g (alive.filter (fun n => g.edges.any (fun e => e.dst = n && alive.contains e.src))) fuel

/-- 0x28: a cycle. -/
def cyclic (g : Graph) : Bool := !(peel g (List.range g.nodes.length) g.nodes.length).isEmpty

/-- 0x29: a source, SINK or DEPEND rule fails (R171). -/
def sourcesBad (g : Graph) : Bool :=
  (List.range g.nodes.length).any (fun i =>
    let n := g.node i
    let dir := fieldAt (nodeRec g.params n) 0 1
    (n.inPorts = 0 && !([1, 6, 7].contains n.kind))
      || (n.kind = 6 && (if dir = 0 then n.inPorts ≠ 0 else n.inPorts = 0))
      || (if n.kind = 9 then n.inPorts ≠ 1 || n.outPorts ≠ 0 else n.outPorts = 0)
      || (g.outAll i).any (fun e => (g.edge e).depend ≠ (n.kind = 4 : Bool))
      || (g.outAll i).any (fun e => (g.edge e).depend && (g.node (g.edge e).dst).kind ≠ 5))
    || 8 < (g.nodes.filter (fun n => n.kind = 9)).length

/-- The producing node of a node's only input. -/
def Graph.before (g : Graph) (n : Nat) : Option Nat :=
  match g.inData n with
  | [e] => some (g.edge e).src
  | _ => none

/-- The chain of nodes from `n` back to its source; `none` where some node on it has other than one input port. -/
def Graph.chain (g : Graph) (n : Nat) : Nat → Option (List Nat)
  | 0 => some []
  | fuel + 1 =>
    if (g.node n).inPorts = 0 then some [n]
    else if (g.node n).inPorts ≠ 1 then none
    else
      match g.before n with
      | none => none
      | some m => (g.chain m fuel).map (fun c => n :: c)

/-- 0x2A: an ORDERED or WINDOWED rule fails (R171), or ORDERED_EDGES differs from the count.
DESIGN CHOICE (notes/assumptions/89.md): an ORDERED_EDGES above 64 is reported here too. -/
def orderedBad (g : Graph) (count : Nat) : Bool :=
  g.edges.any (fun e => e.ordered && (e.depend || (g.node e.dst).inPorts ≠ 1
      || (g.chain e.dst (g.nodes.length + 1)).isNone))
    || (List.range g.nodes.length).any (fun i => (g.node i).windowed && (!(g.node i).stateful || (g.node i).maxTasks ≠ 1
      || !(g.inData i).any (fun e => (g.edge e).ordered)))
    || count ≠ (g.edges.filter Edge.ordered).length || 64 < count

/-- A bindable field (R172): its offset is in range when it is bound. -/
def bindBad (runParams : Nat) (r : List Byte) (o : Nat) : Bool :=
  bitsAt r o 63 1 = 1 && (bitsAt r o 0 12 % 8 ≠ 0 || runParams ≤ bitsAt r o 0 12)

/-- The fixed length of a parameter record (R173). -/
def fixedLen (n : Node) (r : List Byte) : Nat :=
  match n.kind with
  | 1 => 64 | 2 => 16 + 4 * fieldAt r 1 1 | 3 => 16 | 4 => 16 | 5 => 16 | 6 => 24 | 7 => 16 + 4 * fieldAt r 8 1
  | 8 => 8 | _ => 8

/-- 0x2B: a record is short, lies outside the block, or holds a value out of range (R173, R302). -/
def recordBad (g : Graph) (i : Nat) : Bool :=
  let n := g.node i
  let r := nodeRec g.params n
  let bad := bindBad g.runParamBytes r
  n.recOff % 8 ≠ 0 || g.params.length < n.recOff + n.recLen || n.recLen < fixedLen n r ||
  match n.kind with
  | 1 => 16384 < fieldAt r 4 4 || n.recLen < 64 + fieldAt r 4 4 || bad 8 || bad 16
      || (n.inPorts ≠ 0 && fieldAt r 8 8 ≠ 0) || (n.windowed && (fieldAt r 24 8 = 0 || fieldAt r 32 8 = 0))
  | 2 => fieldAt r 0 1 = 0 || 3 < fieldAt r 0 1 || fieldAt r 1 1 = 0 || 32 < fieldAt r 1 1 || bad 8
      || (fieldAt r 0 1 ≠ 3 && fieldAt r 8 8 ≠ 0)
      || (List.range (fieldAt r 1 1)).any (fun c => !typeOk (fieldAt r (16 + 4 * c) 1))
  | 3 => fieldAt r 0 1 = 0 || 3 < fieldAt r 0 1 || fieldAt r 1 1 = 0 || 9 < fieldAt r 1 1 || bad 8
      || (fieldAt r 0 1 ≠ 3 && fieldAt r 8 8 ≠ 0)
  | 4 => 7 < fieldAt r 0 1 || !([1, 2, 4].contains (fieldAt r 1 1)) || fieldAt r 2 1 = 0 || 64 < fieldAt r 2 1
      || 1 < fieldAt r 3 1
      || (List.range i).any (fun j => (g.node j).kind = 4
          && fieldAt (nodeRec g.params (g.node j)) 0 1 = fieldAt r 0 1)
  | 5 => 7 < fieldAt r 0 1 || 3 < fieldAt r 1 1 || (fieldAt r 1 1 < 2 && fieldAt r 2 1 ≠ 0) || fieldAt r 2 1 = 255
      || !(g.inDepend i).any (fun e => (g.node (g.edge e).src).kind = 4
          && fieldAt (nodeRec g.params (g.node (g.edge e).src)) 0 1 = fieldAt r 0 1)
  | 6 => 1 < fieldAt r 0 1 || 4 < fieldAt r 1 1 || bad 8
  | 7 => fieldAt r 8 1 = 0 || 32 < fieldAt r 8 1 || bad 0
      || (List.range (fieldAt r 8 1)).any (fun c => !typeOk (fieldAt r (16 + 4 * c) 1)
          || fieldAt r (17 + 4 * c) 1 = 255)
  | 8 => 5 < fieldAt r 0 1
  | _ => 7 < fieldAt r 0 1 || (List.range i).any (fun j => (g.node j).kind = 9
      && fieldAt (nodeRec g.params (g.node j)) 0 1 = fieldAt r 0 1)

/-- A bound field's reserved bits (R172). -/
def bindReserved (r : List Byte) (o : Nat) : Bool := bitsAt r o 63 1 = 1 && bitsAt r o 12 51 ≠ 0

/-- 0x01: reserved bytes of a parameter record within its fixed length (R173). -/
def recordReserved (n : Node) (r : List Byte) : Bool :=
  match n.kind with
  | 1 => nonzeroAt r 40 64 || bindReserved r 8 || bindReserved r 16
  | 2 => nonzeroAt r 2 8 || bindReserved r 8
      || (List.range (fieldAt r 1 1)).any (fun c => nonzeroAt r (17 + 4 * c) (20 + 4 * c))
  | 3 => nonzeroAt r 2 8 || bindReserved r 8
  | 4 => nonzeroAt r 9 16
  | 5 => nonzeroAt r 3 4 || nonzeroAt r 8 16
  | 6 => nonzeroAt r 2 8 || bindReserved r 8
  | 7 => nonzeroAt r 9 16 || bindReserved r 0
      || (List.range (fieldAt r 8 1)).any (fun c => nonzeroAt r (18 + 4 * c) (20 + 4 * c))
  | 8 => nonzeroAt r 1 4
  | _ => nonzeroAt r 1 8

/-- 0x01: reserved fields of the image (R5, R168 to R170). -/
def imageReserved (d : List Byte) (g : Graph) : Bool :=
  nonzeroAt d 46 48 || nonzeroAt d 60 64
    || (List.range g.nodes.length).any (fun i =>
        let e := d.drop (fieldAt d 16 4 + 64 * i)
        bitsAt e 1 3 5 ≠ 0 || nonzeroAt e 6 8 || nonzeroAt e 36 64
          || recordReserved (g.node i) (nodeRec g.params (g.node i)))
    || (List.range g.edges.length).any (fun i =>
        let e := d.drop (fieldAt d 20 4 + 16 * i)
        bitsAt e 1 3 5 ≠ 0 || bitsAt e 3 3 5 ≠ 0 || bitsAt e 4 2 6 ≠ 0 || nonzeroAt e 6 8 || nonzeroAt e 12 16)

/-- 0x2C: a code blob or ENTRY (R169, R173). DESIGN CHOICE (notes/assumptions/89.md): a misaligned ENTRY or CODE_REC_OFF,
a CODE_REC_LEN out of range and code fields on other kinds are reported here too. -/
def codeBad (g : Graph) (n : Node) : Bool :=
  if n.kind = 1 then
    let entry := fieldAt (nodeRec g.params n) 0 4
    n.codeOff % 64 ≠ 0 || n.codeLen < 64 || 1048576 < n.codeLen || g.codeBytes < n.codeOff + n.codeLen
      || entry % 4 ≠ 0 || n.codeLen ≤ entry
  else n.codeOff ≠ 0 || n.codeLen ≠ 0

/-- The first edge of an output port carries the buffers (R171). DESIGN CHOICE (notes/assumptions/89.md): SLOT_BYTES on
another edge of the port is reported with the limits, as 0x2D. -/
def slotBad (g : Graph) (i : Nat) : Bool :=
  let e := g.edge i
  if e.depend then e.depth ≠ 0 || e.slotBytes ≠ 0
  else e.depth = 0 || 64 < e.depth || e.slotBytes % 4096 ≠ 0 || 67108864 < e.slotBytes
    || (e.slotBytes ≠ 0 && (List.range i).any (fun j =>
        (g.edge j).src = e.src && (g.edge j).srcPort = e.srcPort && !(g.edge j).depend))

/-- 0x2D: limits (R168, R169, R170, R176, R240, R302). -/
def limitsBad (g : Graph) : Bool :=
  (List.range g.edges.length).any (slotBad g)
    || g.nodes.any (fun n =>
        (if n.kind = 1 then 245760 < n.lsBytes
            || 262144 < 2048 + fieldAt (nodeRec g.params n) 4 4 + n.lsBytes
          else n.lsBytes ≠ 0)
        || (if n.stateful then n.stateBytes % 4096 ≠ 0 || 67108864 < n.stateBytes else n.stateBytes ≠ 0))
    || 64 < g.amuBanks || g.arenaPages * pageBytes < g.arenaBytes || 4096 < g.runParamBytes
    || g.runParamBytes % 8 ≠ 0
    || g.amuBanks < ((g.nodes.filter (fun n => n.kind = 4)).map
        (fun n => fieldAt (nodeRec g.params n) 2 1)).foldl (· + ·) 0

/-- The checks of R188 on an image that was read. -/
def imageError (va len : Nat) (d : List Byte) : Option (Nat × Nat) :=
  let g := parseGraph va d
  let ids := List.range g.nodes.length
  if fieldAt d 0 4 ≠ 0x5247584B ∨ fieldAt d 4 2 ≠ 1 ∨ fieldAt d 12 4 ≠ len then some (0x10, 0x22)
  else if crc32c (d.take 56 ++ [0, 0, 0, 0] ++ d.drop 60) ≠ BitVec.ofNat 32 (fieldAt d 56 4) then some (0x15, 0x24)
  else if placementBad d then some (0x10, 0x23)
  else if fieldAt d 6 2 = 0 ∨ 256 < fieldAt d 6 2 ∨ fieldAt d 8 2 = 0 ∨ 512 < fieldAt d 8 2 then some (0x10, 0x25)
  else if g.nodes.any kindBad then some (0x10, 0x26)
  else if portsBad g then some (0x10, 0x27)
  else if cyclic g then some (0x10, 0x28)
  else if sourcesBad g then some (0x10, 0x29)
  else if orderedBad g (fieldAt d 10 1) then some (0x10, 0x2A)
  else if ids.any (recordBad g) then some (0x10, 0x2B)
  else if imageReserved d g then some (0x10, 0x01)
  else if g.nodes.any (codeBad g) then some (0x10, 0x2C)
  else if limitsBad g then some (0x10, 0x2D)
  else none

/-! ### Loading and unloading (R187 to R189) -/

def State.graph (s : State) (fn id : Nat) : Option Graph := find s.bsn.graphs (fn * 64 + id)

/-- GRAPH_LOAD: the answer gives status, sub-status, RESULT_LEN, SPECIFIC and the state. -/
def State.graphLoad (s : State) (fn : Nat) (l : Line) : Nat × Nat × Nat × Nat × State :=
  let id := entryBits l 4 0 6
  let va := entryBytes l 8 6
  let len := entryBytes l 16 4
  if loadReserved l then (0x10, 0x01, 0, 0, s)
  else if (s.graph fn id).isSome then (0x10, 0x20, 0, 0, s)
  else if va % 64 ≠ 0 ∨ len < 128 ∨ 16777216 < len then (0x10, 0x21, 0, 0, s)
  else
    let got := s.engineRead fn va len
    if got.status = 0x22 then (0x22, 0x00, 0, 0, got.st)
    else if got.status ≠ 0 then (got.status, got.sub, 0, 0, got.st)
    else
      match imageError va len got.data with
      | some e => (e.1, e.2, 0, 0, got.st)
      | none =>
        let g := parseGraph va got.data
        (0, 0, 0, g.arenaPages,
          { got.st with bsn := { got.st.bsn with graphs := put got.st.bsn.graphs (fn * 64 + id) g } })

def execGraphLoad (fn : Nat) (s : State) : Res :=
  steady (s.adminReady fn 0x10) (fun s => s.adminRun fn 0x10 (fun l s => s.graphLoad fn l)) s

/-- A RUN of the graph has been fetched and has not produced its final completion (R189). -/
def State.graphBusy (s : State) (fn id : Nat) : Bool :=
  s.qmg.queues.any (fun kq => kq.1 / 8192 = fn && kq.2.cls = 1
    && kq.2.fetched.any (fun e => entryOpcode e.line = 1 && entryBits e.line 4 0 6 = id))

/-- GRAPH_UNLOAD (R189). -/
def State.graphUnload (s : State) (fn : Nat) (l : Line) : Nat × Nat × Nat × Nat × State :=
  let id := entryBits l 4 0 6
  if entryBits l 4 6 2 ≠ 0 ∨ entryNonzero l 5 60 then (0x10, 0x01, 0, 0, s)
  else if (s.graph fn id).isNone then (0x10, 0x2F, 0, 0, s)
  else if s.graphBusy fn id then (0x10, 0x2E, 0, 0, s)
  else (0, 0, 0, 0, { s with bsn := { s.bsn with graphs := del s.bsn.graphs (fn * 64 + id) } })

def execGraphUnload (fn : Nat) (s : State) : Res :=
  steady (s.adminReady fn 0x11) (fun s => s.adminRun fn 0x11 (fun l s => s.graphUnload fn l)) s

/-! ### RUN (R190, R191, R303) -/

/-- The first entry of a queue that has been handed on and not started, where no RUN before it is held (R142). -/
def State.handedEntry (s : State) (fn qid cls : Nat) : Option Entry :=
  match s.queue fn qid with
  | none => none
  | some q =>
    if q.cls = cls ∧ !q.fetched.any (fun e => e.stage = .held) then q.fetched.find? (fun e => e.stage = .handed) else none

/-- Sorting Table banks in service (`AMU_POOL.IN_SERVICE`). -/
def State.banksInService (s : State) : Nat :=
  countTo 68 (fun b => s.rd fAMU_BANK_STATE b ≤ 2 && s.rd fAMU_BANK_LOGICAL b < 64)

/-- The checks of a RUN when it is handed to BSN (R191, R303). -/
def State.runError (s : State) (fn : Nat) (l : Line) : Option (Nat × Nat) :=
  if entryBits l 4 6 2 ≠ 0 ∨ entryNonzero l 5 6 ∨ entryBits l 6 1 7 ≠ 0 ∨ entryNonzero l 7 8 ∨ entryBits l 14 0 16 ≠ 0
      ∨ entryBits l 22 5 3 ≠ 0 ∨ entryNonzero l 23 24 ∨ entryNonzero l 42 60 then some (0x10, 0x01)
  else
    match s.graph fn (entryBits l 4 0 6) with
    | none => some (0x10, 0x30)
    | some g =>
      if entryBytes l 8 6 % pageBytes ≠ 0 ∨ entryBytes l 16 4 < g.arenaPages then some (0x10, 0x31)
      else if entryBits l 22 0 5 < 16 ∨ 30 < entryBits l 22 0 5 ∨ entryBytes l 24 8 % 64 ≠ 0 then some (0x10, 0x32)
      else if entryBytes l 40 2 ≠ g.runParamBytes ∨ (g.runParamBytes ≠ 0 ∧ entryBytes l 32 8 % 8 ≠ 0) then
        some (0x10, 0x33)
      else if s.rd fAMU_FN_LIMIT fn < g.amuBanks ∨ s.banksInService < g.amuBanks then some (0x23, 0x05)
      else none

/-- The record of a RUN that waits for its flows and banks (R27, R191). -/
def State.newRun (s : State) (fn qid : Nat) (l : Line) : Run :=
  { fn := fn, qid := qid, graph := entryBits l 4 0 6, runTag := 0, stopOnFault := entryBits l 6 0 1 = 1,
    arena := entryBytes l 8 6, arenaPages := entryBytes l 16 4, segCount := entryBytes l 20 2 + 1,
    segLog := entryBits l 22 0 5, segTable := entryBytes l 24 8, paramAddr := entryBytes l 32 8, started := false,
    waitAt := s.clk.tsu, holding := false, params := [], flows := [], queues := [], sources := [], bufs := [],
    closeBelow := [], highSeq := [], finalMade := [], finalDone := [], seg := 0, segPos := 0, segOpen := false, segAddr := 0,
    skips := 0, first := none, faultRecs := 0, faultLost := 0, faultAt := 0, faultTail := [], records := [], sink := none, segRest := [], sinkEnd := (0, 0),
    sinkKill := none }

/-- RUN: the oldest RUN that the queue has handed on is checked; it fails at once, or waits (R191). -/
def State.runCheck (s : State) (fn qid : Nat) : State :=
  match s.handedEntry fn qid 1 with
  | none => s
  | some e =>
    let r : Ref := ⟨fn, qid, e.tag⟩
    match s.runError fn e.line with
    | some x => s.complete r x.1 x.2 0 0
    | none =>
      let t := s.setStage r .held
      { t with bsn := { t.bsn with runs := put t.bsn.runs e.tag (s.newRun fn qid e.line) } }

def execRun (fn qid : Nat) (s : State) : Res :=
  steady (s.running && s.ready 3 && (s.handedEntry fn qid 1).isSome) (fun s => s.runCheck fn qid) s

end Sys2Proof.Machine
end

