-- ==== Sys2Proof/Machine/Codec.lean ====
section
/-! DEFINITION. The formats of Mangle: what a stream of DEFLATE (RFC 1951), of LZ4 blocks and of Zstandard (RFC 8878)
decompresses to, symbol by symbol, with the limits of R321, and their stored forms (spec/12_mangle_compression.md R321,
R323, R326, R334, R337). The spec names these standards and does not repeat them (PRESUMED, notes/assumptions/93.md); the
inside of a Zstandard compressed block is a constant of Config. -/

namespace Sys2Proof.Machine

/-- One symbol (R334): the input bits that it takes, the bytes that it gives, and the context after it. -/
structure CodecSym where
  bits : Nat
  out : List Byte
  ctx : List Byte

/-- How the data of a payload end: as they should, or at a symbol while more is to come; malformed; with an excluded
feature; with a Dictionary_ID that no dictionary has; with a wrong content checksum; before the payload does. -/
inductive CodecEnd where
  | good | malformed | excluded | noDictionary | badChecksum | cut
  deriving DecidableEq, Repr

/-- What a step of a decoder finds: too little data, data that it refuses, or a value and the data that follow. -/
inductive Scan (ι α : Type) where
  | short
  | bad (e : CodecEnd)
  | got (a : α) (rest : List ι)

def Scan.then {ι α β : Type} (x : Scan ι α) (f : α → List ι → Scan ι β) : Scan ι β :=
  match x with
  | .short => .short
  | .bad e => .bad e
  | .got a r => f a r

/-! ### Bits and history -/

/-- The bits of bytes, least significant first. -/
def bitString (d : List Byte) : List Bool := (d.map (fun b => (List.range 8).map b.getLsbD)).flatten

/-- The number that bits spell, least significant first. -/
def bitsVal : List Bool → Nat
  | [] => 0
  | b :: rest => bit b + 2 * bitsVal rest

/-- The bytes of bits; the last is filled up with zeros. -/
def bytesOfBits (bs : List Bool) : List Byte :=
  (List.range ((bs.length + 7) / 8)).map (fun i => BitVec.ofNat 8 (bitsVal ((bs.drop (8 * i)).take 8)))

/-- The next `n` items. -/
def takeN {ι : Type} (n : Nat) (d : List ι) : Scan ι (List ι) := if d.length < n then .short else .got (d.take n) (d.drop n)

/-- The next `n` bits as a number. -/
def takeBits (n : Nat) (bs : List Bool) : Scan Bool Nat := (takeN n bs).then (fun a r => .got (bitsVal a) r)

/-- History, newest byte first, with `n` bytes more, each the one `dist` bytes back. -/
def copyBack (dist : Nat) : Nat → List Byte → List Byte
  | 0, h => h
  | n + 1, h => copyBack dist n (h.getD (dist - 1) 0 :: h)

/-- The bytes of a match. -/
def matchBytes (h : List Byte) (dist n : Nat) : List Byte := ((copyBack dist n h).take n).reverse

/-! ### DEFLATE -/

/-- Where a DEFLATE stream stands: before a block (0), in a stored block (1), in a block of codes (2), or behind the final
block (3); the block in progress, with the code lengths of its literals and lengths and of its distances. -/
structure Inflate where
  mode : Nat
  final : Bool
  left : Nat
  lit : List Nat
  dist : List Nat

def Inflate.bytes (c : Inflate) : List Byte :=
  leBytes 1 c.mode ++ leBytes 1 (bit c.final) ++ leBytes 2 c.left ++ leBytes 2 c.lit.length ++ c.lit.map (BitVec.ofNat 8)
    ++ c.dist.map (BitVec.ofNat 8)

def Inflate.ofBytes (d : List Byte) : Inflate :=
  let n := fieldAt d 4 2
  { mode := fieldAt d 0 1, final := fieldAt d 1 1 = 1, left := fieldAt d 2 2, lit := ((d.drop 6).take n).map BitVec.toNat,
    dist := (d.drop (6 + n)).map BitVec.toNat }

/-- The block ends. -/
def Inflate.blockEnd (c : Inflate) : Inflate := ⟨if c.final then 3 else 0, c.final, 0, [], []⟩

/-- Read one symbol of a canonical code: `code` is what was read of `len` bits, `first` the first code of that length. -/
def codeSymbol (lens : List Nat) (len code first : Nat) : Nat → List Bool → Scan Bool Nat
  | 0, _ => .bad .malformed
  | _, [] => .short
  | fuel + 1, b :: rest =>
    let syms := (List.range lens.length).filter (fun i => lens.getD i 0 = len)
    let c := code + bit b
    if c < first + syms.length then .got (syms.getD (c - first) 0) rest
    else codeSymbol lens (len + 1) (2 * c) (2 * (first + syms.length)) fuel rest

def readCode (lens : List Nat) (bs : List Bool) : Scan Bool Nat := codeSymbol lens 1 0 0 15 bs

/-- The share of the code space, in units of 2^-15, that the codes take. -/
def codeSpace (lens : List Nat) : Nat := ((lens.filter (fun l => l ≠ 0)).map (fun l => 2 ^ (15 - l))).foldl (· + ·) 0

/-- A code that RFC 1951 allows: complete, or of a single code of one bit; `none_` allows one without codes. -/
def codeOk (none_ : Bool) (lens : List Nat) : Bool :=
  codeSpace lens = 2 ^ 15 || lens.filter (fun l => l ≠ 0) = [1] || (none_ && lens.all (fun l => l = 0))

/-- Read `n` more code lengths behind those of `acc`. -/
def readLens (cl : List Nat) (n : Nat) (acc : List Nat) : Nat → List Bool → Scan Bool (List Nat)
  | 0, _ => .bad .malformed
  | fuel + 1, bs =>
    if n < acc.length then .bad .malformed
    else if acc.length = n then .got acc bs
    else (readCode cl bs).then (fun y r =>
      if y < 16 then readLens cl n (acc ++ [y]) fuel r
      else if y = 16 then
        match acc.getLast? with
        | none => .bad .malformed
        | some l => (takeBits 2 r).then (fun k r => readLens cl n (acc ++ List.replicate (3 + k) l) fuel r)
      else if y = 17 then (takeBits 3 r).then (fun k r => readLens cl n (acc ++ List.replicate (3 + k) 0) fuel r)
      else (takeBits 7 r).then (fun k r => readLens cl n (acc ++ List.replicate (11 + k) 0) fuel r))

/-- The symbol whose code length stands at place `p` of a dynamic block's header. -/
def lenPlace (p : Nat) : Nat :=
  if p < 3 then 16 + p else if p = 3 then 0 else if p % 2 = 0 then 8 + (p - 4) / 2 else 8 - (p - 3) / 2

/-- The header of a dynamic block. -/
def dynamicBlock (final : Bool) (bs : List Bool) : Scan Bool Inflate :=
  (takeBits 14 bs).then (fun v r =>
    let nl := 257 + v % 32
    let nd := 1 + v / 32 % 32
    let nc := 4 + v / 1024
    (takeN (3 * nc) r).then (fun cs r =>
      let cl := (List.range 19).map (fun y =>
        match (List.range nc).find? (fun p => lenPlace p = y) with
        | some p => bitsVal ((cs.drop (3 * p)).take 3)
        | none => 0)
      if 286 < nl ∨ 30 < nd ∨ codeSpace cl ≠ 2 ^ 15 then .bad .malformed
      else (readLens cl (nl + nd) [] (nl + nd + 1) r).then (fun ls r =>
        let lit := ls.take nl
        let dist := ls.drop nl
        if lit.getD 256 0 = 0 ∨ !codeOk false lit ∨ !codeOk true dist then .bad .malformed
        else .got ⟨2, final, 0, lit, dist⟩ r)))

/-- The code lengths of a fixed block. -/
def fixedLit : List Nat := (List.range 288).map (fun i => if i < 144 then 8 else if i < 256 then 9 else if i < 280 then 7 else 8)
def fixedDist : List Nat := List.replicate 30 5

/-- The header of a block; `pos` is the place of the first bit, modulo 8. -/
def deflateHeader (pos : Nat) (bs : List Bool) : Scan Bool Inflate :=
  (takeBits 3 bs).then (fun v r =>
    let final := v % 2 = 1
    match v / 2 with
    | 0 => (takeN ((16 - (pos + 3) % 8) % 8) r).then (fun _ r => (takeBits 16 r).then (fun n r => (takeBits 16 r).then (fun m r =>
        if n + m ≠ 0xFFFF then .bad .malformed
        else .got (if n = 0 then (⟨1, final, 0, [], []⟩ : Inflate).blockEnd else ⟨1, final, n, [], []⟩) r)))
    | 1 => .got ⟨2, final, 0, fixedLit, fixedDist⟩ r
    | 2 => dynamicBlock final r
    | _ => .bad .malformed)

/-- Extra bits and lowest value of length code 257 + `i`, and of distance code `j`. -/
def lengthCode (i : Nat) : Nat × Nat := if i < 8 then (0, 3 + i) else if i = 28 then (0, 258) else (i / 4 - 1, 3 + (4 + i % 4) * 2 ^ (i / 4 - 1))
def distCode (j : Nat) : Nat × Nat := if j < 4 then (0, 1 + j) else (j / 2 - 1, 1 + (2 + j % 2) * 2 ^ (j / 2 - 1))

/-- A literal, a length-distance pair or the end of a block of codes. Distances reach back at most 32,768 bytes (R321). -/
def codedSymbol (c : Inflate) (h : List Byte) (bs : List Bool) : Scan Bool (Inflate × List Byte) :=
  (readCode c.lit bs).then (fun y r =>
    if y < 256 then .got (c, [BitVec.ofNat 8 y]) r
    else if y = 256 then .got (c.blockEnd, []) r
    else if 285 < y then .bad .malformed
    else
      let l := lengthCode (y - 257)
      (takeBits l.1 r).then (fun k r => (readCode c.dist r).then (fun j r =>
        if 29 < j then .bad .malformed
        else (takeBits (distCode j).1 r).then (fun m r =>
          let d := (distCode j).2 + m
          if h.length < d ∨ 32768 < d then .bad .malformed else .got (c, matchBytes h d (l.2 + k)) r))))

/-- The next symbol of a DEFLATE stream; headers are symbols that give no bytes. -/
def Inflate.step (c : Inflate) (pos : Nat) (h : List Byte) (bs : List Bool) : Scan Bool (Inflate × List Byte) :=
  match c.mode with
  | 0 => (deflateHeader pos bs).then (fun d r => .got (d, []) r)
  | 1 => (takeN 8 bs).then (fun b r =>
      .got ((if c.left = 1 then c.blockEnd else { c with left := c.left - 1 }), bytesOfBits b) r)
  | 2 => codedSymbol c h bs
  | _ => .short

/-- Decode symbols until the bits end, or a symbol cannot be read: the symbols, where the stream stands, the end that a
refusal gives, and the bits left. -/
def inflate (c : Inflate) (pos : Nat) (h : List Byte) (bs : List Bool) :
    Nat → List CodecSym × Inflate × Option CodecEnd × List Bool
  | 0 => ([], c, none, bs)
  | fuel + 1 =>
    match c.step pos h bs with
    | .short => ([], c, none, bs)
    | .bad e => ([], c, some e, bs)
    | .got a r =>
      let n := bs.length - r.length
      let p := inflate a.1 ((pos + n) % 8) (a.2.reverse ++ h) r fuel
      (⟨n, a.2, a.1.bytes⟩ :: p.1, p.2)

/-- Decode bits of a DEFLATE stream (R323). -/
def inflateBits (i : CodecIn) (bs : List Bool) : List CodecSym × CodecEnd :=
  let p := inflate (Inflate.ofBytes i.ctx) (i.bit % 8) i.hist.reverse bs (bs.length + 1)
  let c := p.2.1
  (p.1, match p.2.2.1 with
    | some e => e
    | none =>
      if c.mode = 3 then (if 8 ≤ p.2.2.2.length ∨ (i.whole ∧ !i.last) then .malformed else .good)
      else if !i.whole then .good
      else if i.last ∨ c.mode ≠ 0 ∨ p.2.2.2 ≠ [] then .cut else .good)

/-! ### LZ4 -/

/-- A length whose nibble is 15 goes on in bytes up to one below 255. -/
def lz4Length (n : Nat) : List Byte → Scan Byte Nat
  | [] => .short
  | b :: rest => if b = 255 then lz4Length (n + 255) rest else .got (n + b.toNat) rest

def lz4Count (nibble : Nat) (d : List Byte) : Scan Byte Nat := if nibble = 15 then lz4Length 15 d else .got nibble d

/-- A sequence, or the literals that end a block. -/
def lz4Step (whole : Bool) (h : List Byte) (d : List Byte) : Scan Byte (List Byte) :=
  (takeN 1 d).then (fun t r =>
    let t := leNat t
    (lz4Count (t / 16) r).then (fun n r => (takeN n r).then (fun lits r =>
      if r = [] then (if whole then .got lits [] else .short)
      else (takeN 2 r).then (fun o r => (lz4Count (t % 16) r).then (fun m r =>
        let g := lits.reverse ++ h
        if leNat o = 0 ∨ g.length < leNat o then .bad .malformed else .got (lits ++ matchBytes g (leNat o) (m + 4)) r)))))

/-- Decode an LZ4 block: the symbols, the end that a refusal gives, and the bytes left. -/
def lz4 (whole : Bool) (h : List Byte) (d : List Byte) : Nat → List CodecSym × Option CodecEnd × List Byte
  | 0 => ([], none, d)
  | fuel + 1 =>
    if d = [] then ([], none, d)
    else match lz4Step whole h d with
      | .short => ([], none, d)
      | .bad e => ([], some e, d)
      | .got a r =>
        let p := lz4 whole (a.reverse ++ h) r fuel
        (⟨8 * (d.length - r.length), a, []⟩ :: p.1, p.2)

def lz4Decode (i : CodecIn) : List CodecSym × CodecEnd :=
  let p := lz4 i.whole i.hist.reverse i.data (i.data.length + 1)
  (p.1, match p.2.1 with
    | some e => e
    | none => if i.whole ∧ p.2.2 ≠ [] then .cut else .good)

/-! ### The content checksum of Zstandard: XXH64 with seed 0 -/

def xxPrime (k : Nat) : Qword :=
  [0x9E3779B185EBCA87#64, 0xC2B2AE3D27D4EB4F#64, 0x165667B19E3779F9#64, 0x85EBCA77C2B2AE63#64, 0x27D4EB2F165667C5#64].getD (k - 1) 0

/-- The state of a checksum: bytes so far, four lanes, and the bytes that wait for a stripe of 32. -/
structure Xxh where
  total : Nat
  lanes : List Qword
  buf : List Byte

def Xxh.start : Xxh := ⟨0, [xxPrime 1 + xxPrime 2, xxPrime 2, 0, 0 - xxPrime 1], []⟩

def xxRound (acc v : Qword) : Qword := (acc + v * xxPrime 2).rotateLeft 31 * xxPrime 1

def qwordAt (d : List Byte) (k : Nat) : Qword := BitVec.ofNat 64 (fieldAt d (8 * k) 8)

def Xxh.byte (x : Xxh) (b : Byte) : Xxh :=
  let d := x.buf ++ [b]
  if d.length < 32 then { x with total := x.total + 1, buf := d }
  else ⟨x.total + 1, (List.range 4).map (fun k => xxRound (x.lanes.getD k 0) (qwordAt d k)), []⟩

def xxTail (h : Qword) : Nat → List Byte → Qword
  | 0, _ => h
  | fuel + 1, d =>
    if 8 ≤ d.length then xxTail (((h ^^^ xxRound 0 (qwordAt d 0)).rotateLeft 27) * xxPrime 1 + xxPrime 4) fuel (d.drop 8)
    else if 4 ≤ d.length then
      xxTail (((h ^^^ (BitVec.ofNat 64 (fieldAt d 0 4) * xxPrime 1)).rotateLeft 23) * xxPrime 2 + xxPrime 3) fuel (d.drop 4)
    else match d with
      | [] => h
      | b :: rest => xxTail (((h ^^^ (b.zeroExtend 64 * xxPrime 5)).rotateLeft 11) * xxPrime 1) fuel rest

def Xxh.value (x : Xxh) : Qword :=
  let turn (k n : Nat) : Qword := (x.lanes.getD k 0).rotateLeft n
  let h := if x.total < 32 then xxPrime 5
    else x.lanes.foldl (fun h v => (h ^^^ xxRound 0 v) * xxPrime 1 + xxPrime 4) (turn 0 1 + turn 1 7 + turn 2 12 + turn 3 18)
  let t := xxTail (h + BitVec.ofNat 64 x.total) 12 x.buf
  let u := (t ^^^ (t >>> 33)) * xxPrime 2
  let v := (u ^^^ (u >>> 29)) * xxPrime 3
  v ^^^ (v >>> 32)

/-! ### Zstandard -/

/-- Where a Zstandard frame stands: before its header (0), before a block (1), in a compressed block (2), before the
checksum (3), or behind its end (4); the frame's checksum flag and window; the block in progress; the checksum; and what a
compressed block hands on. -/
structure Zst where
  phase : Nat
  check : Bool
  window : Nat
  last : Bool
  left : Nat
  xxh : Xxh
  tail : List Byte

def Zst.bytes (c : Zst) : List Byte :=
  leBytes 1 c.phase ++ leBytes 1 (bit c.check + 2 * bit c.last) ++ leBytes 4 c.window ++ leBytes 4 c.left ++ leBytes 8 c.xxh.total
    ++ (c.xxh.lanes.map (fun v => leBytes 8 v.toNat)).flatten ++ leBytes 1 c.xxh.buf.length
    ++ c.xxh.buf ++ List.replicate (31 - c.xxh.buf.length) 0 ++ c.tail

def Zst.ofBytes (d : List Byte) : Zst :=
  if d = [] then ⟨0, false, 0, false, 0, Xxh.start, []⟩
  else
    { phase := fieldAt d 0 1, check := bitsAt d 1 0 1 = 1, last := bitsAt d 1 1 1 = 1, window := fieldAt d 2 4, left := fieldAt d 6 4,
      xxh := ⟨fieldAt d 10 8, (List.range 4).map (fun k => qwordAt (d.drop 18) k), (d.drop 51).take (fieldAt d 50 1)⟩,
      tail := d.drop 82 }

/-- The largest window: 8 MiB (R321). -/
def maxWindow : Nat := 8388608

/-- The header of a frame. A skippable frame and a larger window are excluded; a Dictionary_ID needs its dictionary (R321,
R337). -/
def zstHeader (dict : List Byte) (d : List Byte) : Scan Byte Zst :=
  (takeN 5 d).then (fun m r =>
    let magic := fieldAt m 0 4
    let f := fieldAt m 4 1
    let single := f / 32 % 2 = 1
    let idLen := [0, 1, 2, 4].getD (f % 4) 0
    let sizeLen := if f / 64 = 0 then bit single else 2 ^ (f / 64)
    if magic / 16 = 0x184D2A5 then .bad .excluded
    else if magic ≠ 0xFD2FB528 ∨ f / 8 % 2 = 1 then .bad .malformed
    else (takeN (1 - bit single) r).then (fun w r => (takeN idLen r).then (fun q r => (takeN sizeLen r).then (fun z r =>
      let base := 2 ^ (10 + leNat w / 8)
      let window := if single then leNat z + (if sizeLen = 2 then 256 else 0) else base + base / 8 * (leNat w % 8)
      if maxWindow < window then .bad .excluded
      else if leNat q ≠ 0 ∧ (dict.length < 8 ∨ fieldAt dict 4 4 ≠ leNat q) then .bad .noDictionary
      else .got ⟨1, f / 4 % 2 = 1, window, false, 0, Xxh.start, []⟩ r))))

/-- The largest block of a frame. -/
def Zst.blockMax (c : Zst) : Nat := min c.window 131072

/-- Bytes of the frame's content. -/
def Zst.gives (c : Zst) (d : List Byte) : Zst := if c.check then { c with xxh := d.foldl Xxh.byte c.xxh } else c

/-- A block ends. -/
def Zst.blockEnd (c : Zst) : Zst := { c with phase := if !c.last then 1 else if c.check then 3 else 4, left := 0 }

/-- A block header, with the bytes of a Raw or an RLE block. -/
def zstBlock (c : Zst) (d : List Byte) : Scan Byte (Zst × List Byte) :=
  (takeN 3 d).then (fun m r =>
    let v := leNat m
    let n := v / 8
    let e := { c with last := v % 2 = 1 }
    if c.blockMax < n then .bad .malformed
    else match v / 2 % 4 with
      | 0 => (takeN n r).then (fun b r => .got ((e.gives b).blockEnd, b) r)
      | 1 => (takeN 1 r).then (fun b r => .got ((e.gives (List.replicate n (b.headD 0))).blockEnd, List.replicate n (b.headD 0)) r)
      | 2 => .got ({ e with phase := 2, left := n }, []) r
      | _ => .bad .malformed)

/-- The symbols of the rest of a compressed block. Config gives its sequences: input bytes, literals, offset and match
length, and what the next one needs; the copies are made here, within the window (R321). -/
def zstSequences (c : Zst) (dict : List Byte) : List Byte → List (Nat × List Byte × Nat × Nat × List Byte) → List CodecSym × Zst × Option CodecEnd
  | _, [] => ([], c, if c.left = 0 then none else some .malformed)
  | h, (n, lits, off, len, tail) :: more =>
    let g := lits.reverse ++ h
    let room := g ++ (Config.dictContent dict).reverse
    let out := lits ++ (if len = 0 then [] else matchBytes room off len)
    let k := if more.isEmpty then c.left else min n c.left
    if len ≠ 0 ∧ (off = 0 ∨ c.window < off ∨ room.length < off) ∨ c.blockMax < out.length then ([], c, some .malformed)
    else
      let d := { c.gives out with left := c.left - k, tail := tail }
      let e := if d.left = 0 then d.blockEnd else d
      let p := zstSequences e dict (out.reverse ++ h) more
      (⟨8 * k, out, e.bytes⟩ :: p.1, p.2)

/-- Decode a frame: the symbols, where it stands, the end that a refusal gives, and the bytes left. -/
def zstd (c : Zst) (dict : List Byte) (h : List Byte) (d : List Byte) : Nat → List CodecSym × Zst × Option CodecEnd × List Byte
  | 0 => ([], c, none, d)
  | fuel + 1 =>
    let next (x : Scan Byte (Zst × List Byte)) : List CodecSym × Zst × Option CodecEnd × List Byte :=
      match x with
      | .short => ([], c, none, d)
      | .bad e => ([], c, some e, d)
      | .got a r =>
        let p := zstd a.1 dict (a.2.reverse ++ h) r fuel
        (⟨8 * (d.length - r.length), a.2, a.1.bytes⟩ :: p.1, p.2)
    match c.phase with
    | 0 => next ((zstHeader dict d).then (fun z r => .got (z, []) r))
    | 1 => next (zstBlock c d)
    | 2 =>
      if d.length < c.left then ([], c, none, d)
      else match Config.zstdBlock c.tail dict (d.take c.left) with
        | none => ([], c, some .malformed, d)
        | some qs =>
          let p := zstSequences c dict h qs
          match p.2.2 with
          | some e => (p.1, p.2.1, some e, d.drop c.left)
          | none =>
            let q := zstd p.2.1 dict (((p.1.map CodecSym.out).flatten).reverse ++ h) (d.drop c.left) fuel
            (p.1 ++ q.1, q.2)
    | 3 => next ((takeN 4 d).then (fun b r =>
        if leNat b = c.xxh.value.toNat % 2 ^ 32 then .got ({ c with phase := 4 }, []) r else .bad .badChecksum))
    | _ =>
      if d = [] then ([], c, none, [])
      else if fieldAt d 0 4 = 0xFD2FB528 ∨ fieldAt d 0 4 / 16 = 0x184D2A5 then ([], c, some .excluded, d)
      else ([], c, some .malformed, d)

def zstdDecode (i : CodecIn) : List CodecSym × CodecEnd :=
  let p := zstd (Zst.ofBytes i.ctx) i.dict i.hist.reverse i.data (i.data.length + 2)
  let c := p.2.1
  (p.1, match p.2.2.1 with
    | some e => e
    | none =>
      if !i.whole then .good
      else if c.phase = 4 then (if i.last then .good else .malformed)
      else if i.last ∨ c.phase ≠ 1 ∨ p.2.2.2 ≠ [] then .cut else .good)

/-! ### Decoding, and the stored forms -/

/-- The symbols of compressed data, and how they end. -/
def codecDecode (i : CodecIn) : List CodecSym × CodecEnd :=
  match i.format with
  | 1 => inflateBits i ((bitString i.data).drop i.bit)
  | 2 => lz4Decode i
  | _ => zstdDecode i

/-- Cut a list into runs of at most `n`. -/
def runsOf {α : Type} (n : Nat) : Nat → List α → List (List α)
  | 0, _ => []
  | fuel + 1, d => if d.length ≤ n then [d] else d.take n :: runsOf n fuel (d.drop n)

/-- The stored blocks of DEFLATE from bit `pos` of a byte on. -/
def storedDeflate (final : Bool) : Nat → List (List Byte) → List Bool
  | _, [] => []
  | pos, r :: more =>
    let head := [final && more.isEmpty, false, false] ++ List.replicate ((16 - (pos + 3) % 8) % 8) false
    head ++ bitString (leBytes 2 r.length ++ leBytes 2 (0xFFFF - r.length) ++ r) ++ storedDeflate final 0 more

/-- The bytes that spell an LZ4 length above 14. -/
def lz4More (n : Nat) : List Byte := List.replicate (n / 255) 255 ++ leBytes 1 (n % 255)

/-- An LZ4 sequence of literals only. -/
def storedLz4 (d : List Byte) : List Byte :=
  if d.length < 15 then leBytes 1 (16 * d.length) ++ d else leBytes 1 0xF0 ++ lz4More (d.length - 15) ++ d

/-- The window that compression writes at a level (R321). -/
def levelWindow (level : Nat) : Nat := if level ≤ 3 then 1048576 else if level ≤ 6 then 4194304 else maxWindow

/-- The header of the frame that compression writes (R321, R337). -/
def zstFrame (level : Nat) (checksum : Bool) (dict : List Byte) : List Byte :=
  leBytes 4 0xFD2FB528 ++ leBytes 1 (4 * bit checksum + (if dict = [] then 0 else 3))
    ++ leBytes 1 (8 * (Nat.log2 (levelWindow level) - 10)) ++ (if dict = [] then [] else leBytes 4 (fieldAt dict 4 4))

/-- Raw_Blocks. -/
def rawBlocks (final : Bool) : List (List Byte) → List Byte
  | [] => []
  | r :: more => leBytes 3 (bit (final && more.isEmpty) + 8 * r.length) ++ r ++ rawBlocks final more

/-- What ends a payload that is not the last, or the stream (R323): an empty stored block of DEFLATE, or the content
checksum of Zstandard. -/
def storedClose (i : CodecIn) (final : Bool) (d : List Byte) : List Bool :=
  match i.format with
  | 1 => if final then [] else bitString (leBytes 5 (0xFFFF0000 * 256))
  | 2 => []
  | _ =>
    let z := Zst.ofBytes i.ctx
    if final ∧ (if i.first then i.checksum else z.check) then bitString (leBytes 4 ((z.xxh |> d.foldl Xxh.byte).value.toNat % 2 ^ 32)) else []

/-- The stored form of data (R326), from bit `pos` of a byte on, without its close. -/
def storedForm (i : CodecIn) (pos : Nat) (final : Bool) (d : List Byte) : List Bool :=
  match i.format with
  | 1 => storedDeflate final pos (runsOf 65535 (d.length + 1) d)
  | 2 => bitString (storedLz4 d)
  | _ => bitString ((if i.first then zstFrame i.level i.checksum i.dict else []) ++ rawBlocks final (runsOf 131072 (d.length + 1) d))

/-- Decode compressed bits of a payload that begins at bit `pos` of a byte. -/
def decodeFrom (i : CodecIn) (pos : Nat) (bs : List Bool) : List CodecSym × CodecEnd :=
  match i.format with
  | 1 => inflateBits { i with bit := pos } bs
  | _ => codecDecode { i with data := bytesOfBits bs }

/-- A payload is what R323 asks for: a valid part of the stream that gives `d` again. -/
def spells (i : CodecIn) (pos : Nat) (whole final : Bool) (bs : List Bool) (d : List Byte) : Bool :=
  let r := decodeFrom { i with whole := whole, last := final } pos bs
  r.2 = .good && (r.1.map CodecSym.out).flatten = d && (i.format = 1 || bs.length % 8 = 0)

end Sys2Proof.Machine
end

