-- ==== Sys2Proof/Machine/Operands.lean ====
section
/-! DEFINITION. The fields of an instruction word of the operator core, and which words each instruction has
(spec/09_operator_core.md R241 to R244; spec/10_scavex_vector.md R273 to R275). -/

namespace Sys2Proof.Machine

/-! ### Fields (R241, R242, R273) -/

/-- Bits [lo + len - 1 : lo] of an instruction word. -/
def wBits (w : Dword) (lo len : Nat) : Nat := bitField w.toNat lo len

def wPsel (w : Dword) : Nat := wBits w 29 3
def wPinv (w : Dword) : Bool := wBits w 28 1 = 1
def wMajor (w : Dword) : Nat := wBits w 22 6
/-- rd, vd, md, or the data register of a store: bits [21:17]. -/
def wA (w : Dword) : Nat := wBits w 17 5
/-- rs1, vs1, ms1: bits [16:12]. -/
def wB (w : Dword) : Nat := wBits w 12 5
/-- rs2, vs2, ms2: bits [11:7]. -/
def wC (w : Dword) : Nat := wBits w 7 5
def wFn (w : Dword) : Nat := wBits w 0 7
def wVm (w : Dword) : Nat := wBits w 4 3
def wEw (w : Dword) : Nat := wBits w 2 2
def wOp (w : Dword) : Nat := wBits w 0 2

/-- The `n`-bit number `v` sign-extended to 64 bits. -/
def sext (n v : Nat) : Qword := (BitVec.ofNat n v).signExtend 64

/-- imm12, sign-extended and zero-extended (R243). -/
def wImm12 (w : Dword) : Qword := sext 12 (wBits w 0 12)
def wUimm12 (w : Dword) : Qword := BitVec.ofNat 64 (wBits w 0 12)
def wImm17 (w : Dword) : Qword := sext 17 (wBits w 0 17)
def wOff22 (w : Dword) : Qword := sext 22 (wBits w 0 22)
def wShamt (w : Dword) : Nat := wBits w 0 6

/-- The width in bytes of an EW code (R270). -/
def ewBytes (ew : Nat) : Nat := 2 ^ ew

/-- MAXEL of a width in bytes (R270). -/
def maxEl (width : Nat) : Nat := 512 / width

/-! ### Which words an instruction has -/

/-- The words of an instruction: masks and values of bits [27:0], and what else the word must meet. -/
structure Enc where
  pats : List (Nat × Nat)
  ok : Dword → Bool

def always (_ : Dword) : Bool := true
/-- RDCNT: selectors 0 to 2. -/
def selOk (w : Dword) : Bool := wB w ≤ 2
/-- CMP and CMPI: condition 7 is reserved. -/
def condOk (w : Dword) : Bool := wBits w 0 3 ≠ 7
def condiOk (w : Dword) : Bool := wBits w 19 3 ≠ 7
/-- Atomics: 32-bit or 64-bit. -/
def sizeOk (w : Dword) : Bool := wBits w 0 3 = 2 || wBits w 0 3 = 3
/-- Floating point and VCRC32C: EW 0b10 or 0b11. -/
def ewFloat (w : Dword) : Bool := 2 ≤ wEw w
def ewNot0 (w : Dword) : Bool := wEw w ≠ 0
def ew3 (w : Dword) : Bool := wEw w = 3
/-- A gather names different registers in A and C. -/
def gatherOk (w : Dword) : Bool := wA w ≠ wC w
/-- The registers of a structure load lie in v0 to v31. -/
def segOk (w : Dword) : Bool := wA w + wOp w + 1 ≤ 31

/-- A word is one of an instruction's. -/
def Enc.has (e : Enc) (w : Dword) : Bool := e.pats.any (fun p => w.toNat &&& p.1 = p.2) && e.ok w

/-- NOP -/
def encNop : Enc := ⟨[(0xFFFFFFF, 0x0000000)], always⟩
/-- END -/
def encEnd : Enc := ⟨[(0xFFFFFFF, 0x0000001)], always⟩
/-- TRAP -/
def encTrap : Enc := ⟨[(0xFFE007F, 0x0000002)], always⟩
/-- FENCE -/
def encFence : Enc := ⟨[(0xFFFFFFF, 0x0000003)], always⟩
/-- RDCNT -/
def encRdcnt : Enc := ⟨[(0xFC00FFF, 0x0000004)], selOk⟩
/-- ADD -/
def encAdd : Enc := ⟨[(0xFC0007F, 0x0400000)], always⟩
/-- SUB -/
def encSub : Enc := ⟨[(0xFC0007F, 0x0400001)], always⟩
/-- AND -/
def encAnd : Enc := ⟨[(0xFC0007F, 0x0400002)], always⟩
/-- OR -/
def encOr : Enc := ⟨[(0xFC0007F, 0x0400003)], always⟩
/-- XOR -/
def encXor : Enc := ⟨[(0xFC0007F, 0x0400004)], always⟩
/-- ANDN -/
def encAndn : Enc := ⟨[(0xFC0007F, 0x0400005)], always⟩
/-- ORN -/
def encOrn : Enc := ⟨[(0xFC0007F, 0x0400006)], always⟩
/-- XNOR -/
def encXnor : Enc := ⟨[(0xFC0007F, 0x0400007)], always⟩
/-- SLL -/
def encSll : Enc := ⟨[(0xFC0007F, 0x0400008)], always⟩
/-- SRL -/
def encSrl : Enc := ⟨[(0xFC0007F, 0x0400009)], always⟩
/-- SRA -/
def encSra : Enc := ⟨[(0xFC0007F, 0x040000A)], always⟩
/-- ROL -/
def encRol : Enc := ⟨[(0xFC0007F, 0x040000B)], always⟩
/-- ROR -/
def encRor : Enc := ⟨[(0xFC0007F, 0x040000C)], always⟩
/-- MIN -/
def encMin : Enc := ⟨[(0xFC0007F, 0x0400010)], always⟩
/-- MAX -/
def encMax : Enc := ⟨[(0xFC0007F, 0x0400011)], always⟩
/-- MINU -/
def encMinu : Enc := ⟨[(0xFC0007F, 0x0400012)], always⟩
/-- MAXU -/
def encMaxu : Enc := ⟨[(0xFC0007F, 0x0400013)], always⟩
/-- CLZ -/
def encClz : Enc := ⟨[(0xFC00FFF, 0x0400018)], always⟩
/-- CTZ -/
def encCtz : Enc := ⟨[(0xFC00FFF, 0x0400019)], always⟩
/-- POPC -/
def encPopc : Enc := ⟨[(0xFC00FFF, 0x040001A)], always⟩
/-- BSWAP -/
def encBswap : Enc := ⟨[(0xFC00FFF, 0x040001B)], always⟩
/-- SEXTB -/
def encSextb : Enc := ⟨[(0xFC00FFF, 0x0400020)], always⟩
/-- SEXTH -/
def encSexth : Enc := ⟨[(0xFC00FFF, 0x0400021)], always⟩
/-- SEXTW -/
def encSextw : Enc := ⟨[(0xFC00FFF, 0x0400022)], always⟩
/-- ZEXTB -/
def encZextb : Enc := ⟨[(0xFC00FFF, 0x0400023)], always⟩
/-- ZEXTH -/
def encZexth : Enc := ⟨[(0xFC00FFF, 0x0400024)], always⟩
/-- ZEXTW -/
def encZextw : Enc := ⟨[(0xFC00FFF, 0x0400025)], always⟩
/-- ADDW -/
def encAddw : Enc := ⟨[(0xFC0007F, 0x0400028)], always⟩
/-- SUBW -/
def encSubw : Enc := ⟨[(0xFC0007F, 0x0400029)], always⟩
/-- SLLW -/
def encSllw : Enc := ⟨[(0xFC0007F, 0x040002A)], always⟩
/-- SRLW -/
def encSrlw : Enc := ⟨[(0xFC0007F, 0x040002B)], always⟩
/-- CRC32CB -/
def encCrc32cb : Enc := ⟨[(0xFC0007F, 0x0400030)], always⟩
/-- CRC32CH -/
def encCrc32ch : Enc := ⟨[(0xFC0007F, 0x0400031)], always⟩
/-- CRC32CW -/
def encCrc32cw : Enc := ⟨[(0xFC0007F, 0x0400032)], always⟩
/-- CRC32CD -/
def encCrc32cd : Enc := ⟨[(0xFC0007F, 0x0400033)], always⟩
/-- MUL -/
def encMul : Enc := ⟨[(0xFC0007F, 0x0800000)], always⟩
/-- MULH -/
def encMulh : Enc := ⟨[(0xFC0007F, 0x0800001)], always⟩
/-- MULHU -/
def encMulhu : Enc := ⟨[(0xFC0007F, 0x0800002)], always⟩
/-- MULHSU -/
def encMulhsu : Enc := ⟨[(0xFC0007F, 0x0800003)], always⟩
/-- MULW -/
def encMulw : Enc := ⟨[(0xFC0007F, 0x0800004)], always⟩
/-- DIV -/
def encDiv : Enc := ⟨[(0xFC0007F, 0x0800008)], always⟩
/-- DIVU -/
def encDivu : Enc := ⟨[(0xFC0007F, 0x0800009)], always⟩
/-- REM -/
def encRem : Enc := ⟨[(0xFC0007F, 0x080000A)], always⟩
/-- REMU -/
def encRemu : Enc := ⟨[(0xFC0007F, 0x080000B)], always⟩
/-- DIVW -/
def encDivw : Enc := ⟨[(0xFC0007F, 0x080000C)], always⟩
/-- DIVUW -/
def encDivuw : Enc := ⟨[(0xFC0007F, 0x080000D)], always⟩
/-- REMW -/
def encRemw : Enc := ⟨[(0xFC0007F, 0x080000E)], always⟩
/-- REMUW -/
def encRemuw : Enc := ⟨[(0xFC0007F, 0x080000F)], always⟩
/-- CMP -/
def encCmp : Enc := ⟨[(0xFF00078, 0x0C00000)], condOk⟩
/-- CMPI -/
def encCmpi : Enc := ⟨[(0xFC00000, 0x1000000)], condiOk⟩
/-- PAND -/
def encPand : Enc := ⟨[(0xFF007FF, 0x1400000)], always⟩
/-- POR -/
def encPor : Enc := ⟨[(0xFF007FF, 0x1400001)], always⟩
/-- PXOR -/
def encPxor : Enc := ⟨[(0xFF007FF, 0x1400002)], always⟩
/-- PANDN -/
def encPandn : Enc := ⟨[(0xFF007FF, 0x1400003)], always⟩
/-- PTOX -/
def encPtox : Enc := ⟨[(0xFC1FFFF, 0x1400010)], always⟩
/-- XTOP -/
def encXtop : Enc := ⟨[(0xFFE0FFF, 0x1400011)], always⟩
/-- ADDI -/
def encAddi : Enc := ⟨[(0xFC00000, 0x1800000)], always⟩
/-- ANDI -/
def encAndi : Enc := ⟨[(0xFC00000, 0x1C00000)], always⟩
/-- ORI -/
def encOri : Enc := ⟨[(0xFC00000, 0x2000000)], always⟩
/-- XORI -/
def encXori : Enc := ⟨[(0xFC00000, 0x2400000)], always⟩
/-- SLLI -/
def encSlli : Enc := ⟨[(0xFC00FC0, 0x2800000)], always⟩
/-- SRLI -/
def encSrli : Enc := ⟨[(0xFC00FC0, 0x2800040)], always⟩
/-- SRAI -/
def encSrai : Enc := ⟨[(0xFC00FC0, 0x2800080)], always⟩
/-- ROLI -/
def encRoli : Enc := ⟨[(0xFC00FC0, 0x28000C0)], always⟩
/-- RORI -/
def encRori : Enc := ⟨[(0xFC00FC0, 0x2800100)], always⟩
/-- LUI -/
def encLui : Enc := ⟨[(0xFC00000, 0x2C00000)], always⟩
/-- ADDPC -/
def encAddpc : Enc := ⟨[(0xFC00000, 0x3000000)], always⟩
/-- BR -/
def encBr : Enc := ⟨[(0xFC00000, 0x3400000)], always⟩
/-- CALL -/
def encCall : Enc := ⟨[(0xFC00000, 0x3800000)], always⟩
/-- JR -/
def encJr : Enc := ⟨[(0xFC00000, 0x3C00000)], always⟩
/-- LB -/
def encLb : Enc := ⟨[(0xFC00000, 0x4000000)], always⟩
/-- LH -/
def encLh : Enc := ⟨[(0xFC00000, 0x4400000)], always⟩
/-- LW -/
def encLw : Enc := ⟨[(0xFC00000, 0x4800000)], always⟩
/-- LD -/
def encLd : Enc := ⟨[(0xFC00000, 0x4C00000)], always⟩
/-- LBU -/
def encLbu : Enc := ⟨[(0xFC00000, 0x5000000)], always⟩
/-- LHU -/
def encLhu : Enc := ⟨[(0xFC00000, 0x5400000)], always⟩
/-- LWU -/
def encLwu : Enc := ⟨[(0xFC00000, 0x5800000)], always⟩
/-- PREFETCH -/
def encPrefetch : Enc := ⟨[(0xFFE0000, 0x5C00000)], always⟩
/-- SB -/
def encSb : Enc := ⟨[(0xFC00000, 0x6000000)], always⟩
/-- SH -/
def encSh : Enc := ⟨[(0xFC00000, 0x6400000)], always⟩
/-- SW -/
def encSw : Enc := ⟨[(0xFC00000, 0x6800000)], always⟩
/-- SD -/
def encSd : Enc := ⟨[(0xFC00000, 0x6C00000)], always⟩
/-- ATOMIC_ADD -/
def encAtomicAdd : Enc := ⟨[(0xFC00078, 0x7000000)], sizeOk⟩
/-- ATOMIC_AND -/
def encAtomicAnd : Enc := ⟨[(0xFC00078, 0x7000008)], sizeOk⟩
/-- ATOMIC_OR -/
def encAtomicOr : Enc := ⟨[(0xFC00078, 0x7000010)], sizeOk⟩
/-- ATOMIC_XOR -/
def encAtomicXor : Enc := ⟨[(0xFC00078, 0x7000018)], sizeOk⟩
/-- ATOMIC_MIN -/
def encAtomicMin : Enc := ⟨[(0xFC00078, 0x7000020)], sizeOk⟩
/-- ATOMIC_MAX -/
def encAtomicMax : Enc := ⟨[(0xFC00078, 0x7000028)], sizeOk⟩
/-- ATOMIC_MINU -/
def encAtomicMinu : Enc := ⟨[(0xFC00078, 0x7000030)], sizeOk⟩
/-- ATOMIC_MAXU -/
def encAtomicMaxu : Enc := ⟨[(0xFC00078, 0x7000038)], sizeOk⟩
/-- ATOMIC_SWAP -/
def encAtomicSwap : Enc := ⟨[(0xFC00078, 0x7000040)], sizeOk⟩
/-- ATOMIC_CAS -/
def encAtomicCas : Enc := ⟨[(0xFC00078, 0x7000048)], sizeOk⟩
/-- MAINTENANCE_OP -/
def encMaintenanceOp : Enc := ⟨[(0xFC00000, 0x7400000)], always⟩
/-- VSETVL -/
def encVsetvl : Enc := ⟨[(0xFC00FF3, 0x8000000)], always⟩
/-- VRDVL -/
def encVrdvl : Enc := ⟨[(0xFC1FFFF, 0x8000001)], always⟩
/-- VRDRS -/
def encVrdrs : Enc := ⟨[(0xFC1FFFF, 0x8000002)], always⟩
/-- VWRRS -/
def encVwrrs : Enc := ⟨[(0xFFE0FFF, 0x8000003)], always⟩
/-- MAND -/
def encMand : Enc := ⟨[(0xFF18C7F, 0x8400000)], always⟩
/-- MOR -/
def encMor : Enc := ⟨[(0xFF18C7F, 0x8400001)], always⟩
/-- MXOR -/
def encMxor : Enc := ⟨[(0xFF18C7F, 0x8400002)], always⟩
/-- MANDN -/
def encMandn : Enc := ⟨[(0xFF18C7F, 0x8400003)], always⟩
/-- MPOPC -/
def encMpopc : Enc := ⟨[(0xFC18F83, 0x8800000)], always⟩
/-- MFIRST -/
def encMfirst : Enc := ⟨[(0xFC18F83, 0x8800001)], always⟩
/-- MSETLT -/
def encMsetlt : Enc := ⟨[(0xFF00F83, 0x8800002)], always⟩
/-- MMOV -/
def encMmov : Enc := ⟨[(0xFF18F83, 0x8800003)], always⟩
/-- VMV -/
def encVmv : Enc := ⟨[(0xFC00F83, 0x8C00000)], always⟩
/-- VBCAST -/
def encVbcast : Enc := ⟨[(0xFC00F83, 0x8C00001)], always⟩
/-- VEXTRACT -/
def encVextract : Enc := ⟨[(0xFC00003, 0x8C00002)], always⟩
/-- VINSERT -/
def encVinsert : Enc := ⟨[(0xFC00003, 0x8C00003)], always⟩
/-- VADD -/
def encVadd : Enc := ⟨[(0xFC00003, 0x9000000), (0xFC00003, 0x9400000)], always⟩
/-- VSUB -/
def encVsub : Enc := ⟨[(0xFC00003, 0x9000001), (0xFC00003, 0x9400001)], always⟩
/-- VMIN -/
def encVmin : Enc := ⟨[(0xFC00003, 0x9000002), (0xFC00003, 0x9400002)], always⟩
/-- VMAX -/
def encVmax : Enc := ⟨[(0xFC00003, 0x9000003), (0xFC00003, 0x9400003)], always⟩
/-- VMINU -/
def encVminu : Enc := ⟨[(0xFC00003, 0x9800000)], always⟩
/-- VMAXU -/
def encVmaxu : Enc := ⟨[(0xFC00003, 0x9800001)], always⟩
/-- VSADDU -/
def encVsaddu : Enc := ⟨[(0xFC00003, 0x9800002)], always⟩
/-- VSSUBU -/
def encVssubu : Enc := ⟨[(0xFC00003, 0x9800003)], always⟩
/-- VAND -/
def encVand : Enc := ⟨[(0xFC00003, 0x9C00000), (0xFC00003, 0xA000000)], always⟩
/-- VOR -/
def encVor : Enc := ⟨[(0xFC00003, 0x9C00001), (0xFC00003, 0xA000001)], always⟩
/-- VXOR -/
def encVxor : Enc := ⟨[(0xFC00003, 0x9C00002), (0xFC00003, 0xA000002)], always⟩
/-- VANDN -/
def encVandn : Enc := ⟨[(0xFC00003, 0x9C00003), (0xFC00003, 0xA000003)], always⟩
/-- VSLL -/
def encVsll : Enc := ⟨[(0xFC00003, 0xA400000), (0xFC00003, 0xA800000)], always⟩
/-- VSRL -/
def encVsrl : Enc := ⟨[(0xFC00003, 0xA400001), (0xFC00003, 0xA800001)], always⟩
/-- VSRA -/
def encVsra : Enc := ⟨[(0xFC00003, 0xA400002), (0xFC00003, 0xA800002)], always⟩
/-- VROR -/
def encVror : Enc := ⟨[(0xFC00003, 0xA400003), (0xFC00003, 0xA800003)], always⟩
/-- VMUL -/
def encVmul : Enc := ⟨[(0xFC00003, 0xAC00000)], always⟩
/-- VMULH -/
def encVmulh : Enc := ⟨[(0xFC00003, 0xAC00001)], always⟩
/-- VMULHU -/
def encVmulhu : Enc := ⟨[(0xFC00003, 0xAC00002)], always⟩
/-- VMADD -/
def encVmadd : Enc := ⟨[(0xFC00003, 0xAC00003)], always⟩
/-- VCMP -/
def encVcmp : Enc := ⟨[(0xFF00003, 0xB000000), (0xFF00003, 0xB000001), (0xFF00003, 0xB000002), (0xFF00003, 0xB000003)], always⟩
/-- VCMPX -/
def encVcmpx : Enc := ⟨[(0xFF00003, 0xB400000), (0xFF00003, 0xB400001), (0xFF00003, 0xB400002), (0xFF00003, 0xB400003), (0xFF00003, 0xB800000), (0xFF00003, 0xB800001), (0xFF00003, 0xB800002), (0xFF00003, 0xB800003)], always⟩
/-- VZEXT -/
def encVzext : Enc := ⟨[(0xFC00F83, 0xBC00000)], ewNot0⟩
/-- VSEXT -/
def encVsext : Enc := ⟨[(0xFC00F83, 0xBC00001)], ewNot0⟩
/-- VTRUNC -/
def encVtrunc : Enc := ⟨[(0xFC00F83, 0xBC00002)], ewNot0⟩
/-- VSATNU -/
def encVsatnu : Enc := ⟨[(0xFC00F83, 0xBC00003)], ewNot0⟩
/-- VMERGE -/
def encVmerge : Enc := ⟨[(0xFC00003, 0xC000000)], always⟩
/-- VCOMPRESS -/
def encVcompress : Enc := ⟨[(0xFC00F83, 0xC000001)], always⟩
/-- VSLIDEDN -/
def encVslidedn : Enc := ⟨[(0xFC00003, 0xC000002)], always⟩
/-- VSLIDEUP -/
def encVslideup : Enc := ⟨[(0xFC00003, 0xC000003)], always⟩
/-- VREDSUM -/
def encVredsum : Enc := ⟨[(0xFC00F83, 0xC400000)], always⟩
/-- VREDMIN -/
def encVredmin : Enc := ⟨[(0xFC00F83, 0xC400001)], always⟩
/-- VREDMAX -/
def encVredmax : Enc := ⟨[(0xFC00F83, 0xC400002)], always⟩
/-- VREDMINU -/
def encVredminu : Enc := ⟨[(0xFC00F83, 0xC400003)], always⟩
/-- VREDMAXU -/
def encVredmaxu : Enc := ⟨[(0xFC00F83, 0xC800000)], always⟩
/-- VREDAND -/
def encVredand : Enc := ⟨[(0xFC00F83, 0xC800001)], always⟩
/-- VREDOR -/
def encVredor : Enc := ⟨[(0xFC00F83, 0xC800002)], always⟩
/-- VREDXOR -/
def encVredxor : Enc := ⟨[(0xFC00F83, 0xC800003)], always⟩
/-- VFADD -/
def encVfadd : Enc := ⟨[(0xFC00003, 0xCC00000)], ewFloat⟩
/-- VFSUB -/
def encVfsub : Enc := ⟨[(0xFC00003, 0xCC00001)], ewFloat⟩
/-- VFMUL -/
def encVfmul : Enc := ⟨[(0xFC00003, 0xCC00002)], ewFloat⟩
/-- VFMADD -/
def encVfmadd : Enc := ⟨[(0xFC00003, 0xCC00003)], ewFloat⟩
/-- VFMIN -/
def encVfmin : Enc := ⟨[(0xFC00003, 0xD000000)], ewFloat⟩
/-- VFMAX -/
def encVfmax : Enc := ⟨[(0xFC00003, 0xD000001)], ewFloat⟩
/-- VFREDSUM -/
def encVfredsum : Enc := ⟨[(0xFC00F83, 0xD000002)], ewFloat⟩
/-- VFREDMAX -/
def encVfredmax : Enc := ⟨[(0xFC00F83, 0xD000003)], ewFloat⟩
/-- VFCVT_F_I -/
def encVfcvtFI : Enc := ⟨[(0xFC00F83, 0xD400000)], ewFloat⟩
/-- VFCVT_I_F -/
def encVfcvtIF : Enc := ⟨[(0xFC00F83, 0xD400001)], ewFloat⟩
/-- VFWIDEN -/
def encVfwiden : Enc := ⟨[(0xFC00F83, 0xD400002)], ew3⟩
/-- VFNARROW -/
def encVfnarrow : Enc := ⟨[(0xFC00F83, 0xD400003)], ew3⟩
/-- VFCMP -/
def encVfcmp : Enc := ⟨[(0xFF00003, 0xF000000), (0xFF00003, 0xF000001), (0xFF00003, 0xF000002), (0xFF00003, 0xF000003)], ewFloat⟩
/-- VCRC32C -/
def encVcrc32c : Enc := ⟨[(0xFC00003, 0xD800000)], ewFloat⟩
/-- VPOPC -/
def encVpopc : Enc := ⟨[(0xFC00F83, 0xD800001)], always⟩
/-- VCLZ -/
def encVclz : Enc := ⟨[(0xFC00F83, 0xD800002)], always⟩
/-- VCTZ -/
def encVctz : Enc := ⟨[(0xFC00F83, 0xD800003)], always⟩
/-- VID -/
def encVid : Enc := ⟨[(0xFC1FF83, 0xDC00000)], always⟩
/-- VIOTA -/
def encViota : Enc := ⟨[(0xFC18F83, 0xDC00001)], always⟩
/-- VLD -/
def encVld : Enc := ⟨[(0xFC00F83, 0xE000000)], always⟩
/-- VLDS -/
def encVlds : Enc := ⟨[(0xFC00003, 0xE000001)], always⟩
/-- VLDX -/
def encVldx : Enc := ⟨[(0xFC00003, 0xE000002)], gatherOk⟩
/-- VLDXFF -/
def encVldxff : Enc := ⟨[(0xFC00003, 0xE000003)], gatherOk⟩
/-- VST -/
def encVst : Enc := ⟨[(0xFC00F83, 0xE400000)], always⟩
/-- VSTS -/
def encVsts : Enc := ⟨[(0xFC00003, 0xE400001)], always⟩
/-- VSTX -/
def encVstx : Enc := ⟨[(0xFC00003, 0xE400002)], always⟩
/-- VLDFF -/
def encVldff : Enc := ⟨[(0xFC00F83, 0xE800000)], always⟩
/-- VLDSFF -/
def encVldsff : Enc := ⟨[(0xFC00003, 0xE800001)], always⟩
/-- VLDMASK -/
def encVldmask : Enc := ⟨[(0xFF00F83, 0xE800002)], always⟩
/-- VSTMASK -/
def encVstmask : Enc := ⟨[(0xFF00F83, 0xE800003)], always⟩
/-- VLSEG2 -/
def encVlseg2 : Enc := ⟨[(0xFC00F83, 0xEC00000)], segOk⟩
/-- VLSEG3 -/
def encVlseg3 : Enc := ⟨[(0xFC00F83, 0xEC00001)], segOk⟩
/-- VLSEG4 -/
def encVlseg4 : Enc := ⟨[(0xFC00F83, 0xEC00002)], segOk⟩
def encodings0 : List Enc :=
  [encNop, encEnd, encTrap, encFence, encRdcnt, encAdd,
   encSub, encAnd, encOr, encXor, encAndn, encOrn,
   encXnor, encSll, encSrl, encSra, encRol, encRor,
   encMin, encMax, encMinu, encMaxu, encClz, encCtz]
def encodings1 : List Enc :=
  [encPopc, encBswap, encSextb, encSexth, encSextw, encZextb,
   encZexth, encZextw, encAddw, encSubw, encSllw, encSrlw,
   encCrc32cb, encCrc32ch, encCrc32cw, encCrc32cd, encMul, encMulh,
   encMulhu, encMulhsu, encMulw, encDiv, encDivu, encRem]
def encodings2 : List Enc :=
  [encRemu, encDivw, encDivuw, encRemw, encRemuw, encCmp,
   encCmpi, encPand, encPor, encPxor, encPandn, encPtox,
   encXtop, encAddi, encAndi, encOri, encXori, encSlli,
   encSrli, encSrai, encRoli, encRori, encLui, encAddpc]
def encodings3 : List Enc :=
  [encBr, encCall, encJr, encLb, encLh, encLw,
   encLd, encLbu, encLhu, encLwu, encPrefetch, encSb,
   encSh, encSw, encSd, encAtomicAdd, encAtomicAnd, encAtomicOr,
   encAtomicXor, encAtomicMin, encAtomicMax, encAtomicMinu, encAtomicMaxu, encAtomicSwap]
def encodings4 : List Enc :=
  [encAtomicCas, encMaintenanceOp, encVsetvl, encVrdvl, encVrdrs, encVwrrs,
   encMand, encMor, encMxor, encMandn, encMpopc, encMfirst,
   encMsetlt, encMmov, encVmv, encVbcast, encVextract, encVinsert,
   encVadd, encVsub, encVmin, encVmax, encVminu, encVmaxu]
def encodings5 : List Enc :=
  [encVsaddu, encVssubu, encVand, encVor, encVxor, encVandn,
   encVsll, encVsrl, encVsra, encVror, encVmul, encVmulh,
   encVmulhu, encVmadd, encVcmp, encVcmpx, encVzext, encVsext,
   encVtrunc, encVsatnu, encVmerge, encVcompress, encVslidedn, encVslideup]
def encodings6 : List Enc :=
  [encVredsum, encVredmin, encVredmax, encVredminu, encVredmaxu, encVredand,
   encVredor, encVredxor, encVfadd, encVfsub, encVfmul, encVfmadd,
   encVfmin, encVfmax, encVfredsum, encVfredmax, encVfcvtFI, encVfcvtIF,
   encVfwiden, encVfnarrow, encVfcmp, encVcrc32c, encVpopc, encVclz]
def encodings7 : List Enc :=
  [encVctz, encVid, encViota, encVld, encVlds, encVldx,
   encVldxff, encVst, encVsts, encVstx, encVldff, encVldsff,
   encVldmask, encVstmask, encVlseg2, encVlseg3, encVlseg4]
/-- Every instruction of the operator core. -/
def encodings : List Enc := encodings0 ++ encodings1 ++ encodings2 ++ encodings3 ++ encodings4 ++ encodings5 ++ encodings6 ++ encodings7

/-- A word that some instruction has: any other raises ILLEGAL, whatever its predicate (R241, R246). -/
def legal (w : Dword) : Bool := !(wPsel w = 0 && wPinv w) && encodings.any (fun e => e.has w)

end Sys2Proof.Machine
end

