-- ==== Sys2Proof/Machine/Flags.lean ====
section
/-! DEFINITION. Predicates and compare conditions (spec/09_operator_core.md R238, R241, R243, R244). The operator core
has no other flags. -/

namespace Sys2Proof.Machine

/-- Predicate `i` of a predicate word; p0 reads 1 (R238). -/
def predBit (p i : Nat) : Bool := i = 0 || p.testBit i

/-- Write predicate `i`; a write to p0 is discarded. -/
def setPred (p i : Nat) (b : Bool) : Nat :=
  if i = 0 then p else if b then withBit p i else withoutBit p i

/-- The predicate test of a word (R241). -/
def predTest (p : Nat) (w : Dword) : Bool := predBit p (wPsel w) != wPinv w

/-- A compare condition of R243 on two values. -/
def compare (cond : Nat) (a b : Qword) : Bool :=
  match cond with
  | 0 => a = b
  | 1 => a ≠ b
  | 2 => a.slt b
  | 3 => !a.slt b
  | 4 => a.ult b
  | 5 => !a.ult b
  | _ => (a &&& b) ≠ 0

/-- The immediate operand of CMPI: zero-extended for LTU, GEU and TST (R243). -/
def cmpImm (w : Dword) : Qword :=
  if 4 ≤ wBits w 19 3 then BitVec.ofNat 64 (wBits w 0 11) else sext 11 (wBits w 0 11)

/-- A predicate operation of R244: 0 AND, 1 OR, 2 XOR, 3 AND NOT. -/
def predOp (fn : Nat) (a b : Bool) : Bool :=
  match fn with
  | 0 => a && b
  | 1 => a || b
  | 2 => a != b
  | _ => a && !b

end Sys2Proof.Machine
end

