-- ==== Sys2Proof/Machine/Sched.lean ====
section
/-! DEFINITION. The run-time of graphs: edges and buffers, flows and their lineage counts, the end of tasks, making and
forwarding, and ordered release (spec/07_pipeline_graphs.md R177 to R186, R488; spec/08_bosun_scheduler.md R197 to
R205, R226 to R232). -/

namespace Sys2Proof.Machine

/-! ### Runs -/

def State.run (s : State) (r : Nat) : Option Run := find s.bsn.runs r
def State.setRun (s : State) (r : Nat) (x : Run) : State := { s with bsn := { s.bsn with runs := put s.bsn.runs r x } }
def State.onRun (s : State) (r : Nat) (f : Run → Run) : State :=
  match s.run r with
  | none => s
  | some x => s.setRun r (f x)

/-- A RUN with STOP_ON_FAULT whose first task has ended other than with SUCCESS: it is cancelled (R225), which RUN_END
carries out; until then nothing of it is started. -/
def Run.stopping (x : Run) : Bool := x.stopOnFault && x.first.isSome

/-- The graph of a run. -/
def State.graphOf (s : State) (x : Run) : Graph :=
  (s.graph x.fn x.graph).getD ⟨0, 0, [], [], [], 0, 0, 0, 0, 0⟩

/-- A node's parameter record with its fields bound (R172). -/
def Run.record (x : Run) (n : Node) : List Byte := nodeRec x.params n

def State.task (s : State) (t : Nat) : Option Task := find s.bsn.tasks t
def State.setTask (s : State) (t : Nat) (x : Task) : State :=
  { s with bsn := { s.bsn with tasks := put s.bsn.tasks t x } }
def State.delTask (s : State) (t : Nat) : State := { s with bsn := { s.bsn with tasks := del s.bsn.tasks t } }

/-- Tasks of a run. -/
def State.tasksOf (s : State) (r : Nat) : List (Nat × Task) := s.bsn.tasks.filter (fun kt => kt.2.run = r)

/-! ### Distance to a SINK (R26) -/

/-- One round of relaxation: a node's distance is one more than its nearest successor's. -/
def relax (g : Graph) (d : List Nat) : List Nat :=
  (List.range g.nodes.length).map (fun i =>
    if (g.node i).kind = 9 then 0
    else (g.outAll i).foldl (fun m e => min m (d.getD (g.edge e).dst 100000 + 1)) 100000)

/-- Distances of all nodes to their nearest SINK. -/
def distances (g : Graph) : List Nat :=
  (List.range g.nodes.length).foldl (fun d _ => relax g d) ((List.range g.nodes.length).map (fun _ => 100000))

def Graph.dist (g : Graph) (n : Nat) : Nat := (distances g).getD n 100000

/-! ### Edges and buffers (R26, R177, R179) -/

/-- Tokens that wait on an edge. -/
def Run.waiting (x : Run) (e : Nat) : List Token := getD [] x.queues e

/-- The key of the entry that a source has read and that waits for its task. -/
def sourceKey (n : Nat) : Nat := 1000 + n

/-- An edge has room for a token. -/
def Run.room (g : Graph) (x : Run) (e : Nat) : Bool := decide ((x.waiting e).length < (g.edge e).depth)

/-- Data edges that leave a node. -/
def Graph.outData (g : Graph) (n : Nat) : List Nat := g.edgesWith (fun e => e.src = n && !e.depend)

/-- Every outgoing token queue of a node has room (R204, R207). -/
def Run.nodeRoom (g : Graph) (x : Run) (n : Nat) : Bool := (g.outData n).all (fun e => x.room g e)

/-- A buffer is in use: a task holds it, a token refers to it, or drives still write into it (R179, R492). -/
def State.bufUsed (s : State) (r : Nat) (x : Run) (b : Nat) : Bool :=
  (s.tasksOf r).any (fun kt => kt.2.bufs.any (fun p => p.2 = b) || kt.2.token.any (fun t => t.bufs.contains b)
      || kt.2.outs.any (fun o => o.2.bufs.contains b))
    || x.queues.any (fun kq => kq.2.any (fun t => t.bufs.contains b))
    || s.bsn.flows.any (fun kf => kf.2.run = r && kf.2.outs.any (fun so => so.2.any (fun o => o.2.2.bufs.contains b)))
    || (find x.bufs b).isSome

/-- A free buffer of an edge. -/
def State.freeBuf (s : State) (r : Nat) (x : Run) (g : Graph) (e : Nat) : Option Nat :=
  ((List.range (g.edge e).buffers).find? (fun k => !s.bufUsed r x (e * 256 + k))).map (fun k => e * 256 + k)

/-- The address of a buffer. -/
def Run.bufAddr (g : Graph) (x : Run) (b : Nat) : Nat := x.arena + g.bufOff (b / 256) (b % 256)

/-- Outgoing edges of a node that carry buffers, in the order of their ports. -/
def Graph.bufEdges (g : Graph) (n : Nat) : List Nat :=
  ((List.range 8).map (fun p => (g.outEdges n p).filter (fun e => (g.edge e).slotBytes ≠ 0))).flatten

/-- A free buffer exists on every outgoing edge that needs one (R177). -/
def State.bufsFree (s : State) (r : Nat) (x : Run) (g : Graph) (n : Nat) : Bool :=
  (g.bufEdges n).all (fun e => (s.freeBuf r x g e).isSome)

/-- The buffers that a task of the node takes: port and buffer. -/
def State.takeBufs (s : State) (r : Nat) (x : Run) (g : Graph) (n : Nat) : List (Nat × Nat) :=
  (g.bufEdges n).filterMap (fun e => (s.freeBuf r x g e).map (fun b => ((g.edge e).srcPort, b)))

/-! ### Flows (R226, R227) -/

/-- The flow whose destination D is the node. -/
def Run.flowOfD (g : Graph) (x : Run) (n : Nat) : Option (Nat × Nat) := x.flows.find? (fun ef => (g.edge ef.1).dst = n)

/-- The flows whose path contains the node: edge and flow. -/
def Run.flowsOn (g : Graph) (x : Run) (n : Nat) : List (Nat × Nat) :=
  x.flows.filter (fun ef => ((g.chain (g.edge ef.1).dst (g.nodes.length + 1)).getD []).contains n)

def State.flow (s : State) (f : Nat) : Option Flow := find s.bsn.flows f
def State.setFlow (s : State) (f : Nat) (x : Flow) : State :=
  { s with bsn := { s.bsn with flows := put s.bsn.flows f x } }

/-- A SEQ lies in the window [HEAD, HEAD + 64) of a flow, modulo 2^32 (R226, R488). -/
def inWindow (head seq : Nat) : Bool := (seq + 2 ^ 32 - head) % 2 ^ 32 < 64

/-- A SEQ lies within the window of every flow whose path contains the node (R203). -/
def State.windowOk (s : State) (g : Graph) (x : Run) (n seq : Nat) : Bool :=
  (x.flowsOn g n).all (fun ef => (s.flow ef.2).all (fun f => inWindow f.head seq))

/-- Change a flow's lineage count for a SEQ: `up` rises, `down` falls (R227). -/
def State.lineage (s : State) (f seq up down : Nat) : State :=
  match s.flow f with
  | none => s
  | some x => s.setFlow f { x with counts := put x.counts seq ((find x.counts seq).getD 0 + up - down) }

/-- The edge by which a node of a flow's path leads toward D. -/
def Graph.towardD (g : Graph) (d n : Nat) : Option Nat :=
  let c := (g.chain d (g.nodes.length + 1)).getD []
  (g.outData n).find? (fun e => c.contains (g.edge e).dst)

/-- Lineage after a task of the node with SEQ `seq` ends, or a token is forwarded through it, with outputs on the
ports listed (R227). -/
def State.lineageEnd (s : State) (g : Graph) (x : Run) (n seq : Nat) (ports : List Nat) : State :=
  (x.flowsOn g n).foldl (fun s ef =>
    let d := (g.edge ef.1).dst
    if d = n then s.lineage ef.2 seq 0 1
    else
      let k := match g.towardD d n with
        | some e => (ports.filter (fun p => p = (g.edge e).srcPort)).length
        | none => 0
      s.lineage ef.2 seq k 1) s

/-! ### Placing tokens -/

/-- Put a token on an edge; the highest SEQ that reached the consumer is kept for R488, and a SKIPPED token that reaches a
SINK is counted (R195). -/
def State.putToken (s : State) (r e : Nat) (t : Token) : State :=
  match s.run r with
  | none => s
  | some x =>
    let g := s.graphOf x
    let d := (g.edge e).dst
    let t' := { t with stamp := s.bsn.nextMade }
    let h := max (getD 0 x.highSeq d) (t.seq + 1)
    let u := s.setRun r { x with
      queues := put x.queues e (x.waiting e ++ [t']), highSeq := put x.highSeq d h,
      skips := x.skips + bit (t.skipped && (g.node d).kind = 9) }
    { u with bsn := { u.bsn with nextMade := u.bsn.nextMade + 1 } }

/-- Copy a token onto every edge of a node's port (R182). -/
def State.putPort (s : State) (r : Nat) (g : Graph) (n p : Nat) (t : Token) : State :=
  (g.outEdges n p).foldl (fun s e => s.putToken r e t) s

/-- Place the output tokens of a task in order while the queues of their port have room; what is left waits. -/
def State.placeOuts (s : State) (r : Nat) (n : Nat) : List (Nat × Token) → State × List (Nat × Token)
  | [] => (s, [])
  | (p, t) :: rest =>
    match s.run r with
    | none => (s, [])
    | some x =>
      let g := s.graphOf x
      if (g.outEdges n p).all (fun e => x.room g e) then (s.putPort r g n p t).placeOuts r n rest
      else (s, (p, t) :: rest)

/-- The ports of a node that carry tokens. -/
def Graph.dataPorts (g : Graph) (n : Nat) : List Nat :=
  (List.range (g.node n).outPorts).filter (fun p => (g.outEdges n p) ≠ [])

/-- Put the outputs of D for one SEQ into its flow's window (R227). -/
def State.intoWindow (s : State) (f seq inSub : Nat) (outs : List (Nat × Token)) : State :=
  match s.flow f with
  | none => s
  | some x =>
    let old := getD [] x.outs seq
    let new := outs.map (fun o => (o.1, inSub, { o.2 with flow := f }))
    s.setFlow f { x with outs := setD [] x.outs seq (old ++ new) }

/-! ### Forwarding (R185, R204) -/

/-- The first token of an edge that has EMPTY or SKIPPED set. -/
def Run.forwardable (x : Run) (e : Nat) : Option Token := (x.waiting e).find? (fun t => t.empty || t.skipped)

def removeToken (ts : List Token) (t : Token) : List Token := ts.erase t

/-- LATE and the new CLOSE_BELOW of a WINDOWED node for a token (R186). -/
def windowClose (origin width slide prev : Nat) (t : Token) : Bool × Nat :=
  if t.timeLo = 0 ∧ t.timeHi = 2 ^ 64 - 1 then (false, prev)
  else
    let cb := if t.timeLo < origin + width then 0 else (t.timeLo - origin - width) / slide + 1
    (decide (cb < prev), max cb prev)

/-- LATE and CLOSE_BELOW of a WINDOWED node for a token, or for its FINAL task (R186). -/
def Run.closeAt (r : Run) (g : Graph) (n : Nat) : Option Token → Bool × Nat
  | none => (false, 2 ^ 64 - 1)
  | some t =>
    let d := r.record (g.node n)
    windowClose (fieldAt d 16 8) (fieldAt d 24 8) (fieldAt d 32 8) (getD 0 r.closeBelow n) t

/-- A WINDOWED node takes its next input token: CLOSE_BELOW follows it (R186). -/
def Run.noteClose (r : Run) (g : Graph) (n : Nat) (t : Token) : Run :=
  if (g.node n).windowed then { r with closeBelow := put r.closeBelow n (r.closeAt g n (some t)).2 } else r

/-- The token that a forwarded token becomes on a port (R185). -/
def forwarded (n : Nat) (t : Token) : Token :=
  { t with node := n, cols := 0, rows := 0, sel := 0, colset := 0, col0 := 0, part := 0, subseq := 0, bufs := [],
           flow := 0 }

/-- Forward a token through a node: the outputs on every port are one token with the same flags and SEQ. -/
def State.forward (s : State) (r e : Nat) (t : Token) : State :=
  match s.run r with
  | none => s
  | some x =>
    let g := s.graphOf x
    let n := (g.edge e).dst
    let s1 := s.setRun r (({ x with queues := setD [] x.queues e (removeToken (x.waiting e) t) } : Run).noteClose g n t)
    let outs := (g.dataPorts n).map (fun p => (p, forwarded n t))
    let s2 := s1.lineageEnd g x n t.seq (outs.map Prod.fst)
    match x.flowOfD g n with
    | some ef => s2.intoWindow ef.2 t.seq t.subseq outs
    | none => outs.foldl (fun s o => s.putPort r g n o.1 o.2) s2

/-! ### The task table (R198 to R202) -/

def State.heldBy (s : State) (fn : Nat) : Nat := (s.bsn.tasks.filter (fun kt => kt.2.fn = fn)).length
def State.resvSum (s : State) : Nat := (List.range 1025).foldl (fun n f => n + s.rd fBSN_FN_RESV f) 0
def State.sharedSize (s : State) : Nat := 4096 - s.resvSum
def State.sharedUsed (s : State) : Nat :=
  (List.range 1025).foldl (fun n f => n + (s.heldBy f - s.rd fBSN_FN_RESV f)) 0

/-- A function may take an entry (R199). -/
def State.mayTake (s : State) (fn : Nat) : Bool :=
  decide (s.heldBy fn < s.rd fBSN_FN_RESV fn) || decide (s.sharedUsed < s.sharedSize)

/-- The first free entry of the table. -/
def State.freeEntry (s : State) : Option Nat := (List.range 4096).find? (fun t => (s.task t).isNone)

/-! ### Finished nodes (R184) -/

/-- Nothing of a flow waits in its window. -/
def Flow.quiet (f : Flow) : Bool := f.outs.isEmpty && f.counts.all (fun kc => kc.2 = 0)

/-- The input of a node is finished, by the finished nodes known so far: its feeders have finished and released what
they owe, no token waits and no task of it runs; a source has made its last morsel (R184). -/
def State.inputFinished (s : State) (r : Nat) (x : Run) (g : Graph) (done : List Nat) (n : Nat) : Bool :=
  !(s.tasksOf r).any (fun kt => kt.2.node = n) && (g.inDepend n).all (fun e => done.contains (g.edge e).src) &&
  if (g.node n).inPorts = 0 then
    ((find x.sources n).any (fun so => so.stopped || decide (so.count ≤ so.next))) && (x.waiting (sourceKey n)).isEmpty
  else
    (g.inData n).all (fun e => done.contains (g.edge e).src && (x.waiting e).isEmpty
        && (match x.flowOfD g (g.edge e).src with
            | some ef => (s.flow ef.2).all Flow.quiet
            | none => true))

/-- A node is finished, by the finished nodes known so far: a STATEFUL one when its FINAL task has ended. -/
def State.nodeFinished (s : State) (r : Nat) (x : Run) (g : Graph) (done : List Nat) (n : Nat) : Bool :=
  s.inputFinished r x g done n && (!(g.node n).stateful || x.finalDone.contains n)

/-- The finished nodes of a run. -/
def State.finished (s : State) (r : Nat) (x : Run) : List Nat :=
  let g := s.graphOf x
  (List.range g.nodes.length).foldl (fun done _ =>
    (List.range g.nodes.length).filter (fun n => s.nodeFinished r x g done n)) []

/-- A STATEFUL node's input is finished and its FINAL task has not been made (R184). -/
def State.finalDue (s : State) (r : Nat) (x : Run) (n : Nat) : Bool :=
  let g := s.graphOf x
  (g.node n).stateful && !x.finalMade.contains n && s.inputFinished r x g (s.finished r x) n

/-! ### Making tasks (R201, R203, R205) -/

/-- A token, source entry or FINAL for which a task can be made. -/
structure Cand where
  fn : Nat
  run : Nat
  node : Nat
  port : Nat
  /-- The queue that holds the token: an edge, or the key of a source. -/
  queue : Nat
  token : Option Token
  seq : Nat
  isSource : Bool
  isFinal : Bool
  dist : Nat
  stamp : Nat

/-- Every DEPEND edge of the node comes from a finished node (R203). -/
def State.dependDone (s : State) (r : Nat) (x : Run) (g : Graph) (n : Nat) : Bool :=
  (g.inDepend n).all (fun e => (s.finished r x).contains (g.edge e).src)

/-- Tokens of a run for which a task may be made: EMPTY and SKIPPED ones take none (R204). -/
def State.tokenCands (s : State) (r : Nat) (x : Run) : List Cand :=
  let g := s.graphOf x
  ((g.edgesWith (fun e => !e.depend)).map (fun e =>
    let n := (g.edge e).dst
    ((x.waiting e).filter (fun t =>
        !t.empty && !t.skipped && s.windowOk g x n t.seq && s.dependDone r x g n)).map (fun t =>
      { fn := x.fn, run := r, node := n, port := (g.edge e).dstPort, queue := e, token := some t, seq := t.seq,
        isSource := false, isFinal := false, dist := g.dist n, stamp := t.stamp : Cand }))).flatten

/-- FINAL tasks of a run that may be made (R488): their SEQ is F. -/
def State.finalCands (s : State) (r : Nat) (x : Run) : List Cand :=
  let g := s.graphOf x
  ((List.range g.nodes.length).filter (fun n => s.finalDue r x n
      && s.windowOk g x n (getD 0 x.highSeq n % 2 ^ 32))).map (fun n =>
    { fn := x.fn, run := r, node := n, port := 0, queue := 0, token := none, seq := getD 0 x.highSeq n % 2 ^ 32,
      isSource := false, isFinal := true, dist := g.dist n, stamp := 0 : Cand })

/-- Source entries of a run that wait for their task. -/
def State.sourceCands (_s : State) (r : Nat) (x : Run) (g : Graph) : List Cand :=
  ((List.range g.nodes.length).map (fun n => (x.waiting (sourceKey n)).map (fun t =>
    { fn := x.fn, run := r, node := n, port := 0, queue := sourceKey n, token := some t, seq := t.seq, isSource := true,
      isFinal := false, dist := g.dist n, stamp := t.stamp : Cand }))).flatten

/-- Started runs that go on. -/
def State.liveRuns (s : State) : List (Nat × Run) := s.bsn.runs.filter (fun kr => kr.2.started && !kr.2.stopping)

/-- Tokens and FINAL tasks of all runs that wait for an entry. -/
def State.inputCands (s : State) : List Cand :=
  (s.liveRuns.map (fun kr => s.tokenCands kr.1 kr.2 ++ s.finalCands kr.1 kr.2)).flatten

/-- All candidates of started runs. A source entry counts only when no token of its function waits (R26). -/
def State.cands (s : State) : List Cand :=
  let live := s.liveRuns
  let toks := s.inputCands
  let srcs := (live.map (fun kr => s.sourceCands kr.1 kr.2 (s.graphOf kr.2))).flatten
  toks ++ srcs.filter (fun c => !toks.any (fun t => t.fn = c.fn))

/-- `a` is served before `b` within a function (R201, R26). -/
def Cand.before (a b : Cand) : Bool :=
  a.dist < b.dist || (a.dist = b.dist && (a.seq < b.seq || (a.seq = b.seq && a.stamp < b.stamp)))

/-- The first candidate in the order of R201. -/
def firstCand : Cand → List Cand → Cand
  | c, [] => c
  | c, d :: rest => firstCand (if d.before c then d else c) rest

/-- The function that is granted an entry: one below its reservation first, then round robin after the last that took
a shared entry (R201). -/
def State.grantFn (s : State) (cs : List Cand) : Option Nat :=
  let fns := cs.map Cand.fn
  match (List.range 1025).find? (fun f => fns.contains f && decide (s.heldBy f < s.rd fBSN_FN_RESV f)) with
  | some f => some f
  | none =>
    if s.sharedUsed < s.sharedSize then
      ((List.range 1025).map (fun k => (s.bsn.lastShared + 1 + k) % 1025)).find? (fun f => fns.contains f)
    else none

/-- The ready list of a run's tasks (R205). -/
def State.listOf (s : State) (x : Run) : Nat :=
  if x.fn = 0 ∧ 1 ≤ x.qid ∧ x.qid ≤ 8 then s.setting fBSN_PL_LIST_LIST 0 else s.rd fBSN_FN_LIST x.fn

/-- Make the task of a candidate in table entry `t`. -/
def State.makeTask (s : State) (t : Nat) (c : Cand) : State :=
  match s.run c.run with
  | none => s
  | some x =>
    let g := s.graphOf x
    let home := match c.token with
      | some k => if k.col0 = 0 then none else s.homeStack c.fn k.col0
      | none => none
    let k : Task :=
      { fn := c.fn, run := c.run, node := c.node, port := c.port, token := c.token, seq := c.seq,
        isSource := c.isSource, isFinal := c.isFinal, state := .ready, place := .none, staged := false, home := home, start := 0,
        list := s.listOf x, made := s.bsn.nextMade, bufs := [], outs := [], status := 0, sub := 0, late := false,
        closeBelow := 0, result := none }
    let x1 := match c.token with
      | some tok => { x with queues := setD [] x.queues c.queue (removeToken (x.waiting c.queue) tok) }
      | none => { x with finalMade := c.node :: x.finalMade }
    let s1 := (s.setRun c.run x1).setTask t k
    let s2 := { s1 with bsn := { s1.bsn with
      nextMade := s1.bsn.nextMade + 1,
      lastShared := if s.heldBy c.fn < s.rd fBSN_FN_RESV c.fn then s1.bsn.lastShared else c.fn } }
    if c.isFinal then (x.flowsOn g c.node).foldl (fun s ef => s.lineage ef.2 c.seq 1 0) s2 else s2

/-- The shared part of the task table has a free entry. -/
def State.sharedFree (s : State) : Bool := decide (s.sharedUsed < s.sharedSize)

/-- TABLE_FULL (R202): a token waits because the shared part is exhausted, for the first time since it had a free entry. -/
def State.noteFull (s : State) (cs : List Cand) : State :=
  let before := s.bsn.tableFull && !s.sharedFree
  let full := cs.any (fun c => !s.mayTake c.fn)
  let u := { s with bsn := { s.bsn with tableFull := before || full } }
  if full && !before then u.raise 3 2 else u

/-- TASK_MAKE (R201 to R203): the best candidate of the function that is granted an entry becomes a task. -/
def State.taskMake (s : State) : State :=
  let cs := s.cands
  let u := s.noteFull cs
  match s.grantFn cs, s.freeEntry with
  | some f, some t =>
    match cs.filter (fun c => c.fn = f) with
    | [] => u
    | c :: rest => u.makeTask t (firstCand c rest)
  | _, _ => u

def execTaskMake (s : State) : Res := steady (s.starts 3 && !s.cands.isEmpty) State.taskMake s

/-! ### Reservations (R31, R200) -/

/-- BSN_FN_RESV: PF0 writes a reservation through the unlocked expert window; refused above the sum of 4,096. -/
def State.writeResv (s : State) (fn v : Nat) : State :=
  if s.resvSum - s.rd fBSN_FN_RESV fn + v ≤ 4096 then
    ({ s with bsn := { s.bsn with tableFull := s.bsn.tableFull && !s.sharedFree } }).wr fBSN_FN_RESV fn v
  else s.fault 3 { s.entry 3 5 with fn := some fn, cause := 4 }

def execBsnFnResv (fn v : Nat) (s : State) : Res :=
  steady (s.reaches 0 && s.ready 3 && fn ≤ 1024)
    (fun s => (s.atRegion 3 (0x10000 + 16 * fn)).expertWrite 3 (fun s => s.writeResv fn (lowBits 12 v))) s

/-! ### Ordered release (R228 to R231) -/

/-- Insert by the order of release on one port: the input's SUBSEQ, then the token's own (R228). -/
def insertOut (o : Nat × Nat × Token) : List (Nat × Nat × Token) → List (Nat × Nat × Token)
  | [] => [o]
  | p :: rest =>
    if o.2.1 < p.2.1 ∨ (o.2.1 = p.2.1 ∧ o.2.2.subseq < p.2.2.subseq) then o :: p :: rest else p :: insertOut o rest

/-- The tokens that one port of D releases for a slot: in order, EMPTY tokens dropped where others exist, one EMPTY
token where all are, SUBSEQ numbered from 0 (R228). -/
def releasePort (outs : List (Nat × Nat × Token)) (p : Nat) : List (Nat × Nat × Token) :=
  let mine := (outs.filter (fun o => o.1 = p)).foldr insertOut []
  let kept := mine.filter (fun o => !o.2.2.empty)
  let chosen := if kept = [] then mine.take 1 else kept
  (List.range chosen.length).filterMap (fun i => (chosen[i]?).map (fun o => (p, o.2.1, { o.2.2 with subseq := i })))

/-- The slot at HEAD is complete (R227). -/
def Flow.headDone (f : Flow) : Bool := find f.counts f.head = some 0

/-- The tokens that the slot at HEAD of D's flow has still to release. -/
def Flow.due (f : Flow) (g : Graph) : List (Nat × Nat × Token) :=
  let outs := getD [] f.outs f.head
  if f.leaving then outs else ((g.dataPorts (g.edge f.edge).dst).map (releasePort outs)).flatten

/-- The release of a slot begins: a flow further down that D feeds counts what is placed, and not the EMPTY tokens that
are dropped (R227, R228). -/
def State.releaseBegins (s : State) (g : Graph) (x : Run) (f : Flow) : State :=
  let d := (g.edge f.edge).dst
  let dropped (p : Nat) : Nat := ((getD [] f.outs f.head).filter (fun o => o.1 = p)).length
    - ((f.due g).filter (fun o => o.1 = p)).length
  (x.flowsOn g d).foldl (fun s ef =>
    match g.towardD (g.edge ef.1).dst d with
    | some e => if (g.edge ef.1).dst = d then s else s.lineage ef.2 f.head 0 (dropped (g.edge e).srcPort)
    | none => s) s

/-- A port's token can be placed: each of its edges has room (R229). -/
def Run.portRoom (g : Graph) (x : Run) (d p : Nat) : Bool := (g.outEdges d p).all (fun e => x.room g e)

/-- Place the tokens of a slot in order, those of a port while it has room; what is left waits. -/
def State.releaseSome (s : State) (r : Nat) (g : Graph) (d : Nat) (blocked : List Nat) :
    List (Nat × Nat × Token) → State × List (Nat × Nat × Token)
  | [] => (s, [])
  | o :: rest =>
    if !blocked.contains o.1 && (s.run r).any (fun x => x.portRoom g d o.1) then
      (s.putPort r g d o.1 o.2.2).releaseSome r g d blocked rest
    else
      let q := s.releaseSome r g d (o.1 :: blocked) rest
      (q.1, o :: q.2)

/-- End a run's flows at once (R232): their slots and tokens are discarded and they return to the pool. -/
def State.dropFlows (s : State) (r : Nat) : State :=
  { s with bsn := { s.bsn with flows := s.bsn.flows.filter (fun kf => kf.2.run ≠ r) } }

/-- The run's flows have released their last token: the destinations are finished and nothing waits in a window. They
return to the pool (R27, R232). -/
def State.endFlows (s : State) (r : Nat) : State :=
  match s.run r with
  | none => s
  | some x =>
    let g := s.graphOf x
    let done := s.finished r x
    if x.flows.all (fun ef => done.contains (g.edge ef.1).dst && (s.flow ef.2).all Flow.quiet) then
      (s.dropFlows r).setRun r { x with flows := [] }
    else s

/-- Release what has room of the slot at HEAD onto D's outgoing edges; when all of it is placed, HEAD advances (R228,
R229). -/
def State.slotRelease (s : State) (fl : Nat) : State :=
  match s.flow fl with
  | none => s
  | some f =>
    match s.run f.run with
    | none => s
    | some x =>
      let g := s.graphOf x
      let s1 := if f.leaving then s else s.releaseBegins g x f
      let q := s1.releaseSome f.run g (g.edge f.edge).dst [] (f.due g)
      if q.2 = [] then
        (q.1.setFlow fl { f with
          head := (f.head + 1) % 2 ^ 32, counts := del f.counts f.head, outs := setD [] f.outs f.head [],
          leaving := false }).endFlows f.run
      else q.1.setFlow fl { f with outs := setD [] f.outs f.head q.2, leaving := true }

/-- The release of the slot at HEAD can go on: a queue of D's outgoing edges has room for its first token, and no
completion ring of the run's queue holds the release back (R165, R229). -/
def State.canRelease (s : State) (fl : Nat) : Bool :=
  match s.flow fl with
  | none => false
  | some f =>
    match s.run f.run with
    | none => false
    | some x =>
      let g := s.graphOf x
      f.headDone && !(s.queue x.fn x.qid).any Queue.cqFull
        && (f.due g = [] || (f.due g).any (fun o => x.portRoom g (g.edge f.edge).dst o.1))

def execSlotRelease (fl : Nat) (s : State) : Res :=
  steady (s.running && !s.failedSubs.contains 2 && s.canRelease fl) (fun s => s.slotRelease fl) s

end Sys2Proof.Machine
end

