-- ==== Sys2Proof/Machine/Wear.lean ====
section
/-! DEFINITION. Wear counts, marks for swaps, and the swap history of Darning
(spec/18_power_reefing_and_spares.md R461, R468, R469). -/

namespace Sys2Proof.Machine

/-- Write a record to the swap history (R469). -/
def State.history (s : State) (kind cause logical old new detail : Nat) : State :=
  let n := s.rd fDRN_HISTORY_TOTAL_TOTAL 0
  let r : HistRec := ⟨s.clk.tsu, s.rd fMGT_BOOT_COUNT_COUNT 0, kind, cause, logical, old, new, detail, n⟩
  ({ s with darn := { s.darn with history := put s.darn.history (n % 256) r } }).wr fDRN_HISTORY_TOTAL_TOTAL 0 (n + 1)

/-- A unit is marked already, or being swapped. -/
def State.isMarked (s : State) (kind unit : Nat) : Bool :=
  s.darn.marks.any (fun m => m.kind = kind && m.unit = unit)
    || s.darn.current.any (fun m => m.kind = kind && m.unit = unit)

/-- A mark is served before another: marks of one tick in ascending order of their units (R461). -/
def Swap.before (a b : Swap) : Bool := a.since < b.since || (a.since = b.since && a.unit < b.unit)

/-- Put a mark into the order of service. -/
def insertMark (m : Swap) : List Swap → List Swap
  | [] => [m]
  | x :: rest => if m.before x then m :: x :: rest else x :: insertMark m rest

/-- A swap has ended with a result: 1 done, 3 no spare. A swap that is in progress keeps its place in the status. -/
def State.swapEnds (s : State) (kind unit result : Nat) : State :=
  let u := if s.darn.current.isSome then s else (s.wr fDRN_SWAP_STATUS_KIND 0 kind).wr fDRN_SWAP_STATUS_UNIT 0 unit
  (u.wr fDRN_SWAP_STATUS_LAST_RESULT 0 result).raise 15 2

/-- Mark a unit for a swap (R461): kind 0 tile, 1 bank, 2 engine; cause 1 wear, 2 uncorrectable, 3 PF0 request. With
AUTO at 0 the first two causes start no swap, and a tile that stays marked is not reported again. -/
def State.mark (s : State) (kind unit cause : Nat) : State :=
  if s.isMarked kind unit ∨ (kind = 0 ∧ cause ≠ 3 ∧ s.rd fDRN_TILE_WEAR_MARKED unit = 1) then s
  else
    let t := if kind = 0 then s.wr fDRN_TILE_WEAR_MARKED unit 1 else s
    if s.setting fDRN_POLICY_AUTO 0 = 0 ∧ cause ≠ 3 then (t.wr fDRN_SWAP_STATUS_LAST_RESULT 0 3).raise 15 2
    else { t with darn := { t.darn with marks := insertMark ⟨kind, unit, cause, 0, t.clk.tsu⟩ t.darn.marks } }

/-- A corrected error lay in some row of an SRAM array of a unit: at the threshold the row joins the persistent repair
list (R466). `unit` numbers the array; the row itself is free. -/
def State.sramCorrected (s : State) (unit : Nat) : State :=
  let k := unit * 2 ^ 32 + Config.sramRow s.draws % 2 ^ 32
  let n : Nat := getD 0 s.darn.rowCorr k + 1
  let u : State := { s.drawn with darn := { s.darn with rowCorr := put s.darn.rowCorr k n } }
  if n < s.setting1 fDRN_THRESH_SRAM_CORR 0 ∨ u.darn.sramRows.contains k then u
  else
    let v : State := { u with darn := { u.darn with sramRows := u.darn.sramRows ++ [k] } }
    v.wr fDRN_SRAM_PENDING 0 v.darn.sramRows.length

/-- A corrected error in a tile's storage (R263, R295, R461); `f` is the field of `OCA_CORRECTED`. -/
def State.tileCorrected (s : State) (t : Nat) (f : Field) : State :=
  let u := (((((s.sramCorrected t).bumpSat f 0 1).bumpSat fOCA_TILE_CORRECTED t 1).bumpSat fDRN_TILE_WEAR_CORRECTED t 1).bumpSat
    fDRN_TILE_WEAR_WINDOW_CORR t 1)
  if s.setting1 fDRN_THRESH_TILE_CORR 0 ≤ u.rd fDRN_TILE_WEAR_WINDOW_CORR t then u.mark 0 t 1 else u

/-- An uncorrectable error in a tile's storage (R461). -/
def State.tileUncorrectable (s : State) (t : Nat) : State := (s.bumpSat fDRN_TILE_WEAR_UNCORR t 1).mark 0 t 2

end Sys2Proof.Machine
end

