-- ==== Sys2Proof/Machine/Tile.lean ====
section
/-! DEFINITION. The operator core of a tile: registers, local store, fetching, issue, accesses to memory, faults and
their records, the end of a task, and the scrub (spec/09_operator_core.md; spec/08_bosun_scheduler.md R210 to R214). -/

namespace Sys2Proof.Machine

/-! ### The tile -/

def State.core (s : State) (t : Nat) : Core := getD Core.zero s.oca t
def State.setCore (s : State) (t : Nat) (c : Core) : State := { s with oca := setD Core.zero s.oca t c }
def State.onCore (s : State) (t : Nat) (f : Core → Core) : State := s.setCore t (f (s.core t))

/-- The mast of a tile, and the stack that it is homed on (R12, R13, R460). -/
def mastOf (t : Nat) : Nat := t / 17
def tileHome (t : Nat) : Nat := mastOf t / 4

/-- States of R265. -/
def tsMaintenance : Nat := 1
def tsService : Nat := 2
def tsDrain : Nat := 5
def tsFailed : Nat := 6
def tsSpare : Nat := 7

/-- The running task of a tile and its number. -/
def State.tileTask (s : State) (t : Nat) : Option (Nat × Task) :=
  match (s.core t).task with
  | none => none
  | some k =>
    match s.task k with
    | none => none
    | some x => if x.state = .running then some (k, x) else none

/-- The function for which a tile's accesses are made; a maintenance program's are translated for none (R266). -/
def State.tileFn (s : State) (t : Nat) : Nat := ((s.tileTask t).map (fun kx => kx.2.fn)).getD maintFn

/-- The first address of a node's code blob and its length. -/
def State.blob (s : State) (x : Task) : Nat × Nat :=
  match s.run x.run with
  | none => (0, 0)
  | some r =>
    let g := s.graphOf r
    (g.image + g.codeOff + (g.node x.node).codeOff, (g.node x.node).codeLen)

/-! ### Scalar registers (R238) -/

def Core.getX (c : Core) (r : Nat) : Qword := if r = 0 then 0 else getD 0 c.x r

/-- Numbers of words of the register files in `Core.regBad` (R263, R295). -/
def predWord (p : Nat) : Nat := 32 + p
def vecWord (r k : Nat) : Nat := 256 + 64 * r + k
def maskWord (r k : Nat) : Nat := 4096 + 8 * r + k

/-- A write of words of the register files: each is good again, but that an armed error lies in the first (DESIGN CHOICE,
notes/assumptions/27.md). -/
def Core.noteWrite (c : Core) (ws : List Nat) : Core :=
  let bad := ws.foldl (fun m w => del m w) c.regBad
  match c.armed.find? (fun p => p.1 = 1), ws with
  | some p, w :: _ => { c with regBad := put bad w p.2, armed := c.armed.erase p }
  | _, _ => { c with regBad := bad }

/-- Write a scalar register: x0 discards it. An access or vector instruction that would write it later no longer
does. -/
def Core.putX (c : Core) (r : Nat) (v : Qword) : Core :=
  if r = 0 then c
  else
    ({ c with
      x := setD 0 c.x r v
      accs := c.accs.map (fun a => if a.rd = r then { a with rd := 0 } else a)
      vq := c.vq.map (fun e => if e.rd = r then { e with rd := 0 } else e) } : Core).noteWrite [r]

/-- Write a predicate register: p0 discards it. -/
def Core.putP (c : Core) (r : Nat) (b : Bool) : Core :=
  if r = 0 then c else ({ c with p := setPred c.p r b } : Core).noteWrite [predWord r]

/-- A register whose value has not arrived (R236). -/
def Core.awaits (c : Core) (r : Nat) : Bool := r ≠ 0 && (c.accs.any (fun a => a.rd = r) || c.vq.any (fun e => e.rd = r))

/-! ### Local store (R251) -/

def Core.lsRead (c : Core) (off n : Nat) : List Byte := Mem.bytes c.ls off n

/-- The words of local store that an access touches. -/
def lsWords (off n : Nat) : List Nat := if n = 0 then [] else (List.range ((off + n - 1) / 8 - off / 8 + 1)).map (fun i => off / 8 + i)

/-- Write local store; a word written is good again, or bad where an injection is armed. -/
def Core.lsWrite (c : Core) (off : Nat) (d : List Byte) : Core :=
  let bad := (lsWords off d.length).foldl (fun m w => del m w) c.lsBad
  match c.armed.find? (fun p => p.1 = 0) with
  | some p => { c with ls := Mem.store c.ls off d, lsBad := put bad (off / 8) p.2, armed := c.armed.erase p }
  | none => { c with ls := Mem.store c.ls off d, lsBad := bad }

/-- Offsets that a store may not touch (R251). -/
def lsProtected (off : Nat) : Bool := off < 0x100 || (0x300 ≤ off && off < 0x800)

/-- What an effective address names (R250). -/
inductive Space where
  | hbm (va : Nat)
  | ls (off : Nat)
  | bad
  deriving DecidableEq, Repr

def space (ea : Qword) : Space :=
  let n := ea.toNat
  if n / 2 ^ 48 = 0 then .hbm n
  else if n / 2 ^ 18 = 0x3FFFC0000000 then .ls (n % 2 ^ 18)
  else .bad

/-! ### Accesses to HBM (R250 to R259, R428 to R432) -/

def sameInstr (a b : MemAcc) : Bool := a.stamp = b.stamp

/-- `a` precedes `b` in the order of the task (R290). -/
def MemAcc.before (a b : MemAcc) : Bool :=
  a.stamp < b.stamp ||
    (a.stamp = b.stamp &&
      match a.kind, b.kind with
      | .vec i f, .vec j g => i < j || (i = j && f < g)
      | _, _ => false)

/-- A slot of a vector memory instruction in progress. -/
def Core.slotOf (c : Core) (stamp elem field : Nat) : Option (VMem × Slot) :=
  match c.vmem.find? (fun v => v.stamp = stamp) with
  | none => none
  | some v => (v.slots.find? (fun l => l.elem = elem && l.field = field)).map (fun l => (v, l))

/-- An access writes memory. -/
def Core.accWrites (c : Core) (a : MemAcc) : Bool :=
  match a.kind with
  | .load _ _ => false
  | .prefetch => false
  | .store _ => true
  | .atomic _ _ _ _ => true
  | .vec i f => match c.slotOf a.stamp i f with | some p => !p.1.load | none => false

/-- A store of one element covers its whole line together with the other elements of its instruction (R432). -/
def Core.accFull (c : Core) (a : MemAcc) : Bool :=
  match a.kind with
  | .vec i f => match c.slotOf a.stamp i f with | some p => p.2.full | none => false
  | _ => false

def MemAcc.isAtomic (a : MemAcc) : Bool := match a.kind with | .atomic _ _ _ _ => true | _ => false
def MemAcc.isPrefetch (a : MemAcc) : Bool := match a.kind with | .prefetch => true | _ => false

/-- The status with which an access fails, if it does (R259, R421, R428, R432); a PREFETCH never does (R256). -/
def State.accFault (s : State) (t : Nat) (a : MemAcc) : Option (Nat × Nat) :=
  let c := s.core t
  let w := c.accWrites a
  if a.isPrefetch then none else
  match s.translate (s.tileFn t) a.va (if w then .write else .read) with
  | .error e => some (0x22, e)
  | .ok dpa =>
    let plainStore := w && !a.isAtomic
    if 2 ≤ s.lineClass (dpa / 64) ∧ !c.accFull a then some (0x21, if plainStore then 0x42 else 0x01) else none

/-- An access may be performed now: earlier accesses to the same bytes are done, and a vector store's elements go in
order (R254, R286, R290). -/
def Core.mayPerform (c : Core) (a : MemAcc) : Bool :=
  !c.accs.any (fun b => b.before a && (b.isAtomic || (b.va < a.va + a.len && a.va < b.va + b.len) || (b.stamp = a.stamp && c.accWrites a)))
    && !c.vq.any (fun e => e.stamp < a.stamp && 0x38 ≤ wMajor e.word && wMajor e.word ≤ 0x3B)
    && !c.vmem.any (fun v => v.stamp < a.stamp && v.slots.any (fun l => l.state = .waits))

/-- The result of an atomic on an old value of `size` bytes (R244, R245). -/
def atomicResult (op size : Nat) (old operand expected : Qword) : Qword :=
  let cut (v : Qword) : Qword := if size = 4 then (v.truncate 32).signExtend 64 else v
  let o := cut old
  let b := cut operand
  match op with
  | 0 => o + b
  | 1 => o &&& b
  | 2 => o ||| b
  | 3 => o ^^^ b
  | 4 => if o.slt b then o else b
  | 5 => if b.slt o then o else b
  | 6 => if o.ult b then o else b
  | 7 => if b.ult o then o else b
  | 8 => b
  | _ => if cut expected = o then b else o

/-- The value that a load of `size` bytes gives (R243). -/
def loadValue (size : Nat) (signed : Bool) (d : List Byte) : Qword :=
  let v := leNat d
  if signed then sext (8 * size) v else BitVec.ofNat 64 v

/-- A tile's read of a line through its mast cache (R253): a hit reads nothing in HBM; a miss reads the line, and keeps a
copy unless it is poisoned (R428). -/
def State.mastRead (s : State) (t fn line : Nat) : State :=
  if (s.copyOf (mastOf t) fn line).isSome then s
  else
    let u := (s.readLine line).chargeHbm fn 1
    if 2 ≤ u.lineClass line then u else u.mastPut ⟨mastOf t, fn, line, false⟩

/-- A tile's store of bytes within a line through its mast cache: a miss fetches the line for ownership, unless the
instruction covers all of it (R432); no other copy stays, and the tile's is dirty. -/
def State.mastWrite (s : State) (t fn dpa : Nat) (d : List Byte) (full : Bool) : State :=
  let m := mastOf t
  let line := dpa / 64
  let hit := (s.copyOf m fn line).isSome
  let u := if hit || full then s else (s.readLine line).chargeHbm fn 1
  let v := u.dropCopies (fun c => c.line = line && !(c.mast = m && c.fn = fn))
  let w := ({ v with hbm := Mem.store v.hbm dpa d } : State).setCheck line .good
  if hit then
    { w with mast := w.mast.map (fun c => if c.mast = m ∧ c.fn = fn ∧ c.line = line then { c with dirty := true } else c) }
  else w.mastPut ⟨m, fn, line, true⟩

/-- Write bytes of a task's store to HBM. -/
def State.coreStore (s : State) (t fn va : Nat) (d : List Byte) (full : Bool) : State :=
  match s.translate fn va .write with
  | .error _ => s
  | .ok dpa => s.mastWrite t fn dpa d full

/-- Read bytes of a line for a task. -/
def State.coreRead (s : State) (t fn va n : Nat) : List Byte × State :=
  match s.translate fn va .read with
  | .error _ => ([], s)
  | .ok dpa =>
    let u := s.mastRead t fn (dpa / 64)
    (Mem.bytes u.hbm dpa n, u)

/-- An atomic, performed at the memory stop of its line: no mast cache keeps a copy (R253, R255). It gives the value that
it found, sign-extended. -/
def State.coreAtomic (s : State) (fn va op size : Nat) (operand old : Qword) : Qword × State :=
  match s.translate fn va .write with
  | .error _ => (0, s)
  | .ok dpa =>
    let u := ((s.dropLine (dpa / 64)).readLine (dpa / 64)).chargeHbm fn 1
    let v := loadValue size true (Mem.bytes u.hbm dpa size)
    (v, (u.writeWithinLine dpa (leBytes size (atomicResult op size v operand old).toNat)).1.chargeHbm fn 1)

/-- Record the data of a vector slot. -/
def Core.slotDone (c : Core) (stamp elem field : Nat) (d : List Byte) : Core :=
  { c with vmem := c.vmem.map (fun v =>
      if v.stamp = stamp then
        { v with slots := v.slots.map (fun l => if l.elem = elem ∧ l.field = field then { l with state := .done d } else l) }
      else v) }

/-- Perform an access that does not fail: data returns to the tile, or the store takes effect. -/
def State.accApply (s : State) (t : Nat) (a : MemAcc) : State :=
  let fn := s.tileFn t
  match a.kind with
  | .load size signed =>
    let r := s.coreRead t fn a.va size
    r.2.onCore t (fun c => c.putX a.rd (loadValue size signed r.1))
  | .store d => s.coreStore t fn a.va d false
  | .prefetch => (s.coreRead t fn a.va a.len).2
  | .atomic op size operand old =>
    let r := s.coreAtomic fn a.va op size operand old
    r.2.onCore t (fun c => c.putX a.rd r.1)
  | .vec i f =>
    match (s.core t).slotOf a.stamp i f with
    | none => s
    | some p =>
      if p.1.load then
        let r := s.coreRead t fn a.va a.len
        r.2.onCore t (fun c => c.slotDone a.stamp i f r.1)
      else (s.coreStore t fn a.va p.2.data p.2.full).onCore t (fun c => c.slotDone a.stamp i f [])

/-- An access that fails on its line has read it: a newly uncorrectable line is poisoned and counted (R428, R432). -/
def State.accFails (s : State) (t : Nat) (a : MemAcc) : State :=
  match s.translate (s.tileFn t) a.va (if (s.core t).accWrites a then .write else .read) with
  | .error _ => s
  | .ok dpa => s.readLine (dpa / 64)

/-- Accesses in the order of the task (R254, R290). -/
def insertAcc (a : MemAcc) : List MemAcc → List MemAcc
  | [] => [a]
  | b :: rest => if a.before b then a :: b :: rest else b :: insertAcc a rest
def taskOrder (as : List MemAcc) : List MemAcc := as.foldr insertAcc []

/-- Perform every access that is still outstanding, in the order of the task; those that fail are dropped with the task
(R254). -/
def State.drainAccs (s : State) (t : Nat) : State :=
  let u := (taskOrder (s.core t).accs).foldl (fun s a => if (s.accFault t a).isSome then s.accFails t a else s.accApply t a) s
  u.onCore t (fun c => { c with accs := [], vq := [], vmem := [] })

/-! ### Fault records (R260, R261) -/

/-- A fault of a core. -/
structure CoreFault where
  status : Nat
  sub : Nat
  deferred : Bool
  word : Nat
  pc : Nat
  addr : Nat
  elem : Nat
  trap : Nat

/-- A precise fault of a scalar instruction. -/
def CoreFault.precise (status sub : Nat) (w : Dword) (pc addr trap : Nat) : CoreFault :=
  ⟨status, sub, false, w.toNat, pc, addr, 0xFFFFFFFF, trap⟩

/-- The 64 bytes of a fault record (R260). -/
def faultBytes (f : CoreFault) (x : Task) (runTag logical tile tsu : Nat) : List Byte :=
  leBytes 4 (if x.isFinal then 0 else x.seq) ++ leBytes 1 x.node
    ++ leBytes 1 (x.port + 8 * bit x.isFinal + 16 * bit f.deferred) ++ leBytes 1 f.status ++ leBytes 1 f.sub
    ++ leBytes 2 (logical % 1024) ++ leBytes 2 tile ++ leBytes 4 f.word ++ leBytes 8 (f.pc % 2 ^ 48)
    ++ leBytes 8 f.addr ++ leBytes 4 f.elem ++ leBytes 4 f.trap ++ leBytes 8 tsu ++ leBytes 2 runTag
    ++ leBytes 2 x.fn ++ leBytes 12 0

/-- Put a record behind those of lower and equal sources (R439). -/
def insertFault (src : Nat) (d : List Byte) : List (Nat × List Byte) → List (Nat × List Byte)
  | [] => [(src, d)]
  | (k, e) :: rest => if src < k then (src, d) :: (k, e) :: rest else (k, e) :: insertFault src d rest

/-- The records of the present tick that the fault area of a run holds, once a fault of `src` has joined them in event
order, and those that it has no room for. -/
def Run.faultTick (r : Run) (tsu src : Nat) (d : List Byte) : List (Nat × List Byte) × List (Nat × List Byte) :=
  let old := if r.faultAt = tsu then r.faultTail else []
  let all := insertFault src d old
  let room := 511 - (r.faultRecs - old.length)
  (all.take room, all.drop room)

/-- The first record of the present tick in the fault area. -/
def Run.faultBase (r : Run) (tsu : Nat) : Nat := r.faultRecs - (if r.faultAt = tsu then r.faultTail.length else 0)

/-- The index of a source's record among those of the present tick; 0x1FF where it was lost. -/
def faultIndex (base : Nat) (held : List (Nat × List Byte)) (src : Nat) : Nat :=
  match (List.range held.length).find? (fun i => (held[i]?).any (fun e => e.1 = src)) with
  | some i => base + i
  | none => 0x1FF

/-- Write the fault area: the record in event order, or LOST, with the header; events of the same tick that name records
which moved follow them (R261, R439). -/
def State.recordFault (s : State) (t : Nat) (x : Task) (f : CoreFault) : State :=
  match s.run x.run with
  | none => s
  | some r =>
    let area := r.arena + 0x8000
    let src := 0x400 + t
    let base := r.faultBase s.clk.tsu
    let p := r.faultTick s.clk.tsu src (faultBytes f x r.runTag (s.rd fOCA_TILE_LOGICAL t) t s.clk.tsu)
    let r' := { r with
      faultRecs := base + p.1.length, faultLost := satAdd 32 r.faultLost p.2.length, faultAt := s.clk.tsu, faultTail := p.1 }
    let moved := (p.1 ++ p.2).filter (fun e => src < e.1)
    let u := { s.setRun x.run r' with tsu := { s.tsu with reorder := s.tsu.reorder.map (fun e =>
      if e.ts = s.clk.tsu ∧ e.kind = 3 ∧ moved.any (fun m => m.1 = e.source)
      then { e with detail := faultIndex base p.1 e.source } else e) } }
    let v := (List.range p.1.length).foldl (fun (s : State) i => match p.1[i]? with
      | some e => if src ≤ e.1 then (s.engineWrite x.fn (area + 0x40 + 64 * (base + i)) e.2).st else s
      | none => s) u
    (v.engineWrite x.fn area (leBytes 4 r'.faultRecs ++ leBytes 4 r'.faultLost)).st

/-! ### The end of a task on a tile (R120, R211, R214, R219) -/

/-- Count of CCLK half-cycles, and of whole cycles since a start. -/
def State.cyclesSince (s : State) (c0 : Nat) : Nat := (s.clk.cyc - c0) / 2

/-- Scrub a tile (R213): registers, local store, banks and the instruction cache are cleared. -/
def Core.scrub (c : Core) : Core := { Core.zero with stamp := c.stamp, task := c.task }

/-- The tasks in the pegs of a tile, whose banks are cleared, are staged again before they start. -/
def State.unstage (s : State) (t : Nat) : State :=
  { s with bsn := { s.bsn with tasks := s.bsn.tasks.map (fun (kt : Nat × Task) =>
      if kt.2.state = .pegged ∧ (kt.2.place = .pegA t ∨ kt.2.place = .pegB t) then (kt.1, { kt.2 with staged := false }) else kt) } }

/-- The ticks of `n` CCLK cycles: 64 for a core reset, 4,100 for a scrub (R75, R213). -/
def State.cyclesToTicks (s : State) (n : Nat) : Nat := n * s.clk.div / 6
def State.scrubTicks (s : State) : Nat := s.cyclesToTicks 4100

/-- A scrub of a tile. Its work is one step; the tile shows SCRUB, and executes nothing, until its time has passed
(R213, R265). -/
def State.scrub (s : State) (t : Nat) : State :=
  (((s.onCore t (fun c => { c.scrub with resetEnd := c.resetEnd, scrubEnd := max s.clk.tsu c.resetEnd + s.scrubTicks })).unstage t).wr
    fOCA_TILE_FN_VALID t 0).bumpWrap fBSN_SCRUB_COUNT_COUNT 0 1

/-- A core reset or a scrub of the tile is in progress. -/
def State.scrubbing (s : State) (t : Nat) : Bool := decide (s.clk.tsu < (s.core t).scrubEnd)

/-- The state of a tile that has been tested (R265): it is RESET and then SCRUB while these last, and leaves MAINTENANCE
when its scrub ends. -/
def State.tileState (s : State) (t : Nat) : Nat :=
  let st := s.rd fOCA_TILE_STATE t
  if !s.scrubbing t then st
  else if st = tsService then (if s.clk.tsu < (s.core t).resetEnd then 3 else 4)
  else if st = tsSpare then tsMaintenance
  else st

/-- The task in a peg of a tile. -/
def State.pegTask (s : State) (p : Place) : Option (Nat × Task) := s.bsn.tasks.find? (fun kt => kt.2.place = p && kt.2.state = .pegged)

/-- The tick from which a running task's core time is not charged yet: its start, or the start of the accounting window in
progress (R120). -/
def State.chargedFrom (s : State) (x : Task) : Nat := max x.start (8000 * s.hif.qosWindow)

/-- The tile lets go of its task: core time and busy cycles are charged, and an idle tile is scrubbed at once where
SCRUB_ON_IDLE asks for it (R120, R214). -/
def State.leaveTile (s : State) (t : Nat) : State :=
  match s.tileTask t with
  | none => s
  | some (_, x) =>
    let c := s.core t
    let u := ((s.setCore t { c with task := none }).chargeCore x.fn (s.clk.tsu - s.chargedFrom x)).bumpWrap
      fOCA_TILE_BUSY_CYCLES t (s.cyclesSince c.cycStart)
    if s.setting fBSN_AFFINITY_SCRUB_ON_IDLE 0 = 1 ∧ (s.pegTask (.pegA t)).isNone ∧ (s.pegTask (.pegB t)).isNone
    then u.scrub t else u

/-! ### Leaving the job slots of the engines -/

/-- Commands in CVC that satisfy `p` end (R127, R492): one whose drive commands are outstanding is orphaned, its
buffer held; any other leaves and holds nothing. -/
def State.dropVol (s : State) (p : VolCmd → Bool) : State :=
  let at_ (n : Nat) : Bool := s.cvc.drv.any (fun d => d.cmd = n)
  let gone := s.cvc.cmds.filter (fun nc => p nc.2 && at_ nc.1)
  let u := { s with cvc := { s.cvc with
    cmds := (s.cvc.cmds.filter (fun nc => !(p nc.2 && !at_ nc.1))).map (fun nc =>
      if p nc.2 then (nc.1, { nc.2 with orphan := true, entry := none, task := none }) else nc) } }
  gone.foldl (fun s nc => match nc.2.held with
    | some (r, b) => s.onRun r (fun x => { x with bufs := put x.bufs b 1 })
    | none => s) u

/-- Descriptor and task jobs of Mangle that satisfy `p` leave their engines; an engine whose running job leaves is idle
from now on. -/
def State.dropMgl (s : State) (p : MglJob → Bool) : State :=
  let jobs := (s.mgl.jobs.map (fun (ej : Nat × List MglJob) => (ej.1, ej.2.filter (fun j => !p j)))).filter
    (fun (ej : Nat × List MglJob) => !ej.2.isEmpty)
  let cut := (s.mgl.jobs.filter (fun (ej : Nat × List MglJob) => ej.2.head?.any p)).map Prod.fst
  { s with mgl := { s.mgl with jobs := jobs, idleAt := cut.foldl (fun m e => setD 0 m e s.clk.tsu) s.mgl.idleAt } }

/-- A task's job leaves its channel; the staged job begins where it was the running one (R343). -/
def State.dropMove (s : State) (k : Nat) : State :=
  let p (j : HalJob) : Bool := j.work = HalWork.task k
  let jobs := (s.hal.jobs.map (fun (cj : Nat × List HalJob) => (cj.1, cj.2.filter (fun j => !p j)))).filter
    (fun (cj : Nat × List HalJob) => !cj.2.isEmpty)
  let cut := (s.hal.jobs.filter (fun (cj : Nat × List HalJob) => cj.2.head?.any p)).map Prod.fst
  cut.foldl (fun (t : State) c => t.wr fHAL_CH_STATUS_STATE c (if (find jobs c).isNone then 0 else 2))
    { s with hal := { s.hal with jobs := jobs } }

/-- A task leaves the job slots of the engines, of Halyard and of CVC. -/
def State.dropJob (s : State) (k : Nat) : State :=
  ((s.dropMove k).dropMgl (fun j => j.task = some k)).dropVol (fun c => c.task = some k)

/-! ### The end of a task (R182, R195, R216, R225, R227) -/

/-- A status other than SUCCESS, first in the event order of the run's tasks (R195): kept as stamp, source, status and
sub-status. -/
def noteFirst (first : Option (Nat × Nat × Nat × Nat)) (ts source status sub : Nat) :
    Option (Nat × Nat × Nat × Nat) :=
  match first with
  | none => some (ts, source, status, sub)
  | some (t0, s0, st0, sb0) =>
    if ts < t0 ∨ (ts = t0 ∧ source < s0) then some (ts, source, status, sub) else some (t0, s0, st0, sb0)

/-- The token with SKIPPED set that a task's output port carries when it does not end normally (R182), with the times
`lo` and `hi`. -/
def skippedToken (n seq fn runTag srcTs lo hi : Nat) (poison : Bool) : Token :=
  { seq := seq, flow := 0, empty := false, skipped := true, poison := poison, cols := 0, rows := 0, node := n,
    subseq := 0, part := 0, srcTs := srcTs, sel := 0, fn := fn, colset := 0, runTag := runTag, col0 := 0, timeLo := lo,
    timeHi := hi, bufs := [], stamp := 0 }

/-- The SKIPPED token of a task: a fixed-function node copies its input's times (R180). -/
def Task.skipped (x : Task) (g : Graph) (runTag : Nat) (poison : Bool) : Token :=
  let time (f : Token → Nat) : Nat := if (g.node x.node).kind = 1 then 0 else (x.token.map f).getD 0
  skippedToken x.node x.seq x.fn runTag ((x.token.map Token.srcTs).getD 0) (time Token.timeLo) (time Token.timeHi) poison

/-- Place the waiting outputs of an ENDING task; its entry is freed when none is left (R25, R216). -/
def State.tryPlace (s : State) (t : Nat) : State :=
  match s.task t with
  | none => s
  | some x =>
    let p := s.placeOuts x.run x.node x.outs
    if p.2 = [] then p.1.delTask t else p.1.setTask t { x with outs := p.2 }

/-- A task that ends with its run commits TASK_KILLED (R217, R224): it leaves its tile or job, and gives no token. -/
def State.endKilled (s : State) (sub k : Nat) : State :=
  match s.task k with
  | none => s
  | some x =>
    if x.state = .ending then s
    else
      let u := match x.place, x.state with
        | .tile t, .running => (s.drainAccs t).leaveTile t
        | _, _ => s.dropJob k
      u.setTask k { x with
        state := .ending, place := .none, staged := false, bufs := [], token := none, outs := [], status := 0x32,
        sub := sub, result := none }

/-- All tasks of a run end with TASK_KILLED. -/
def State.killRun (s : State) (r sub : Nat) : State :=
  ((s.tasksOf r).map Prod.fst).foldl (fun s k => s.endKilled sub k) s

/-- The first task of a run with STOP_ON_FAULT that ends other than with SUCCESS has ended: the other tasks are killed at
once (R225). RUN_END ends the run. -/
def State.stopOnFault (s : State) (r : Nat) : State := if (s.run r).any Run.stopping then s.killRun r 0x05 else s

/-- A task ends with a status and its output tokens: SKIPPED tokens replace them where the status is not SUCCESS; the
outputs of D go to the window, others to their edges; the run keeps its first bad status. `source` is the number under
which the end is stamped (R438). -/
def State.endTask (s : State) (t status sub source : Nat) (outs : List (Nat × Token)) : State :=
  match s.task t with
  | none => s
  | some x =>
    match s.run x.run with
    | none => s.delTask t
    | some r =>
      let g := s.graphOf r
      let outs := if status = 0 then outs
        else (g.dataPorts x.node).map (fun p => (p, x.skipped g r.runTag (sub = 0x43 && status = 0x21)))
      let r1 := if status = 0 then r else { r with first := noteFirst r.first s.clk.tsu source status sub }
      let r2 := if x.isFinal then { r1 with finalDone := x.node :: r1.finalDone } else r1
      let s1 := (s.setRun x.run r2).lineageEnd g r2 x.node x.seq (outs.map Prod.fst)
      let y := { x with state := .ending, place := .none, bufs := [], token := none, status := status, sub := sub, result := none }
      let s2 := match r2.flowOfD g x.node with
        | some ef =>
          ((s1.intoWindow ef.2 x.seq ((x.token.map Token.subseq).getD 0) outs).setTask t { y with outs := [] }).tryPlace t
        | none => (s1.setTask t { y with outs := outs }).tryPlace t
      if status = 0 then s2 else s2.stopOnFault x.run

/-- TOKEN_PLACE: room has appeared for the outputs of an ENDING task (R216). -/
def execTokenPlace (t : Nat) (s : State) : Res :=
  steady (s.running && (s.task t).any (fun x => x.state = .ending)) (fun s => s.tryPlace t) s

/-! ### Faults of a core -/

/-- End the running task of a tile with a status. -/
def State.endOnTile (s : State) (t status sub : Nat) (outs : List (Nat × Token)) : State :=
  match s.tileTask t with
  | none => s
  | some (k, _) => ((s.drainAccs t).leaveTile t).endTask k status sub (0x400 + t) outs

/-- A fault of a core: the task ends, with a fault record, an entry in OCA's error log, and UNCORR where its data was
uncorrectable (R258 to R264). A maintenance program stops. -/
def State.coreFault (s : State) (t : Nat) (f : CoreFault) : State :=
  match s.tileTask t with
  | none => s.onCore t (fun c => { c with halted := true, accs := [], vq := [], vmem := [] })
  | some (_, x) =>
    let r := (s.drainAccs t).recordFault t x f
    let index := ((r.run x.run).map (fun y => faultIndex (y.faultBase s.clk.tsu) y.faultTail (0x400 + t))).getD 0x1FF
    let u := r.record (0x400 + t) 3 (some x.fn) index
    let v := u.fault 4 { u.entry (0x400 + t) 1 with
      fn := some x.fn, status := f.status, sub := f.sub, unit := t, addr := f.addr,
      kind := if f.addr = 0 then 0 else 2, cause := if f.status = 0x20 then 2 else 0 }
    (v.bumpSat fOCA_TILE_FAULTS t 1).endOnTile t f.status f.sub []

/-! ### Work that waits for a budget (R121, R122) -/

/-- Functions whose channels have a burst to start of a kind of transfer. -/
def State.burstDemand (s : State) (p : Xfer → Bool) : List Nat :=
  s.hal.jobs.filterMap (fun (cj : Nat × List HalJob) => match cj.2 with
    | j :: _ => if j.ending.isNone && decide (j.next < j.x.count) && p j.x then some j.fn else none
    | [] => none)

/-- Functions of admitted volume commands of a kind that have not started. -/
def State.volDemand (s : State) (p : VolCmd → Bool) : List Nat :=
  s.cvc.cmds.filterMap (fun (nc : Nat × VolCmd) => if nc.2.stage = .admitted && !nc.2.orphan && p nc.2 then some nc.2.fn else none)

/-- The work of a task in an engine's job slot is still to be done. -/
def Task.engineWaits (x : Task) : Bool :=
  x.result.isNone && match x.place with | .mangle _ => true | .amu _ => true | .halyard _ => true | _ => false

/-- Functions with work that waits for HBM: accesses of cores, tasks and jobs of engines, bursts, volume transfers. -/
def State.hbmDemand (s : State) : List Nat :=
  s.oca.filterMap (fun (tc : Nat × Core) => if tc.2.accs.isEmpty then none else (s.tileTask tc.1).map (fun kx => kx.2.fn))
    ++ s.bsn.tasks.filterMap (fun (kt : Nat × Task) => if kt.2.engineWaits then some kt.2.fn else none)
    ++ (s.mgl.jobs.map (fun (ej : Nat × List MglJob) => ej.2.filterMap (fun j =>
        if j.task.isNone && j.result.isNone then some j.fn else none))).flatten
    ++ s.burstDemand (fun x => !x.srcHost || !x.dstHost) ++ s.volDemand (fun c => !c.host && !c.internal)

/-- Functions with work that waits for the host link, device to host (`tx`) or host to device. -/
def State.linkDemand (s : State) (tx : Bool) : List Nat :=
  s.burstDemand (fun x => if tx then x.dstHost else x.srcHost)
    ++ s.volDemand (fun c => c.host && c.kind = (if tx then .read else .write))

/-- A function may issue an HBM request: it is not at its cap, and its share allows it (R121, R122). -/
def State.hbmFree (s : State) (fn : Nat) : Bool :=
  fn = maintFn || (!s.hbmCapped fn && mayShare s.hif.capHbm (fun f => (s.acct f).hbm.used) s.hbmWeight s.hbmDemand fn)

/-- A function may issue a request that sends data to the host. -/
def State.txFree (s : State) (fn : Nat) : Bool :=
  !s.txCapped fn && mayShare s.hif.capLink (fun f => (s.acct f).tx.used) s.linkWeight (s.linkDemand true) fn

/-- A function may issue a request that brings data from the host. -/
def State.rxFree (s : State) (fn : Nat) : Bool :=
  !s.rxCapped fn && mayShare s.hif.capLink (fun f => (s.acct f).rx.used) s.linkWeight (s.linkDemand false) fn

/-! ### Fetch (R249, R262) -/

/-- The instruction word at the pc, where its line is in the instruction cache. -/
def Core.wordAtPc (c : Core) : Option Dword :=
  if c.icBad.contains (c.pc / 64) then none
  else (find c.icache (c.pc / 64)).map (fun l => (l.ushiftRight (8 * (c.pc % 64))).truncate 32)

/-- The pc lies in the node's code blob (R259). -/
def State.inBlob (s : State) (x : Task) (pc : Nat) : Bool :=
  decide ((s.blob x).1 ≤ pc) && decide (pc < (s.blob x).1 + (s.blob x).2)

/-- A line enters the instruction cache; an armed error lies in it (R263). -/
def Core.putLine (c : Core) (line : Nat) (l : Line) : Core :=
  match c.armed.find? (fun p => p.1 = 2) with
  | some p => { c with icache := put c.icache line l, icBad := line :: c.icBad.erase line, armed := c.armed.erase p }
  | none => { c with icache := put c.icache line l, icBad := c.icBad.erase line }

/-- A line leaves the instruction cache. -/
def Core.dropLine (c : Core) (line : Nat) : Core := { c with icache := del c.icache line, icBad := c.icBad.erase line }

/-- Fill a line of the instruction cache: 64 sets of 8 ways, an open choice of which line of a full set gives way (R249). -/
def State.fillICache (s : State) (t line : Nat) (l : Line) : State :=
  let c := s.core t
  let same := (c.icache.map Prod.fst).filter (fun k => Config.icacheSet k % 64 = Config.icacheSet line % 64)
  if c.icache.length < 8 ∨ (find c.icache line).isSome ∨ same.length < 8 then s.setCore t (c.putLine line l)
  else (s.setCore t ((c.dropLine ((same[s.free % 8]?).getD 0)).putLine line l)).drawn

/-- Vector work is in progress on a core. -/
def Core.vectorBusy (c : Core) : Bool := !c.vq.isEmpty || !c.vmem.isEmpty

/-- An instruction cannot fault precisely before earlier vector instructions are done (R264, R296). -/
def State.preciseFault (s : State) (t : Nat) (f : CoreFault) : State :=
  if (s.core t).vectorBusy then s else s.coreFault t f

/-! ### Issue (R236, R241, R246) -/

/-- What an instruction does at issue: wait, raise a precise fault of R259 (status, sub-status, ADDR, TRAP_CODE), or
leave a new state. -/
inductive Issued where
  | wait
  | raises (status sub addr trap : Nat)
  | goes (s : State)

/-- The tile runs an instruction stream from which `w` comes next. -/
def State.canIssue (s : State) (t : Nat) (w : Dword) : Bool :=
  s.running &&
    if s.rd fOCA_TILE_STATE t = tsMaintenance then !(s.core t).halted && !(s.core t).icBad.contains ((s.core t).pc / 64)
    else
      match s.tileTask t with
      | none => false
      | some (_, x) => !s.scrubbing t && s.inBlob x (s.core t).pc && (s.core t).wordAtPc = some w

/-- The pc left the code blob: FETCH_RANGE, with the branch target where a branch led there (R259). -/
def State.checkRange (s : State) (t : Nat) : State :=
  match s.tileTask t with
  | none => s
  | some (_, x) =>
    let c := s.core t
    if s.inBlob x c.pc then s
    else s.preciseFault t ⟨0x30, 0x03, false, 0, c.pc, if c.branched then c.pc else 0, 0xFFFFFFFF, 0⟩

/-- An instruction has issued: it counts in INSTRET, and the pc goes on. -/
def Core.advance (c : Core) (pc : Nat) (branched : Bool) : Core :=
  { c with pc := pc, instret := c.instret + 1, stamp := c.stamp + 1, branched := branched }

/-- Go on to the next instruction. -/
def State.nextPc (s : State) (t : Nat) : State :=
  (s.onCore t (fun c => c.advance ((c.pc + 4) % 2 ^ 64) false)).checkRange t

/-- Some register that is read holds an uncorrectable error (R263). -/
def Core.badRead (c : Core) (reads : List Nat) : Bool := reads.any (fun r => find c.regBad r = some true)

/-- Reading registers corrects and counts the correctable errors that they hold (R263). -/
def State.correctRegs (s : State) (t : Nat) (reads : List Nat) : State :=
  (reads.filter (fun r => find (s.core t).regBad r = some false)).foldl (fun s r =>
    (s.onCore t (fun c => { c with regBad := del c.regBad r })).tileCorrected t fOCA_CORRECTED_REGISTERS) s

/-- An instruction reads a register with an uncorrectable error (R263). -/
def State.badRegister (s : State) (t : Nat) (w : Dword) : State :=
  (s.tileUncorrectable t).preciseFault t (.precise 0x20 0x03 w (s.core t).pc 0 0)

/-- Issue a word as one of instruction `e`'s, which reads the registers `reads` and the predicate of its guard; `f` is its
effect, the pc included. -/
def State.issue (s : State) (t : Nat) (w : Dword) (e : Enc) (reads : List Nat) (f : State → Core → Issued) : State :=
  let c := s.core t
  if !s.canIssue t w then s
  else if !legal w then s.preciseFault t (.precise 0x30 0x01 w c.pc 0 0)
  else if !e.has w then s
  else if reads.any c.awaits then s
  else if c.badRead [predWord (wPsel w)] then s.badRegister t w
  else if !predTest c.p w then (s.correctRegs t [predWord (wPsel w)]).nextPc t
  else if c.badRead reads then s.badRegister t w
  else
    let u := s.correctRegs t (predWord (wPsel w) :: reads)
    match f u (u.core t) with
    | .wait => s
    | .raises st sub addr trap => u.preciseFault t (.precise st sub w c.pc addr trap)
    | .goes v => v

/-- A result written to rd; the pc goes on. -/
def State.writeBack (s : State) (t rd : Nat) (v : Qword) : State := (s.onCore t (fun c => c.putX rd v)).nextPc t

end Sys2Proof.Machine
end

