-- ==== Sys2Proof/Machine/Peg.lean ====
section
/-! DEFINITION. Bosun's choice of tasks, the pegs of tiles, staging and starts, time limits and kills, the lockstep
check, and the maintenance of tiles (spec/08_bosun_scheduler.md R205 to R220, R233 to R235;
spec/09_operator_core.md R239, R240, R263 to R267; spec/03_clocks_reset_bringup.md R75). -/

namespace Sys2Proof.Machine

/-! ### Eligible tasks (R205 to R207) -/

/-- The class of a ready list (R205): 0 PRIORITY, 1 STANDARD, 2 BACKGROUND; 3 acts as 1. -/
def State.listClass (s : State) (list : Nat) : Nat :=
  let fs := [fBSN_QOS_MAP_CLASS_0, fBSN_QOS_MAP_CLASS_1, fBSN_QOS_MAP_CLASS_2, fBSN_QOS_MAP_CLASS_3,
    fBSN_QOS_MAP_CLASS_4, fBSN_QOS_MAP_CLASS_5, fBSN_QOS_MAP_CLASS_6, fBSN_QOS_MAP_CLASS_7]
  let c := s.setting (fs.getD (list % 8) fBSN_QOS_MAP_CLASS_0) (list / 8)
  if c = 3 then 1 else c

/-- Tasks of the node in the run that run or are in pegs stay below MAX_TASKS. -/
def State.underMax (s : State) (g : Graph) (x : Task) : Bool :=
  (g.node x.node).maxTasks = 0 || decide (((s.tasksOf x.run).filter (fun kt => kt.2.node = x.node
    && (kt.2.state = .pegged || kt.2.state = .running))).length < (g.node x.node).maxTasks)

/-- A slot of a flow is complete (R227). -/
def Flow.slotDone (f : Flow) (seq : Nat) : Bool := find f.counts seq = some 0

/-- The destination of an ORDERED edge with MAX_TASKS 1 takes its sequence in order (R207). -/
def State.inTurn (s : State) (g : Graph) (r : Run) (x : Task) : Bool :=
  (g.node x.node).maxTasks ≠ 1 ||
    match r.flowOfD g x.node with
    | none => true
    | some ef =>
      (s.flow ef.2).all (fun f => (List.range ((x.seq + 2 ^ 32 - f.head) % 2 ^ 32)).all (fun k =>
        f.slotDone ((f.head + k) % 2 ^ 32)))
      && !(s.tasksOf x.run).any (fun kt => kt.2.node = x.node && kt.2.seq = x.seq && kt.2.state ≠ .ending
          && (kt.2.token.map Token.subseq).getD 0 < (x.token.map Token.subseq).getD 0)

/-- What R207 asks of a ready task, apart from its tile and its function's cap. -/
def State.eligible (s : State) (x : Task) : Bool :=
  match s.run x.run with
  | none => false
  | some r =>
    let g := s.graphOf r
    x.state = .ready && !r.stopping && s.underMax g x && s.bufsFree x.run r g x.node && r.nodeRoom g x.node && s.inTurn g r x

/-- The kind of a task's node. -/
def State.kindOf (s : State) (x : Task) : Nat :=
  match s.run x.run with
  | none => 0
  | some r => ((s.graphOf r).node x.node).kind

/-- The ready tasks of the node kinds `ks` that may be dispatched. -/
def State.eligibles (s : State) (ks : List Nat) : List (Nat × Task) :=
  s.bsn.tasks.filter (fun kt => ks.contains (s.kindOf kt.2) && s.eligible kt.2)

/-! ### Preferences (R206, R208, R209) -/

/-- Core time used in the window in proportion to the weight: function `a`'s ratio is below `b`'s. -/
def State.ratioLess (s : State) (a b : Nat) : Bool :=
  (s.acct a).core.used * s.coreWeight b < (s.acct b).core.used * s.coreWeight a

/-- Preference 4: within one function. -/
def State.taskBefore (s : State) (a b : Nat × Task) : Bool :=
  let d (x : Task) := match s.run x.run with | none => 0 | some r => (s.graphOf r).dist x.node
  d a.2 < d b.2 || (d a.2 = d b.2 && (a.2.seq < b.2.seq || (a.2.seq = b.2.seq && a.2.made < b.2.made)))

/-- Preferences 3 and 4. -/
def State.shareBefore (s : State) (a b : Nat × Task) : Bool :=
  if a.2.fn = b.2.fn then s.taskBefore a b
  else if s.ratioLess a.2.fn b.2.fn then true
  else if s.ratioLess b.2.fn a.2.fn then false
  else getD 0 s.bsn.lastDispatch a.2.fn < getD 0 s.bsn.lastDispatch b.2.fn

/-- All preferences, for a unit that holds function `fn` (preference 1) and is at home stack `home` (preference 2). -/
def State.prefers (s : State) (fn home : Option Nat) (a b : Nat × Task) : Bool :=
  let p1 (x : Task) : Bool := fn = some x.fn
  let p2 (x : Task) : Bool := home.isSome && x.home = home
  if p1 a.2 ≠ p1 b.2 then p1 a.2 else if p2 a.2 ≠ p2 b.2 then p2 a.2 else s.shareBefore a b

/-- The best of a list. -/
def bestBy {α : Type} (better : α → α → Bool) : α → List α → α
  | c, [] => c
  | c, d :: rest => bestBy better (if better d c then d else c) rest

/-- Candidates of the highest class. -/
def State.topClass (s : State) (cs : List (Nat × Task)) : List (Nat × Task) :=
  let k := (cs.map (fun c => s.listClass c.2.list)).foldl min 3
  cs.filter (fun c => s.listClass c.2.list = k)

/-- The chosen candidate of R206 and R208. -/
def State.choose (s : State) (fn home : Option Nat) (cs : List (Nat × Task)) : Option (Nat × Task) :=
  match s.topClass cs with
  | [] => none
  | c :: rest => some (bestBy (s.prefers fn home) c rest)

/-- Assign a task to a peg or job slot: it takes its buffers (R177, R207). -/
def State.dispatch (s : State) (k : Nat) (x : Task) (p : Place) : State :=
  match s.run x.run with
  | none => s
  | some r =>
    let u := s.setTask k { x with
      state := .pegged, place := p, staged := false, bufs := s.takeBufs x.run r (s.graphOf r) x.node }
    { u with bsn := { u.bsn with
      dispatches := u.bsn.dispatches + 1, lastDispatch := put u.bsn.lastDispatch x.fn (u.bsn.dispatches + 1) } }

/-- A pegged task goes back to its ready list (R212). -/
def State.unpeg (s : State) (p : Place) : State :=
  match s.pegTask p with
  | none => s
  | some (k, x) => s.setTask k { x with state := .ready, place := .none, staged := false, bufs := [] }

/-! ### The pegs of a tile (R207 to R209) -/

/-- A mast is ready (R80). -/
def State.mastReady (s : State) (m : Nat) : Bool := (s.rd fMGT_READY_MAP_MAST_MAST_READY 0).testBit m

/-- A tile that Bosun may dispatch to. -/
def State.tileOpen (s : State) (t : Nat) : Bool :=
  decide (t < 544) && s.mastReady (mastOf t) && s.rd fOCA_TILE_STATE t = tsService

/-- The function that a tile holds. -/
def State.tileHolds (s : State) (t : Nat) : Option Nat :=
  if s.rd fOCA_TILE_FN_VALID t = 1 then some (s.rd fOCA_TILE_FN t) else none

/-- The function that the tile will hold when the peg's task starts. -/
def State.pegHolds (s : State) (t peg : Nat) : Option Nat :=
  if peg = 0 then s.tileHolds t
  else match s.pegTask (.pegA t) with
    | some (_, x) => some x.fn
    | none => s.tileHolds t

/-- Preference 1 after R209: dropped where the tile has kept one function for HOLD_US and another function of the class
has a smaller ratio. -/
def State.keepFn (s : State) (t : Nat) (fn : Option Nat) (cs : List (Nat × Task)) : Option Nat :=
  let hold := s.setting fBSN_AFFINITY_HOLD_US 0
  match fn with
  | none => none
  | some f =>
    if hold ≠ 0 ∧ (s.core t).fnSince + ticksOfUs hold ≤ s.clk.tsu ∧ cs.any (fun c => c.2.fn ≠ f && s.ratioLess c.2.fn f)
    then none else some f

/-- The task that a peg of a tile takes. -/
def State.pegChoice (s : State) (t peg : Nat) : Option (Nat × Task) :=
  let cs := s.topClass ((s.eligibles [1]).filter (fun c => !s.coreCapped c.2.fn))
  let home := if s.stackReady (tileHome t) then some (tileHome t) else none
  s.choose (s.keepFn t (s.pegHolds t peg) cs) home cs

def pegPlace (t peg : Nat) : Place := if peg = 0 then .pegA t else .pegB t

/-- Functions whose eligible tasks only their cap holds back (R122). -/
def State.noteCapped (s : State) : State :=
  (((s.eligibles [1]).filter (fun c => s.coreCapped c.2.fn)).map (fun c => c.2.fn)).foldl State.heldBack s

/-- Fill an empty peg of a tile. -/
def State.fillPeg (s : State) (t peg : Nat) : State :=
  if !s.tileOpen t || (s.pegTask (pegPlace t peg)).isSome then s
  else
    let u := s.noteCapped
    match s.pegChoice t peg with
    | none => u
    | some (k, x) => u.dispatch k x (pegPlace t peg)

/-! ### Staging (R181, R182, R186, R210, R240) -/

/-- A morsel token as 64 bytes (R180). -/
def tokenBytes (t : Token) : List Byte :=
  leBytes 4 t.seq ++ leBytes 2 t.flow ++ leBytes 1 (bit t.empty + 2 * bit t.skipped + 4 * bit t.poison)
    ++ leBytes 1 t.cols ++ leBytes 4 t.rows ++ leBytes 1 t.node ++ leBytes 1 t.subseq ++ leBytes 2 t.part
    ++ leBytes 8 t.srcTs ++ leBytes 8 (t.sel + 2 ^ 48 * t.fn) ++ leBytes 8 (t.colset + 2 ^ 48 * t.runTag)
    ++ leBytes 8 t.col0 ++ leBytes 8 t.timeLo ++ leBytes 8 t.timeHi

/-- LATE and CLOSE_BELOW that a task sees. -/
def Run.closeFor (r : Run) (g : Graph) (x : Task) : Bool × Nat :=
  if (g.node x.node).windowed then r.closeAt g x.node x.token else (false, 0)

/-- The task context (R181), 256 bytes. -/
def Run.context (r : Run) (g : Graph) (x : Task) : List Byte :=
  let n := g.node x.node
  let c := r.closeFor g x
  let out (p : Nat) : List Byte :=
    match x.bufs.find? (fun b => b.1 = p) with
    | some b => leBytes 8 (r.bufAddr g b.2) ++ leBytes 8 ((g.edge (b.2 / 256)).slotBytes)
    | none => leBytes 16 0
  leBytes 1 x.node ++ leBytes 1 x.port ++ leBytes 1 (bit x.isFinal + 2 * bit c.1 + 4 * bit x.isSource) ++ leBytes 1 0
    ++ leBytes 2 x.fn ++ leBytes 2 r.runTag ++ leBytes 8 (if n.stateful then r.arena + g.stateOff x.node else 0)
    ++ leBytes 8 c.2 ++ leBytes 40 0
    ++ (match x.token with | some t => tokenBytes t | none => leBytes 64 0)
    ++ ((List.range 8).map out).flatten

/-- The bank of a task: its context, and the node's constants at 0x0800 (R210, R240). -/
def Run.bank (r : Run) (g : Graph) (x : Task) : Mem :=
  let rec0 := r.record (g.node x.node)
  Mem.store (Mem.store [] 0 (r.context g x)) 0x800 ((rec0.drop 64).take (fieldAt rec0 4 4))

/-- The address of the first instruction of a node (R239). -/
def Graph.entry (g : Graph) (r : Run) (n : Nat) : Nat :=
  g.image + g.codeOff + (g.node n).codeOff + fieldAt (r.record (g.node n)) 0 4

/-- Bring an instruction line; one that cannot be delivered is met again when it is fetched (R262). -/
def State.stageLine (s : State) (t fn line : Nat) : State :=
  match s.translate fn (64 * line) .exec with
  | .error _ => s
  | .ok dpa =>
    let u := s.mastRead t fn (dpa / 64)
    if 2 ≤ u.lineClass (dpa / 64) then u else u.fillICache t line (u.lineData (dpa / 64))

/-- Stage a pegged task: context and constants into the peg's bank, and the four lines at ENTRY. -/
def State.stage (s : State) (t peg k : Nat) (x : Task) : State :=
  match s.run x.run with
  | none => s
  | some r =>
    let g := s.graphOf r
    let c := r.closeFor g x
    let s1 := match x.token with
      | some k => s.setRun x.run (r.noteClose g x.node k)
      | none => s
    let s2 := (s1.setTask k { x with staged := true, late := c.1, closeBelow := c.2 }).onCore t (fun c =>
      if peg = 0 then { c with bankA := r.bank g x } else { c with bankB := r.bank g x })
    (List.range 4).foldl (fun s i => s.stageLine t x.fn (g.entry r x.node / 64 + i)) s2

/-- A peg's task needs no scrub before it (R210, R213): its function is that of the task ahead, or the tile holds
none. -/
def State.noScrub (s : State) (t peg : Nat) (x : Task) : Bool :=
  match s.pegHolds t peg with
  | none => true
  | some f => f = x.fn

/-- STAGING_DONE (R210). -/
def execStagingDone (t peg : Nat) (s : State) : Res :=
  steady (s.running)
    (fun s => match s.pegTask (pegPlace t peg) with
      | none => s
      | some (k, x) => if x.staged ∨ !s.noScrub t peg x then s else s.stage t peg k x) s

/-! ### Starting (R211, R213, R214, R239, R240) -/

/-- The registers of a tile at the start of a task (R239, R269); the bank becomes the low 18 KiB of local store. Only the
vector registers, which stay as they are, keep their errors. -/
def Core.begin (c : Core) (k pc const lsBytes cyc : Nat) (bank : Mem) : Core :=
  { c with
    task := some k, pc := pc, p := 0, vl := 0, vrs := 0, m := [], cycStart := cyc, instret := 0, branched := false,
    x := setD 0 (setD 0 (setD 0 (setD 0 [] 1 (BitVec.ofNat 64 0xFFFF000000000000)) 2 (BitVec.ofNat 64 0xFFFF000000000800)) 3
      (BitVec.ofNat 64 (0xFFFF000000000800 + const))) 4 (BitVec.ofNat 64 lsBytes),
    ls := bank ++ c.ls.filter (fun ab => 0x4800 ≤ ab.1), lsBad := c.lsBad.filter (fun wb => 0x900 ≤ wb.1),
    regBad := c.regBad.filter (fun wb => 256 ≤ wb.1 && wb.1 < 4096) }

/-- Start the task of peg A, or of peg B where peg A is empty. After a scrub its first instruction waits for the scrub's
end. -/
def State.startTask (s : State) (t peg k : Nat) (x : Task) : State :=
  match s.run x.run with
  | none => s
  | some r =>
    let g := s.graphOf r
    let n := g.node x.node
    let since := if s.tileHolds t = some x.fn then (s.core t).fnSince else s.clk.tsu
    let c := s.core t
    let bank := if peg = 0 then c.bankA else c.bankB
    let wait := c.scrubEnd - s.clk.tsu
    let s1 := s.setCore t { c.begin k (g.entry r x.node) (fieldAt (r.record n) 4 4) n.lsBytes (s.clk.cyc + 12 * wait / s.clk.div) bank with
      fnSince := since, bankA := if peg = 0 then c.bankB else [], bankB := [] }
    let s2 := s1.setTask k { x with state := .running, place := .tile t, start := s.clk.tsu + wait }
    let s3 := match s2.pegTask (.pegB t) with
      | some (j, y) => s2.setTask j { y with place := .pegA t }
      | none => s2
    ((s3.wr fOCA_TILE_FN_VALID t 1).wr fOCA_TILE_FN t x.fn).bumpSat fOCA_TILE_TASKS t 1

/-- The peg from which the next task starts: A, or B where a task has left A without starting. -/
def State.nextPeg (s : State) (t : Nat) : Option (Nat × Nat × Task) :=
  match s.pegTask (.pegA t) with
  | some (k, x) => some (0, k, x)
  | none => (s.pegTask (.pegB t)).map (fun kx => (1, kx.1, kx.2))

/-- The run of a task is being cancelled, or is gone. -/
def State.runStopping (s : State) (x : Task) : Bool := (s.run x.run).all Run.stopping

/-- TASK_START (R211): the tile is idle and the peg is staged; on a change of function the tile is scrubbed first, at
the incoming function's charge, and the peg staged. -/
def State.taskStart (s : State) (t : Nat) : State :=
  if (s.core t).task.isSome then s
  else match s.nextPeg t with
    | none => s
    | some (peg, k, x) =>
      if s.runStopping x then s
      else if (s.tileHolds t).all (fun f => f = x.fn) then (if x.staged then s.startTask t peg k x else s)
      else
        let u := ((s.scrub t).chargeCore x.fn s.scrubTicks).stage t peg k x
        match u.task k with
        | none => u
        | some y => u.startTask t peg k y

def execTaskStart (t : Nat) (s : State) : Res := steady (s.starts 4 && s.rd fCVC_PS_STATUS_STATE 0 < 2 && s.tileOpen t) (fun s => s.taskStart t) s

/-! ### Kills and time limits (R216 to R219) -/

/-- Remove or kill a task (R216, R219): one that runs on a tile is stopped there; a SINK that writes a block finishes
it first (R490); an ENDING one has ended already. -/
def State.killTask (s : State) (k status sub : Nat) : State :=
  match s.task k with
  | none => s
  | some x =>
    if x.state = .ending then s
    else if (s.run x.run).any (fun r => r.sink = some k) then
      s.onRun x.run (fun r => { r with sinkKill := r.sinkKill.orElse (fun _ => some (status, sub)) })
    else match x.place, x.state with
      | .tile t, .running => s.endOnTile t status sub []
      | _, _ => (s.dropJob k).endTask k status sub 3 []

/-- A task's time limit in TCLK ticks (R218). -/
def State.limitOf (s : State) (x : Task) : Nat :=
  match s.run x.run with
  | none => 0
  | some r =>
    let l := ((s.graphOf r).node x.node).limitUs
    ticksOfUs (if l = 0 then s.setting1 fBSN_TASK_LIMIT_DEFAULT_US 0 else l)

/-- A RUNNING task has reached its limit. -/
def State.overdue (s : State) (k : Nat) : Bool :=
  (s.task k).any (fun x => x.state = .running && decide (x.start + s.limitOf x ≤ s.clk.tsu))

/-- A fault of class WORK in a page's log (R472 to R474). -/
def State.workFault (s : State) (sub fn status subst unit addr cause : Nat) : State :=
  s.fault sub { s.entry sub 1 with
    fn := some fn, status := status, sub := subst, unit := unit, addr := addr, kind := if addr = 0 then 0 else 2, cause := cause }

/-- A CANCEL that covers a task is at hand: the first one handed to QMG that an admin queue holds, of the task's function
or of PF0 (R153, R221, R223 to R225). -/
def State.cancelCovers (s : State) (x : Task) : Bool :=
  let covers (l : Line) : Bool :=
    let named : Bool := (s.queue x.fn (entryBytes l 8 2)).any (fun q =>
      q.fetched.any (fun e => e.tag = x.run && entryCid e.line = entryBytes l 10 2))
    entryBits l 6 0 11 = x.fn && (match entryBits l 4 0 2 with
      | 0 => named && entryBytes l 12 1 = x.node && entryBytes l 16 4 = x.seq
      | 1 => named
      | 2 => true
      | _ => false)
  [x.fn, 0].any (fun fn => (s.queue fn 0).any (fun q => !q.disabling && (q.fetched.find? (fun e =>
    e.stage = .handed && entryOpcode e.line = 0x18)).any (fun e => covers e.line)))

/-- TASK_TIMEOUT (R218). A cancel that reaches the task in the tick in which the limit expires goes first (R220). -/
def execTaskTimeout (k : Nat) (s : State) : Res :=
  steady (s.running && s.overdue k
      && (s.task k).any (fun x => decide (x.start + s.limitOf x < s.clk.tsu) || !s.cancelCovers x))
    (fun s => match s.task k with
      | none => s
      | some x => (s.workFault 3 x.fn 0x31 0 0xFFFF 0 5).killTask k 0x31 0) s

/-! ### The lockstep check (R233 to R235) -/

/-- The BSN stop that decides for a unit of a stack's home group: 0 west, 1 east. -/
def stopOfStack (st : Nat) : Nat := if st < 4 then 0 else 1

/-- A second disagreement within 1 ms (R234): the contained fatal error of BSN. -/
def State.lockFatal (s : State) (stop : Nat) : State :=
  let u := (s.wr fBSN_LOCKSTEP_TS_TS 0 s.clk.tsu).wr fBSN_LOCKSTEP_FATAL 0 1
  let v := { u with failedSubs := if u.failedSubs.contains 3 then u.failedSubs else u.failedSubs ++ [3] }
  v.fault 3 { v.entry 3 3 with unit := stop, cause := 3 }

/-- A disagreement in a stop (R233, R234). The decisions of the two copies are kept for the snapshot (R235). -/
def State.disagree (s : State) (stop : Nat) : State :=
  let s := { s with bsn := { s.bsn with
    inject := s.bsn.inject.filter (fun x => x ≠ stop),
    decisions := (s.bsn.decisions.drop (s.bsn.decisions.length - 1)) ++ [(s.clk.tsu, stop, s.free, s.drawn.free)] } }
  let s := s.drawn.drawn
  if s.bsn.lockAt.any (fun t => decide (s.clk.tsu < t + ticksOfMs 1)) then s.lockFatal stop
  else
    let u := ((s.bumpSat fBSN_LOCKSTEP_RECOVERED 0 1).wr fBSN_LOCKSTEP_TS_TS 0 s.clk.tsu).raise 3 3
    { u with bsn := { u.bsn with lockAt := some s.clk.tsu, halts := put u.bsn.halts stop s.clk.tsu } }

def execLockstepDisagreement (stop : Nat) (s : State) : Res :=
  steady (s.running && s.ready 3 && decide (stop < 2) && !s.failedSubs.contains 3) (fun s => s.disagree stop) s

/-- LOCKSTEP_HALT_END (R233): 1 µs has passed. -/
def execLockstepHaltEnd (stop : Nat) (s : State) : Res :=
  steady (s.running && (find s.bsn.halts stop).any (fun t => decide (t + ticksOfUs 1 ≤ s.clk.tsu)))
    (fun s => { s with bsn := { s.bsn with halts := del s.bsn.halts stop } }) s

def State.injectStop (s : State) (stop : Nat) : State :=
  s.expertWrite 3 (fun s =>
    if s.bsn.inject.contains stop then s else { s with bsn := { s.bsn with inject := s.bsn.inject ++ [stop] } })

def execInjectWest (s : State) : Res := steady (s.reaches 0 && s.ready 3) (fun s => (s.atRegion 3 0x900).injectStop 0) s
def execInjectEast (s : State) : Res := steady (s.reaches 0 && s.ready 3) (fun s => (s.atRegion 3 0x900).injectStop 1) s

/-! ### Core reset and maintenance (R75, R263, R265 to R267) -/

/-- A maintenance program has ended. -/
def State.maintEnd (s : State) (t : Nat) (pass : Bool) : State :=
  let u := ((s.scrub t).wr fOCA_TILE_MAINT_DONE t 1).wr fOCA_TILE_MAINT_PASS t (bit pass)
  u.raise 4 4

/-- A core reset of a tile (R75). DESIGN CHOICE (notes/assumptions/89.md): it does nothing to a tile that is FAILED or
DOWN. -/
def State.coreReset (s : State) (t : Nat) : State :=
  let st := s.rd fOCA_TILE_STATE t
  if st = tsMaintenance then (s.maintEnd t false).wr fOCA_TILE_STATE t tsSpare
  else if st = 0 ∨ st = tsFailed then s
  else ((((s.endOnTile t 0x32 0x04 []).unpeg (.pegA t)).unpeg (.pegB t)).onCore t
    (fun c => { c with resetEnd := s.clk.tsu + s.cyclesToTicks 64 })).scrub t

def execCoreReset (t : Nat) (s : State) : Res :=
  steady (s.reaches 0 && s.ready 4 && decide (t < 544)) (fun s => (s.atRegion 4 (0x10004 + 32 * t)).coreReset t) s

/-- MAINT_ENTER (R267): only a SPARE tile and a listed program; anything else is ignored and logged. -/
def State.maintEnter (s : State) (t program : Nat) : State :=
  if s.tileState t = tsSpare ∧ 1 ≤ program ∧ program ≤ 3 then
    (((((s.setCore t Core.zero).wr fOCA_TILE_STATE t tsMaintenance).wr fOCA_TILE_MAINT_PROGRAM t program).wr
      fOCA_TILE_MAINT_DONE t 0).wr fOCA_TILE_MAINT_PASS t 0)
  else s.notice 4 t

def execMaintEnter (t program : Nat) (s : State) : Res :=
  steady (s.reaches 0 && s.ready 4 && decide (t < 544)) (fun s => (s.atRegion 4 (0x10004 + 32 * t)).maintEnter t program) s

/-- MAINT_PROGRAM_END (R265, R267): a failed self-test fails the tile. A program that a fault stopped has not passed. -/
def execMaintProgramEnd (t : Nat) (pass_ : Bool) (s : State) : Res :=
  steady (s.running && s.rd fOCA_TILE_STATE t = tsMaintenance)
    (fun s =>
      let pass := pass_ && !(s.core t).halted
      let u := s.maintEnd t pass
      if !pass ∧ s.rd fOCA_TILE_MAINT_PROGRAM t = 1 then (u.wr fOCA_TILE_STATE t tsFailed).raise 4 3
      else u.wr fOCA_TILE_STATE t tsSpare) s

/-- OCA_ECC_INJECT with GO (R263): it arms an error for the next write of the target in a tile in MAINTENANCE. -/
def State.eccInject (s : State) (t target : Nat) (double : Bool) : State :=
  if s.rd fOCA_TILE_STATE t = tsMaintenance ∧ target < 3 then
    s.onCore t (fun c => { c with armed := c.armed.filter (fun a => a.1 ≠ target) ++ [(target, double)] })
  else s.notice 4 t

def execOcaEccInject (t target : Nat) (double : Bool) (s : State) : Res :=
  steady (s.reaches 0 && s.ready 4) (fun s => (s.atRegion 4 0x900).expertWrite 4 (fun s => s.eccInject t target double)) s

end Sys2Proof.Machine
end

