-- ==== Sys2Proof/Machine/Morsel.lean ====
section
/-! DEFINITION. The work of an engine's job on morsels: reads and writes that can end the job, column sets, selection
masks, keys, and the layout of output buffers (spec/07_pipeline_graphs.md R173, R178 to R180;
spec/11_associative_match.md R305, R306, R311; spec/16_memory_translation_ecc.md R421, R429, R432). -/

namespace Sys2Proof.Machine

/-! ### Jobs -/

/-- What an engine does in one job: it changes the state, and gives a value or ends with a status and sub-status. The
flag says that a partial write met a bad line (R432). -/
abbrev Job (α : Type) := ExceptT (Nat × Nat) (StateM (State × Bool)) α

/-- Read device virtual addresses for a function. -/
def jobRead (fn va n : Nat) : Job (List Byte) := do
  let p ← get
  let g := p.1.engineRead fn va n
  set (g.st, p.2)
  if g.status = 0 then pure g.data else throw (g.status, g.sub)

/-- Write device virtual addresses for a function. -/
def jobWrite (fn va : Nat) (d : List Byte) : Job Unit := do
  let p ← get
  let g := p.1.engineWrite fn va d
  set (g.st, p.2 || g.status = 0x21)
  if g.status = 0x22 then throw (g.status, g.sub) else pure ()

/-- Change the state. -/
def jobDo (f : State → State) : Job Unit := modify (fun p => (f p.1, p.2))

/-- Look at the state. -/
def jobGet {α : Type} (f : State → α) : Job α := do
  let p ← get
  pure (f p.1)

/-- End the job unless `c` holds. -/
def jobNeed (c : Bool) (status sub : Nat) : Job Unit := if c then pure () else throw (status, sub)

/-- Apply a job to each element in turn. -/
def jobEach {α : Type} (f : α → Job Unit) : List α → Job Unit
  | [] => pure ()
  | x :: rest => do
    f x
    jobEach f rest

/-- The values of a job for each element. -/
def jobAll {α β : Type} (f : α → Job β) : List α → Job (List β)
  | [] => pure []
  | x :: rest => do
    let y ← f x
    let ys ← jobAll f rest
    pure (y :: ys)

/-- Run a job: the value or its failure, and the state. A bad line met by a partial write fails a job that went on to
its end (R432). -/
def State.runJob {α : Type} (s : State) (j : Job α) : Except (Nat × Nat) α × State :=
  match (ExceptT.run j).run (s, false) with
  | (.ok v, (t, soft)) => (if soft then .error (0x21, 0x42) else .ok v, t)
  | (.error e, (t, _)) => (.error e, t)

/-! ### Column sets (R178) -/

/-- A column descriptor. -/
structure Col where
  data : Nat
  aux : Nat
  null : Nat
  type : Nat
  id : Nat
  bytes : Nat
  /-- A reserved field is not zero. -/
  reserved : Bool
  deriving DecidableEq, Repr

def parseCol (d : List Byte) : Col :=
  { data := bitsAt d 0 0 48, aux := bitsAt d 8 0 48, null := bitsAt d 16 0 48, type := bitsAt d 24 0 4,
    id := fieldAt d 25 1, bytes := fieldAt d 28 4,
    reserved := bitsAt d 0 48 16 ≠ 0 || bitsAt d 8 48 16 ≠ 0 || bitsAt d 16 48 16 ≠ 0 || bitsAt d 24 4 4 ≠ 0
      || nonzeroAt d 26 28 }

def colBytes (c : Col) : List Byte :=
  leBytes 8 c.data ++ leBytes 8 c.aux ++ leBytes 8 c.null ++ leBytes 1 c.type ++ leBytes 1 c.id ++ leBytes 2 0
    ++ leBytes 4 c.bytes

/-- The columns of a token. -/
def readCols (fn : Nat) (t : Token) : Job (List Col) := do
  let d ← jobRead fn t.colset (32 * t.cols)
  pure ((List.range t.cols).map (fun i => parseCol (d.drop (32 * i))))

/-- The width in bytes of the elements of a type; 0 for a type without fixed elements. -/
def typeWidth (t : Nat) : Nat := if t ≤ 4 then 2 ^ t else 0

/-- The bits of a bitmap of `n` bits. -/
def bitsOf (n : Nat) (d : List Byte) : List Bool := (List.range n).map (fun i => (d.getD (i / 8) 0).getLsbD (i % 8))

/-- A bitmap of bits. -/
def bitmapOf (bs : List Bool) : List Byte :=
  (List.range ((bs.length + 7) / 8)).map (fun i =>
    BitVec.ofNat 8 ((List.range 8).foldl (fun v k => v + bit (bs.getD (8 * i + k) false) * 2 ^ k) 0))

/-- The data of a column: its elements; its offsets; or its compressed bytes. -/
def readData (fn rows : Nat) (c : Col) : Job (List Byte) :=
  jobRead fn c.data (if c.type = 8 then 4 * (rows + 1) else if c.type = 15 then c.bytes else rows * typeWidth c.type)

/-- The heap of a column of type 0x8: the bytes that its last offset bounds. -/
def readHeap (fn rows : Nat) (c : Col) (data : List Byte) : Job (List Byte) :=
  if c.type = 8 then jobRead fn c.aux (fieldAt data (4 * rows) 4) else pure []

/-- The validity bitmap of a column as bytes: empty where it has none. -/
def readNulls (fn rows : Nat) (c : Col) : Job (List Byte) :=
  if c.null = 0 then pure [] else jobRead fn c.null ((rows + 7) / 8)

/-- Which rows of a column are valid. -/
def validOf (rows : Nat) (nulls : List Byte) : List Bool :=
  if nulls = [] then List.replicate rows true else bitsOf rows nulls

/-- Which rows of a token are selected. -/
def readSel (fn : Nat) (t : Token) : Job (List Bool) :=
  if t.sel = 0 then pure (List.replicate t.rows true)
  else do
    let d ← jobRead fn t.sel ((t.rows + 7) / 8)
    pure (bitsOf t.rows d)

/-! ### Keys (R305, R306) -/

/-- The KEY_COL list at offset 4 of a record, up to the first 0xFF. -/
def keyCols (r : List Byte) : List Nat := ((List.range 4).map (fun i => fieldAt r (4 + i) 1)).takeWhile (fun c => c ≠ 0xFF)

/-- The columns of the identifiers, in order; INVALID_DESCRIPTOR 0x50 where one is missing. -/
def pickCols (cols : List Col) (ids : List Nat) : Job (List Col) :=
  jobAll (fun i => match cols.find? (fun c => c.id = i) with
    | some c => pure c
    | none => throw (0x10, 0x50)) ids

/-- The bytes of the keys of every row, one list for each column. -/
def readKeys (fn rows : Nat) (cols : List Col) : Job (List (Nat × List Byte)) :=
  jobAll (fun c => do
    let d ← readData fn rows c
    pure (typeWidth c.type, d)) cols

/-- The key bytes of a row. -/
def rowKey (ks : List (Nat × List Byte)) (row : Nat) : List Byte :=
  (ks.map (fun k => (k.2.drop (row * k.1)).take k.1)).flatten

/-! ### Layout of an output buffer (R311, R325, R326, R350) -/

/-- The first address at or above `a` that is a multiple of 4 KiB. -/
def pageUp (a : Nat) : Nat := roundUp a 4096

/-- Addresses of parts laid one after the other at 4 KiB boundaries from `base`, and the end of the last. -/
def layParts (base : Nat) : List Nat → List Nat × Nat
  | [] => ([], base)
  | n :: rest =>
    let a := pageUp base
    let r := layParts (a + n) rest
    (a :: r.1, r.2)

/-- The bytes that a layout takes from `base`, a multiple of 4 KiB. -/
def layBytes (base : Nat) (sizes : List Nat) : Nat := (layParts base sizes).2 - base

/-- A column with its bytes: what an output buffer holds of it. -/
structure ColData where
  col : Col
  data : List Byte
  heap : List Byte
  nulls : List Byte
  deriving DecidableEq, Repr

def readColData (fn rows : Nat) (c : Col) : Job ColData := do
  let d ← readData fn rows c
  let h ← readHeap fn rows c d
  let n ← readNulls fn rows c
  pure ⟨c, d, h, n⟩

/-- The parts of copied columns: data, heap and bitmap of each. -/
def ColData.parts (c : ColData) : List (List Byte) :=
  [c.data] ++ (if c.col.type = 8 then [c.heap] else []) ++ (if c.nulls = [] then [] else [c.nulls])

/-- A copied column's descriptor, its parts laid from address list `as`; the answer gives the addresses left. -/
def ColData.placed (c : ColData) (as : List Nat) : Col × List Nat :=
  let aux := if c.col.type = 8 then as.getD 1 0 else 0
  let k := if c.col.type = 8 then 2 else 1
  let null := if c.nulls = [] then 0 else as.getD k 0
  ({ c.col with data := as.getD 0 0, aux := aux, null := null, reserved := false },
    as.drop (k + (if c.nulls = [] then 0 else 1)))

/-- Descriptors of columns copied to the addresses `as`. -/
def placeAll : List ColData → List Nat → List Col
  | [], _ => []
  | c :: rest, as => (c.placed as).1 :: placeAll rest (c.placed as).2

/-- Write parts at their addresses. -/
def writeParts (fn : Nat) (parts : List (Nat × List Byte)) : Job Unit := jobEach (fun p => jobWrite fn p.1 p.2) parts

/-- The buffer that a fixed-function task writes its morsel into: that of its lowest port with buffers, and for a
HOLD_READ that of port 0 alone (R175, R177): number, address and bytes. -/
def Run.outBuf (r : Run) (g : Graph) (x : Task) : Option (Nat × Nat × Nat) :=
  (x.bufs.find? (fun b => (g.node x.node).kind ≠ 7 || b.1 = 0)).map
    (fun b => (b.2, r.bufAddr g b.2, (g.edge (b.2 / 256)).slotBytes))

/-- The output token of a fixed-function task: the input's SEQ, times and source (R180), with a new column set. -/
def outToken (x : Task) (r : Run) (t : Token) (rows cols colset col0 sel : Nat) (bufs : List Nat) : Token :=
  let empty := rows = 0 || cols = 0
  { t with
    seq := x.seq, flow := 0, empty := empty, skipped := false, poison := false, cols := cols, rows := rows,
    node := x.node, subseq := 0, part := 0, sel := sel, colset := colset, runTag := r.runTag,
    col0 := if cols = 0 then 0 else col0, bufs := if empty then [] else bufs, stamp := 0 }

/-- The same token on every port of the node that carries tokens. -/
def onPorts (g : Graph) (n : Nat) (t : Token) : List (Nat × Token) := (g.dataPorts n).map (fun p => (p, t))

/-! ### Engine tasks (R215, R216) -/

/-- A pegged task starts on its engine (R216, R218). -/
def State.engineStart (s : State) (k : Nat) : State :=
  match s.task k with
  | none => s
  | some x => s.setTask k { x with state := .running, start := s.clk.tsu }

/-- A fault of the kinds that are classed WORK (R474) is entered in the log of the unit's page. -/
def State.jobFault (s : State) (sub fn : Nat) (e : Nat × Nat) : State :=
  if e.1 = 0x20 ∨ e.1 = 0x21 ∨ e.1 = 0x22 then s.workFault sub fn e.1 e.2 0xFFFF 0 0 else s

/-- Keep what a finished job gives until its end. -/
def State.setResult (s : State) (k status sub : Nat) (outs : List (Nat × Token)) : State :=
  match s.task k with
  | none => s
  | some x => s.setTask k { x with result := some (status, sub, outs) }

/-- Start a task, do its work for subsystem `sub`, and keep its result. -/
def State.engineTask (s : State) (k sub : Nat) (j : Task → Run → Graph → Job (List (Nat × Token))) : State :=
  match s.task k with
  | none => s
  | some x =>
    match s.run x.run with
    | none => s
    | some r =>
      match (s.engineStart k).runJob (j x r (s.graphOf r)) with
      | (.ok outs, t) => t.setResult k 0 0 outs
      | (.error e, t) => (t.jobFault sub x.fn e).setResult k e.1 e.2 []

/-- A pegged task of one of the kinds `ks`, whose run goes on and whose function may use HBM, on an engine that is awake. -/
def State.engineReady (s : State) (k : Nat) (ks : List Nat) : Bool :=
  s.running && s.rd fCVC_PS_STATUS_STATE 0 = 0
    && (s.task k).any (fun x => x.state = .pegged && ks.contains (s.kindOf x) && !s.runStopping x && s.hbmFree x.fn)

end Sys2Proof.Machine
end

