-- ==== Sys2Proof/Machine/Match.lean ====
section
/-! DEFINITION. The Sorting Table: tables, insertion, search with verification, build and probe jobs, the scrub,
release and replacement of banks (spec/11_associative_match.md). -/

namespace Sys2Proof.Machine

/-! ### Tables and banks (R298 to R301) -/

def State.table (s : State) (k : Nat) : Option AmuTable := find s.amu.tables k
def State.setTable (s : State) (k : Nat) (t : AmuTable) : State := { s with amu := { s.amu with tables := put s.amu.tables k t } }

/-- Entries per bank (R299). -/
def AmuTable.perBank (t : AmuTable) : Nat := 4096 / t.keyUnits

/-- An entry of a bank. -/
def State.amuEntry (s : State) (b e : Nat) : Option AmuEntry := find s.amu.entries (b * 4096 + e)

def State.putEntry (s : State) (b e : Nat) (x : AmuEntry) : State :=
  { s with amu := { s.amu with entries := put s.amu.entries (b * 4096 + e) x } }

/-- The hash of a key's bytes (R306). -/
def keyHash (key : List Byte) : Nat := (crc32c key).toNat

/-- The home position of a key in a hashed table (R306). -/
def homePos (banks : Nat) (key : List Byte) : Nat := keyHash key % 2 ^ 16 * banks / 2 ^ 16

/-- A bank's wear reached its threshold (R316): it is marked for retirement. -/
def State.bankWear (s : State) (b : Nat) : State :=
  if s.setting1 fAMU_RETIRE_THRESHOLD 0 ≤ s.rd fAMU_BANK_FALSE_HITS b + s.rd fAMU_BANK_SCRUB_FIXED b then
    (s.wr fAMU_BANK_RETIRE_MARK b 1).mark 1 b 1
  else s

/-- A copy that yields an uncorrectable error (R314): the entry is invalidated, its table is damaged, and the fault is
raised and logged. -/
def State.badCopy (s : State) (k b e : Nat) : State :=
  let s1 := { s with amu := { s.amu with entries := del s.amu.entries (b * 4096 + e) } }.wr fAMU_BANK_USED b
    (s.rd fAMU_BANK_USED b - 1)
  let s2 := match s1.table k with
    | some t => s1.setTable k { t with damaged := true, entries := t.entries - 1 }
    | none => s1
  s2.fault 8 { s2.entry 8 1 with
    fn := some (s2.rd fAMU_BANK_FN b), status := 0x20, sub := 0x10, unit := b, cause := 2 }

/-! ### Insertion (R307) -/

/-- The lowest free entry of a bank of the table. -/
def State.freeSlot (s : State) (t : AmuTable) (b : Nat) : Option Nat :=
  (List.range t.perBank).find? (fun e => (s.amuEntry b e).isNone)

/-- Insert an entry: its home bank where the table is hashed, else the lowest position with a free entry; none where
the table is full. -/
def State.amuInsert (s : State) (k : Nat) (t : AmuTable) (key : List Byte) (payload : Nat) (pvalid : Bool) : Option State :=
  let place (b e : Nat) (spill : Bool) : State :=
    let s1 := s.putEntry b e ⟨leNat key, leNat key, payload, pvalid, false⟩
    (s1.wr fAMU_BANK_USED b (s1.rd fAMU_BANK_USED b + 1)).setTable k
      { t with entries := t.entries + 1, spilled := t.spilled || spill }
  let home := if t.hashed then t.banks[homePos t.banks.length key]? else none
  match home.bind (fun b => (s.freeSlot t b).map (fun e => (b, e))) with
  | some (b, e) => some (place b e false)
  | none =>
    match t.banks.find? (fun b => (s.freeSlot t b).isSome) with
    | none => none
    | some b => (s.freeSlot t b).map (fun e => place b e t.hashed)

/-! ### Search (R300, R309, R313) -/

/-- What a search gives: a miss, or the winner's table index, count and payload. -/
structure Found where
  hit : Bool
  index : Nat
  count : Nat
  payload : Nat
  pvalid : Bool

def Found.miss : Found := ⟨false, 0, 0, 0, false⟩

/-- The match word (R310). -/
def Found.word (f : Found) : Nat :=
  if f.hit then f.index + 2 ^ 24 * f.count + (if 2 ≤ f.count then 2 ^ 28 else 0) else 0

/-- Entries of the positions whose match cells equal the key, by table index: index, bank, entry. -/
def State.matching (s : State) (t : AmuTable) (ps : List Nat) (key : Nat) : List (Nat × Nat × Nat) :=
  (ps.map (fun p =>
    let b := t.banks.getD p 0
    ((List.range t.perBank).filter (fun e => (s.amuEntry b e).any (fun x => x.cells = key))).map
      (fun e => (p * t.perBank + e, b, e)))).flatten

/-- Verify the matching entries in order (R313): the first whose copy equals the key wins; a false hit is counted and
its cells rewritten. A bad copy ends the search, and with it the task (R314). -/
def State.verify (s : State) (k key count : Nat) : List (Nat × Nat × Nat) → Except (Nat × Nat) Found × State
  | [] => (.ok Found.miss, s)
  | (i, b, e) :: rest =>
    match s.amuEntry b e with
    | none => s.verify k key count rest
    | some x =>
      if x.bad then (.error (0x20, 0x10), s.badCopy k b e)
      else if x.key = key then (.ok ⟨true, i, min count 15, x.payload, x.pvalid⟩, s)
      else
        let u := ((s.putEntry b e { x with cells := x.key }).bumpSat fAMU_BANK_FALSE_HITS b 1).bumpSat fAMU_FALSE_HITS_COUNT 0 1
        (u.bankWear b).verify k key (count - 1) rest

/-- A search of a table. -/
def State.amuSearch (s : State) (k : Nat) (t : AmuTable) (key : List Byte) : Except (Nat × Nat) Found × State :=
  let ps := if t.hashed && !t.spilled then [homePos t.banks.length key] else List.range t.banks.length
  let u := ps.foldl (fun s p => s.bumpWrap fAMU_BANK_SEARCHES (t.banks.getD p 0) 1) s
  let ms := u.matching t ps (leNat key)
  u.verify k (leNat key) ms.length ms

/-! ### MATCH_BUILD (R307, R312) -/

/-- Keys of a job's token (R305): the bytes of each row, the rows that are keyed, the key's width and the selection. -/
structure Keyed where
  keys : List (Nat × List Byte)
  valid : List Bool
  sel : List Bool
  width : Nat

/-- Read the keys of a token for a table of `units` units. -/
def readKeyed (fn : Nat) (t : Token) (cols : List Col) (r : List Byte) (units : Nat) : Job Keyed := do
  let kc ← pickCols cols (keyCols r)
  let width := (kc.map (fun c => typeWidth c.type)).foldl (· + ·) 0
  jobNeed (kc.all (fun c => c.type ≤ 4)) 0x10 0x51
  jobNeed (width ≤ 8 * units) 0x10 0x51
  let ks ← readKeys fn t.rows kc
  let ns ← jobAll (fun c => do
    let n ← readNulls fn t.rows c
    pure (validOf t.rows n)) kc
  let sel ← readSel fn t
  pure ⟨ks, (List.range t.rows).map (fun i => ns.all (fun v => v.getD i false)), sel, width⟩

/-- The padded key of a row. -/
def Keyed.key (q : Keyed) (units row : Nat) : List Byte :=
  let k := rowKey q.keys row
  k ++ List.replicate (8 * units - k.length) 0

/-- Insert the keyed rows in order; OUTPUT_FULL where one finds no free entry. -/
def buildRows (k units : Nat) (q : Keyed) (pay : List (Nat × Bool)) : List Nat → Job Unit
  | [] => pure ()
  | i :: rest =>
    if q.sel.getD i false && q.valid.getD i false then do
      let t ← jobGet (fun s => s.table k)
      match t with
      | none => pure ()
      | some t =>
        let p := pay.getD i (0, true)
        let r ← jobGet (fun s => s.amuInsert k t (q.key units i) p.1 p.2)
        match r with
        | none => throw (0x14, 0x01)
        | some u => do
          jobDo (fun _ => u)
          buildRows k units q pay rest
    else buildRows k units q pay rest

/-- The table of a task's node in its run. -/
def tableKey (x : Task) (rec0 : List Byte) : Nat := x.run * 8 + fieldAt rec0 0 1

/-- The work of a MATCH_BUILD task. -/
def buildJob (x : Task) (r : Run) (g : Graph) : Job (List (Nat × Token)) := do
  let rec0 := r.record (g.node x.node)
  let units := fieldAt rec0 1 1
  let payId := fieldAt rec0 8 1
  match x.token with
  | none => pure []
  | some t => do
    let cols ← readCols x.fn t
    let q ← readKeyed x.fn t cols rec0 units
    let pc ← pickCols cols (if payId = 0xFF then [] else [payId])
    jobNeed (pc.all (fun c => c.type ≤ 3)) 0x10 0x51
    let ds ← jobAll (readColData x.fn t.rows) pc
    let pay := match ds with
      | [] => List.replicate t.rows (0, true)
      | d :: _ => (List.range t.rows).map (fun i =>
          (leNat ((d.data.drop (i * typeWidth d.col.type)).take (typeWidth d.col.type)), (validOf t.rows d.nulls).getD i true))
    let k := tableKey x rec0
    jobDo (fun s => match s.table k with
      | none => s
      | some tb => s.setTable k { tb with
          keyBytes := some q.width, payType := some ((pc.map Col.type).getD 0 2) })
    buildRows k units q pay (List.range t.rows)
    pure []

def execMatchBuildTask (k : Nat) (s : State) : Res :=
  steady (s.engineReady k [4] && s.starts 8) (fun s => s.engineTask k 8 buildJob) s

/-! ### MATCH_PROBE (R310 to R312) -/

/-- Search for every keyed row: the results, rows that make no search missing. -/
def probeRows (k units : Nat) (q : Keyed) : List Nat → Job (List Found)
  | [] => pure []
  | i :: rest => do
    let f ← if q.sel.getD i false && q.valid.getD i false then do
        let t ← jobGet (fun s => s.table k)
        match t with
        | none => pure Found.miss
        | some tb => do
          let r ← jobGet (fun s => s.amuSearch k tb (q.key units i))
          jobDo (fun _ => r.2)
          match r.1 with
          | .error e => throw e
          | .ok f => do
            jobDo (fun s => match s.table k with
              | some tb => s.setTable k { tb with multiRows := if 2 ≤ f.count then satAdd 29 tb.multiRows 1 else tb.multiRows }
              | none => s)
            pure f
      else pure Found.miss
    let fs ← probeRows k units q rest
    pure (f :: fs)

/-- The added column (R310): its bytes, and its validity where a bitmap is written. -/
def addedColumn (mode type : Nat) (word : Bool) (anyInvalid : Bool) (sel : List Bool) (fs : List Found) :
    List Byte × Option (List Bool) :=
  let value (i : Nat) : Nat :=
    let f := fs.getD i Found.miss
    if sel.getD i false && f.hit then (if word then f.word else f.payload) else 0
  let valid (i : Nat) : Bool :=
    let f := fs.getD i Found.miss
    sel.getD i false && f.hit && (word || f.pvalid)
  (((List.range sel.length).map (fun i => leBytes (typeWidth type) (value i))).flatten,
    if mode = 3 ∨ (mode = 2 ∧ anyInvalid) then some ((List.range sel.length).map valid) else none)

/-- The work of a MATCH_PROBE task. -/
def probeJob (x : Task) (r : Run) (g : Graph) : Job (List (Nat × Token)) := do
  let n := g.node x.node
  let rec0 := r.record n
  let mode := fieldAt rec0 1 1
  let k := tableKey x rec0
  let tb ← jobGet (fun s => s.table k)
  match x.token, tb with
  | some t, some tb => do
    let cols ← readCols x.fn t
    let q ← readKeyed x.fn t cols rec0 tb.keyUnits
    jobNeed (tb.keyBytes.all (fun w => w = q.width)) 0x10 0x51
    jobNeed (!tb.damaged) 0x20 0x10
    let build := g.nodes.find? (fun m => m.kind = 4 && fieldAt (r.record m) 0 1 = fieldAt rec0 0 1)
    let noPay := match build with | some m => fieldAt (r.record m) 8 1 = 0xFF | none => true
    let free ← jobGet State.free
    if tb.payType.isNone then jobDo State.drawn else pure ()
    let type := if noPay then 2 else tb.payType.getD (free % 4)
    let copies ← if n.pass then pure [] else jobAll (readColData x.fn t.rows) cols
    let anyInvalid ← jobGet (fun s => tb.banks.any (fun b => (List.range tb.perBank).any (fun e =>
      (s.amuEntry b e).any (fun y => !y.pvalid))))
    let bitmap := (t.rows + 7) / 8
    let withNulls := mode = 3 || (mode = 2 && anyInvalid)
    let cnt := t.cols + (if 2 ≤ mode then 1 else 0)
    let sizes := [32 * cnt, bitmap] ++ (if 2 ≤ mode then [t.rows * typeWidth type] else [])
      ++ (if withNulls then [bitmap] else []) ++ ((copies.map ColData.parts).flatten.map List.length)
    match r.outBuf g x with
    | none => throw (0x11, 0x00)
    | some (b, base, slot) => do
      jobNeed (layBytes base sizes ≤ slot) 0x11 0x00
      let fs ← probeRows k tb.keyUnits q (List.range t.rows)
      let as := (layParts base sizes).1
      let hits := fs.map Found.hit
      let sel := match mode with
        | 0 => List.zipWith (· && ·) q.sel hits
        | 1 => List.zipWith (fun a h => a && !h) q.sel hits
        | 2 => List.zipWith (· && ·) q.sel hits
        | _ => q.sel
      let add := addedColumn mode type noPay anyInvalid q.sel fs
      let k0 := 2 + (if 2 ≤ mode then 1 else 0) + (if withNulls then 1 else 0)
      let added : List Col := if 2 ≤ mode then
          [⟨as.getD 2 0, 0, if withNulls then as.getD 3 0 else 0, type, fieldAt rec0 2 1, 0, false⟩] else []
      let outCols := (if n.pass then cols else placeAll copies (as.drop k0)) ++ added
      writeParts x.fn (List.zip as ([(outCols.map colBytes).flatten, bitmapOf sel] ++ (if 2 ≤ mode then [add.1] else [])
        ++ (match add.2 with | some v => [bitmapOf v] | none => []) ++ (copies.map ColData.parts).flatten))
      pure (onPorts g x.node (outToken x r t t.rows cnt base ((outCols.map Col.data).getD 0 0) (as.getD 1 0)
        ([b] ++ (if n.pass then t.bufs else []))))
  | _, _ => throw (0xF0, 0x01)

def execMatchProbeTask (k : Nat) (s : State) : Res :=
  steady (s.engineReady k [5] && s.starts 8) (fun s => s.engineTask k 8 probeJob) s

/-! ### Release and replacement of banks (R304, R316, R464) -/

/-- A bank enters CLEARING (R304): no search hits it any more. -/
def State.clearBank (s : State) (b : Nat) : State :=
  let u := { s with amu := { s.amu with
    entries := s.amu.entries.filter (fun ke => ke.1 / 4096 ≠ b), clearAt := put s.amu.clearAt b s.clk.tsu,
    scrubAt := del s.amu.scrubAt b } }
  (((u.wr fAMU_BANK_STATE b 1).wr fAMU_BANK_FN_VALID b 0).wr fAMU_BANK_USED b 0).wr fAMU_BANK_KEY_UNITS b 0

/-- A run gives back its banks and tables (R304). -/
def State.freeBanks (s : State) (run : Nat) : State :=
  let u := ((find s.amu.runBanks run).getD []).foldl State.clearBank s
  { u with amu := { u.amu with
    runBanks := del u.amu.runBanks run, tables := u.amu.tables.filter (fun kt => kt.1 / 8 ≠ run),
    hold := if u.amu.hold = some run then none else u.amu.hold } }

/-- The first spare bank that is unused. -/
def State.spareBank (s : State) : Option Nat := (List.range 68).find? (fun b => s.rd fAMU_BANK_STATE b = 3)

/-- Forget the mark of a unit; the cause that it was marked for. -/
def State.unmark (s : State) (kind unit : Nat) : Nat × State :=
  let c := ((s.darn.marks.find? (fun m => m.kind = kind && m.unit = unit)).map Swap.cause).getD 1
  (c, { s with darn := { s.darn with marks := s.darn.marks.filter (fun m => !(m.kind = kind && m.unit = unit)) } })

/-- A cleared bank that is marked is replaced by a spare, or fails (R316, R464, R474). -/
def State.replaceBank (s : State) (b : Nat) : State :=
  let l := s.rd fAMU_BANK_LOGICAL b
  let u := s.unmark 1 b
  let t := ((u.2.wr fAMU_BANK_LOGICAL b 0x7F).wr fAMU_BANK_RETIRE_MARK b 0)
  match t.spareBank with
  | some n =>
    let v := ((t.wr fAMU_BANK_STATE b 4).wr fAMU_BANK_STATE n 0).wr fAMU_BANK_LOGICAL n l
    ((v.raise 8 3).history 3 u.1 l b n 0).swapEnds 1 b 1
  | none =>
    let v := (t.wr fAMU_BANK_STATE b 5).fault 8 { t.entry 8 2 with unit := b, cause := 3 }
    ((v.history 0xB u.1 l b 0xFFFF 0).raise 15 3).swapEnds 1 b 3

/-- A bank that leaves service when it is cleared: Darning replaces it (R316, R464). -/
def State.bankGoes (s : State) (b : Nat) : Bool := s.rd fAMU_BANK_RETIRE_MARK b = 1 && s.isMarked 1 b

/-- BANK_CLEAR_DONE (R304, R316): 4,096 ECLK cycles have passed. -/
def execBankClearDone (b : Nat) (s : State) : Res :=
  steady (s.running && s.rd fAMU_BANK_STATE b = 1 && (find s.amu.clearAt b).any (fun t => decide (t + 4096 ≤ s.clk.tsu))
      && (s.starts 15 || !s.bankGoes b))
    (fun s =>
      let u := { s with amu := { s.amu with clearAt := del s.amu.clearAt b } }
      if u.bankGoes b then u.replaceBank b else u.wr fAMU_BANK_STATE b 0) s

/-! ### The scrub and injection (R314, R315) -/

/-- The table that a bank carries. -/
def State.tableOf (s : State) (b : Nat) : Option (Nat × AmuTable) := s.amu.tables.find? (fun kt => kt.2.banks.contains b)

/-- Compare the next entry of a bank's scrub pass. `found` is what its read meets beyond what is known: 0 nothing, 1 a
correctable error of the copy, which is corrected and counted as wear, 2 an uncorrectable one, 3 match cells that differ. -/
def State.scrubEntry (s : State) (b found : Nat) : State :=
  match s.tableOf b with
  | none => s
  | some (k, t) =>
    let e := ((find s.amu.scrubAt b).map Prod.fst).getD 0
    let u := { s with amu := { s.amu with scrubAt := put s.amu.scrubAt b ((e + 1) % t.perBank, s.clk.tsu) } }
    match u.amuEntry b e with
    | none => u
    | some x =>
      let u := if found = 1 then u.sramCorrected (2048 + b) else u
      if x.bad ∨ found = 2 then u.badCopy k b e
      else if x.cells = x.key ∧ found ≠ 3 then u
      else (((u.putEntry b e { x with cells := x.key }).bumpSat fAMU_BANK_SCRUB_FIXED b 1).bumpSat
        fAMU_SCRUB_FIXED_COUNT 0 1).bankWear b

def execAmuScrubEntry (b : Nat) (s : State) (found : Nat := 0) : Res :=
  steady (s.running && s.ready 8 && (s.tableOf b).isSome) (fun s => s.scrubEntry b found) s

/-- AMU_INJECT with GO: one bit of an entry's match cells flips, or its copy becomes uncorrectable; a bank that holds
no table is ignored and logged. -/
def State.amuInject (s : State) (b e : Nat) (copyBits : Bool) : State :=
  if (s.tableOf b).isNone then s.notice 8 b
  else match s.amuEntry b e with
    | none => s
    | some x =>
      if copyBits then s.putEntry b e { x with bad := true }
      else (s.putEntry b e { x with cells := x.cells ^^^ 2 ^ (s.free % 64) }).drawn

def execAmuInject (b e : Nat) (copyBits : Bool) (s : State) : Res :=
  steady (s.reaches 0 && s.ready 8) (fun s => (s.atRegion 8 0x904).expertWrite 8 (fun s => s.amuInject b e copyBits)) s

end Sys2Proof.Machine
end

