-- ==== Sys2Proof/Machine/Runs.lean ====
section
/-! DEFINITION. The life of a run: its start, its sources, the EXCHANGE and SINK tasks, the result stream and its end
(spec/07_pipeline_graphs.md R172 to R176, R183 to R196, R489 to R491; spec/08_bosun_scheduler.md R224, R225;
spec/11_associative_match.md R301, R303). -/

namespace Sys2Proof.Machine

/-! ### The end of a run (R195, R224, R232, R304) -/

/-- Tasks of a run that have not ended (R222). -/
def State.liveTasks (s : State) (r : Nat) : Nat := ((s.tasksOf r).filter (fun kt => kt.2.state ≠ .ending)).length

/-- A run lets go of its tasks, which end with TASK_KILLED `sub`, and of its tokens, flows, buffers, entries and banks (R217,
R224 steps 1 to 4). -/
def State.emptyRun (s : State) (r sub : Nat) : State :=
  let u := s.killRun r sub
  let v := { u with bsn := { u.bsn with tasks := u.bsn.tasks.filter (fun kt => kt.2.run ≠ r) } }
  ((v.dropFlows r).freeBanks r).onRun r (fun x => { x with
    flows := [], queues := [], segRest := [], sink := none, sinkKill := none })

/-- Close the segment that holds bytes (R193, R195). -/
def State.closeSegment (s : State) (x : Run) : State :=
  if x.segPos = 0 then s else s.hostPut x.fn (x.segTable + 16 * x.seg + 12) (leBytes 4 0)

/-- SPECIFIC of a run's final completion (R195). -/
def Run.specific (x : Run) : Nat := x.seg + 2 ^ 16 * min x.skips 0xFFFF

/-- A run ends with a status: it lets go of everything, closes its segment and produces its final completion (R195,
R224). -/
def State.finishRun (s : State) (r status sub : Nat) : State :=
  match (s.emptyRun r sub).run r with
  | none => s
  | some x =>
    let u := (s.emptyRun r sub).closeSegment x
    let v := u.complete ⟨x.fn, x.qid, r⟩ status sub x.segPos x.specific
    { v with bsn := { v.bsn with runs := del v.bsn.runs r } }

/-! ### Allocation (R27, R301, R303) -/

/-- The graph's banks. -/
def State.runNeed (s : State) (x : Run) : Nat := (s.graphOf x).amuBanks

/-- Banks of the free pool, in ascending logical number. -/
def State.freeBanksList (s : State) : List Nat :=
  ((List.range 64).map (fun l => (List.range 68).filter (fun b => s.rd fAMU_BANK_STATE b = 0 && s.rd fAMU_BANK_LOGICAL b = l))).flatten

/-- Banks that the runs of a function hold (`AMU_FN.HELD`). -/
def State.banksHeld (s : State) (fn : Nat) : Nat :=
  (s.amu.runBanks.map (fun kb => if (s.run kb.1).any (fun x => x.fn = fn) then kb.2.length else 0)).foldl (· + ·) 0

/-- Ordered edges of a graph. -/
def Graph.orderedEdges (g : Graph) : List Nat := g.edgesWith (fun e => e.ordered)

/-- Flow numbers that are free, in ascending order. -/
def State.freeFlows (s : State) : List Nat := (List.range 1024).filter (fun f => (s.flow f).isNone)

/-- Free banks that a waiting RUN may take: those not held for another. -/
def State.banksFor (s : State) (r : Nat) : Nat :=
  let free := s.freeBanksList.length
  match s.amu.hold with
  | none => free
  | some h => if h = r then free else free - min free (((s.run h).map s.runNeed).getD 0)

/-- The flows and banks of a waiting RUN can be allocated together; the limit holds back no RUN that needs no banks (R303). -/
def State.fits (s : State) (r : Nat) (x : Run) : Bool :=
  decide ((s.graphOf x).orderedEdges.length ≤ s.freeFlows.length) && decide (s.runNeed x ≤ s.banksFor r)
    && (decide (s.runNeed x = 0) || decide (s.banksHeld x.fn + s.runNeed x ≤ s.rd fAMU_FN_LIMIT x.fn))

/-- `a` has waited longer than `b`. -/
def longer (a b : Nat × Run) : Bool := a.2.waitAt < b.2.waitAt || (a.2.waitAt = b.2.waitAt && a.1 < b.1)

/-- The longest-waiting of some runs. -/
def oldestRun : List (Nat × Run) → Option (Nat × Run)
  | [] => none
  | c :: rest => some (bestBy longer c rest)

/-- Runs that wait for banks. -/
def State.bankWaiters (s : State) : List (Nat × Run) :=
  s.bsn.runs.filter (fun kr => !kr.2.started && s.runNeed kr.2 ≠ 0)

/-- The RUN to which free banks go next: round robin by function over the oldest waiting RUN of each. -/
def State.bankTurn (s : State) : Option Nat :=
  ((List.range 1025).map (fun k => (s.amu.lastFn + 1 + k) % 1025)).findSome? (fun f =>
    match oldestRun (s.bankWaiters.filter (fun kr => kr.2.fn = f)) with
    | none => none
    | some kr => if s.fits kr.1 kr.2 then some kr.1 else none)

/-- A waiting RUN may start. -/
def State.mayStart (s : State) (r : Nat) : Bool :=
  match s.run r with
  | none => false
  | some x => !x.started && s.fits r x && (s.runNeed x = 0 || s.amu.hold = some r || s.bankTurn = some r)

/-- Mark a bank as allocated. -/
def State.takeBank (s : State) (fn b table units : Nat) : State :=
  (((((s.wr fAMU_BANK_STATE b 2).wr fAMU_BANK_FN_VALID b 1).wr fAMU_BANK_FN b fn).wr fAMU_BANK_TABLE b table).wr
    fAMU_BANK_KEY_UNITS b units).wr fAMU_BANK_USED b 0

/-- The tables of a graph: number, units, hashed and banks, in ascending table number. -/
def Run.tables (x : Run) (g : Graph) : List (Nat × Nat × Bool × Nat) :=
  ((List.range 8).map (fun t => ((g.nodes.filter (fun n => n.kind = 4)).map x.record).filter (fun d => fieldAt d 0 1 = t))).flatten.map
    (fun d => (fieldAt d 0 1, fieldAt d 1 1, fieldAt d 3 1 = 1, fieldAt d 2 1))

/-- Give banks to tables in turn. -/
def State.giveTables (s : State) (r fn : Nat) : List (Nat × Nat × Bool × Nat) → List Nat → State
  | [], bs => bs.foldl (fun s b => s.takeBank fn b 0 0) s
  | (t, units, hashed, n) :: rest, bs =>
    let mine := bs.take n
    let u := mine.foldl (fun s b => s.takeBank fn b t units) s
    (u.setTable (r * 8 + t) ⟨units, hashed, mine, false, false, 0, 0, none, none⟩).giveTables r fn rest (bs.drop n)

/-- Allocate the flows and banks of a RUN. -/
def State.allocate (s : State) (r : Nat) (x : Run) : State :=
  let g := s.graphOf x
  let fl := List.zip g.orderedEdges s.freeFlows
  let banks := s.freeBanksList.take g.amuBanks
  let u := fl.foldl (fun s ef => s.setFlow ef.2 ⟨x.fn, r, ef.1, 0, [], [], false⟩) s
  let v := (u.setRun r { x with flows := fl, started := true, holding := false }).giveTables r x.fn
    ({ x with params := g.params }.tables g) banks
  { v with amu := { v.amu with
      runBanks := if banks = [] then v.amu.runBanks else put v.amu.runBanks r banks,
      hold := if v.amu.hold = some r then none else v.amu.hold,
      lastFn := if banks = [] then v.amu.lastFn else x.fn } }

/-! ### RUN_START (R172, R176, R191, R489) -/

/-- Replace bytes of a block. -/
def patch (d : List Byte) (o : Nat) (b : List Byte) : List Byte := d.take o ++ b ++ d.drop (o + b.length)

/-- Offsets of the bindable fields of a kind's record (R173). -/
def bindables : Nat → List Nat
  | 1 => [8, 16] | 2 => [8] | 3 => [8] | 6 => [8] | 7 => [0] | _ => []

/-- Bind the fields of one node's record (R172). -/
def bindNode (block params : List Byte) (n : Node) : List Byte :=
  (bindables n.kind).foldl (fun p o =>
    let d := p.drop n.recOff
    if bitsAt d o 63 1 = 1 then patch p (n.recOff + o) (leBytes 8 (fieldAt block (bitsAt d o 0 12) 8)) else p) params

/-- The parameter block of a graph with its fields bound to a run parameter block. -/
def bindAll (block : List Byte) (g : Graph) : List Byte := g.nodes.foldl (bindNode block) g.params

/-- Zero the header of the fault area and the state regions (R176, R191, R261). -/
def zeroAreas (x : Run) (g : Graph) : Job Unit := do
  jobWrite x.fn (x.arena + 0x8000) (leBytes 64 0)
  jobEach (fun i =>
    if (g.node i).stateBytes = 0 then pure ()
    else jobWrite x.fn (x.arena + g.stateOff i) (leBytes ((g.node i).stateBytes) 0)) (List.range g.nodes.length)

/-- The failure that a host read meets (R191, R363, R489): 1 no translation, 2 a poisoned completion. -/
def hostFailure : Nat → Option (Nat × Nat)
  | 1 => some (0x22, 0x10)
  | 2 => some (0x21, 0x21)
  | _ => none

/-- The address of a source's list: a device virtual address, or a host address for MOVE (R173). -/
def Run.listAddr (x : Run) (n : Node) : Nat :=
  let d := x.record n
  if n.kind = 7 then fieldAt d 0 8 else fieldAt d 8 8

/-- Read bytes of a source's list: a failure, or the bytes. `host` is the failure of host reads. -/
def State.listRead (s : State) (x : Run) (n : Node) (off len host : Nat) : Except (Nat × Nat) (List Byte) × State :=
  if n.kind = 6 then
    match hostFailure host with
    | some e => (.error e, s.hostFailed x.fn e.1)
    | none => (.ok (s.hostRead (x.listAddr n + off) len), s.hostGet x.fn (x.listAddr n + off) len)
  else
    let g := s.engineRead x.fn (x.listAddr n % 2 ^ 48 + off) len
    if g.status = 0 then (.ok g.data, g.st) else (.error (g.status, g.sub), g.st)

/-- A failure of a source counts as a task that ended with its status, for STOP_ON_FAULT too (R489). -/
def State.sourceFailed (s : State) (r : Nat) (e : Nat × Nat) : State :=
  (s.onRun r (fun x => { x with first := noteFirst x.first s.clk.tsu 3 e.1 e.2 })).stopOnFault r

/-- A source starts: it reads its header (R489). -/
def State.startSource (s : State) (r host n : Nat) : State :=
  match s.run r with
  | none => s
  | some x =>
    match s.listRead x ((s.graphOf x).node n) 0 16 host with
    | (.ok d, t) => t.setRun r { x with sources := put x.sources n ⟨fieldAt d 0 4, 0, false⟩ }
    | (.error e, t) => (t.setRun r { x with sources := put x.sources n ⟨0, 0, true⟩ }).sourceFailed r e

/-- Sources of a graph. -/
def Graph.sources (g : Graph) : List Nat := (List.range g.nodes.length).filter (fun i => (g.node i).inPorts = 0)

/-- A RUN that cannot start ends at once (R191). -/
def State.startFailed (s : State) (r : Nat) (e : Nat × Nat) : State := s.finishRun r e.1 e.2

/-- RUN_START: `host` says what the reads of host memory meet: 0 nothing, 1 or 2 a failure of the parameter block's
fetch, 3 or 4 one of every MOVE source's header. -/
def State.runStart (s : State) (r host : Nat) : State :=
  match s.run r with
  | none => s
  | some x =>
    let g := s.graphOf x
    let t := (s.allocate r x).setStage ⟨x.fn, x.qid, r⟩ .started
    let bad := if g.runParamBytes = 0 then none else hostFailure host
    match bad with
    | some e => (t.hostFailed x.fn e.1).startFailed r e
    | none =>
      let block := if g.runParamBytes = 0 then [] else t.hostRead x.paramAddr g.runParamBytes
      let t1 := if g.runParamBytes = 0 then t else t.hostGet x.fn x.paramAddr g.runParamBytes
      match t1.runJob (zeroAreas x g) with
      | (.error e, t2) => t2.startFailed r e
      | (.ok _, t2) =>
        let tag := getD 0 t2.bsn.runTags x.fn + 1
        let t3 := { t2 with bsn := { t2.bsn with runTags := put t2.bsn.runTags x.fn tag } }
        let t4 := t3.onRun r (fun y => { y with params := bindAll block g, runTag := tag % 2 ^ 16 })
        g.sources.foldl (fun s n => s.startSource r (host - 2) n) t4

def execRunStart (r host : Nat) (s : State) : Res :=
  steady (s.starts 3 && s.rd fCVC_PS_STATUS_STATE 0 < 3 && s.mayStart r) (fun s => s.runStart r host) s

/-- BANK_HOLD (R303): the longest-waiting RUN has waited 1 ms. -/
def execBankHold (r : Nat) (s : State) : Res :=
  steady (s.running && s.ready 3 && s.amu.hold.isNone
      && (oldestRun s.bankWaiters).any (fun kr => kr.1 = r && decide (kr.2.waitAt + ticksOfMs 1 ≤ s.clk.tsu)))
    (fun s =>
      let u := { s with amu := { s.amu with hold := some r } }
      (u.onRun r (fun x => { x with holding := true })).raise 8 4) s

/-! ### SOURCE_MORSEL (R174, R175, R183, R203, R489) -/

/-- Bytes of an entry of a source's list. -/
def Run.entryBytes (x : Run) (n : Node) : Nat := if n.kind = 7 then 32 + 16 * fieldAt (x.record n) 8 1 else 16

/-- The address of column 0's data, from which the home stack is found; 0 where it cannot be read (R180). -/
def State.firstColumn (s : State) (fn colset : Nat) : Nat :=
  let g := s.engineRead fn colset 8
  if g.status = 0 then leNat g.data % 2 ^ 48 else 0

/-- The token of an entry; a morsel without rows has EMPTY set (R180). -/
def State.sourceToken (s : State) (x : Run) (n : Nat) (k : Node) (seq : Nat) (d : List Byte) : Token :=
  let hold := k.kind = 7
  let rows := if hold then bitsAt d 0 0 17 else bitsAt d 8 0 17
  let cols := if hold then fieldAt (x.record k) 8 1 else fieldAt d 12 1
  let colset := if hold then 0 else bitsAt d 0 0 48
  { seq := seq, flow := 0, empty := rows = 0, skipped := false, poison := false, cols := cols, rows := rows, node := n,
    subseq := 0, part := 0, srcTs := s.clk.tsu, sel := 0, fn := x.fn, colset := colset, runTag := x.runTag,
    col0 := if k.kind = 1 ∧ cols ≠ 0 then s.firstColumn x.fn colset else 0, timeLo := if hold then fieldAt d 8 8 else 0,
    timeHi := if hold then fieldAt d 16 8 else 2 ^ 64 - 1, bufs := [], stamp := s.bsn.nextMade }

/-- The source `n` of a run can make its next morsel (R203, R489): its function may take an entry, and no token of the
function waits for one (R26, R202). -/
def State.sourceReady (s : State) (r n : Nat) : Bool :=
  match s.run r with
  | none => false
  | some x =>
    x.started && !x.stopping && (x.waiting (sourceKey n)).isEmpty && s.mayTake x.fn
      && s.inputCands.all (fun c => decide (c.fn ≠ x.fn)) && (find x.sources n).any (fun so => !so.stopped && decide (so.next < so.count)
        && s.windowOk (s.graphOf x) x n so.next)

/-- A morsel leaves the source without a task, on every output port: one whose entry cannot be read (R489), or an EMPTY one
(R185, R204). -/
def State.sourceOut (s : State) (r n : Nat) (t : Token) : State :=
  match s.run r with
  | none => s
  | some x =>
    let g := s.graphOf x
    let ports := g.dataPorts n
    ports.foldl (fun s p => s.putPort r g n p t) (s.lineageEnd g x n t.seq ports)

/-- Make the next morsel of a source. -/
def State.sourceMorsel (s : State) (r n host : Nat) : State :=
  match s.run r with
  | none => s
  | some x =>
    match find x.sources n with
    | none => s
    | some so =>
      let g := s.graphOf x
      let k := g.node n
      let len := x.entryBytes k
      let got := s.listRead x k (16 + len * so.next) len host
      let x1 := { x with sources := put x.sources n { so with next := so.next + 1 } }
      let made (s : State) : State := (x.flowsOn g n).foldl (fun s ef => s.lineage ef.2 so.next 1 0) s
      let skip := skippedToken n so.next x.fn x.runTag s.clk.tsu 0 0 false
      match got with
      | (.error e, t) =>
        if !x.nodeRoom g n then s
        else (((made (t.setRun r x1))).sourceOut r n skip).sourceFailed r e
      | (.ok d, t) =>
        let tok := t.sourceToken x n k so.next d
        if tok.empty then (if x.nodeRoom g n then (made (t.setRun r x1)).sourceOut r n (forwarded n tok) else s)
        else
          let u := made (t.setRun r { x1 with
            queues := put x1.queues (sourceKey n) [tok],
            records := if k.kind = 7 then put x1.records (n * 2 ^ 32 + so.next) d else x1.records })
          { u with bsn := { u.bsn with nextMade := u.bsn.nextMade + 1 } }

def execSourceMorsel (r n host : Nat) (s : State) : Res :=
  steady (s.starts 3 && s.sourceReady r n) (fun s => s.sourceMorsel r n host) s

/-! ### Compacting rows (R173, R194) -/

/-- Indices of the rows that are kept. -/
def keptRows (keep : List Bool) : List Nat := (List.range keep.length).filter (fun i => keep.getD i false)

/-- The offset that a type 0x8 column holds for a row. -/
def offsetAt (data : List Byte) (i : Nat) : Nat := fieldAt data (4 * i) 4

/-- Offsets and bytes of the kept rows of a type 0x8 column. -/
def compactHeap (data heap : List Byte) : List Nat → Nat → List Byte × List Byte
  | [], at_ => (leBytes 4 at_, [])
  | i :: rest, at_ =>
    let b := (heap.drop (offsetAt data i)).take (offsetAt data (i + 1) - offsetAt data i)
    let r := compactHeap data heap rest (at_ + b.length)
    (leBytes 4 at_ ++ r.1, b ++ r.2)

/-- A column with only the kept rows. -/
def ColData.compact (c : ColData) (keep : List Bool) : ColData :=
  let ks := keptRows keep
  let w := typeWidth c.col.type
  let nulls := if c.nulls = [] then [] else bitmapOf (ks.map (fun i => (validOf keep.length c.nulls).getD i false))
  if c.col.type = 8 then
    let p := compactHeap c.data c.heap ks 0
    { c with data := p.1, heap := p.2, nulls := nulls }
  else { c with data := (ks.map (fun i => (c.data.drop (i * w)).take w)).flatten, nulls := nulls }

/-! ### EXCHANGE (R173) -/

/-- The partition of a row's key. -/
def partOf (partsLog : Nat) (key : List Byte) : Nat := keyHash key / 2 ^ (32 - partsLog)

/-- A free buffer of an edge, on stack `st` where one is there. -/
def State.bufNear (s : State) (r : Nat) (x : Run) (g : Graph) (e st : Nat) (used : List Nat) : Option Nat :=
  let free := ((List.range (g.edge e).buffers).map (fun k => e * 256 + k)).filter (fun b => !s.bufUsed r x b && !used.contains b)
  (free.find? (fun b => s.homeStack x.fn (x.bufAddr g b) = some st)).orElse (fun _ => free.head?)

/-- Buffers for partitions, in order; none where too few are free. -/
def State.exchangeBufs (s : State) (r : Nat) (x : Run) (g : Graph) (e parts : Nat) : List Nat → List Nat → Option (List Nat)
  | [], _ => some []
  | p :: rest, used =>
    match s.bufNear r x g e (32 * p / parts / 4) used with
    | none => none
    | some b => (s.exchangeBufs r x g e parts rest (b :: used)).map (fun bs => b :: bs)

/-- Write one partition into a buffer: the token that carries it. -/
def exchangeOne (x : Task) (r : Run) (g : Graph) (t : Token) (cs : List ColData) (p : Nat) (keep : List Bool) (b : Nat) : Job Token := do
  let base := r.bufAddr g b
  let out := cs.map (fun c => c.compact keep)
  let parts := (out.map ColData.parts).flatten
  let lay := layParts (base + 32 * out.length) (parts.map List.length)
  jobNeed (lay.2 ≤ base + (g.edge (b / 256)).slotBytes) 0x11 0x00
  let cols := placeAll out lay.1
  jobWrite x.fn base ((cols.map colBytes).flatten)
  writeParts x.fn (List.zip lay.1 parts)
  pure { outToken x r t (keptRows keep).length cols.length base ((cols.map Col.data).getD 0 0) 0 [b] with part := p }

/-- The partitions of a token: the columns, and the kept rows of each non-empty partition. -/
def exchangeRead (x : Task) (t : Token) (d : List Byte) : Job (List ColData × List (Nat × List Bool)) := do
  let cols ← readCols x.fn t
  let kc ← pickCols cols (keyCols d)
  jobNeed (kc.all (fun c => c.type ≤ 4) && cols.all (fun c => c.type ≠ 15)) 0x10 0x51
  let ks ← readKeys x.fn t.rows kc
  let sel ← readSel x.fn t
  let cs ← jobAll (readColData x.fn t.rows) cols
  let ps := (List.range t.rows).map (fun i => partOf (fieldAt d 0 1) (rowKey ks i))
  let keep (p : Nat) : List Bool := (List.range t.rows).map (fun i => sel.getD i false && ps.getD i 0 = p)
  pure (cs, ((List.range (2 ^ fieldAt d 0 1)).map (fun p => (p, keep p))).filter (fun pk => pk.2.contains true))

/-- Write all partitions. -/
def exchangeAll (x : Task) (r : Run) (g : Graph) (t : Token) (cs : List ColData) : List ((Nat × List Bool) × Nat) → Job (List Token)
  | [] => pure []
  | ((p, keep), b) :: rest => do
    let k ← exchangeOne x r g t cs p keep b
    let ks ← exchangeAll x r g t cs rest
    pure (k :: ks)

/-- Number the tokens of one task (R180). -/
def numbered (ts : List Token) : List Token :=
  (List.range ts.length).filterMap (fun i => (ts[i]?).map (fun t => { t with subseq := i }))

/-- The end of an EXCHANGE task with its tokens. -/
def State.exchangeEnd (s : State) (k : Nat) (x : Task) (r : Run) (g : Graph) (t : Token) (cs : List ColData)
    (pk : List ((Nat × List Bool) × Nat)) : State :=
  match s.runJob (exchangeAll x r g t cs pk) with
  | (.error e, u) => (u.jobFault 3 x.fn e).endTask k e.1 e.2 3 []
  | (.ok ts, u) =>
    let ts := if ts = [] then [{ outToken x r t 0 0 0 0 0 [] with part := 0 }] else ts
    u.endTask k 0 0 3 ((g.dataPorts x.node).map (fun p => (numbered ts).map (fun t => (p, t)))).flatten

/-- EXCHANGE_TASK: it waits while too few buffers are free for its partitions. -/
def State.exchangeTask (s : State) (k : Nat) : State :=
  match s.task k with
  | none => s
  | some x =>
    match s.run x.run, x.token with
    | some r, some t =>
      let g := s.graphOf r
      let d := r.record (g.node x.node)
      let s0 := s.setTask k { x with state := .running, start := s.clk.tsu }
      match s0.runJob (exchangeRead x t d) with
      | (.error e, u) => (u.jobFault 3 x.fn e).endTask k e.1 e.2 3 []
      | (.ok (cs, ps), u) =>
        match (g.bufEdges x.node).head? with
        | none => if ps = [] then u.exchangeEnd k x r g t cs [] else u.endTask k 0x11 0x00 3 []
        | some e =>
          match u.exchangeBufs x.run r g e (2 ^ fieldAt d 0 1) (ps.map Prod.fst) [] with
          | none => s
          | some bs => u.exchangeEnd k x r g t cs (List.zip ps bs)
    | _, _ => s

/-- A ready task of kind `kind` that may be dispatched. -/
def State.readyOf (s : State) (k kind : Nat) : Bool :=
  s.starts 3 && (s.task k).any (fun x => s.kindOf x = kind && s.eligible x)

def execExchangeTask (k : Nat) (s : State) : Res := steady (s.readyOf k 8) (fun s => s.exchangeTask k) s

/-! ### Blocks (R194) -/

/-- Pad to a multiple of 64 bytes. -/
def pad64 (d : List Byte) : List Byte := d ++ List.replicate (roundUp d.length 64 - d.length) 0

/-- One column section, unpadded. -/
def ColData.section_ (c : ColData) : List Byte :=
  pad64 c.nulls ++ (if c.col.type = 15 then leBytes 4 c.col.bytes ++ leBytes 4 0 else []) ++ c.data
    ++ (if c.col.type = 8 then c.heap else [])

/-- The 32-byte header of a block. -/
def blockHeader (t : Token) (sink : Nat) (skipped : Bool) (cols rows bytes : Nat) : List Byte :=
  leBytes 4 t.seq ++ leBytes 1 t.subseq ++ leBytes 1 (sink + 8 * bit skipped) ++ leBytes 1 cols ++ leBytes 1 0
    ++ leBytes 4 rows ++ leBytes 4 bytes ++ leBytes 8 t.srcTs ++ leBytes 8 0

/-- A header-only block. -/
def headerOnly (t : Token) (sink : Nat) : List Byte := blockHeader t sink true 0 0 64 ++ leBytes 32 0

/-- A block of columns that are already compacted to `rows` rows. -/
def blockOf (t : Token) (sink rows : Nat) (cs : List ColData) : List Byte :=
  let secs := cs.map (fun c => pad64 c.section_)
  let desc := cs.map (fun c => leBytes 8 ((pad64 c.section_).length + 2 ^ 32 * c.col.type + 2 ^ 36 * bit (c.nulls ≠ [])
    + 2 ^ 40 * c.col.id))
  let total := roundUp (32 + 8 * cs.length) 64 + secs.flatten.length
  pad64 (blockHeader t sink false cs.length rows total ++ desc.flatten) ++ secs.flatten

/-- Columns of a token for a block: compacted, unless one of them is compressed. -/
def blockRows (t : Token) (sel : List Bool) (cs : List ColData) : Nat × List ColData :=
  if cs.any (fun c => c.col.type = 15) then (t.rows, cs) else ((keptRows sel).length, cs.map (fun c => c.compact sel))

/-! ### SINK (R185, R193, R194, R490, R491) -/

/-- Read bytes, with 0 in place of those that cannot be read; the first failure. -/
def readPieces (fn : Nat) : List (Nat × List Byte) → Job (List Byte × Option (Nat × Nat))
  | [] => pure ([], none)
  | (a, d) :: rest => do
    let p ← get
    let g := p.1.engineRead fn a d.length
    set (g.st, p.2)
    let r ← readPieces fn rest
    if g.status = 0 then pure (g.data ++ r.1, r.2) else pure (d ++ r.1, some (g.status, g.sub))

def readSoft (fn va n : Nat) : Job (List Byte × Option (Nat × Nat)) :=
  readPieces fn (linePieces va (List.replicate n 0) (n + 1))

/-- A column of a SINK's token, read as far as it can be. -/
def sinkColumn (fn rows : Nat) (c : Col) : Job (ColData × Option (Nat × Nat)) := do
  let d ← readSoft fn c.data (if c.type = 8 then 4 * (rows + 1) else if c.type = 15 then c.bytes else rows * typeWidth c.type)
  let h ← if c.type = 8 then readSoft fn c.aux (offsetAt d.1 rows) else pure ([], none)
  let n ← if c.null = 0 then pure ([], none) else readSoft fn c.null ((rows + 7) / 8)
  pure (⟨c, d.1, h.1, n.1⟩, d.2.orElse (fun _ => h.2.orElse (fun _ => n.2)))

/-- The bytes of a SINK's block, and the status with which its task ends. -/
def sinkBlock (fn sink : Nat) (t : Token) : Job (List Byte × Nat × Nat) := do
  let sel ← readSel fn t
  let cols ← readCols fn t
  jobNeed (cols.all (fun c => typeOk c.type && !c.reserved)) 0x10 0x34
  let cs ← jobAll (sinkColumn fn t.rows) cols
  let b := blockRows t sel (cs.map Prod.fst)
  match cs.findSome? (fun c => c.2) with
  | none => pure (blockOf t sink b.1 b.2, 0, 0)
  | some e => pure (blockOf t sink b.1 b.2 ++ headerOnly t sink, e.1, e.2)

/-- Open the segment in use: its entry is read (R193). -/
def State.openSegment (s : State) (r : Nat) (x : Run) : State :=
  let d := s.hostRead (x.segTable + 16 * x.seg) 16
  let u := s.hostGet x.fn (x.segTable + 16 * x.seg) 16
  if bitsAt d 8 63 1 = 1 then u.setRun r { x with segOpen := true, segAddr := fieldAt d 0 8 } else u

/-- Write what fits of the waiting bytes into the open segment; a full one is handed back (R193). -/
def State.writeSegment (s : State) (r : Nat) (x : Run) : State :=
  let size := 2 ^ x.segLog
  let d := x.segRest.take (size - x.segPos)
  let u := s.hostPut x.fn (x.segAddr + x.segPos) d
  let y := { x with segRest := x.segRest.drop (size - x.segPos), segPos := x.segPos + d.length }
  if y.segPos < size then u.setRun r y
  else
    let v := (u.setRun r { y with seg := (y.seg + 1) % y.segCount, segPos := 0, segOpen := false }).hostPut x.fn
      (x.segTable + 16 * x.seg + 12) (leBytes 4 0)
    v.completePartial ⟨x.fn, x.qid, r⟩ 0 0 size x.seg

/-- Stream the waiting bytes of a run while segments are given and its completion queue is not full. -/
def State.stream (s : State) (r : Nat) : Nat → State
  | 0 => s
  | fuel + 1 =>
    match s.run r with
    | none => s
    | some x =>
      if x.segRest = [] ∨ (s.queue x.fn x.qid).any Queue.cqFull then s
      else
        let u := if x.segOpen then s else s.openSegment r x
        match u.run r with
        | none => u
        | some y => if y.segOpen then (u.writeSegment r y).stream r fuel else u

/-- Stream, and end the SINK's task once its block is written; a kill that waited takes effect then (R490). -/
def State.pushSink (s : State) (r : Nat) : State :=
  let u := s.stream r (((s.run r).map (fun x => x.segRest.length)).getD 0 / 64 + 2)
  match u.run r with
  | none => u
  | some x =>
    match x.sink with
    | none => u
    | some k =>
      if x.segRest ≠ [] then u
      else
        let e := x.sinkKill.getD x.sinkEnd
        (u.setRun r { x with sink := none, sinkKill := none }).endTask k e.1 e.2 3 []

/-- A SINK's task begins: the bytes of its block. -/
def State.sinkTask (s : State) (k : Nat) : State :=
  match s.task k with
  | none => s
  | some x =>
    match s.run x.run, x.token with
    | some r, some t =>
      let g := s.graphOf r
      let sink := fieldAt (r.record (g.node x.node)) 0 1
      let s0 := s.setTask k { x with state := .running, place := .sink, start := s.clk.tsu }
      let begin_ (u : State) (d : List Byte) (e : Nat × Nat) : State :=
        (u.onRun x.run (fun r => { r with sink := some k, segRest := d, sinkEnd := e })).pushSink x.run
      match s0.runJob (sinkBlock x.fn sink t) with
      | (.ok (d, st, sub), u) => begin_ (if st = 0 then u else u.jobFault 3 x.fn (st, sub)) d (st, sub)
      | (.error e, u) => begin_ (u.jobFault 3 x.fn e) (headerOnly t sink) e
    | _, _ => s

/-- A SINK that is the destination of an ORDERED edge and has MAX_TASKS 1 takes its tasks in sequence (R207). DEDUCED
(notes/assumptions/95.md): that order, not the order of arrival, is the one it serves them in. -/
def Run.sinkInSequence (r : Run) (g : Graph) (n : Nat) : Bool := (g.node n).maxTasks = 1 && (r.flowOfD g n).isSome

/-- No token that reached a SINK before arrival `stamp` waits there (R194). -/
def State.sinkFirst (s : State) (run : Nat) (r : Run) (g : Graph) (n stamp : Nat) : Bool :=
  r.sinkInSequence g n ||
    (!(s.tasksOf run).any (fun kt => kt.2.node = n && kt.2.state ≠ .ending && decide ((kt.2.token.map Token.stamp).getD 0 < stamp))
      && (g.inData n).all (fun e => (r.waiting e).all (fun t => t.empty || decide (stamp ≤ t.stamp))))

/-- The result stream of a run takes the next block: no block is being written, and no completion is owed (R165, R194). -/
def State.streamFree (s : State) (r : Run) : Bool := r.sink.isNone && r.segRest = [] && !(s.queue r.fn r.qid).any Queue.cqFull

/-- The tokens of a SINK are served in the order in which they reached it (R194). -/
def State.sinkTurn (s : State) (k : Nat) : Bool :=
  match s.task k with
  | none => false
  | some x =>
    match s.run x.run with
    | none => false
    | some r => s.streamFree r && s.sinkFirst x.run r (s.graphOf r) x.node ((x.token.map Token.stamp).getD 0)

def execSinkTask (k : Nat) (s : State) : Res := steady (s.readyOf k 9 && s.sinkTurn k) (fun s => s.sinkTask k) s

/-! ### TOKEN_FORWARD (R185, R204) -/

/-- A SINK takes an EMPTY or SKIPPED token without a task: it writes nothing, or a header-only block (R185). -/
def State.sinkForward (s : State) (r e : Nat) (t : Token) : State :=
  match s.run r with
  | none => s
  | some x =>
    let g := s.graphOf x
    let u := s.forward r e t
    if t.skipped then
      (u.onRun r (fun y => { y with segRest := headerOnly t (fieldAt (x.record (g.node (g.edge e).dst)) 0 1) })).pushSink r
    else u

/-- An EMPTY or SKIPPED token of edge `e` of a run can pass its node: every outgoing queue has room, and at a SINK a
SKIPPED token is the next to be served. -/
def State.canForward (s : State) (r e : Nat) : Bool :=
  match s.run r with
  | none => false
  | some x =>
    let g := s.graphOf x
    let n := (g.edge e).dst
    match x.forwardable e with
    | none => false
    | some t => s.windowOk g x n t.seq && x.nodeRoom g n && !x.stopping
        && ((g.node n).kind ≠ 9 || !t.skipped || (s.streamFree x && s.sinkFirst r x g n t.stamp))

/-- TOKEN_FORWARD (R204). -/
def State.tokenForward (s : State) (r e : Nat) : State :=
  match s.run r with
  | none => s
  | some x =>
    match x.forwardable e with
    | none => s
    | some t => if ((s.graphOf x).node ((s.graphOf x).edge e).dst).kind = 9 then s.sinkForward r e t else s.forward r e t

def execTokenForward (r e : Nat) (s : State) : Res := steady (s.running && s.canForward r e) (fun s => s.tokenForward r e) s

/-- SEGMENT_RECHECK (R193): a SINK that waits reads its segment's entry again. -/
def execSegmentRecheck (r : Nat) (s : State) : Res :=
  steady (s.running && (s.run r).any (fun x => (x.sink.isSome || x.segRest ≠ []) && !x.stopping)) (fun s => s.pushSink r) s

/-! ### RUN_END (R184, R195, R225) -/

/-- Every SINK is finished; in a graph without one, every node. -/
def State.runDone (s : State) (r : Nat) (x : Run) : Bool :=
  let g := s.graphOf x
  let done := s.finished r x
  let sinks := (List.range g.nodes.length).filter (fun n => (g.node n).kind = 9)
  x.started && x.sink.isNone && x.segRest = []
    && (if sinks = [] then (List.range g.nodes.length).all (fun n => done.contains n) else sinks.all (fun n => done.contains n))

def State.runEnd (s : State) (r : Nat) : State :=
  match s.run r with
  | none => s
  | some x =>
    match x.first with
    | some (_, _, st, sub) => s.finishRun r st sub
    | none => s.finishRun r 0 0

def execRunEnd (r : Nat) (s : State) : Res :=
  steady (s.running && s.ready 3 && (s.run r).any (fun x => (x.started && x.stopping) || s.runDone r x)) (fun s => s.runEnd r) s

end Sys2Proof.Machine
end

