-- ==== Sys2Proof/Machine/Mangle.lean ====
section
/-! DEFINITION. Mangle: block tags, decompression and compression with their limits, descriptor jobs with stream state
and result records, graph tasks, verification, and the clears and swaps of engines (spec/12_mangle_compression.md). The
formats themselves stand in Codec.lean. -/

namespace Sys2Proof.Machine

/-! ### Engines (R319, R320) -/

/-- The physical engine that carries a logical one. -/
def State.physEngine (s : State) (e : Nat) : Option Nat := (List.range 18).find? (fun p => s.rd fMGL_ENGINE_LOGICAL p = e)

/-- Jobs of a logical engine. -/
def State.engineJobs (s : State) (e : Nat) : List MglJob := getD [] s.mgl.jobs e

def State.setEngineJobs (s : State) (e : Nat) (js : List MglJob) : State :=
  { s with mgl := { s.mgl with jobs := setD [] s.mgl.jobs e js } }

/-- A logical engine takes a further job: it works, is not marked for a swap, and has a free slot (R319, R464). -/
def State.engineFree (s : State) (e : Nat) : Bool :=
  (s.engineJobs e).length < 2
    && (s.physEngine e).any (fun p => s.rd fMGL_ENGINE_STATE p ≤ 2 && !(s.isMarked 2 p && s.rd fMGL_ENGINE_RETIRE_MARK p = 1))

/-- The function that an engine holds is the job's, or none (R320). -/
def State.engineClear (s : State) (e fn : Nat) : Bool :=
  (s.physEngine e).any (fun p => s.rd fMGL_ENGINE_FN_VALID p = 0 || s.rd fMGL_ENGINE_FN p = fn)

/-- A job starts on an engine: it holds the job's function and counts the job. -/
def State.engineTakes (s : State) (e fn : Nat) : State :=
  match s.physEngine e with
  | none => s
  | some p => ((s.wr fMGL_ENGINE_FN_VALID p 1).wr fMGL_ENGINE_FN p fn).bumpSat fMGL_ENGINE_JOBS p 1

/-- Bytes that a job consumed and produced. -/
def State.engineBytes (s : State) (e consumed produced : Nat) : State :=
  let u := (s.bumpWrap fMGL_BYTES_IN_COUNT 0 consumed).bumpWrap fMGL_BYTES_OUT_COUNT 0 produced
  match s.physEngine e with
  | none => u
  | some p => u.bumpWrap fMGL_ENGINE_BYTES_OUT p produced

/-- A job that ended with CHECK_MISMATCH is counted. -/
def State.checkFail (s : State) (status : Nat) : State := if status = 0x15 then s.bumpSat fMGL_CHECK_FAILS_COUNT 0 1 else s

/-- An engine holds no function any more: its history, its dictionary cache and its context are clear (R320). -/
def State.clearEngine (s : State) (p : Nat) : State :=
  { s with mgl := { s.mgl with dicts := del s.mgl.dicts p } }.wr fMGL_ENGINE_FN_VALID p 0

/-- The clear of an engine may end: one that a staged job of another function began, or one while the engine is idle; each
takes 4,096 ECLK cycles (R320). -/
def State.clearDue (s : State) (e : Nat) : Bool :=
  match (s.engineJobs e).head? with
  | some j => !s.engineClear e j.fn && decide (max (getD 0 s.mgl.idleAt e) j.since + 4096 ≤ s.clk.tsu)
  | none => (s.physEngine e).any (fun p => s.rd fMGL_ENGINE_FN_VALID p = 1) && decide (getD 0 s.mgl.idleAt e + 4096 ≤ s.clk.tsu)

/-- ENGINE_CLEAR_DONE (R320). -/
def execEngineClearDone (e : Nat) (s : State) : Res :=
  steady (s.running && s.clearDue e)
    (fun s => match s.physEngine e with
      | none => s
      | some p => s.clearEngine p) s

/-! ### Block tags (R322, R323) -/

structure Tag where
  format : Nat
  first : Bool
  last : Bool
  orig : Nat
  comp : Nat
  crc : Nat
  magic : Bool
  crcOk : Bool
  reserved : Bool

def parseTag (d : List Byte) : Tag :=
  { format := fieldAt d 4 1, first := bitsAt d 5 0 1 = 1, last := bitsAt d 5 1 1 = 1, orig := fieldAt d 8 4,
    comp := fieldAt d 12 4, crc := fieldAt d 16 4, magic := fieldAt d 0 4 = 0x5442474D,
    crcOk := crc32c (d.take 20) = BitVec.ofNat 32 (fieldAt d 20 4),
    reserved := bitsAt d 5 4 4 ≠ 0 || nonzeroAt d 6 8 || nonzeroAt d 24 32 }

/-- The largest payload of a block of `n` original bytes. -/
def maxPayload (n : Nat) : Nat := n + (n + 127) / 128 + 72

/-- The failure of a tag for a stream of `format`; `first` says whether it begins the stream (R338). -/
def Tag.error (t : Tag) (format : Nat) (first : Bool) : Option (Nat × Nat) :=
  if !t.crcOk then some (0x15, 0x02)
  else if !t.magic ∨ t.format ≠ format ∨ t.first ≠ first ∨ t.orig = 0 ∨ 4194304 < t.orig ∨ t.comp = 0 ∨ maxPayload t.orig < t.comp then
    some (0x10, 0x65)
  else if t.reserved then some (0x10, 0x01)
  else none

/-- The bytes of a tag. -/
def tagBytes (format : Nat) (first last verified stored : Bool) (orig comp crc : Nat) : List Byte :=
  let d := leBytes 4 0x5442474D ++ leBytes 1 format ++ leBytes 1 (bit first + 2 * bit last + 4 * bit verified + 8 * bit stored)
    ++ leBytes 2 0 ++ leBytes 4 orig ++ leBytes 4 comp ++ leBytes 4 crc
  d ++ leBytes 4 (crc32c d).toNat ++ leBytes 8 0

/-! ### Output space (R333, R334) -/

/-- The primary and the chained buffer: their sizes, what is written, and whether output has moved to the chain. -/
structure OutBuf where
  pMax : Nat
  cMax : Nat
  p : List Byte
  c : List Byte
  moved : Bool

def OutBuf.bytes (o : OutBuf) : Nat := o.p.length + o.c.length

/-- The same space but for the last `n` bytes of its last buffer. -/
def OutBuf.less (o : OutBuf) (n : Nat) : OutBuf :=
  { o with pMax := if o.cMax = 0 then o.pMax - n else o.pMax, cMax := o.cMax - n }

/-- Place bytes; `whole` bytes are not split at the boundary. None where the space ends. -/
def OutBuf.place (o : OutBuf) (whole : Bool) (d : List Byte) : Option OutBuf :=
  if !o.moved ∧ o.p.length + d.length ≤ o.pMax then some { o with p := o.p ++ d }
  else
    let k := if whole ∨ o.moved then 0 else o.pMax - o.p.length
    if o.c.length + (d.length - k) ≤ o.cMax then some { o with p := o.p ++ d.take k, c := o.c ++ d.drop k, moved := true }
    else none

/-- Place chunks one after the other. -/
def OutBuf.placeAll (o : OutBuf) : List (Bool × List Byte) → Option OutBuf
  | [] => some o
  | (w, d) :: rest =>
    match o.place w d with
    | none => none
    | some p => p.placeAll rest

/-! ### A stream in progress -/

/-- What a job carries through its stream. -/
structure Stream where
  format : Nat
  level : Nat
  out : OutBuf
  /-- Input bits consumed. -/
  bits : Nat
  ctx : List Byte
  hist : List Byte
  dict : List Byte
  /-- The open block: original and payload bytes to come, its declared CRC, and whether it is the last. -/
  orig : Nat
  comp : Nat
  want : Nat
  wasLast : Bool
  /-- The running CRC. -/
  crc : BitVec 32
  lastCrc : Nat
  blocks : Nat
  /-- The next tag begins the stream. -/
  begins : Bool
  verifies : Bool
  /-- The bits of a bare DEFLATE stream that no whole byte of output holds yet (R334). -/
  rem : List Bool

/-- History bytes that the format keeps (R321). -/
def windowOf (format level : Nat) (decompress : Bool) (ctx : List Byte) : Nat :=
  match format with
  | 1 => 32768
  | 2 => 65536
  | _ => if decompress then (Zst.ofBytes ctx).window else levelWindow level

def lastBytes (n : Nat) (d : List Byte) : List Byte := d.drop (d.length - n)

/-- The codec's input. -/
def Stream.input (x : Stream) (bit : Nat) (last whole checksum : Bool) (data : List Byte) : CodecIn :=
  ⟨x.format, x.level, x.begins, last, whole, checksum, x.ctx, bit, x.hist, x.dict, data⟩

/-- The status that a codec's ending gives (R338). -/
def codecStatus : CodecEnd → Option (Nat × Nat)
  | .good => none
  | .excluded => some (0x10, 0x66)
  | .noDictionary => some (0x10, 0x67)
  | .badChecksum => some (0x15, 0x04)
  | _ => some (0x15, 0x05)

/-! ### Decompression (R329, R334, R336) -/

/-- Write the symbols of a payload; `left` bounds the output where a length is declared. -/
def Stream.symbols (x : Stream) : List CodecSym → Option Nat → Stream × Option Nat × Option (Nat × Nat)
  | [], left => (x, left, none)
  | y :: rest, left =>
    let past := left.any (fun n => decide (n < y.out.length))
    let d := if past then y.out.take (left.getD 0) else y.out
    match x.out.place false d with
    | none => (x, left, some (0x14, 0x02))
    | some o =>
      let u := { x with
        out := o, bits := x.bits + y.bits, ctx := y.ctx, crc := crcBytes x.crc d,
        hist := lastBytes 8388608 (x.hist ++ d) }
      if past then (u, some 0, some (0x13, 0)) else u.symbols rest (left.map (fun n => n - y.out.length))

/-- Decompress what the input holds of the open block of a tagged stream. What a symbol left unread stays to come. -/
def Stream.openBlock (x : Stream) (bit : Nat) (last : Bool) (inp : List Byte) : Stream × Option (Nat × Nat) :=
  let data := inp.take x.comp
  let whole := decide (data.length = x.comp)
  let r := codecDecode (x.input bit x.wasLast whole false data)
  let w := x.symbols r.1 (some x.orig)
  let u := { w.1 with orig := w.2.1.getD 0, comp := x.comp - (bit + (w.1.bits - x.bits)) / 8, begins := false }
  match w.2.2 with
  | some e => (u, some e)
  | none =>
    match if r.2 = .cut ∧ u.orig ≠ 0 then some (0x12, 0) else codecStatus r.2 with
    | some e => (u, some e)
    | none =>
      if !whole then (u, if last then some (0x12, 0) else none)
      else if u.orig ≠ 0 then (u, some (0x12, 0))
      else
        let crc := (u.crc ^^^ 0xFFFFFFFF#32).toNat
        let v := { u with comp := 0, lastCrc := crc, blocks := u.blocks + 1, bits := x.bits - bit + 8 * data.length }
        (v, if crc = x.want then none else some (0x15, 0x01))

/-- Decompress a tagged stream from a tag boundary: the tags and payloads of the input in turn. -/
def Stream.tagged (x : Stream) (last : Bool) (inp : List Byte) : Nat → Stream × Option (Nat × Nat)
  | 0 => (x, none)
  | fuel + 1 =>
    if inp = [] then (x, if last ∧ !x.wasLast then some (0x10, 0x65) else none)
    else if x.wasLast then (x, some (0x10, 0x65))
    else if inp.length < 32 then (x, if last then some (0x15, 0x05) else none)
    else
      let t := parseTag inp
      match t.error x.format x.begins with
      | some e => (x, some e)
      | none =>
        let y := { x with
          bits := x.bits + 256, orig := t.orig, comp := t.comp, want := t.crc, wasLast := t.last, crc := 0xFFFFFFFF#32 }
        match y.openBlock 0 last (inp.drop 32) with
        | (z, some e) => (z, some e)
        | (z, none) => if z.comp ≠ 0 then (z, none) else z.tagged last (inp.drop (32 + t.comp)) fuel

/-- Decompress a tagged stream, the open block of a resumed one first. -/
def Stream.decompress (x : Stream) (bit : Nat) (last : Bool) (inp : List Byte) : Stream × Option (Nat × Nat) :=
  if x.comp = 0 then x.tagged last inp (inp.length + 1)
  else
    let k := x.comp
    match x.openBlock bit last inp with
    | (y, some e) => (y, some e)
    | (y, none) => if y.comp ≠ 0 then (y, none) else y.tagged last (inp.drop k) (inp.length + 1)

/-- Decompress a bare stream: `expect` is its declared length, 0 for none. -/
def Stream.bare (x : Stream) (bit : Nat) (last : Bool) (expect : Nat) (inp : List Byte) : Stream × Option (Nat × Nat) :=
  let r := codecDecode (x.input bit last last false inp)
  let w := x.symbols r.1 (if expect = 0 then none else some expect)
  let u := { w.1 with begins := false }
  let under := decide (expect ≠ 0) && decide (w.2.1.getD 0 ≠ 0)
  match w.2.2 with
  | some e => (u, some e)
  | none =>
    match if r.2 = .cut ∧ under then some (0x12, 0) else codecStatus r.2 with
    | some e => (u, some e)
    | none =>
      let v := if last then { u with bits := x.bits - bit + 8 * inp.length } else u
      (v, if under then some (0x12, 0) else none)

/-! ### Compression (R323, R326, R330, R333, R334) -/

/-- A payload of the first bytes of a block: whether it is the stored form, its bits, and those that close it. -/
structure Form where
  stored : Bool
  body : List Bool
  close : List Bool

def Form.bits (f : Form) : List Bool := f.body ++ f.close

/-- The payload of a block's data. What the match finder writes is taken where it is a valid part of the stream, its close
fits the reserve of R334, and the stored form is not shorter; `forced` asks for the stored form (R326, R330). A bare stream
is closed at its end only. -/
def formOf (i : CodecIn) (tagged forced : Bool) (pos : Nat) (final : Bool) : Form :=
  let closes := tagged || final
  let enc : Form := ⟨false, Config.codecBits i final, if closes then Config.codecClose i final else []⟩
  let sto : Form := ⟨true, storedForm i pos final i.data, if closes then storedClose i final i.data else []⟩
  if forced ∨ 64 < enc.close.length ∨ !spells i pos closes final enc.bits i.data ∨ sto.bits.length < enc.bits.length then sto else enc

/-- Cut bytes into pieces of these lengths, the rest last. -/
def cutAt : List Nat → List Byte → List (List Byte)
  | [], d => if d = [] then [] else [d]
  | n :: ns, d => d.take n :: cutAt ns (d.drop n)

/-- The Zstandard blocks of a payload. -/
def zstPieces : Nat → List Byte → List (List Byte)
  | 0, _ => []
  | fuel + 1, d =>
    if d = [] then []
    else
      let v := fieldAt d 0 3
      let n := 3 + (if v / 2 % 4 = 1 then 1 else v / 8)
      d.take n :: zstPieces fuel (d.drop n)

/-- The pieces of a payload that are not split between buffers: the sequences of LZ4, the header and the blocks of
Zstandard; DEFLATE goes on bit-exact (R333). -/
def piecesOf (i : CodecIn) (d : List Byte) : List (Bool × List Byte) :=
  match i.format with
  | 1 => [(false, d)]
  | 2 => (cutAt ((lz4Decode { i with whole := true, data := d }).1.map (fun y => y.bits / 8)) d).map (fun p => (true, p))
  | _ =>
    let n := if !i.first then 0 else match zstHeader i.dict d with | .got _ r => d.length - r.length | _ => 0
    ((if n = 0 then [] else [d.take n]) ++ zstPieces (d.length + 1) (d.drop n)).map (fun p => (true, p))

/-- What compressing a block gives: the stream after it, the bytes of data taken, whether in stored form, whether the space
ended first, and whether the payload decompresses to the data. -/
structure Packed where
  next : Stream
  taken : Nat
  stored : Bool
  full : Bool
  equal : Bool

/-- The outcome of compressing the first `n` bytes of a block: the output where they fit, none where not. The space keeps 8
bytes in reserve for the close of a tagged block (R334). -/
def Stream.packed (x : Stream) (i : CodecIn) (tagged last forced : Bool) (n : Nat) : Option OutBuf × Packed :=
  let j := { i with data := i.data.take n }
  let final := last && decide (n = i.data.length)
  let f := formOf j tagged forced x.rem.length final
  let r := decodeFrom { j with whole := tagged || final, last := final } x.rem.length f.bits
  let all := x.rem ++ f.bits
  let bytes := if tagged || final then bytesOfBits all else (bytesOfBits all).take (all.length / 8)
  let k := if tagged then f.body.length / 8 else bytes.length
  let tag := tagBytes x.format x.begins final (x.verifies && !f.stored) f.stored n bytes.length (crc32c j.data).toNat
  let o := if tagged then
      (((x.out.less 8).placeAll ((true, tag) :: piecesOf j (bytes.take k))).map (fun o => { o with pMax := x.out.pMax, cMax := x.out.cMax })).bind
        (fun o => o.place (x.format ≠ 1) (bytes.drop k))
    else x.out.placeAll (piecesOf j bytes)
  let u := { x with
    out := o.getD x.out, bits := x.bits + 8 * n, ctx := (r.1.getLast?.map CodecSym.ctx).getD x.ctx,
    hist := lastBytes 8388608 (x.hist ++ j.data), begins := false, crc := crcBytes x.crc j.data,
    lastCrc := (crc32c j.data).toNat, blocks := x.blocks + bit (decide (n = i.data.length) || tagged),
    rem := if tagged || final then [] else all.drop (8 * (all.length / 8)) }
  (o, ⟨u, n, f.stored, false, spells j x.rem.length (tagged || final) final f.bits j.data⟩)

/-- Compress a block: all of it, or as many of its symbols as there is space for. A bare stream that goes on stops where
its payload can be cut. -/
def Stream.pack (x : Stream) (tagged last checksum forced : Bool) (data : List Byte) : Packed :=
  let i := x.input 0 last true checksum data
  let cuts := if forced then List.range data.length else Config.codecCuts i
  let ns := data.length :: ((List.range data.length).filter (fun n => 0 < n && cuts.contains n)).reverse
  let ps := (ns.map (x.packed i tagged last forced)).filter (fun p => p.2.equal)
  match ps with
  | [] => ⟨x, 0, false, false, true⟩
  | p :: _ =>
    if p.1.isSome then p.2
    else match ps.find? (fun q => q.1.isSome) with
      | some q => { q.2 with full := true }
      | none => ⟨x, 0, false, true, true⟩

/-- A verification by the engine that carries `e`, which has decompressed a block and compared it with its input: whether
they differ, with its counts and mark (R330). An armed injection makes them differ. -/
def State.verifyBlock (s : State) (e : Nat) (equal : Bool) : Bool × State :=
  match s.physEngine e with
  | none => (false, s)
  | some p =>
    if s.mgl.inject.contains p || !equal then
      let t := { s with mgl := { s.mgl with inject := s.mgl.inject.filter (fun q => q ≠ p) } }
      let u := ((t.bumpSat fMGL_VERIFY_FAILS_COUNT 0 1).bumpSat fMGL_ENGINE_VERIFY_FAILS p 1).raise 9 2
      if u.setting1 fMGL_RETIRE_THRESHOLD 0 ≤ u.rd fMGL_ENGINE_VERIFY_FAILS p then
        (true, (u.wr fMGL_ENGINE_RETIRE_MARK p 1).mark 2 p 1)
      else (true, u)
    else (false, s)

def Packed.result (p : Packed) : Stream × Option (Nat × Nat) := (p.next, if p.full then some (0x14, 0x02) else none)

/-- Compress a block, with its verification: one that differs is written again in stored form, or the space ends before it
(R330, R340). A block in stored form is not verified. -/
def packJob (e : Nat) (tagged last checksum : Bool) (x : Stream) (data : List Byte) : Job (Stream × Option (Nat × Nat)) := do
  let p := x.pack tagged last checksum false data
  if x.verifies && !p.stored && decide (0 < p.taken) then do
    let r ← jobGet (fun s => s.verifyBlock e p.equal)
    jobDo (fun _ => r.2)
    if r.1 then
      let q := x.pack tagged last checksum true data
      pure (if q.taken < p.taken then (x, if q.full then some (0x14, 0x02) else none) else q.result)
    else pure p.result
  else pure p.result

/-- Compress the input block by block. -/
def packAll (e blockBytes : Nat) (last checksum : Bool) (x : Stream) (inp : List Byte) : Nat → Job (Stream × Option (Nat × Nat))
  | 0 => pure (x, none)
  | fuel + 1 =>
    if inp = [] then pure (x, none)
    else do
      let rest := inp.drop blockBytes
      let r ← packJob e true (last && rest.isEmpty) checksum x (inp.take blockBytes)
      match r.2 with
      | some err => pure (r.1, some err)
      | none => packAll e blockBytes last checksum r.1 rest fuel

/-! ### Dictionaries and stream state (R332, R335, R337) -/

/-- Load a dictionary record: its bytes and CRC; none for address 0. The load is skipped where the cache of the engine that
carries `e` holds a dictionary of the same function, address and CRC (R337). -/
def loadDict (e fn va : Nat) : Job (List Byte × Nat) :=
  if va = 0 then pure ([], 0)
  else do
    let h ← jobRead fn va 16
    let n := fieldAt h 0 4
    let crc := fieldAt h 4 4
    let held ← jobGet (fun s => (s.physEngine e).bind (find s.mgl.dicts))
    match held.filter (fun q => q.fn = fn && q.addr = va && q.crc = crc) with
    | some q => pure (q.data, crc)
    | none => do
      jobNeed (8 ≤ n && n ≤ 2097152 && !nonzeroAt h 8 16) 0x15 0x03
      let d ← jobRead fn (va + 16) n
      jobNeed (crc32c d = BitVec.ofNat 32 crc && fieldAt d 0 4 = 0xEC30A437 && Config.dictOk d) 0x15 0x03
      jobDo (fun s => match s.physEngine e with
        | some p => { s with mgl := { s.mgl with dicts := put s.mgl.dicts p ⟨fn, va, crc, d⟩ } }
        | none => s)
      pure (d, crc)

/-- A new stream. -/
def Stream.start (format level : Nat) (o : OutBuf) (dict : List Byte) (begins verifies : Bool) : Stream :=
  { format := format, level := level, out := o, bits := 0, ctx := [], hist := [], dict := dict, orig := 0, comp := 0,
    want := 0, wasLast := false, crc := 0xFFFFFFFF#32, lastCrc := 0, blocks := 0, begins := begins, verifies := verifies, rem := [] }

/-- The header of a state record, without STATE_CRC. -/
def stateHead (op format level : Nat) (bare : Bool) (inBit fn hist orig comp crc dictCrc : Nat) : List Byte :=
  leBytes 4 0x5453474D ++ leBytes 1 op ++ leBytes 1 format ++ leBytes 1 (level + 16 * bit bare) ++ leBytes 1 inBit ++ leBytes 2 fn
    ++ leBytes 2 0 ++ leBytes 4 hist ++ leBytes 4 orig ++ leBytes 4 comp ++ leBytes 4 crc ++ leBytes 4 dictCrc

/-- The job context of a state record: 16,320 bytes, the declared CRC of the open block, its last mark and whether the
stream still begins, and the bits that wait for a byte, before the codec's own. -/
def stateContext (x : Stream) : List Byte :=
  let d := leBytes 4 x.want ++ leBytes 1 (bit x.wasLast + 2 * bit x.begins) ++ leBytes 1 x.rem.length ++ leBytes 1 (bitsVal x.rem)
    ++ leBytes 2 (min x.ctx.length 16311) ++ x.ctx.take 16311
  d ++ List.replicate (16320 - d.length) 0

/-- A state record. -/
def stateRecord (op : Nat) (bare : Bool) (fn dictCrc : Nat) (x : Stream) : List Byte :=
  let hist := lastBytes (windowOf x.format x.level (op = 1) x.ctx) x.hist
  let head := stateHead op x.format (if op = 2 then x.level else 0) bare (if x.format = 1 then x.bits % 8 else 0) fn hist.length
    x.orig x.comp x.crc.toNat dictCrc
  let body := stateContext x ++ hist
  head ++ leBytes 4 (crc32c (head ++ body)).toNat ++ leBytes 28 0 ++ body

/-- The stream that a state record continues: none where its header does not match (sub-status 0x63). -/
def resumeStream (op format level : Nat) (bare : Bool) (fn dictCrc : Nat) (h body : List Byte) (x : Stream) :
    Except (Nat × Nat) (Nat × Stream) :=
  if fieldAt h 0 4 ≠ 0x5453474D ∨ fieldAt h 4 1 ≠ op ∨ fieldAt h 5 1 ≠ format
      ∨ (op = 2 ∧ bitsAt h 6 0 4 ≠ level) ∨ (bitsAt h 6 4 1 = 1) ≠ bare ∨ fieldAt h 8 2 % 2 ^ 11 ≠ fn
      ∨ fieldAt h 28 4 ≠ dictCrc then .error (0x10, 0x63)
  else if crc32c (h.take 32 ++ body) ≠ BitVec.ofNat 32 (fieldAt h 32 4) then .error (0x15, 0x06)
  else .ok (bitsAt h 7 0 3,
    { x with
      ctx := (body.drop 9).take (fieldAt body 7 2), hist := body.drop 16320, orig := fieldAt h 16 4, comp := fieldAt h 20 4,
      want := fieldAt body 0 4, wasLast := bitsAt body 4 0 1 = 1, begins := bitsAt body 4 1 1 = 1,
      rem := (List.range (fieldAt body 5 1)).map (fieldAt body 6 1).testBit, crc := BitVec.ofNat 32 (fieldAt h 24 4) })

/-! ### Descriptor jobs (R327, R328, R338) -/

def dFlag (d : List Byte) (b : Nat) : Bool := bitsAt d 3 b 1 = 1

/-- The address in a descriptor's field. -/
def dAddr (d : List Byte) (o : Nat) : Nat := bitsAt d o 0 48

/-- The checks of R338 that need no memory, in order. -/
def descError (desc : Nat) (d : List Byte) : Option (Nat × Nat) :=
  let op := fieldAt d 0 1
  let fmt := fieldAt d 1 1
  let lvl := bitsAt d 2 0 4
  let tagged := op = 2 ∧ !dFlag d 3
  let block := fieldAt d 4 4
  if bitsAt d 2 4 4 ≠ 0 ∨ dFlag d 7 ∨ nonzeroAt d 14 16 ∨ nonzeroAt d 30 32 ∨ nonzeroAt d 46 48 ∨ nonzeroAt d 54 56
      ∨ nonzeroAt d 62 64 ∨ nonzeroAt d 68 96 then some (0x10, 0x01)
  else if op = 0 ∨ 2 < op ∨ fmt = 0 ∨ 3 < fmt ∨ (op = 1 ∧ lvl ≠ 0) ∨ (op = 2 ∧ (lvl = 0 ∨ 9 < lvl))
      ∨ (dFlag d 2 ∧ dFlag d 0) ∨ (op = 1 ∧ (dFlag d 4 ∨ dFlag d 5 ∨ block ≠ 0))
      ∨ ((dFlag d 6 ∨ fieldAt d 20 4 ≠ 0) ∧ !(op = 1 ∧ dFlag d 3 ∧ dFlag d 1)) ∨ (dAddr d 56 ≠ 0 ∧ fmt ≠ 3) then some (0x10, 0x60)
  else if desc % 128 ≠ 0 ∨ dAddr d 48 % 4096 ≠ 0 then some (0x10, 0x61)
  else if fieldAt d 16 4 = 0 ∨ fieldAt d 32 4 < 64 ∨ (fieldAt d 36 4 ≠ 0 ∧ fieldAt d 36 4 < 64)
      ∨ (tagged ∧ (block < 4096 ∨ 4194304 < block ∨ block % 4096 ≠ 0)) ∨ (op = 2 ∧ !tagged ∧ block ≠ 0) then some (0x11, 0x01)
  else if dAddr d 48 = 0 ∧ !(dFlag d 0 ∧ dFlag d 1) then some (0x10, 0x62)
  else none

/-- Whether a partial write met a bad line; the job reports it itself (R432). -/
def jobSoft : Job Bool := modifyGet (fun p => (p.2, (p.1, false)))

/-- The failure of a job that the caller goes on after. -/
def jobTry (j : Job Unit) : Job (Option (Nat × Nat)) := tryCatch (do j; pure none) (fun e => pure (some e))

/-- The result of a job that wrote nothing. -/
def failResult (s : State) (e : Nat × Nat) : MglResult := ⟨e.1, e.2, false, 0, 0, 0, 0, 0, 0, s.clk.tsu, none⟩

/-- The work of a descriptor job on engine `e`: the result record (R329 to R337). -/
def descJob (e fn desc : Nat) (d : List Byte) (force : Bool) : Job MglResult := do
  match descError desc d with
  | some err => throw err
  | none => do
    let op := fieldAt d 0 1
    let fmt := fieldAt d 1 1
    let lvl := bitsAt d 2 0 4
    let last := dFlag d 1
    let bare := dFlag d 3
    let st := dAddr d 48
    let o : OutBuf := ⟨fieldAt d 32 4, fieldAt d 36 4, [], [], false⟩
    let h ← if dFlag d 2 then jobRead fn st 64 else pure []
    let body ← if dFlag d 2 then
        jobRead fn (st + 64) (16320 + (if fieldAt h 0 4 = 0x5453474D then min 8388608 (fieldAt h 12 4) else 0))
      else pure []
    let dictCrc ← if dAddr d 56 = 0 then pure 0 else do
      let r ← jobRead fn (dAddr d 56) 16
      pure (fieldAt r 4 4)
    let x0 := Stream.start fmt lvl o [] (dFlag d 0) (op = 2 && (dFlag d 4 || force))
    let r0 := if dFlag d 2 then resumeStream op fmt lvl bare fn dictCrc h body x0 else .ok (0, x0)
    match r0 with
    | .error err => throw err
    | .ok (inBit, x1) => do
      let dict ← loadDict e fn (dAddr d 56)
      let x := { x1 with dict := dict.1 }
      let inp ← jobRead fn (dAddr d 8) (fieldAt d 16 4)
      let r ← if op = 1 then
          if bare then pure (({ x with bits := inBit }).bare inBit last (fieldAt d 20 4) inp)
          else pure (({ x with bits := inBit }).decompress inBit last inp)
        else if bare then packJob e false last (dFlag d 5) x inp
        else packAll e (fieldAt d 4 4) last (dFlag d 5) x inp (inp.length + 1)
      let y := r.1
      let crc := (y.crc ^^^ 0xFFFFFFFF#32).toNat
      let w1 ← jobTry (jobWrite fn (dAddr d 24) y.out.p)
      let w2 ← jobTry (jobWrite fn (dAddr d 40) y.out.c)
      let soft ← jobSoft
      let werr := w1.orElse (fun _ => w2.orElse (fun _ => if soft then some (0x21, 0x42) else none))
      let err := match werr, r.2 with
        | some err, _ => some err
        | none, some (0x14, _) => some (0x14, if st = 0 then 0x03 else 0x02)
        | none, some err => some err
        | none, none => if dFlag d 6 ∧ crc ≠ fieldAt d 64 4 then some (0x15, 0x07) else none
      let save := st ≠ 0 && (err = some (0x14, 0x02) || (err.isNone && !last))
      let ts ← jobGet (fun s => s.clk.tsu)
      jobDo (fun s => s.engineBytes e (y.bits / 8) y.out.bytes)
      pure { status := (err.getD (0, 0)).1, sub := (err.getD (0, 0)).2, saved := save, inBit := if fmt = 1 then y.bits % 8 else 0,
             consumed := y.bits / 8, outPrimary := if w1.isSome then 0 else y.out.p.length,
             outChain := if w2.isSome then 0 else y.out.c.length, crc := if bare then crc else y.lastCrc, blocks := y.blocks, ts := ts,
             state := if save then some (st, stateRecord op bare fn dict.2 y) else none }

/-- The head job of an engine is a descriptor job that has not run, and the engine is clear for it. -/
def State.descReady (s : State) (e : Nat) : Bool :=
  s.starts 9 && s.rd fCVC_PS_STATUS_STATE 0 = 0
    && ((s.engineJobs e).head?).any (fun j => j.task.isNone && j.result.isNone && s.engineClear e j.fn)

/-- Run the descriptor job at the head of an engine. -/
def State.descRun (s : State) (e : Nat) : State :=
  match s.engineJobs e with
  | [] => s
  | j :: rest =>
    let u := s.engineTakes e j.fn
    let r := match u.runJob (descJob e j.fn j.desc j.bytes (u.setting fMGL_VERIFY_FORCE 0 = 1)) with
      | (.ok x, t) => (x, t)
      | (.error err, t) => (failResult t err, t.jobFault 9 j.fn err)
    (r.2.checkFail r.1.status).setEngineJobs e ({ j with result := some r.1 } :: rest)

/-- DECOMPRESS: the job's descriptor has OP 0x01, or an OP out of range. -/
def execDecompress (e : Nat) (s : State) : Res :=
  steady (s.descReady e && ((s.engineJobs e).head?).any (fun j => fieldAt j.bytes 0 1 ≠ 2)) (fun s => s.descRun e) s

/-- COMPRESS: OP 0x02. -/
def execCompress (e : Nat) (s : State) : Res :=
  steady (s.descReady e && ((s.engineJobs e).head?).any (fun j => fieldAt j.bytes 0 1 = 2)) (fun s => s.descRun e) s

/-- The 32 bytes of a result record. -/
def MglResult.bytes (r : MglResult) : List Byte :=
  leBytes 1 r.status ++ leBytes 1 r.sub ++ leBytes 1 (bit r.saved + 2 * bit (r.outChain ≠ 0)) ++ leBytes 1 r.inBit
    ++ leBytes 4 r.consumed ++ leBytes 4 r.outPrimary ++ leBytes 4 r.outChain ++ leBytes 4 r.crc ++ leBytes 4 r.blocks
    ++ leBytes 8 r.ts

/-! ### Graph tasks (R325, R326) -/

/-- Walk the tags of a column's stream: the sum of their original lengths (R325 step 2). -/
def walkTags (format : Nat) (first : Bool) (d : List Byte) : Nat → Except (Nat × Nat) Nat
  | 0 => .ok 0
  | fuel + 1 =>
    if d = [] then .ok 0
    else if d.length < 32 then .error (0x15, 0x05)
    else
      let t := parseTag d
      match t.error format first with
      | some e => .error e
      | none =>
        match walkTags format false (d.drop (32 + t.comp)) fuel with
        | .error e => .error e
        | .ok n => .ok (t.orig + n)

/-- The declared length of a column agrees with its rows. -/
def lengthAgrees (type rows n : Nat) : Bool :=
  if type ≤ 4 then n = rows * typeWidth type else if type = 8 then 4 * (rows + 1) ≤ n else true

/-- Decompress one column's stream to its region: what it gives is written, and counted, before a failure ends the job
(R325, R329). -/
def decompColumn (e fn format n region : Nat) (dict d : List Byte) : Job (List Byte) := do
  let r := (Stream.start format 0 ⟨n, 0, [], [], false⟩ dict true false).tagged true d (d.length + 1)
  jobWrite fn region r.1.out.p
  jobDo (fun s => s.engineBytes e (r.1.bits / 8) r.1.out.p.length)
  match r.2 with
  | some e => throw e
  | none => pure r.1.out.p

/-- The work of a DECOMP task on engine `e`. -/
def decompJob (e : Nat) (x : Task) (r : Run) (g : Graph) : Job (List (Nat × Token)) := do
  let n := g.node x.node
  let rec0 := r.record n
  let fmt := fieldAt rec0 0 1
  let k := fieldAt rec0 1 1
  match x.token with
  | none => pure []
  | some t => do
    let cols ← readCols x.fn t
    jobNeed (k ≤ cols.length && (cols.take k).all (fun c => c.type = 15)) 0x10 0x68
    let dict ← loadDict e x.fn (fieldAt rec0 8 8 % 2 ^ 48)
    let ins ← jobAll (fun c => jobRead x.fn c.data c.bytes) (cols.take k)
    let lens ← jobAll (fun d => match walkTags fmt true d (d.length + 1) with
      | .ok m => pure m
      | .error err => throw err) ins
    let types := (List.range k).map (fun c => fieldAt rec0 (16 + 4 * c) 1)
    jobNeed ((List.range k).all (fun c => lengthAgrees (types.getD c 0) t.rows (lens.getD c 0))) 0x11 0x02
    let nulls ← jobAll (readNulls x.fn t.rows) (cols.take k)
    let copies ← if n.pass then pure [] else jobAll (readColData x.fn t.rows) (cols.drop k)
    let sel ← if t.sel = 0 then pure [] else jobRead x.fn t.sel ((t.rows + 7) / 8)
    match r.outBuf g x with
    | none => throw (0x11, 0x01)
    | some (b, base, slot) => do
      let own := ((List.range k).map (fun c =>
        lens.getD c 0 :: (if nulls.getD c [] = [] then [] else [(nulls.getD c []).length]))).flatten
      let sizes := [32 * cols.length] ++ own ++ (if t.sel = 0 then [] else [sel.length])
        ++ (copies.map ColData.parts).flatten.map List.length
      jobNeed (layBytes base sizes ≤ slot) 0x11 0x01
      let as := (layParts base sizes).1.drop 1
      let place (c : Nat) : Nat := as.getD (((List.range c).map (fun i => if nulls.getD i [] = [] then 1 else 2)).foldl (· + ·) 0) 0
      let datas ← jobAll (fun c => decompColumn e x.fn fmt (lens.getD c 0) (place c) dict.1 (ins.getD c [])) (List.range k)
      let made : List ColData := (List.range k).map (fun c =>
        ⟨{ (cols.getD c ⟨0, 0, 0, 0, 0, 0, false⟩) with type := types.getD c 0, bytes := 0 }, datas.getD c [], [], nulls.getD c []⟩)
      let step (acc : List Col × List Nat) (c : ColData) : List Col × List Nat :=
        let a := acc.2.getD 0 0
        let hasNull := !c.nulls.isEmpty
        (acc.1 ++ [{ c.col with
            data := a, aux := if c.col.type = 8 then a + 4 * (t.rows + 1) else 0,
            null := if hasNull then acc.2.getD 1 0 else 0, reserved := false }],
          acc.2.drop (if hasNull then 2 else 1))
      let p := made.foldl step ([], as)
      let rest := p.2.drop (if t.sel = 0 then 0 else 1)
      let outCols := p.1 ++ (if n.pass then cols.drop k else placeAll copies rest)
      jobWrite x.fn base ((outCols.map colBytes).flatten)
      writeParts x.fn (List.zip as ((made.map (fun c => c.data :: (if c.nulls = [] then [] else [c.nulls]))).flatten
        ++ (if t.sel = 0 then [] else [sel]) ++ (copies.map ColData.parts).flatten))
      pure (onPorts g x.node (outToken x r t t.rows cols.length base ((outCols.map Col.data).getD 0 0)
        (if t.sel = 0 then 0 else p.2.getD 0 0) ([b] ++ (if n.pass then t.bufs else []))))

/-- B(n) summed over the blocks of `len` bytes (R326). -/
def compBound (block len : Nat) : Nat :=
  let full := len / block
  let rest := len % block
  full * (maxPayload block + 32) + (if rest = 0 then 0 else maxPayload rest + 32)

/-- Block size of COMP tasks. -/
def State.compBlock (s : State) : Nat := 1024 * min 4096 (max 4 (s.setting fMGL_GRAPH_COMP_BLOCK_KIB 0 / 4 * 4))

/-- The work of a COMP task on engine `e`. -/
def compJob (e : Nat) (x : Task) (r : Run) (g : Graph) : Job (List (Nat × Token)) := do
  let n := g.node x.node
  let rec0 := r.record n
  match x.token with
  | none => pure []
  | some t => do
    let cols ← readCols x.fn t
    jobNeed (cols.all (fun c => c.type ≠ 15)) 0x10 0x68
    let dict ← loadDict e x.fn (fieldAt rec0 8 8 % 2 ^ 48)
    let cs ← jobAll (readColData x.fn t.rows) cols
    let block ← jobGet State.compBlock
    let verify ← jobGet (fun s => s.setting fMGL_VERIFY_GRAPH 0 = 1 || s.setting fMGL_VERIFY_FORCE 0 = 1)
    match r.outBuf g x with
    | none => throw (0x11, 0x01)
    | some (b, base, slot) => do
      let sizes := [32 * cols.length] ++ (cs.map (fun c =>
        compBound block (c.data.length + c.heap.length) :: (if c.nulls = [] then [] else [c.nulls.length]))).flatten
      jobNeed (layBytes base sizes ≤ slot) 0x11 0x01
      let outs ← jobAll (fun c => do
        let d := c.data ++ c.heap
        let x0 := Stream.start (fieldAt rec0 0 1) (fieldAt rec0 1 1) ⟨compBound block d.length + 8, 0, [], [], false⟩ dict.1 true verify
        let q ← packAll e block true false x0 d (d.length + 1)
        match q.2 with
        | some err => throw err
        | none => pure q.1.out.p) cs
      let as := (layParts base sizes).1.drop 1
      let step (acc : List Col × List Nat) (co : ColData × List Byte) : List Col × List Nat :=
        let hasNull := !co.1.nulls.isEmpty
        (acc.1 ++ [{ co.1.col with
            data := acc.2.getD 0 0, aux := 0, null := if hasNull then acc.2.getD 1 0 else 0, type := 15, bytes := co.2.length,
            reserved := false }],
          acc.2.drop (if hasNull then 2 else 1))
      let outCols := ((List.zip cs outs).foldl step ([], as)).1
      jobWrite x.fn base ((outCols.map colBytes).flatten)
      writeParts x.fn (List.zip as ((List.zip cs outs).map (fun co => co.2 :: (if co.1.nulls = [] then [] else [co.1.nulls]))).flatten)
      jobDo (fun s => s.engineBytes e ((cs.map (fun c => c.data.length + c.heap.length)).foldl (· + ·) 0)
        ((outs.map List.length).foldl (· + ·) 0))
      pure (onPorts g x.node (outToken x r t t.rows cols.length base ((outCols.map Col.data).getD 0 0) t.sel [b]))

/-- The engine at whose head a task stands, clear for its function. -/
def State.engineOfTask (s : State) (k : Nat) : Option Nat :=
  match s.task k with
  | none => none
  | some x =>
    match x.place with
    | .mangle e => if ((s.engineJobs e).head?).any (fun j => j.task = some k) && s.engineClear e x.fn then some e else none
    | _ => none

/-- Run a task's work on its engine. -/
def State.mangleTask (s : State) (k : Nat) (j : Nat → Task → Run → Graph → Job (List (Nat × Token))) : State :=
  match s.engineOfTask k, s.task k with
  | some e, some x =>
    let u := (s.engineTakes e x.fn).engineTask k 9 (j e)
    u.checkFail (((u.task k).bind Task.result).getD (0, 0, [])).1
  | _, _ => s

def execDecompTask (k : Nat) (s : State) : Res :=
  steady (s.engineReady k [2] && s.starts 9 && (s.engineOfTask k).isSome) (fun s => s.mangleTask k decompJob) s

def execCompTask (k : Nat) (s : State) : Res :=
  steady (s.engineReady k [3] && s.starts 9 && (s.engineOfTask k).isSome) (fun s => s.mangleTask k compJob) s

/-! ### Injection and swaps (R330, R339, R464) -/

/-- MGL_INJECT with GO: the next verification of an engine compares unequal. -/
def State.mglInject (s : State) (p : Nat) : State :=
  if p < 18 then { s with mgl := { s.mgl with inject := if s.mgl.inject.contains p then s.mgl.inject else s.mgl.inject ++ [p] } }
  else s.notice 9 p

def execMglInject (p : Nat) (s : State) : Res :=
  steady (s.reaches 0 && s.ready 9) (fun s => (s.atRegion 9 0x904).expertWrite 9 (fun s => s.mglInject p)) s

/-- The first spare engine that is unused. -/
def State.spareEngine (s : State) : Option Nat := (List.range 18).find? (fun p => s.rd fMGL_ENGINE_STATE p = 4)

/-- The marked engine that is served next. -/
def State.engineMarked (s : State) : Option Nat :=
  (s.darn.marks.find? (fun m => m.kind = 2)).map Swap.unit

/-- Swap the physical engine `p`: a spare takes its logical engine and its jobs go on; without a spare it fails once
its jobs have ended. -/
def State.engineSwap (s : State) (p : Nat) : State :=
  let l := s.rd fMGL_ENGINE_LOGICAL p
  let u := s.unmark 2 p
  let t := (u.2.wr fMGL_ENGINE_LOGICAL p 0x1F).wr fMGL_ENGINE_RETIRE_MARK p 0
  match s.spareEngine with
  | some q =>
    let v := (((t.wr fMGL_ENGINE_STATE p 5).wr fMGL_ENGINE_STATE q 0).wr fMGL_ENGINE_LOGICAL q l).wr fMGL_ENGINE_FN_VALID q
      (s.rd fMGL_ENGINE_FN_VALID p)
    ((((v.wr fMGL_ENGINE_FN q (s.rd fMGL_ENGINE_FN p)).clearEngine p).raise 9 3).history 4 u.1 l p q 0).swapEnds 2 p 1
  | none =>
    if s.engineJobs l ≠ [] then s
    else
      let v := (t.wr fMGL_ENGINE_STATE p 6).fault 9 { t.entry 9 2 with unit := p, cause := 3 }
      ((v.history 0xB u.1 l p 0xFFFF 0).raise 15 3).swapEnds 2 p 3

def execEngineSwap (s : State) : Res :=
  steady (s.ready 9 && s.starts 15 && s.darn.current.isNone)
    (fun s => match s.engineMarked with
      | none => s
      | some p => s.engineSwap p) s

end Sys2Proof.Machine
end

