-- ==== Sys2Proof/Machine/Halyard.lean ====
section
/-! DEFINITION. Halyard: checks and transfers, bursts with pacing and requesters, halts and stops, register mode,
MOVE entries and graph tasks, the end of engine jobs, and the filling of pegs and job slots
(spec/13_halyard_dma.md; spec/08_bosun_scheduler.md R207, R208, R215, R216). -/

namespace Sys2Proof.Machine

/-! ### Channels (R342, R343, R364) -/

def State.chJobs (s : State) (c : Nat) : List HalJob := getD [] s.hal.jobs c

def State.setChJobs (s : State) (c : Nat) (js : List HalJob) : State :=
  { s with hal := { s.hal with jobs := setD [] s.hal.jobs c js } }

/-- Channel states (R364). -/
def chIdle : Nat := 0
def chArmed : Nat := 1
def chActive : Nat := 2
def chStopping : Nat := 3
def chHalted : Nat := 4

def State.chState (s : State) (c : Nat) : Nat := s.rd fHAL_CH_STATUS_STATE c

def State.setChState (s : State) (c st : Nat) : State := s.wr fHAL_CH_STATUS_STATE c st

/-- Queue-mode channels of a function. -/
def State.queueChannels (s : State) (fn : Nat) : List Nat := (s.channelsOf fn).filter (fun c => s.rd fHAL_CH_CFG_MODE c = 0)

/-- A channel waits with a completion for room in its queue: it starts no further transfer (R165). -/
def State.chStalled (s : State) (c : Nat) : Bool := (find s.hal.produced c).any s.waits

/-- A channel has a free job slot; one that waits with a completion keeps the slot of its job. -/
def State.chFree (s : State) (c : Nat) : Bool := decide ((s.chJobs c).length + bit (s.chStalled c) < 2)

/-- The request source of a channel (`REQ_SEL`): 0 none, 1 to 8 a GPIO, 16 to 31 an event input. -/
def State.reqSel (s : State) (c : Nat) : Nat :=
  let r := s.rd fHAL_CH_CTRL_REQ_SEL c
  if s.rd fHAL_CH_CFG_MODE c = 1 ∧ ((1 ≤ r ∧ r ≤ 8) ∨ 16 ≤ r) then r else 0

/-- Append a job to a channel; one that finds it idle begins. -/
def State.addJob (s : State) (c : Nat) (j : HalJob) : State :=
  let u := s.setChJobs c (s.chJobs c ++ [j])
  if (s.chJobs c).isEmpty then
    (u.wr fHAL_CH_DONE_BYTES_BYTES c 0).setChState c (if u.reqSel c = 0 then chActive else chArmed)
  else u

/-- The running job leaves a channel; the staged one begins. -/
def State.nextJob (s : State) (c : Nat) : State :=
  let js := (s.chJobs c).drop 1
  let u := s.setChJobs c js
  if js = [] then u.setChState c chIdle else (u.wr fHAL_CH_DONE_BYTES_BYTES c 0).setChState c chActive

/-- The status of a channel's last job or check. -/
def State.lastStatus (s : State) (c status sub : Nat) : State :=
  (s.wr fHAL_CH_STATUS_LAST_STATUS c status).wr fHAL_CH_STATUS_LAST_SUB c sub

/-! ### Transfers and their checks (R344, R345, R359, R363) -/

/-- A transfer's widths and spaces are defined. -/
def codesBad (sw dw ss ds : Nat) : Bool := 4 < sw || 4 < dw || 1 < ss || 1 < ds || (ss = 1 && ds = 1)

/-- The span of a side: its lowest and its end address. -/
def spanOf (addr stride width count : Nat) : Nat × Nat := (addr, addr + (count / width - 1) * stride + width)

/-- The sides overlap (R359). -/
def Xfer.overlap (x : Xfer) : Bool :=
  let a := spanOf x.src x.sstride x.sw x.count
  let b := spanOf x.dst x.dstride x.dw x.count
  x.srcHost = x.dstHost && decide (a.1 < b.2) && decide (b.1 < a.2)

/-- Elements are processed from the last to the first. -/
def Xfer.backward (x : Xfer) : Bool := x.overlap && decide (x.src < x.dst)

/-- The checks of R363 on a transfer's values, after the channel's. -/
def State.xferError (s : State) (x : Xfer) : Option (Nat × Nat) :=
  if x.src % x.sw ≠ 0 ∨ x.dst % x.dw ≠ 0 ∨ x.sstride % x.sw ≠ 0 ∨ x.dstride % x.dw ≠ 0 ∨ x.dstride < x.dw then some (0x10, 0x71)
  else if x.count = 0 ∨ x.count % (max x.sw x.dw) ≠ 0 then some (0x11, 0x10)
  else if x.cxl ∧ (s.rd fHIF_LINK_STATUS_CXL 0 = 0 ∨ !x.srcHost) then some (0x10, 0x72)
  else if x.overlap ∧ x.sw ≠ x.dw then some (0x16, 0x01)
  else if x.overlap ∧ x.sstride ≠ x.dstride then some (0x16, 0x02)
  else none

/-- The transfer that a COPY entry describes (R347). -/
def copyXfer (l : Line) : Xfer :=
  { src := entryBytes l 8 8, dst := entryBytes l 16 8, count := entryBytes l 24 4, sw := 2 ^ entryBits l 6 0 3,
    dw := 2 ^ entryBits l 6 3 3, sstride := entryBytes l 28 4, dstride := entryBytes l 32 4,
    srcHost := entryBits l 7 0 2 = 1, dstHost := entryBits l 7 2 2 = 1, cxl := entryBits l 7 4 1 = 1 }

/-- Reserved fields of a MOVE entry. DEDUCED (notes/assumptions/92.md): the fields that R347 gives as 0, CHANNEL beside ANY
and the bytes that a MANGLE_JOB has no use for, are reserved there. -/
def moveReserved (l : Line) : Bool :=
  let mangle := entryBits l 4 0 2 = 1
  entryBits l 4 2 6 ≠ 0 || entryBits l 5 7 1 ≠ 0 || (entryBits l 5 6 1 = 1 && entryBits l 5 0 6 ≠ 0) || entryBits l 6 6 2 ≠ 0 || entryBits l 7 5 3 ≠ 0 || entryNonzero l 36 60
    || (mangle && (entryNonzero l 6 8 || entryNonzero l 14 36))

/-- The checks of a MOVE entry (R363). -/
def State.moveError (s : State) (fn : Nat) (l : Line) : Option (Nat × Nat) :=
  let kind := entryBits l 4 0 2
  if moveReserved l then some (0x10, 0x01)
  else if 1 < kind ∨ (kind = 0 ∧ codesBad (entryBits l 6 0 3) (entryBits l 6 3 3) (entryBits l 7 0 2) (entryBits l 7 2 2)) then
    some (0x10, 0x70)
  else if (if entryBits l 5 6 1 = 1 then (s.queueChannels fn).isEmpty else !(s.queueChannels fn).contains (entryBits l 5 0 6)) then
    some (0x23, 0x03)
  else if kind = 0 then s.xferError (copyXfer l) else none

/-- The first HBM address of a MOVE entry. -/
def firstHbm (l : Line) : Option Nat :=
  if entryBits l 4 0 2 = 1 then some (entryBytes l 8 6)
  else
    let x := copyXfer l
    if !x.srcHost then some x.src else if !x.dstHost then some x.dst else none

/-- The channel that takes a MOVE entry (R348); none while it waits for a slot. -/
def State.moveChannel (s : State) (fn : Nat) (l : Line) : Option Nat :=
  if entryBits l 5 6 1 = 0 then
    let c := entryBits l 5 0 6
    if s.chFree c then some c else none
  else
    let cs := (s.queueChannels fn).filter s.chFree
    let home := (firstHbm l).bind (s.homeStack fn)
    ((cs.find? (fun c => home = some (c / 8)))).orElse (fun _ => cs.head?)

/-- A blank transfer, for jobs that are no plain transfer. -/
def Xfer.none_ : Xfer := ⟨0, 0, 0, 1, 1, 0, 0, false, false, false⟩

/-- COPY: the queue's handed entry is checked and takes a slot of its channel. A KIND that is reserved fails here. -/
def State.copyEntry (s : State) (fn qid : Nat) (e : Entry) : State :=
  let r : Ref := ⟨fn, qid, e.tag⟩
  match s.moveError fn e.line with
  | some x => s.complete r x.1 x.2 0 0
  | none =>
    match s.moveChannel fn e.line with
    | none => s
    | some c => (s.addJob c ⟨fn, .copy qid e.tag, copyXfer e.line, 0, 0, [], none, false⟩).setStage r .started

/-- The handed MOVE entry of a queue where it is a MANGLE_JOB, or where it is not. -/
def State.moveEntry (s : State) (fn qid : Nat) (mangle : Bool) : Option Entry :=
  (s.handedEntry fn qid 3).filter (fun e => (entryBits e.line 4 0 2 = 1) = mangle)

/-- Halyard begins work: it is ready and enabled, and the module is awake (R93, R398). -/
def State.halStarts (s : State) : Bool := s.starts 7 && s.rd fCVC_PS_STATUS_STATE 0 = 0

def execCopy (fn qid : Nat) (s : State) : Res :=
  steady (s.halStarts)
    (fun s => match s.moveEntry fn qid false with
      | none => s
      | some e => s.copyEntry fn qid e) s

/-! ### Elements of a burst (R345, R346) -/

/-- Addresses of the elements that hold stream bytes [a, b). -/
def elemAddrs (base stride width a b : Nat) : List Nat := (List.range (b / width - a / width)).map (fun i => base + (a / width + i) * stride)

/-- The stream range of `len` bytes that come `off` bytes into the processing order. -/
def Xfer.range (x : Xfer) (off len : Nat) : Nat × Nat :=
  if x.backward then (x.count - off - len, x.count - off) else (off, off + len)

/-- Line requests for elements in order: neighbours in one line are one request. -/
def lineCount : List Nat → Nat
  | [] => 0
  | [_] => 1
  | a :: b :: rest => (if a / 64 = b / 64 then 0 else 1) + lineCount (b :: rest)

/-- What reading one source element or writing one destination element would meet: status and sub-status. -/
def State.elemError (s : State) (fn va : Nat) (write : Bool) : Option (Nat × Nat) :=
  match s.translate fn va (if write then .write else .read) with
  | .error e => some (0x22, e)
  | .ok dpa =>
    if write then none
    else
      match s.lineClass (dpa / 64) with
      | 2 => some (0x20, 0x20)
      | 3 => some (0x21, 0x20)
      | _ => none

/-- Source elements of a burst in processing order. -/
def Xfer.srcElems (x : Xfer) (off len : Nat) : List Nat :=
  let r := x.range off len
  let es := elemAddrs x.src x.sstride x.sw r.1 r.2
  if x.backward then es.reverse else es

def Xfer.dstElems (x : Xfer) (off len : Nat) : List Nat :=
  let r := x.range off len
  let es := elemAddrs x.dst x.dstride x.dw r.1 r.2
  if x.backward then es.reverse else es

/-- The first element of a list that fails: stream bytes before it, address, status and sub-status. -/
def State.firstBad (s : State) (fn width : Nat) (write : Bool) : List Nat → Nat → Option (Nat × Nat × Nat × Nat)
  | [], _ => none
  | a :: rest, n =>
    match s.elemError fn a write with
    | some e => some (n, a, e.1, e.2)
    | none => s.firstBad fn width write rest (n + width)

/-- The failure that the HBM sides of a burst meet: the earlier of the source's and the destination's. -/
def State.burstBad (s : State) (j : HalJob) (b : Burst) : Option (Nat × Nat × Nat × Nat) :=
  let src := if j.x.srcHost then none else s.firstBad j.fn j.x.sw false (j.x.srcElems b.off b.len) 0
  let dst := if j.x.dstHost then none else s.firstBad j.fn j.x.dw true (j.x.dstElems b.off b.len) 0
  match src, dst with
  | some e, some f => if f.1 < e.1 then some f else some e
  | some e, none => some e
  | none, f => f

/-- Read an element of the source. -/
def State.readElem (s : State) (j : HalJob) (va : Nat) : List Byte :=
  if j.x.srcHost then s.hostRead va j.x.sw
  else
    match s.translate j.fn va .read with
    | .error _ => List.replicate j.x.sw 0
    | .ok dpa => Mem.bytes s.hbm dpa j.x.sw

/-- Corrected lines of the source are written back (R424). -/
def State.touchElem (s : State) (fn va : Nat) : State :=
  match s.translate fn va .read with
  | .error _ => s
  | .ok dpa => s.readLine (dpa / 64)

/-- Join neighbouring pieces. -/
def joinPieces : List (Nat × List Byte) → List (Nat × List Byte)
  | [] => []
  | (a, d) :: rest =>
    match joinPieces rest with
    | (b, e) :: more => if a + d.length = b then (a, d ++ e) :: more else (a, d) :: (b, e) :: more
    | [] => [(a, d)]

/-- Cut a list into elements of `w` bytes. -/
def cutElems (w : Nat) (d : List Byte) : List (List Byte) := (List.range (d.length / w)).map (fun i => (d.drop (i * w)).take w)

/-- Neighbouring pieces that fall in one line, line by line. -/
def byLine : List (Nat × List Byte) → List (Nat × List (Nat × List Byte))
  | [] => []
  | p :: rest =>
    match byLine rest with
    | (l, ps) :: more => if p.1 / 64 = l then (l, p :: ps) :: more else (p.1 / 64, [p]) :: (l, ps) :: more
    | [] => [(p.1 / 64, [p])]

/-- Write the destination elements that fall in one line together (R346). -/
def State.writeElems (s : State) (fn line : Nat) (ps : List (Nat × List Byte)) : State × Bool :=
  match s.translate fn (64 * line) .write with
  | .error _ => (s, false)
  | .ok dpa =>
    let w := s.writeInLine (dpa / 64) (ps.map (fun p => (dpa + p.1 % 64, p.2)))
    (w.1.chargeHbm fn 1, w.2)

/-- Write elements to the destination's space; the flag says that a partial write met a bad line (R432). -/
def State.writePieces (s : State) (fn : Nat) (host : Bool) (ps : List (Nat × List Byte)) : State × Bool :=
  if host then ((joinPieces ps).foldl (fun s p => s.hostPut fn p.1 p.2) s, false)
  else (byLine ps).foldl (fun acc p =>
    let w := acc.1.writeElems fn p.1 p.2
    (w.1, acc.2 || w.2)) (s, false)

/-- Move stream bytes [a, b): reads, then writes (R345, R431, R432). Reads from the host were charged when the burst
started (R120). -/
def State.moveBytes (s : State) (j : HalJob) (a b : Nat) : State × Bool :=
  let src := elemAddrs j.x.src j.x.sstride j.x.sw (a / j.x.sw * j.x.sw) (roundUp b j.x.sw)
  let t := if j.x.srcHost then s
    else (src.foldl (fun s va => s.touchElem j.fn va) s).chargeHbm j.fn (lineCount src)
  let data := ((src.map (t.readElem j)).flatten.drop (a % j.x.sw)).take (b - a)
  let dst := elemAddrs j.x.dst j.x.dstride j.x.dw a b
  t.writePieces j.fn j.x.dstHost (List.zip dst (cutElems j.x.dw data))

/-! ### BURST_START (R352, R353, R356) -/

/-- Bytes of a burst. -/
def State.burstBytes (s : State) (c : Nat) : Nat := 64 * min 64 (max 1 (s.rd fHAL_CH_RATE_BURST_LINES c))

/-- Bursts outstanding that a channel may hold. -/
def State.burstDepth (s : State) (c : Nat) (x : Xfer) : Nat :=
  if x.overlap then 1 else min 16 (max 1 (s.rd fHAL_CH_RATE_DEPTH c))

/-- Link bytes per tick at the CCLK divider in force (R353). -/
def linkPerTick (div : Nat) : Nat := if div = 3 then 256 else if div = 4 then 192 else 128

/-- The spacing of R353 for a burst: 0 with SHARE at 0. -/
def State.burstSpacing (s : State) (c : Nat) (x : Xfer) (off len : Nat) : Nat :=
  let n := s.rd fHAL_CH_RATE_SHARE c
  let charge := 64 * (lineCount (x.srcElems off len) + lineCount (x.dstElems off len))
  let d := n * linkPerTick s.clk.div
  if n = 0 then 0 else (charge * 256 + d - 1) / d

/-- Modes of the GPIOs (`HAL_GPIO_MAP`). -/
def gpioFields : List Field :=
  [fHAL_GPIO_MAP_MODE_0, fHAL_GPIO_MAP_MODE_1, fHAL_GPIO_MAP_MODE_2, fHAL_GPIO_MAP_MODE_3, fHAL_GPIO_MAP_MODE_4,
   fHAL_GPIO_MAP_MODE_5, fHAL_GPIO_MAP_MODE_6, fHAL_GPIO_MAP_MODE_7]

def State.gpioMode (s : State) (k : Nat) : Nat := s.setting (gpioFields.getD k fHAL_GPIO_MAP_MODE_0) 0

/-- The request that a burst needs is there; `level` is the sampled level of the requester's pin. -/
def State.requestSeen (s : State) (c : Nat) (level : Bool) : Bool :=
  let r := s.reqSel c
  if r = 0 then true
  else if r ≤ 8 then s.board.pwrGood && s.gpioMode (r - 1) = 1 && level
  else decide (0 < s.rd fHAL_CH_STATUS_REQ_PENDING c)

/-- A job moves bytes in bursts. -/
def HalWork.moves : HalWork → Bool
  | .copy _ _ => true
  | .register => true
  | .mangle _ _ _ _ => false
  | .task _ => false

/-- The budgets of the function let a job read and write (R121, R122). -/
def State.budgetFree (s : State) (j : HalJob) : Bool :=
  (if j.x.srcHost then s.rxFree j.fn else s.hbmFree j.fn) && (if j.x.dstHost then s.txFree j.fn else s.hbmFree j.fn)

/-- The channel may start its next burst. -/
def State.burstReady (s : State) (c : Nat) (level : Bool) : Bool :=
  match s.chJobs c with
  | [] => false
  | j :: _ =>
    s.running && !s.failedSubs.contains 7 && s.rd fCVC_PS_STATUS_STATE 0 = 0 && (j.next ≠ 0 || s.halStarts) && j.work.moves
      && (s.chState c = chActive || s.chState c = chArmed) && j.ending.isNone && decide (j.next < j.x.count)
      && s.budgetFree j && !s.chStalled c && decide (j.bursts.length < s.burstDepth c j.x) && decide (getD 0 s.hal.spacing c ≤ s.clk.tsu) && s.requestSeen c level

def State.burstStart (s : State) (c : Nat) : State :=
  match s.chJobs c with
  | [] => s
  | j :: rest =>
    let len := min (s.burstBytes c) (j.x.count - j.next)
    let u := s.setChJobs c ({ j with next := j.next + len, bursts := j.bursts ++ [⟨j.next, len, s.clk.tsu⟩] } :: rest)
    let t := if j.x.srcHost then
        let es := elemAddrs j.x.src j.x.sstride j.x.sw ((j.x.range j.next len).1) ((j.x.range j.next len).2)
        (es.foldl (fun (s : State) a => s.atsUse j.fn a j.x.sw) u).chargeRx j.fn (es.length * j.x.sw)
      else u
    let v := { t with hal := { t.hal with spacing := setD 0 t.hal.spacing c (s.clk.tsu + s.burstSpacing c j.x j.next len) } }
    let w := if 16 ≤ v.reqSel c then v.wr fHAL_CH_STATUS_REQ_PENDING c (v.rd fHAL_CH_STATUS_REQ_PENDING c - 1) else v
    w.setChState c chActive

def execBurstStart (c : Nat) (level : Bool) (s : State) : Res := steady (s.burstReady c level) (fun s => s.burstStart c) s

/-! ### Pulses (R356, R358) -/

/-- A pulse on an event input adds a request to each channel that selects it. -/
def State.eventPulse (s : State) (line : Nat) : State :=
  ((List.range 64).filter (fun c => s.rd fHAL_CH_CTRL_REQ_SEL c = 16 + line)).foldl (fun s c =>
    let n := s.rd fHAL_CH_STATUS_REQ_PENDING c
    if n < 15 then s.wr fHAL_CH_STATUS_REQ_PENDING c (n + 1)
    else (s.wr fHAL_CH_STATUS_REQ_LOST c 1).raise 7 4) s

def execEventPulse (line : Nat) (s : State) : Res :=
  steady (s.running && s.ready 7 && decide (line < 16)) (fun s => s.eventPulse line) s

/-- The pulse at the end of a COMPAT transfer; a GPIO is driven only while `PWR_GOOD` and `PERST_N` are high (R34, R58). -/
def State.drivePulse (s : State) (c : Nat) : State :=
  let p := s.rd fHAL_CH_CTRL_PULSE_SEL c
  if p < 8 then
    if s.gpioMode p ≠ 2 then s.notice 7 c
    else if s.board.pwrGood ∧ s.board.perstN then s.emit (.pulse p) else s
  else if 16 ≤ p then (s.emit (.pulse p)).eventPulse (p - 16)
  else s

/-! ### The end of a channel's job (R348, R357, R361) -/

/-- A register-mode transfer ends its count: native completion or a pulse. -/
def State.registerDone (s : State) (c : Nat) : State :=
  if s.rd fHAL_CH_CFG_COMPAT c = 1 then s.drivePulse c
  else
    let d := s.rd fHAL_CH_DONE_DONE 0
    let u := s.wr fHAL_CH_DONE_DONE 0 (withBit d c)
    let v := if !d.testBit c ∧ s.rd fHAL_CH_CFG_IRQ_EN c = 1 then u.message 0 (s.rd fHAL_CH_CFG_VECTOR c) else u
    v.raise 7 2

/-- A channel completes a MOVE entry; where the completion finds no room the channel waits with it (R165). -/
def State.produce (s : State) (c : Nat) (r : Ref) (status sub resultLen specific : Nat) : State :=
  let u := { s with hal := { s.hal with produced := put s.hal.produced c r } }
  u.complete r status sub resultLen specific

/-- The job at the head of a channel ends with a status; `whole` says that its count ended. -/
def State.endJob (s : State) (c status sub : Nat) (whole : Bool) : State :=
  match s.chJobs c with
  | [] => s
  | j :: _ =>
    let u := (s.lastStatus c status sub).nextJob c
    match j.work with
    | .copy qid tag => u.produce c ⟨j.fn, qid, tag⟩ status sub j.done c
    | .mangle qid tag _ _ => u.produce c ⟨j.fn, qid, tag⟩ status sub 0 0
    | .register => if whole then u.registerDone c else u
    | .task _ => u

/-- Bursts have ended: the job ends at the end of its count, or its stop does. -/
def State.settle (s : State) (c : Nat) : State :=
  match s.chJobs c with
  | [] => s
  | j :: _ =>
    if j.bursts ≠ [] then s
    else if j.done = j.x.count ∧ j.work.moves then s.endJob c (if j.soft then 0x21 else 0) (if j.soft then 0x42 else 0) true
    else
      match j.ending with
      | some e => s.endJob c e.1 e.2 false
      | none => if s.reqSel c ≠ 0 then s.setChState c chArmed else s

/-- The first burst has been moved as far as `b` stream bytes in processing order. -/
def State.burstMoved (s : State) (c : Nat) (rest : List HalJob) (j : HalJob) (n : Nat) : State :=
  match j.bursts with
  | [] => s
  | b :: bs =>
    let r := j.x.range b.off n
    let m := s.moveBytes j r.1 r.2
    let u := m.1.setChJobs c ({ j with done := j.done + n, bursts := bs, soft := j.soft || m.2 } :: rest)
    (u.wr fHAL_CH_DONE_BYTES_BYTES c (j.done + n)).bumpWrap fHAL_BYTES_COUNT 0 n

def State.burstEnd (s : State) (c : Nat) : State :=
  match s.chJobs c with
  | [] => s
  | j :: rest =>
    match j.bursts with
    | [] => s
    | b :: _ => if (s.burstBad j b).isSome then s else (s.burstMoved c rest j b.len).settle c

def execBurstEnd (c : Nat) (s : State) : Res := steady s.running (fun s => s.burstEnd c) s

/-! ### Halts and stops (R361, R362, R364) -/

/-- A channel records the address and status of a failed read and enters it in HAL's error log (R362); a poisoned
completion of the host is logged in the function's AER status too (R132). -/
def State.recordHalt (s : State) (c fn st sub addr : Nat) (host : Bool) : State :=
  let u := (((if host then s.hostFailed fn st else s).lastStatus c st sub).wr fHAL_CH_STATUS_ERR_VALID c 1).wr fHAL_CH_STATUS_ERR_HOST c (bit host)
  (u.wr fHAL_CH_ERR_ADDR_ADDR c addr).fault 7 { u.entry 7 1 with
    fn := some fn, status := st, sub := sub, unit := c, addr := addr, kind := if host then 3 else 2, cause := 3 }

/-- The head job of a channel halts: nothing at or beyond the failed element is written, and what is written before it
is open; later bursts write nothing. -/
def State.chHalt (s : State) (c : Nat) (rest : List HalJob) (j : HalJob) (before addr st sub : Nat) (host : Bool) : State :=
  let w := max j.x.sw j.x.dw
  let n := s.free % (before / w + 1) * w
  let u := s.drawn.burstMoved c rest j n
  let v := (if host then u else u.touchElem j.fn addr).recordHalt c j.fn st sub addr host
  match v.chJobs c with
  | [] => v
  | k :: more =>
    let x := v.setChJobs c ({ k with bursts := [] } :: more)
    if k.work = .register then
      if k.ending.isSome then (x.setChJobs c more).setChState c chIdle else (x.setChJobs c more).setChState c chHalted
    else x.endJob c st sub false

/-- CHANNEL_HALT: the oldest burst's read fails, in HBM by the state of its lines, or at the host as `host` says. -/
def State.channelHalt (s : State) (c host : Nat) : State :=
  match s.chJobs c with
  | [] => s
  | j :: rest =>
    match j.bursts with
    | [] => s
    | b :: _ =>
      match s.burstBad j b, hostFailure host with
      | some e, _ => s.chHalt c rest j e.1 e.2.1 e.2.2.1 e.2.2.2 false
      | none, some e =>
        if j.x.srcHost ∨ (j.x.dstHost ∧ e.1 = 0x22) then
          let es := if j.x.srcHost then j.x.srcElems b.off b.len else j.x.dstElems b.off b.len
          let i := s.free % max 1 es.length
          s.drawn.chHalt c rest j (i * (if j.x.srcHost then j.x.sw else j.x.dw)) (es.getD i 0) e.1 e.2 true
        else s
      | none, none => s

def execChannelHalt (c host : Nat) (s : State) : Res := steady s.running (fun s => s.channelHalt c host) s

/-- A stop at a burst boundary: the job ends with the status given once its bursts have ended. -/
def State.stopJob (s : State) (c status sub : Nat) : State :=
  match s.chJobs c with
  | [] => s
  | j :: rest =>
    let u := s.setChJobs c ({ j with ending := some (status, sub) } :: rest)
    if j.bursts = [] then u.settle c
    else { u.setChState c chStopping with hal := { u.hal with stopAt := put u.hal.stopAt c s.clk.tsu } }

/-- `HAL_CH_CTRL.STOP`: register mode only; the status that the stop leaves is open. -/
def State.stopChannel (s : State) (c : Nat) : State :=
  if s.rd fHAL_CH_CFG_MODE c = 0 then s.notice 7 c
  else if s.chState c = chArmed ∨ s.chState c = chActive then
    s.drawn.stopJob c (s.free % 256) (s.free / 256 % 256)
  else s

def execStop (c : Nat) (s : State) : Res :=
  steady (s.reaches 0 && s.ready 7 && decide (c < 64)) (fun s => (s.atRegion 7 (0x1000C + 64 * c)).stopChannel c) s

/-- `HAL_CH_CTRL.CLEAR`: HALTED to IDLE. -/
def State.clearChannel (s : State) (c : Nat) : State :=
  if s.chState c = chHalted ∧ s.rd fHAL_CH_CFG_MODE c = 1 then s.setChState c chIdle else s

def execClear (c : Nat) (s : State) : Res :=
  steady (s.reaches 0 && s.ready 7 && decide (c < 64)) (fun s => (s.atRegion 7 (0x1000C + 64 * c)).clearChannel c) s

/-- STOP_TIMEOUT: 10 µs after the stop the outstanding host read data is discarded. -/
def State.stopTimeout (s : State) (c : Nat) : State :=
  match s.chJobs c with
  | [] => s
  | j :: rest => ({ s.setChJobs c ({ j with bursts := [] } :: rest) with
      hal := { (s.setChJobs c ({ j with bursts := [] } :: rest)).hal with stopAt := del s.hal.stopAt c } }).settle c

def execStopTimeout (c : Nat) (s : State) : Res :=
  steady (s.running && s.chState c = chStopping && (find s.hal.stopAt c).any (fun t => decide (t + ticksOfUs 10 ≤ s.clk.tsu)))
    (fun s => s.stopTimeout c) s

/-! ### Register mode (R342, R355) -/

/-- The transfer in a channel's registers. -/
def State.regXfer (s : State) (c : Nat) : Xfer :=
  { src := s.rd fHAL_CH_SRC_ADDR c, dst := s.rd fHAL_CH_DST_ADDR c, count := s.rd fHAL_CH_COUNT_COUNT c,
    sw := 2 ^ s.rd fHAL_CH_FORMAT_SW c, dw := 2 ^ s.rd fHAL_CH_FORMAT_DW c, sstride := s.rd fHAL_CH_SSTRIDE_STRIDE c,
    dstride := s.rd fHAL_CH_DSTRIDE_STRIDE c, srcHost := s.rd fHAL_CH_FORMAT_SRC_SPACE c = 1,
    dstHost := s.rd fHAL_CH_FORMAT_DST_SPACE c = 1, cxl := s.rd fHAL_CH_FORMAT_CXL_CACHE c = 1 }

def State.startChannel (s : State) (c : Nat) : State :=
  if s.rd fHAL_CH_CFG_MODE c = 0 ∨ s.chState c ≠ chIdle then s.notice 7 c
  else
    let bad := if codesBad (s.rd fHAL_CH_FORMAT_SW c) (s.rd fHAL_CH_FORMAT_DW c) (s.rd fHAL_CH_FORMAT_SRC_SPACE c)
        (s.rd fHAL_CH_FORMAT_DST_SPACE c) then some (0x10, 0x70) else s.xferError (s.regXfer c)
    match bad with
    | some e => s.lastStatus c e.1 e.2
    | none => s.addJob c ⟨0, .register, s.regXfer c, 0, 0, [], none, false⟩

def execStart (c : Nat) (s : State) : Res :=
  steady (s.reaches 0 && s.ready 7 && decide (c < 64)) (fun s => (s.atRegion 7 (0x1000C + 64 * c)).startChannel c) s

/-- A write of `HAL_CH_CFG` that the device refuses (R342). -/
def State.cfgRefused (s : State) (c v : Nat) : Bool :=
  let changes := bitField v 0 1 ≠ s.rd fHAL_CH_CFG_ASSIGNED c || bitField v 1 1 ≠ s.rd fHAL_CH_CFG_MODE c
    || bitField v 4 11 ≠ s.rd fHAL_CH_CFG_FN c
  (changes && (s.chState c ≠ chIdle || !(s.chJobs c).isEmpty))
    || (bitField v 1 1 = 1 && (bitField v 0 1 = 0 || bitField v 4 11 ≠ 0)) || decide (bitField v 16 11 < 16)

def State.chCfg (s : State) (c v : Nat) : State :=
  if s.cfgRefused c v then s.notice 7 c
  else (((((s.wr fHAL_CH_CFG_ASSIGNED c (bitField v 0 1)).wr fHAL_CH_CFG_MODE c (bitField v 1 1)).wr fHAL_CH_CFG_COMPAT c
    (bitField v 2 1)).wr fHAL_CH_CFG_IRQ_EN c (bitField v 3 1)).wr fHAL_CH_CFG_FN c (bitField v 4 11)).wr
    fHAL_CH_CFG_VECTOR c (bitField v 16 11)

def execHalChCfg (c v : Nat) (s : State) : Res :=
  steady (s.reaches 0 && s.ready 7 && decide (c < 64)) (fun s => (s.atRegion 7 (0x10000 + 64 * c)).chCfg c v) s

/-! ### MANGLE_JOB (R349) -/

/-- The engine that takes a job from a channel: one at its own engine stop where one is free. -/
def State.engineFor (s : State) (c : Nat) : Option Nat :=
  let free := (List.range 16).filter s.engineFree
  (free.find? (fun e => e / 2 = c / 8)).orElse (fun _ => free.head?)

/-- A read by a channel for a job that is no plain transfer: the bytes, or the failure of R362 with its address. -/
def State.halRead (s : State) (fn va n : Nat) : Except (Nat × Nat × Nat) (List Byte) × State :=
  match s.firstBad fn 64 false (lineVas va n) 0 with
  | some e => (.error (e.2.2.1, e.2.2.2, e.2.1), s.touchElem fn e.2.1)
  | none =>
    let g := s.engineRead fn va n
    (.ok g.data, g.st)

/-- Hand the descriptor job at the head of a channel to an engine. -/
def State.handMangle (s : State) (c : Nat) : State :=
  match s.chJobs c with
  | [] => s
  | j :: rest =>
    match j.work with
    | .mangle qid tag desc none =>
      if s.chStalled c then s else
      match s.engineFor c with
      | none => s
      | some e =>
        match s.halRead j.fn desc 128 with
        | (.error x, t) => (t.recordHalt c j.fn x.1 x.2.1 x.2.2 false).endJob c x.1 x.2.1 false
        | (.ok d, t) =>
          (t.setChJobs c ({ j with work := .mangle qid tag desc (some e) } :: rest)).setEngineJobs e
            (t.engineJobs e ++ [⟨j.fn, none, c, qid, tag, desc, d, none, s.clk.tsu⟩])
    | _ => s

/-- The channel of a queue whose head is a descriptor job that has not been handed over. -/
def State.mangleWaits (s : State) (fn qid : Nat) : Option Nat :=
  (List.range 64).find? (fun c => ((s.chJobs c).head?).any (fun j => j.fn = fn &&
    match j.work with
    | .mangle q _ _ none => q = qid
    | _ => false))

/-- MANGLE_JOB: the handed entry takes its channel's slot, and the channel hands the job over when it runs. -/
def State.mangleJob (s : State) (fn qid : Nat) : State :=
  let u := match s.moveEntry fn qid true with
    | none => s
    | some e =>
      let r : Ref := ⟨fn, qid, e.tag⟩
      match s.moveError fn e.line with
      | some x => s.complete r x.1 x.2 0 0
      | none =>
        match s.moveChannel fn e.line with
        | none => s
        | some c =>
          (s.addJob c ⟨fn, .mangle qid e.tag (entryBytes e.line 8 6) none, Xfer.none_, 0, 0, [], none, false⟩).setStage r .started
  match u.mangleWaits fn qid with
  | none => u
  | some c => u.handMangle c

def execMangleJob (fn qid : Nat) (s : State) : Res := steady s.halStarts (fun s => s.mangleJob fn qid) s

/-! ### MOVE graph tasks (R350, R351) -/

/-- A read by a channel within a job: its failure is recorded in the channel (R362). -/
def chRead (c fn va n : Nat) : Job (List Byte) := do
  let p ← get
  match p.1.halRead fn va n with
  | (.ok d, t) => do
    set (t, p.2)
    pure d
  | (.error e, t) => do
    set (t.recordHalt c fn e.1 e.2.1 e.2.2 false, p.2)
    throw (e.1, e.2.1)

/-- A write to HBM by a channel within a job: a failed translation is recorded in the channel (R362). -/
def chWrite (c fn va : Nat) (d : List Byte) : Job Unit := do
  let p ← get
  let g := p.1.engineWrite fn va d
  set (g.st, p.2 || g.status = 0x21)
  if g.status = 0x22 then do
    jobDo (fun s => s.recordHalt c fn g.status g.sub va false)
    throw (g.status, g.sub)
  else pure ()

/-- The host side of a channel's job fails: the halt is recorded at an address of it, which is open (R362). -/
def chHostFails (c fn : Nat) (e : Nat × Nat) : Job Unit := do
  jobDo (fun s => s.drawn.recordHalt c fn e.1 e.2 s.free true)
  throw e

/-- A read of host memory by a channel. -/
def chHostRead (fn a n : Nat) : Job (List Byte) := do
  let d ← jobGet (fun s => s.hostRead a n)
  jobDo (fun s => s.hostGet fn a n)
  pure d

/-- A column with its bytes, read by `rd`. -/
def fetchColumn (rd : Nat → Nat → Job (List Byte)) (rows : Nat) (c : Col) : Job ColData := do
  let d ← rd c.data (if c.type = 8 then 4 * (rows + 1) else if c.type = 15 then c.bytes else rows * typeWidth c.type)
  let h ← if c.type = 8 then rd c.aux (offsetAt d rows) else pure []
  let n ← if c.null = 0 then pure [] else rd c.null ((rows + 7) / 8)
  pure ⟨c, d, h, n⟩

/-- MOVE with DIR 0x00: a host morsel into the output buffer. `host` says what the host reads meet. -/
def moveInJob (c host : Nat) (x : Task) (r : Run) (g : Graph) : Job (List (Nat × Token)) := do
  match x.token with
  | none => pure []
  | some t =>
    match hostFailure host with
    | some e => do
      chHostFails c x.fn e
      pure []
    | none => do
      let d ← chHostRead x.fn t.colset (32 * t.cols)
      let cols := (List.range t.cols).map (fun i => parseCol (d.drop (32 * i)))
      let cs ← jobAll (fetchColumn (chHostRead x.fn) t.rows) cols
      match r.outBuf g x with
      | none => throw (0x11, 0x11)
      | some (b, base, slot) => do
        let parts := (cs.map ColData.parts).flatten
        let sizes := [32 * t.cols] ++ parts.map List.length
        jobNeed (layBytes base sizes ≤ slot) 0x11 0x11
        let as := (layParts base sizes).1.drop 1
        let outCols := placeAll cs as
        chWrite c x.fn base ((outCols.map colBytes).flatten)
        jobEach (fun p => chWrite c x.fn p.1 p.2) (List.zip as parts)
        jobDo (fun s => s.bumpWrap fHAL_BYTES_COUNT 0 ((parts.map List.length).foldl (· + ·) (32 * t.cols)))
        let k := outToken x r t t.rows t.cols base ((outCols.map Col.data).getD 0 0) 0 [b]
        pure (onPorts g x.node { k with timeLo := 0, timeHi := 2 ^ 64 - 1 })

/-- MOVE with DIR 0x01: a morsel as a block at HOST_ADDR + SEQ × HOST_STRIDE. `host` says whether the host's addresses
translate. -/
def moveOutJob (c host : Nat) (x : Task) (r : Run) (g : Graph) : Job (List (Nat × Token)) := do
  let rec0 := r.record (g.node x.node)
  match x.token with
  | none => pure []
  | some t => do
    let d ← chRead c x.fn t.colset (32 * t.cols)
    let cols := (List.range t.cols).map (fun i => parseCol (d.drop (32 * i)))
    let sel ← if t.sel = 0 then pure (List.replicate t.rows true) else do
      let m ← chRead c x.fn t.sel ((t.rows + 7) / 8)
      pure (bitsOf t.rows m)
    let cs ← jobAll (fetchColumn (chRead c x.fn) t.rows) cols
    let b := blockRows t sel cs
    let block := blockOf t 0 b.1 b.2
    jobNeed (block.length ≤ fieldAt rec0 16 8) 0x11 0x12
    match (hostFailure host).filter (fun e => e.1 = 0x22) with
    | some e => chHostFails c x.fn e
    | none => pure ()
    jobDo (fun s => (s.hostPut x.fn ((fieldAt rec0 8 8 + t.seq * fieldAt rec0 16 8) % 2 ^ 64) block).bumpWrap
      fHAL_BYTES_COUNT 0 block.length)
    pure (onPorts g x.node (outToken x r t 0 0 0 0 0 []))

/-- The channel at whose head a task stands. -/
def State.channelOfTask (s : State) (k : Nat) : Option Nat :=
  match s.task k with
  | none => none
  | some x =>
    match x.place with
    | .halyard c => if ((s.chJobs c).head?).any (fun j => j.work = .task k) then some c else none
    | _ => none

/-- The direction of a task's MOVE node. -/
def State.moveDir (s : State) (x : Task) : Nat :=
  match s.run x.run with
  | none => 0
  | some r => fieldAt (r.record ((s.graphOf r).node x.node)) 0 1

def State.moveTask (s : State) (k : Nat) (j : Nat → Task → Run → Graph → Job (List (Nat × Token))) : State :=
  match s.channelOfTask k with
  | none => s
  | some c => s.engineTask k 0 (j c)

def State.moveReady (s : State) (k dir : Nat) : Bool :=
  s.engineReady k [6] && s.starts 7 && (s.channelOfTask k).any (fun c => !s.chStalled c)
    && (s.task k).any (fun x => s.moveDir x = dir && (if dir = 0 then s.rxFree x.fn else s.txFree x.fn))

def execMoveTaskIn (k host : Nat) (s : State) : Res :=
  steady (s.moveReady k 0) (fun s => s.moveTask k (fun c => moveInJob c host)) s

def execMoveTaskOut (k : Nat) (s : State) (host : Nat := 0) : Res :=
  steady (s.moveReady k 1) (fun s => s.moveTask k (fun c => moveOutJob c host)) s

/-! ### ENGINE_JOB_END (R216, R328) -/

/-- Note that an engine's running job has ended. -/
def State.engineIdle (s : State) (e : Nat) : State :=
  let u := s.setEngineJobs e ((s.engineJobs e).drop 1)
  { u with mgl := { u.mgl with idleAt := setD 0 u.mgl.idleAt e s.clk.tsu } }

/-- A task whose engine has finished ends with what its work gave. -/
def State.taskJobEnd (s : State) (k : Nat) : State :=
  match s.task k with
  | none => s
  | some x =>
    match x.result with
    | none => s
    | some (st, sub, outs) =>
      match x.place with
      | .mangle e => (s.engineIdle e).endTask k st sub 9 outs
      | .halyard c => ((s.lastStatus c st sub).nextJob c).endTask k st sub 7 outs
      | _ => s.endTask k st sub 8 outs

/-- A descriptor job ends: its result record is written, then the MOVE entry completes and the channel's slot is free
(R328). -/
def State.endDesc (s : State) (j : MglJob) (r : MglResult) : State :=
  let v := (s.engineWrite j.fn (j.desc + 96) ({ r with ts := s.clk.tsu }.bytes)).st
  let w := (v.lastStatus j.channel r.status r.sub).nextJob j.channel
  w.produce j.channel ⟨j.fn, j.qid, j.tag⟩ r.status r.sub (r.outPrimary + r.outChain) r.consumed

/-- The state of a stream is saved when the job ends (R331); a record that cannot be written ends it otherwise. -/
def State.saveState (s : State) (fn : Nat) (r : MglResult) : MglResult × State :=
  match r.state with
  | none => (r, s)
  | some q =>
    let g := s.engineWrite fn q.1 q.2
    (if g.status = 0 then r else { r with status := g.status, sub := g.sub, saved := false, state := none }, g.st)

/-- The result of a job that something else ended: what it wrote is counted, and no state is saved (R331, R339). -/
def MglJob.cutResult (j : MglJob) (s : State) (status sub : Nat) : MglResult :=
  { j.result.getD (failResult s (status, sub)) with status := status, sub := sub, saved := false, state := none }

/-- A descriptor job that has run ends. -/
def State.descJobEnd (s : State) (e : Nat) : State :=
  match s.engineJobs e with
  | [] => s
  | j :: _ =>
    match j.result with
    | none => s
    | some r =>
      let p := (s.engineIdle e).saveState j.fn r
      p.2.endDesc j p.1

/-- ENGINE_JOB_END: kind 0 a task, by its number; kind 1 the descriptor job of a Mangle engine. -/
def execEngineJobEnd (kind unit : Nat) (s : State) : Res :=
  steady s.running (fun s => if kind = 0 then s.taskJobEnd unit else if kind = 1 then s.descJobEnd unit else s) s

/-! ### PEG_FILL (R207, R208, R215) -/

/-- Slots of an engine that tasks take: those in its list, and pegged or running tasks of the place. -/
def State.placed (s : State) (p : Place) : Nat := (s.bsn.tasks.filter (fun kt => kt.2.place = p && kt.2.state ≠ .ending)).length

/-- Choose among candidates by preferences 2 to 4 for a unit at stack `home`; a task goes to another unit's stop only
where none at its own is free. -/
def State.engineChoice (s : State) (home : Option Nat) (ownFree : Nat → Bool) (cs : List (Nat × Task)) : Option (Nat × Task) :=
  s.choose none home (cs.filter (fun c => c.2.home = home || !(c.2.home.any ownFree)))

/-- Fill a slot of a Mangle engine. -/
def State.fillEngine (s : State) (e : Nat) : State :=
  if !(decide (e < 16) && s.engineFree e) then s
  else
    match s.engineChoice (some (e / 2)) (fun h => s.engineFree (2 * h) || s.engineFree (2 * h + 1)) (s.eligibles [2, 3]) with
    | none => s
    | some (k, x) =>
      (s.dispatch k x (.mangle e)).setEngineJobs e (s.engineJobs e ++ [⟨x.fn, some k, 0, 0, 0, 0, [], none, s.clk.tsu⟩])

/-- Fill a slot of a match table; `unit` is run × 8 + table. -/
def State.fillTable (s : State) (unit : Nat) : State :=
  if 2 ≤ s.placed (.amu unit) then s
  else
    match s.choose none none ((s.eligibles [4, 5]).filter (fun c => c.2.run = unit / 8 && (s.run c.2.run).any (fun r =>
        fieldAt (r.record ((s.graphOf r).node c.2.node)) 0 1 = unit % 8))) with
    | none => s
    | some (k, x) => s.dispatch k x (.amu unit)

/-- A free slot of some queue-mode channel of the function at a stack's engine stop. -/
def State.channelAt (s : State) (fn h : Nat) : Bool := (s.queueChannels fn).any (fun c => c / 8 = h && s.chFree c)

/-- Fill a slot of a channel; a MOVE task of a function without a channel ends (R215). -/
def State.fillChannel (s : State) (c : Nat) : State :=
  let cs := s.eligibles [6]
  match cs.find? (fun kt => (s.queueChannels kt.2.fn).isEmpty) with
  | some (k, _) => s.endTask k 0x23 0x03 3 []
  | none =>
    let fn := s.rd fHAL_CH_CFG_FN c
    if !(decide (c < 64) && s.chFree c && (s.queueChannels fn).contains c) then s
    else
      match s.engineChoice (some (c / 8)) (s.channelAt fn) (cs.filter (fun kt => kt.2.fn = fn)) with
      | none => s
      | some (k, x) => (s.dispatch k x (.halyard c)).addJob c ⟨x.fn, .task k, Xfer.none_, 0, 0, [], none, false⟩

/-- CVC command slots that a function holds (R384): commands in CVC, entries of its VOLUME queues that were handed on
or whose completions wait for room, and HOLD_READ tasks that have theirs. -/
def State.volSlots (s : State) (fn : Nat) : Nat :=
  let entries (q : Queue) : Nat := (q.fetched.filter (fun e => e.stage = .handed || e.stage = .started)).length + q.waiting.length
  (s.qmg.queues.filter (fun kq => kq.1 / 8192 = fn && kq.2.cls = 2)).foldl (fun n kq => n + entries kq.2) 0
    + (s.bsn.tasks.filter (fun kt => kt.2.fn = fn && kt.2.place = .cvc && kt.2.state ≠ .ending)).length

def State.cmdResvSum (s : State) : Nat := (List.range 1025).foldl (fun n f => n + s.rd fCVC_FN_CMD_RESV f) 0

/-- Slots of the shared part in use. -/
def State.volShared (s : State) : Nat :=
  (List.range 1025).foldl (fun n f => n + (s.volSlots f - s.rd fCVC_FN_CMD_RESV f)) 0

/-- A function may take a command slot (R384). -/
def State.mayCommand (s : State) (fn : Nat) : Bool :=
  decide (s.volSlots fn < max (min 2048 (max 1 (s.rd fCVC_FN_CMD_LIMIT fn))) (s.rd fCVC_FN_CMD_RESV fn))
    && (decide (s.volSlots fn < s.rd fCVC_FN_CMD_RESV fn) || decide (s.volShared < 2048 - s.cmdResvSum))

/-- A HOLD_READ task takes its command slot. -/
def State.fillCvc (s : State) : State :=
  match s.choose none none ((s.eligibles [7]).filter (fun c => s.mayCommand c.2.fn)) with
  | none => s
  | some (k, x) => s.dispatch k x .cvc

/-- The stack whose engine stop carries a logical bank (R298). -/
def bankStack (logical : Nat) : Nat := logical / 8

/-- The BSN stop that decides for a unit. DEDUCED (notes/assumptions/92.md): the stop of a match table is that of its first
bank, and CVC, in column 3, is served by the west stop. -/
def State.fillStop (s : State) (kind unit : Nat) : Nat :=
  match kind with
  | 0 | 1 => stopOfStack (tileHome unit)
  | 2 => stopOfStack (unit / 2)
  | 3 => stopOfStack (((s.table unit).map (fun t => bankStack (s.rd fAMU_BANK_LOGICAL (t.banks.headD 0)))).getD 0)
  | 4 => stopOfStack (unit / 8)
  | _ => 0

/-- Fill a peg or job slot: kinds 0 and 1 the pegs A and B of a tile, 2 a Mangle engine, 3 a match table, 4 a Halyard
channel, 5 CVC. -/
def State.fillSlot (s : State) (kind unit : Nat) : State :=
  match kind with
  | 0 => s.fillPeg unit 0
  | 1 => s.fillPeg unit 1
  | 2 => s.fillEngine unit
  | 3 => s.fillTable unit
  | 4 => s.fillChannel unit
  | 5 => s.fillCvc
  | _ => s

/-- The subsystem that owns the slots takes jobs. -/
def State.unitTakes (s : State) (kind : Nat) : Bool :=
  match kind with
  | 0 | 1 => s.ready 4
  | 2 => s.starts 9
  | 3 => s.starts 8
  | 4 => s.starts 7
  | 5 => s.starts 10
  | _ => false

/-- A fill of a slot; a disagreement that was injected undoes the stop's next decision (R233). -/
def State.pegFill (s : State) (kind unit : Nat) : State :=
  let u := s.fillSlot kind unit
  if s.bsn.inject.contains (s.fillStop kind unit) ∧ s.bsn.dispatches < u.bsn.dispatches then s.disagree (s.fillStop kind unit)
  else u

/-- PEG_FILL: the stop must not be halted. -/
def execPegFill (kind unit : Nat) (s : State) : Res :=
  steady (s.starts 3 && s.unitTakes kind && (find s.bsn.halts (s.fillStop kind unit)).isNone)
    (fun s => s.pegFill kind unit) s

end Sys2Proof.Machine
end

