-- ==== Sys2Proof/Machine/Volume.lean ====
section
/-! DEFINITION. The column volume: geometry and labels, checks and acceptance of volume commands, range locks and
admission, transfers with parity, drive completions, lost members, rebuild, resync and volume operations
(spec/14_column_volume.md R366 to R389, R492; spec/07_pipeline_graphs.md R175). -/

namespace Sys2Proof.Machine

/-! ### Geometry (R366, R367) -/

/-- Blocks of a chunk. -/
def Volume.chunk (v : Volume) : Nat := 2 ^ v.chunkLog

/-- Data chunks of a stripe. -/
def Volume.dataChunks (v : Volume) : Nat := if v.parity then v.members - 1 else v.members

/-- Data blocks of a stripe. -/
def Volume.stripeBlocks (v : Volume) : Nat := v.dataChunks * v.chunk

/-- Blocks of the volume (R369). -/
def Volume.blocks (v : Volume) : Nat := v.stripes * v.stripeBlocks

/-- The parity member of a stripe. -/
def Volume.parityOf (v : Volume) (st : Nat) : Nat := v.members - 1 - st % v.members

/-- Volume blocks that lie together in one chunk: volume block, stripe, member, member block, count. -/
structure VPiece where
  vb : Nat
  stripe : Nat
  member : Nat
  block : Nat
  count : Nat

/-- Where `n` blocks from volume block `vb` lie. -/
def Volume.place (v : Volume) (vb n : Nat) : VPiece :=
  let ch := vb / v.chunk
  let st := ch / v.dataChunks
  let m := if v.parity then (v.parityOf st + 1 + ch % v.dataChunks) % v.members else ch % v.members
  ⟨vb, st, m, 256 + st * v.chunk + vb % v.chunk, n⟩

/-- Cut a range at chunk boundaries (R376). -/
def Volume.cut (v : Volume) (vb n : Nat) : Nat → List VPiece
  | 0 => []
  | fuel + 1 =>
    if n = 0 then []
    else
      let k := min n (v.chunk - vb % v.chunk)
      v.place vb k :: v.cut (vb + k) (n - k) fuel

/-- The pieces of a command's ranges. -/
def Volume.pieces (v : Volume) (rs : List (Nat × Nat)) : List VPiece := (rs.map (fun r => v.cut r.1 r.2 (r.2 + 1))).flatten

/-- The stripe of a member block. -/
def Volume.stripeAt (v : Volume) (b : Nat) : Nat := (b - 256) / v.chunk

/-- A stripe awaits resync (R389). -/
def Volume.awaits (v : Volume) (st : Nat) : Bool := v.resync.any (fun r => decide (r.1 ≤ st) && decide (st < r.2))

/-- The port on which a member's chunk of a stripe can be reached: its own, or the spare below the rebuild point
(R388). -/
def Volume.portAt (v : Volume) (pos m st : Nat) : Option Nat :=
  if !v.missing.contains m then v.ports[m]?
  else if v.rebuild = some m ∧ st < pos then v.spare else none

/-- The rebuild point. -/
def State.rebuildPos (s : State) : Nat := s.rd fCVC_REBUILD_POS_STRIPE 0

/-- What the drive on a port identified itself as. -/
def State.drive (s : State) (p : Nat) : DriveInfo := (find s.cvc.drives p).getD ⟨0, false, false, false, false, 1, 0, 0, 0, 0, 0, []⟩

def portBit (p : Nat) : Nat := 2 ^ p

/-! ### State of the volume (R370) -/

def State.volState (s : State) : Nat := s.rd fCVC_VOL_STATUS_STATE 0

/-- Change STATE: VOL_STATE is raised; a degraded or failed volume is a contained fault (R370, R474). -/
def State.setVolState (s : State) (st : Nat) : State :=
  if s.volState = st then s
  else
    let u := (s.wr fCVC_VOL_STATUS_STATE 0 st).raise 10 2
    if st = 2 ∨ st = 4 then u.fault 10 { u.entry 10 2 with cause := 2 } else u

def State.setVol (s : State) (v : Option Volume) : State := { s with cvc := { s.cvc with vol := v } }

/-- RESYNC follows the stripes that await resync. -/
def State.setResync (s : State) (on : Bool) : State :=
  if s.rd fCVC_VOL_STATUS_RESYNC 0 = bit on then s else (s.wr fCVC_VOL_STATUS_RESYNC 0 (bit on)).raise 10 2

/-! ### Labels (R368, R371) -/

/-- The 4 KiB label block of a member or of the spare (index 0xFF). -/
def labelBlock (id gen : Nat) (v : Volume) (index : Nat) : List Byte :=
  let d := [75, 88, 86, 79, 76, 76, 66, 76].map (BitVec.ofNat 8) ++ leBytes 8 id ++ leBytes 4 gen ++ leBytes 1 v.members
    ++ leBytes 1 (bit v.parity) ++ leBytes 1 v.chunkLog ++ leBytes 1 index ++ leBytes 8 v.stripes
    ++ (List.range 8).map (fun i => BitVec.ofNat 8 (if i < v.members then v.ports.getD i 0 else 0xFF))
    ++ leBytes 1 (v.spare.getD 0xFF) ++ leBytes 3 0
  d ++ leBytes 4 (crc32c d).toNat ++ List.replicate (4096 - 48) 0

/-- The LBA of a member block (R367). -/
def State.lba (s : State) (p b : Nat) : Nat := if (s.drive p).lba512 then 8 * b else b

/-- Send a drive command that belongs to no volume command. -/
def State.sendPlain (s : State) (p op b n : Nat) (data : List Byte) : State :=
  ({ s with cvc := { s.cvc with nextTag := s.cvc.nextTag + 1 } }).emit
    (.nvme p op (s.lba p b) (if (s.drive p).lba512 then 8 * n else n) s.cvc.nextTag false data)

/-- Write the labels of a volume to its present members and its spare, with the generation in force. -/
def State.writeLabels (s : State) (v : Volume) (blocks : Nat) : State :=
  let id := s.rd fCVC_VOL_ID_VALUE 0
  let gen := s.rd fCVC_VOL_STATUS_GENERATION 0
  let pad := List.replicate (4096 * (blocks - 1)) (0 : Byte)
  let u := ((List.range v.members).filter (fun m => !v.missing.contains m)).foldl (fun s m =>
    s.sendPlain (v.ports.getD m 0) 1 0 blocks (labelBlock id gen v m ++ pad)) s
  match v.spare with
  | some p => u.sendPlain p 1 0 blocks (labelBlock id gen v 0xFF ++ pad)
  | none => u

/-- A change of membership: GENERATION rises and the labels are written (R368). A member that goes missing stays a
member: R387 writes no label. -/
def State.membership (s : State) (v : Volume) : State :=
  ((s.setVol (some v)).wr fCVC_VOL_STATUS_GENERATION 0 (s.rd fCVC_VOL_STATUS_GENERATION 0 + 1)).writeLabels v 1

/-- The role of a port: 0 unassigned, 1 member, 2 spare, 3 foreign. -/
def State.setRole (s : State) (p role index : Nat) : State :=
  let u := ((s.wr fDSP_PORT_ROLE p role).wr fDSP_PORT_INDEX p index)
  let f := u.rd fCVC_VOL_STATUS_FOREIGN 0
  u.wr fCVC_VOL_STATUS_FOREIGN 0 (if role = 3 then withBit f p else withoutBit f p)

/-! ### Commands in CVC -/

def State.vcmd (s : State) (n : Nat) : Option VolCmd := find s.cvc.cmds n
def State.setVcmd (s : State) (n : Nat) (c : VolCmd) : State := { s with cvc := { s.cvc with cmds := put s.cvc.cmds n c } }
def State.delVcmd (s : State) (n : Nat) : State := { s with cvc := { s.cvc with cmds := del s.cvc.cmds n } }

/-- Drive commands of a command that have not ended. -/
def State.atDrives (s : State) (n : Nat) : Bool := s.cvc.drv.any (fun d => d.cmd = n)

/-- CVC takes a command: it joins the order of acceptance (R380). -/
def State.accept (s : State) (c : VolCmd) : State :=
  { s.setVcmd s.cvc.nextCmd c with cvc := { (s.setVcmd s.cvc.nextCmd c).cvc with nextCmd := s.cvc.nextCmd + 1 } }

/-- Two commands conflict (R380). -/
def conflict (a b : VolCmd) : Bool :=
  a.locks.any (fun x => b.locks.any (fun y => (x.write || y.write) && decide (x.lo < y.hi) && decide (y.lo < x.hi)))

/-- Lock entries: held by a function, orphaned (R381). -/
def State.locksHeld (s : State) (fn : Nat) : Nat :=
  s.cvc.cmds.foldl (fun n nc => if nc.2.fn = fn && !nc.2.orphan && !nc.2.internal && nc.2.stage ≠ .fifo then n + nc.2.locks.length else n) 0
def State.locksOrphaned (s : State) : Nat :=
  s.cvc.cmds.foldl (fun n nc => if nc.2.orphan then n + nc.2.locks.length else n) 0
def State.lockResvSum (s : State) : Nat := (List.range 1025).foldl (fun n f => n + s.rd fCVC_FN_RESV f) 0
def State.lockShared (s : State) : Nat :=
  (List.range 1025).foldl (fun n f => n + (s.locksHeld f - s.rd fCVC_FN_RESV f)) s.locksOrphaned

/-- The rule of R381. -/
def State.mayAdmit (s : State) (fn k : Nat) : Bool :=
  let r := s.rd fCVC_FN_RESV fn
  let h := s.locksHeld fn
  decide (h + k ≤ r) || decide (s.lockShared + (h + k - r) - (h - r) ≤ 512 - s.lockResvSum)

/-- Bytes of the staging pool in use (R376). -/
def State.stagingUsed (s : State) : Nat :=
  s.cvc.cmds.foldl (fun n nc => if nc.2.stage ≠ .fifo then n + nc.2.staging else n) 0

/-! ### Physical access for drives (R376, R431) -/

/-- Write bytes at a device physical address. -/
def State.physWrite (s : State) (dpa : Nat) (d : List Byte) : State :=
  (linePieces dpa d (d.length + 1)).foldl (fun s p => (s.writeWithinLine p.1 p.2).1) s

/-- Lines of a physical range. -/
def physLines (dpa n : Nat) : List Nat := (lineVas dpa n).map (fun a => a / 64)

/-- Read bytes at a device physical address: the sub-status of a bad line, or 0. -/
def State.physRead (s : State) (dpa n : Nat) : List Byte × Nat × State :=
  let ls := physLines dpa n
  let sub := s.linesSub ls
  let t := ls.foldl State.readLine s
  (Mem.bytes t.hbm dpa n, sub, t)

/-- Cut a virtual range at page boundaries. -/
def cutPages (va n : Nat) : Nat → List (Nat × Nat)
  | 0 => []
  | fuel + 1 =>
    if n = 0 then []
    else
      let k := min n (pageBytes - va % pageBytes)
      (va, k) :: cutPages (va + k) (n - k) fuel

/-- Translate segments: the failure, or physical segments in order. -/
def State.physSegs (s : State) (fn : Nat) (u : Use) : List (Nat × Nat) → Except Nat (List (Nat × Nat))
  | [] => .ok []
  | (va, n) :: rest =>
    match s.translate fn va u with
    | .error e => .error e
    | .ok dpa =>
      match s.physSegs fn u rest with
      | .error e => .error e
      | .ok more => .ok ((dpa, n) :: more)

/-- Segments cut at pages. -/
def pagedSegs (segs : List (Nat × Nat)) : List (Nat × Nat) := (segs.map (fun x => cutPages x.1 x.2 (x.2 / pageBytes + 2))).flatten

/-- Store a command's data into its segments (R376). -/
def State.fillSegs (s : State) (c : VolCmd) : List (Nat × Nat) → List Byte → State
  | [], _ => s
  | (a, n) :: rest, d =>
    let u := if c.host then s.hostPut c.fn a (d.take n) else (s.physWrite a (d.take n)).chargeHbm c.fn ((n + 63) / 64)
    u.fillSegs c rest (d.drop n)

/-- Read a command's data from its segments. -/
def State.drainSegs (s : State) (c : VolCmd) : List (Nat × Nat) → List Byte × Nat × State
  | [] => ([], 0, s)
  | (a, n) :: rest =>
    let r := if c.host then (s.hostRead a n, 0, s.hostGet c.fn a n)
      else
        let p := s.physRead a n
        (p.1, p.2.1, p.2.2.chargeHbm c.fn ((n + 63) / 64))
    let q := r.2.2.drainSegs c rest
    (r.1 ++ q.1, if r.2.1 = 0x40 ∨ q.2.1 = 0 then r.2.1 else q.2.1, q.2.2)

/-! ### Drive commands (R376, R392) -/

/-- Cut member blocks at the drive's maximum transfer. -/
def cutTransfer (b n most : Nat) : Nat → List (Nat × Nat)
  | 0 => []
  | fuel + 1 =>
    if n = 0 then []
    else
      let k := min n (max 1 most)
      (b, k) :: cutTransfer (b + k) (n - k) most fuel

/-- Send one drive command for volume command `n`. -/
def State.sendOne (s : State) (n port op block count : Nat) (data : List Byte) (fua : Bool) (item : Option Nat) (member : Nat) : State :=
  let tag := s.cvc.nextTag
  let d : DriveCmd := ⟨tag, port, op, block, count, data, fua, n, item, member, s.clk.tsu, false⟩
  ({ s with cvc := { s.cvc with nextTag := tag + 1, drv := s.cvc.drv ++ [d] } }).emit
    (.nvme port op (s.lba port block) (if (s.drive port).lba512 then 8 * count else count) tag fua data)

/-- Read member blocks for a fetch. -/
def State.sendRead (s : State) (n port block count item member : Nat) : State :=
  (cutTransfer block count (s.drive port).maxBlocks (count + 1)).foldl (fun s x =>
    s.sendOne n port 2 x.1 x.2 [] false (some item) member) s

/-- Write member blocks. -/
def State.sendWrite (s : State) (n port block : Nat) (d : List Byte) (fua : Bool) (member : Nat) : State :=
  (cutTransfer block (d.length / 4096) (s.drive port).maxBlocks (d.length / 4096 + 1)).foldl (fun s x =>
    s.sendOne n port 1 x.1 x.2 ((d.drop (4096 * (x.1 - block))).take (4096 * x.2)) fua none member) s

/-! ### Fetching and reconstruction (R386, R387) -/

def xorBytes (a b : List Byte) : List Byte := List.zipWith (· ^^^ ·) a b

/-- XOR of blocks of 4 KiB. -/
def xorAll (bs : List (List Byte)) : List Byte := bs.foldl xorBytes (List.replicate 4096 0)

/-- The place of a member block among a fetch's parts. -/
def partKey (m b : Nat) : Nat := m * 2 ^ 48 + b

/-- A block that a fetch holds: as read, or the XOR of the other members' blocks. -/
def Fetch.blockAt (f : Fetch) (b : Nat) : List Byte :=
  if f.recon then xorAll ((f.parts.filter (fun kd => kd.1 % 2 ^ 48 = b && kd.1 / 2 ^ 48 ≠ f.member)).map Prod.snd)
  else (find f.parts (partKey f.member b)).getD (List.replicate 4096 0)

def Fetch.covers (f : Fetch) (m b : Nat) : Bool := f.member = m && decide (f.block ≤ b) && decide (b < f.block + f.count)

/-- An old block among a command's fetches. -/
def VolCmd.oldBlock (c : VolCmd) (m b : Nat) : List Byte :=
  ((c.fetches.find? (fun f => f.covers m b)).map (fun f => f.blockAt b)).getD (List.replicate 4096 0)

/-- How blocks of a member that cannot be reached are had: reconstructed, or a failure. -/
def Volume.reconError (v : Volume) (st : Nat) : Option (Nat × Nat) :=
  if !v.parity ∨ 1 < v.missing.length then some (0x40, 0x02) else if v.awaits st then some (0x40, 0x05) else none

/-- Send the reads of fetch `i` of command `n`. -/
def State.issueFetch (s : State) (n i pos : Nat) (v : Volume) (f : Fetch) : State :=
  let st := v.stripeAt f.block
  if f.recon then
    ((List.range v.members).filter (fun m => m ≠ f.member)).foldl (fun s m =>
      match v.portAt pos m st with
      | some p => s.sendRead n p f.block f.count i m
      | none => s) s
  else
    match v.portAt pos f.member st with
    | some p => s.sendRead n p f.block f.count i f.member
    | none => s

/-- The fetch of a piece; the port whose block is reconstructed. -/
def Volume.fetchFor (v : Volume) (pos m block count : Nat) : Except (Nat × Nat) (Fetch × Nat) :=
  let st := v.stripeAt block
  match v.portAt pos m st with
  | some _ => .ok (⟨m, block, count, false, false, [], none⟩, 0)
  | none =>
    match v.reconError st with
    | some e => .error e
    | none => .ok (⟨m, block, count, true, false, [], none⟩, portBit (v.ports.getD m 0))

def fetchAll (v : Volume) (pos : Nat) : List (Nat × Nat × Nat) → Except (Nat × Nat) (List Fetch × Nat)
  | [] => .ok ([], 0)
  | (m, b, n) :: rest =>
    match v.fetchFor pos m b n with
    | .error e => .error e
    | .ok f =>
      match fetchAll v pos rest with
      | .error e => .error e
      | .ok more => .ok (f.1 :: more.1, f.2 ||| more.2)

/-- Begin the fetches of a command. -/
def State.beginFetch (s : State) (n : Nat) (c : VolCmd) (v : Volume) (fs : List Fetch) (lost : Nat) : State :=
  let u := s.setVcmd n { c with stage := .fetching, fetches := fs, lost := c.lost ||| lost }
  (List.range fs.length).foldl (fun s i => match fs[i]? with
    | some f => s.issueFetch n i s.rebuildPos v f
    | none => s) u

/-! ### Writing (R366, R376, R387) -/

/-- The pieces of one stripe. -/
def inStripe (ps : List VPiece) (st : Nat) : List VPiece := ps.filter (fun p => p.stripe = st)

/-- The stripes of pieces, each once, in order. -/
def stripesOf : List VPiece → List Nat
  | [] => []
  | p :: rest => p.stripe :: (stripesOf rest).filter (fun st => st ≠ p.stripe)

/-- The whole stripe is written. -/
def Volume.fullStripe (v : Volume) (ps : List VPiece) : Bool := (ps.map VPiece.count).foldl (· + ·) 0 = v.stripeBlocks

/-- The member blocks of the parity chunk that the pieces of a stripe touch: first and count. -/
def paritySpan (ps : List VPiece) : Nat × Nat :=
  let lo := (ps.map VPiece.block).foldl min ((ps.map VPiece.block).headD 0)
  let hi := (ps.map (fun p => p.block + p.count)).foldl max 0
  (lo, hi - lo)

/-- Blocks that a WRITE must read first: old data and old parity of partial stripes. -/
def Volume.writeReads (v : Volume) (pos : Nat) (ps : List VPiece) : List (Nat × Nat × Nat) :=
  if !v.parity then []
  else ((stripesOf ps).map (fun st =>
    let mine := inStripe ps st
    if v.fullStripe mine ∨ (v.portAt pos (v.parityOf st) st).isNone then []
    else mine.map (fun p => (p.member, p.block, p.count)) ++ [(v.parityOf st, (paritySpan mine).1, (paritySpan mine).2)])).flatten

/-- Block `k` of a command's data. -/
def dataBlock (d : List Byte) (k : Nat) : List Byte := (d.drop (4096 * k)).take 4096

/-- The new block of a piece at member block `b`, where `base` is the first volume block of the data. -/
def VPiece.newBlock (p : VPiece) (base : Nat) (d : List Byte) (b : Nat) : List Byte := dataBlock d (p.vb - base + (b - p.block))

/-- The new parity block at member block `b`. -/
def parityBlock (c : VolCmd) (full : Bool) (pm base : Nat) (d : List Byte) (ps : List VPiece) (b : Nat) : List Byte :=
  let mine := ps.filter (fun p => decide (p.block ≤ b) && decide (b < p.block + p.count))
  let new := xorAll (mine.map (fun p => p.newBlock base d b))
  if full then new
  else xorBytes (xorBytes (c.oldBlock pm b) new) (xorAll (mine.map (fun p => c.oldBlock p.member b)))

/-- Add to the ports whose blocks were reconstructed, absorbed or left out. -/
def State.noteLost (s : State) (n bits : Nat) : State :=
  match s.vcmd n with
  | none => s
  | some c => s.setVcmd n { c with lost := c.lost ||| bits }

/-- Write one stripe of a WRITE. -/
def State.writeStripe (s : State) (n : Nat) (c : VolCmd) (v : Volume) (base : Nat) (d : List Byte) (ps : List VPiece) (st : Nat) : State :=
  let mine := inStripe ps st
  let pos := s.rebuildPos
  let u := mine.foldl (fun s p =>
    match v.portAt pos p.member st with
    | some q => s.sendWrite n q p.block ((List.range p.count).map (fun i => p.newBlock base d (p.block + i))).flatten c.fua p.member
    | none => s.noteLost n (portBit (v.ports.getD p.member 0))) s
  if !v.parity then u
  else
    let pm := v.parityOf st
    match v.portAt pos pm st with
    | none => u.noteLost n (portBit (v.ports.getD pm 0))
    | some q =>
      let sp := paritySpan mine
      u.sendWrite n q sp.1 ((List.range sp.2).map (fun i =>
        parityBlock c (v.fullStripe mine) pm base d mine (sp.1 + i))).flatten c.fua pm

/-! ### Ends of commands (R25, R375, R376) -/

/-- Keep the first failure of a command. -/
def VolCmd.failed (c : VolCmd) (st sub : Nat) : VolCmd := if c.status = 0 then { c with status := st, sub := sub } else c

/-- The status of a command that ends. -/
def VolCmd.outcome (c : VolCmd) : Nat × Nat :=
  if c.status ≠ 0 then (c.status, c.sub) else if c.lost ≠ 0 ∧ !c.internal then (0x41, 0) else (0, 0)

/-- SPECIFIC of a volume completion (R376). -/
def VolCmd.specific (c : VolCmd) : Nat := c.lost % 256 + 256 * (c.errs % 256)

/-- Bytes of RESULT_LEN. -/
def VolCmd.bytes (c : VolCmd) : Nat :=
  if (c.kind = .read || c.kind = .write) && (c.outcome.1 = 0 || c.outcome.1 = 0x41) then
    4096 * (c.ranges.map Prod.snd).foldl (· + ·) 0 else 0

/-- The buffer that a HOLD_READ's drives still wrote into is free (R492). -/
def State.freeHeld (s : State) (c : VolCmd) : State :=
  match c.held with
  | some (r, b) => if c.orphan then s.onRun r (fun x => { x with bufs := del x.bufs b }) else s
  | none => s

/-- The column set and layout of a HOLD_READ (R175): descriptors for `rows` rows at buffer address `base`. -/
def holdCols (rec0 d : List Byte) (rows base : Nat) : List Nat → Nat → List Col
  | [], _ => []
  | c :: rest, at_ =>
    let ty := fieldAt rec0 (16 + 4 * c) 1
    { data := base + at_, aux := if ty = 8 then base + at_ + 4 * (rows + 1) else 0, null := 0, type := ty,
      id := fieldAt rec0 (17 + 4 * c) 1, bytes := if ty = 15 then fieldAt d (44 + 16 * c) 4 else 0, reserved := false }
      :: holdCols rec0 d rows base rest (at_ + 4096 * fieldAt d (40 + 16 * c) 4)

/-- The extent record that a HOLD_READ task reads. -/
def State.holdRecord (s : State) (x : Task) : List Byte :=
  ((s.run x.run).bind (fun r => find r.records (x.node * 2 ^ 32 + x.seq))).getD []

/-- The output of a HOLD_READ task: its column set's bytes and its tokens. -/
def State.holdOut (s : State) (x : Task) : List Byte × List (Nat × Token) :=
  match s.run x.run, x.token with
  | some r, some t =>
    let g := s.graphOf r
    let rec0 := r.record (g.node x.node)
    match r.outBuf g x with
    | none => ([], [])
    | some (b, base, _) =>
      let cols := holdCols rec0 (s.holdRecord x) t.rows base (List.range t.cols) 4096
      ((cols.map colBytes).flatten, onPorts g x.node (outToken x r t t.rows t.cols base ((cols.map Col.data).getD 0 0) 0 [b]))
  | _, _ => ([], [])

/-- Start a rebuild where a spare exists (R387). -/
def State.startRebuild (s : State) (v : Volume) : State :=
  match v.spare, v.missing with
  | some _, [m] =>
    if v.parity ∧ v.rebuild.isNone then
      ((s.setVol (some { v with rebuild := some m })).wr fCVC_REBUILD_POS_STRIPE 0 0).setVolState 3
    else s
  | _, _ => s

/-- A stripe of the rebuild has been written: the point moves on; after the last stripe the spare is the member. -/
def State.rebuiltStripe (s : State) : State :=
  match s.cvc.vol with
  | none => s
  | some v =>
    match v.rebuild, v.spare with
    | some m, some p =>
      let pos := s.rebuildPos + 1
      if pos < v.stripes then s.wr fCVC_REBUILD_POS_STRIPE 0 pos
      else
        let old := v.ports.getD m 0
        let w := { v with ports := v.ports.set m p, spare := none, missing := [], rebuild := none }
        let r := (s.wr fCVC_REBUILD_POS_STRIPE 0 ((w.resync.map Prod.fst).headD 0)).membership w
        let u := (if r.rd fDSP_PORT_ROLE old = 1 then r.setRole old 0 0 else r).setRole p 1 m
        ((u.wr fCVC_VOL_STATUS_MISSING 0 (withoutBit (u.rd fCVC_VOL_STATUS_MISSING 0) old)).setVolState 1).raise 10 3
    | _, _ => s

/-- Take a stripe off the ranges that await resync. -/
def dropStripe (st : Nat) : List (Nat × Nat) → List (Nat × Nat)
  | [] => []
  | (a, b) :: rest =>
    if a ≤ st ∧ st < b then
      (if a < st then [(a, st)] else []) ++ (if st + 1 < b then [(st + 1, b)] else []) ++ dropStripe st rest
    else (a, b) :: dropStripe st rest

/-- A stripe has been resynced (R389). -/
def State.resynced (s : State) (st : Nat) : State :=
  match s.cvc.vol with
  | none => s
  | some v =>
    let w := { v with resync := dropStripe st v.resync }
    let u := s.setVol (some w)
    let t := if w.rebuild.isNone then u.wr fCVC_REBUILD_POS_STRIPE 0 ((w.resync.map Prod.fst).headD 0) else u
    if w.resync = [] then t.setResync false else t

/-- The stripe of an internal command. -/
def VolCmd.stripe (c : VolCmd) (v : Volume) : Nat := ((c.ranges.map Prod.fst).headD 0) / max 1 v.stripeBlocks

/-- A command ends: its locks and staging are released first (R25), then its completion or token follows. -/
def State.finishVol (s : State) (n : Nat) : State :=
  match s.vcmd n with
  | none => s
  | some c =>
    let u := (s.delVcmd n).freeHeld c
    let o := c.outcome
    match c.kind with
    | .rebuild => if o.1 = 0 then u.rebuiltStripe else u
    | .resync => if o.1 = 0 then (match u.cvc.vol with | some v => u.resynced (c.stripe v) | none => u) else u
    | _ =>
      match c.entry, c.task with
      | some (qid, tag), _ => u.complete ⟨c.fn, qid, tag⟩ o.1 o.2 c.bytes c.specific
      | none, some k =>
        match u.task k with
        | none => u
        | some x =>
          let st := if o.1 = 0x41 then (0, 0) else o
          let v := u.onRun x.run (fun r => { r with records := del r.records (x.node * 2 ^ 32 + x.seq) })
          (v.jobFault 10 c.fn st).endTask k st.1 st.2 10 (u.holdOut x).2
      | none, none => u

/-! ### Progress (R376, R378, R386) -/

/-- Reconstructed blocks of a fetch are rewritten on the member that reported them unreadable: they are counted (R386). -/
def State.noteRepair (s : State) (v : Volume) (f : Fetch) : State :=
  if f.repair ∧ (v.portAt s.rebuildPos f.member (v.stripeAt f.block)).isSome then
    (s.bumpSat fCVC_MEDIA_REPAIRED 0 f.count).raise 10 5
  else s

/-- Write reconstructed blocks back to the member that reported them unreadable (R386). DEDUCED (notes/assumptions/89.md): the
write back is a drive command of the READ, so the READ keeps its range lock until that write ends (R25). -/
def State.repairFetch (s : State) (n : Nat) (v : Volume) (f : Fetch) : State :=
  match (if f.repair then v.portAt s.rebuildPos f.member (v.stripeAt f.block) else none) with
  | none => s
  | some p =>
    (s.sendWrite n p f.block ((List.range f.count).map (fun i => f.blockAt (f.block + i))).flatten false f.member).noteRepair v f

/-- The data that a command has read, in the order of its ranges. -/
def VolCmd.readData (c : VolCmd) (v : Volume) : List Byte :=
  ((v.pieces c.ranges).map (fun p => ((List.range p.count).map (fun i => c.oldBlock p.member (p.block + i))).flatten)).flatten

/-- The reads of a command have ended well: deliver its data, or write. -/
def State.afterFetch (s : State) (n : Nat) (c : VolCmd) (v : Volume) : State :=
  let u := s.setVcmd n { c with stage := .writing }
  match c.kind with
  | .read => c.fetches.foldl (fun s f => s.repairFetch n v f) (u.fillSegs c c.segs (c.readData v))
  | .holdRead =>
    let head := match c.task.bind s.task with
      | some x => (s.holdOut x).1
      | none => []
    c.fetches.foldl (fun s f => s.repairFetch n v f) (u.fillSegs c c.segs (head ++ c.readData v))
  | .write =>
    -- What a WRITE reads is what it writes again: the command's own write replaces a block that a drive could not read.
    let r := u.drainSegs c c.segs
    if r.2.1 ≠ 0 then r.2.2.setVcmd n ({ c with stage := .writing }.failed 0x21 r.2.1)
    else
      let ps := v.pieces c.ranges
      let t := c.fetches.foldl (fun s f => s.noteRepair v f) r.2.2
      (stripesOf ps).foldl (fun s st => s.writeStripe n c v ((c.ranges.map Prod.fst).headD 0) r.1 ps st) t
  | .rebuild =>
    match c.fetches, v.spare with
    | [f], some p => u.sendWrite n p f.block ((List.range f.count).map (fun i => f.blockAt (f.block + i))).flatten false f.member
    | _, _ => u
  | .resync =>
    let st := c.stripe v
    let b := 256 + st * v.chunk
    u.sendWrite n (v.ports.getD (v.parityOf st) 0) b ((List.range v.chunk).map (fun i =>
      xorAll (c.fetches.map (fun f => f.blockAt (b + i))))).flatten false (v.parityOf st)
  | .flush => u
  | .deallocate => u

/-- A command whose drive commands have all ended goes on, or ends. An orphan goes no further (R127). -/
def State.stepVol (s : State) (n : Nat) : State :=
  match s.vcmd n with
  | none => s
  | some c =>
    if s.atDrives n then s
    else if c.orphan ∨ c.status ≠ 0 then s.finishVol n
    else
      match c.stage, s.cvc.vol with
      | .fetching, some v =>
        let u := s.afterFetch n c v
        if u.atDrives n then u else u.finishVol n
      | .fetching, none => (s.setVcmd n (c.failed 0x40 0x04)).finishVol n
      | .writing, _ => s.finishVol n
      | _, _ => s

/-- The blocks that a DEALLOCATE gives back on each member: whole chunks, or whole stripes in a parity volume (R377). -/
def Volume.deallocs (v : Volume) (vb n : Nat) : List (Nat × Nat × Nat) :=
  if v.parity then
    let lo := (vb + v.stripeBlocks - 1) / v.stripeBlocks
    let hi := (vb + n) / v.stripeBlocks
    ((List.range v.members).map (fun m => if lo < hi then [(m, 256 + lo * v.chunk, (hi - lo) * v.chunk)] else [])).flatten
  else ((v.cut vb n (n + 1)).filter (fun p => p.count = v.chunk)).map (fun p => (p.member, p.block, p.count))

/-- A command starts its data transfer (R380). -/
def State.startVol (s : State) (n : Nat) (c : VolCmd) : State :=
  match s.cvc.vol with
  | none => (s.setVcmd n (c.failed 0x40 0x04)).finishVol n
  | some v =>
    let pos := s.rebuildPos
    if s.volState = 4 ∧ c.kind ≠ .flush then (s.setVcmd n (c.failed 0x40 0x04)).finishVol n
    else
      let go (reads : List (Nat × Nat × Nat)) : State :=
        match fetchAll v pos reads with
        | .error e => (s.setVcmd n (c.failed e.1 e.2)).finishVol n
        | .ok fs => (s.beginFetch n c v fs.1 fs.2).stepVol n
      match c.kind with
      | .read => go ((v.pieces c.ranges).map (fun p => (p.member, p.block, p.count)))
      | .holdRead => go ((v.pieces c.ranges).map (fun p => (p.member, p.block, p.count)))
      | .write => go (v.writeReads pos (v.pieces c.ranges))
      | .rebuild => go [((v.rebuild.getD 0), 256 + c.stripe v * v.chunk, v.chunk)]
      | .resync => go (((List.range v.members).filter (fun m => m ≠ v.parityOf (c.stripe v))).map (fun m =>
          (m, 256 + c.stripe v * v.chunk, v.chunk)))
      | .flush =>
        let ports := ((List.range v.members).filter (fun m => !v.missing.contains m)).map (fun m => v.ports.getD m 0)
          ++ (if v.rebuild.isSome then v.spare.toList else [])
        ((ports.filter (fun p => (s.drive p).vwc)).foldl (fun s p => s.sendOne n p 0 0 0 [] false none 0)
          (s.setVcmd n { c with stage := .writing })).stepVol n
      | .deallocate =>
        let r := c.ranges.headD (0, 0)
        ((v.deallocs r.1 r.2).foldl (fun s x => match v.portAt pos x.1 (v.stripeAt x.2.1) with
          | some p => s.sendOne n p 9 x.2.1 x.2.2 [] false none x.1
          | none => s) (s.setVcmd n { c with stage := .writing })).stepVol n

/-- A command touches a stripe that must be resynced first (R389). -/
def State.needsResync (s : State) (c : VolCmd) : Bool :=
  !c.internal && s.cvc.vol.any (fun v => v.missing.isEmpty && c.locks.any (fun l =>
    v.resync.any (fun r => decide (l.lo < r.2 * v.stripeBlocks) && decide (r.1 * v.stripeBlocks < l.hi))))

/-- The budgets let a command's transfer start (R121, R122). -/
def State.volFree (s : State) (c : VolCmd) : Bool :=
  match c.kind with
  | .read => if c.host then s.txFree c.fn else s.hbmFree c.fn
  | .write => if c.host then s.rxFree c.fn else s.hbmFree c.fn
  | .holdRead => s.hbmFree c.fn
  | .flush | .deallocate | .rebuild | .resync => true

/-- An admitted command that nothing accepted before it holds back. -/
def State.mayStartVol (s : State) (n : Nat) (c : VolCmd) : Bool :=
  c.stage = .admitted && !c.orphan && s.volFree c && !s.needsResync c && s.cvc.cmds.all (fun md => decide (n ≤ md.1) || !conflict md.2 c)

/-- Start every command that may start, in the order of acceptance. -/
def State.pump (s : State) : State :=
  (s.cvc.cmds.map Prod.fst).foldl (fun s n => match s.vcmd n with
    | none => s
    | some c => if s.mayStartVol n c then s.startVol n c else s) s

/-! ### Checks and acceptance (R373 to R375) -/

/-- Reserved fields of a volume command. -/
def volReserved (op : Nat) (l : Line) : Bool :=
  match op with
  | 3 => entryNonzero l 4 60
  | 4 => entryBits l 4 0 2 ≠ 0 || entryBits l 4 3 5 ≠ 0 || entryNonzero l 5 8 || entryNonzero l 14 16 || entryNonzero l 20 60
  | _ => entryBits l 4 3 5 ≠ 0 || entryNonzero l 5 8 || entryNonzero l 14 16 || entryNonzero l 36 60

def volFua (l : Line) : Bool := entryBits l 4 2 1 = 1
def volList (l : Line) : Bool := entryBits l 4 1 1 = 1
def volHost (l : Line) : Bool := entryBits l 4 0 1 = 0

/-- The checks of R375 up to the alignment of the buffer. -/
def State.volError (s : State) (fn op : Nat) (l : Line) : Option (Nat × Nat) :=
  if volReserved op l then some (0x10, 0x01)
  else if op ≠ 3 ∧ ((volFua l ∧ op ≠ 2) ∨ (volList l ∧ (entryBytes l 20 4 = 0 ∨ entryBytes l 32 4 ≠ 0)) ∨ (!volList l ∧ entryBytes l 20 4 ≠ 0)) then
    some (0x10, 0x80)
  else if s.rd fCVC_FN_ENABLE fn = 0 then some (0x23, 0x02)
  else if op = 3 then none
  else if s.rd fCVC_FN_GRANT_BLOCKS fn < entryBytes l 8 6 + entryBytes l 16 4 then some (0x23, 0x07)
  else if (op = 2 ∨ op = 4) ∧ s.rd fCVC_FN_READ_ONLY fn = 1 then some (0x23, 0x08)
  else if entryBytes l 16 4 = 0 ∨ 262144 < entryBytes l 16 4 ∨ 4096 < entryBytes l 20 4 then some (0x11, 0x20)
  else if op ≠ 4 ∧ entryBytes l 24 8 % 64 ≠ 0 then some (0x10, 0x81)
  else none

/-- Entries of a segment list. -/
def parseSegs (n : Nat) (d : List Byte) : List (Nat × Nat) := (List.range n).map (fun i => (fieldAt d (16 * i) 8, fieldAt d (16 * i + 8) 4))

/-- The segments of a READ or WRITE: a failure, or addresses and lengths. `host` is what host reads meet. -/
def State.volSegs (s : State) (fn host : Nat) (l : Line) : Except (Nat × Nat) (List (Nat × Nat)) × State :=
  let n := entryBytes l 20 4
  let a := entryBytes l 24 8
  let hostBad := if volHost l then hostFailure host else none
  match hostBad with
  | some e => (.error e, s.hostFailed fn e.1)
  | none =>
    if !volList l then (.ok [(a, entryBytes l 32 4)], s)
    else
      let got : Nat × Nat × List Byte × State :=
        if volHost l then (0, 0, s.hostRead a (16 * n), s.hostGet fn a (16 * n))
        else
          let g := s.engineRead fn (a % 2 ^ 48) (16 * n)
          (g.status, g.sub, g.data, g.st)
      if got.1 ≠ 0 then (.error (got.1, got.2.1), got.2.2.2)
      else
        let d := got.2.2.1
        let segs := parseSegs n d
        if (List.range n).any (fun i => nonzeroAt d (16 * i + 12) (16 * i + 16)) then (.error (0x10, 0x01), got.2.2.2)
        else if segs.any (fun x => x.1 % 64 ≠ 0 || x.2 = 0 || x.2 % 64 ≠ 0) then (.error (0x10, 0x81), got.2.2.2)
        else (.ok segs, got.2.2.2)

/-- The volume can serve a command of the opcode (R375, R387). -/
def State.volUsable (s : State) (flush : Bool) : Bool := s.cvc.vol.isSome && (flush || s.volState ≠ 4)

/-- The lock of a range: a write in a parity volume takes whole stripes (R379). -/
def State.lockFor (s : State) (vb n : Nat) (write : Bool) : Lock :=
  match s.cvc.vol with
  | none => ⟨vb, vb + n, write⟩
  | some v =>
    if write ∧ v.parity then ⟨vb / v.stripeBlocks * v.stripeBlocks, roundUp (vb + n) v.stripeBlocks, true⟩ else ⟨vb, vb + n, write⟩

def kindOfOp : Nat → VolKind
  | 1 => .read | 2 => .write | 3 => .flush | _ => .deallocate

/-- The new command of an entry. -/
def State.volCmd (s : State) (fn qid op : Nat) (e : Entry) (segs : List (Nat × Nat)) : VolCmd :=
  let l := e.line
  let vb := s.rd fCVC_FN_GRANT_BASE fn + entryBytes l 8 6
  let n := entryBytes l 16 4
  { fn := fn, kind := kindOfOp op, entry := some (qid, e.tag), task := none, ranges := if op = 3 then [] else [(vb, n)],
    host := volHost l, segs := segs, fua := volFua l,
    locks := if op = 3 then [] else [s.lockFor vb n (op ≠ 1)], staging := if op ≤ 2 ∧ volHost l then min (4096 * n) 4194304 else 0,
    stage := if op = 3 then .admitted else .fifo, fetches := [], lost := 0, errs := 0, status := 0, sub := 0, orphan := false,
    held := none }

/-- Check and accept the volume command of an entry. -/
def State.acceptVol (s : State) (fn qid op host : Nat) (e : Entry) : State :=
  let r : Ref := ⟨fn, qid, e.tag⟩
  match s.volError fn op e.line with
  | some x => s.complete r x.1 x.2 0 0
  | none =>
    let got := if op ≤ 2 then s.volSegs fn host e.line else (.ok [], s)
    match got with
    | (.error x, t) => (t.jobFault 10 fn x).complete r x.1 x.2 0 0
    | (.ok segs, t) =>
      let tr := if op ≤ 2 ∧ !volHost e.line then t.physSegs fn (if op = 1 then .write else .read) (pagedSegs segs) else .ok []
      match tr with
      | .error sub => ((t.countFault fn).jobFault 10 fn (0x22, sub)).complete r 0x22 sub 0 0
      | .ok _ =>
        if op ≤ 2 ∧ (segs.map Prod.snd).foldl (· + ·) 0 ≠ 4096 * entryBytes e.line 16 4 then t.complete r 0x11 0x21 0 0
        else if !t.volUsable (op = 3) then t.complete r 0x40 0x04 0 0
        else ((t.accept (t.volCmd fn qid op e segs)).setStage r .started).pump

/-- CVC works on volume commands: ready, or held by a soft reset that waits until it is idle (R76), and out of PS3
(R398). -/
def State.cvcAwake (s : State) : Bool := s.running && (s.ready 10 || s.softPending.contains 10) && !s.failedSubs.contains 10 && s.rd fCVC_PS_STATUS_STATE 0 < 3

/-- Run the handed VOLUME entry of a queue where its opcode is `op`. -/
def State.volEntry (s : State) (fn qid op host : Nat) : State :=
  match s.handedEntry fn qid 2 with
  | none => s
  | some e => if entryOpcode e.line = op then s.acceptVol fn qid op host e else s

def execRead (fn qid host : Nat) (s : State) : Res := steady s.cvcAwake (fun s => s.volEntry fn qid 1 host) s
def execWrite (fn qid host : Nat) (s : State) : Res := steady s.cvcAwake (fun s => s.volEntry fn qid 2 host) s
def execFlush (fn qid : Nat) (s : State) : Res := steady s.cvcAwake (fun s => s.volEntry fn qid 3 0) s
def execDeallocate (fn qid : Nat) (s : State) : Res := steady s.cvcAwake (fun s => s.volEntry fn qid 4 0) s

/-! ### HOLD_READ tasks (R175, R375) -/

/-- The failure of an extent record (R175, R375). -/
def State.holdError (s : State) (fn slot : Nat) (rec0 d : List Byte) (rows cols : Nat) : Option (Nat × Nat) :=
  let cs := List.range cols
  let blocks (c : Nat) : Nat := fieldAt d (40 + 16 * c) 4
  let bytes (c : Nat) : Nat := fieldAt d (44 + 16 * c) 4
  if s.rd fCVC_FN_ENABLE fn = 0 then some (0x23, 0x02)
  else if cs.any (fun c => decide (s.rd fCVC_FN_GRANT_BLOCKS fn < bitsAt d (32 + 16 * c) 0 48 + blocks c)) then some (0x23, 0x07)
  else if cs.any (fun c => blocks c = 0 || decide (262144 < blocks c)) then some (0x11, 0x20)
  else if slot < 4096 + 4096 * (cs.map blocks).foldl (· + ·) 0 ∨ cs.any (fun c => decide (4096 * blocks c < bytes c))
      ∨ cs.any (fun c => fieldAt rec0 (16 + 4 * c) 1 = 8 && decide (bytes c < 4 * (rows + 1))) then some (0x11, 0x23)
  else if !s.volUsable false then some (0x40, 0x04)
  else none

/-- HOLD_READ_TASK: the pegged task's record is checked and joins the order of acceptance with one lock per column. -/
def State.holdTask (s : State) (k : Nat) : State :=
  match s.task k with
  | none => s
  | some x =>
    match s.run x.run, x.token with
    | some r, some t =>
      let g := s.graphOf r
      let rec0 := r.record (g.node x.node)
      let d := s.holdRecord x
      let u := s.engineStart k
      match r.outBuf g x with
      | none => u.endTask k 0x11 0x23 10 []
      | some (b, base, slot) =>
        match s.holdError x.fn slot rec0 d t.rows t.cols with
        | some e => u.endTask k e.1 e.2 10 []
        | none =>
          let cs := List.range t.cols
          let ranges := cs.map (fun c => (s.rd fCVC_FN_GRANT_BASE x.fn + bitsAt d (32 + 16 * c) 0 48, fieldAt d (40 + 16 * c) 4))
          let total := (ranges.map Prod.snd).foldl (· + ·) 0
          let segs := [(base, 32 * t.cols), (base + 4096, 4096 * total)]
          match u.physSegs x.fn .write (pagedSegs segs) with
          | .error sub => ((u.countFault x.fn).jobFault 10 x.fn (0x22, sub)).endTask k 0x22 sub 10 []
          | .ok _ =>
            u.accept { fn := x.fn, kind := .holdRead, entry := none, task := some k, ranges := ranges, host := false, segs := segs,
                       fua := false, locks := ranges.map (fun q => ⟨q.1, q.1 + q.2, false⟩), staging := 0, stage := .fifo,
                       fetches := [], lost := 0, errs := 0, status := 0, sub := 0, orphan := false, held := some (x.run, b) }
    | _, _ => s

/-- A VOLUME entry has been handed on and not been accepted: it is accepted before a HOLD_READ task that reaches CVC with it
(R400). -/
def State.volAtHand (s : State) : Bool :=
  s.qmg.queues.any (fun (kq : Nat × Queue) => kq.2.cls = 2 && kq.2.fetched.any (fun e => e.stage = .handed))

def execHoldReadTask (k : Nat) (s : State) : Res :=
  steady (s.cvcAwake && s.starts 10 && s.cvc.fw.isNone && !s.volAtHand
      && (s.task k).any (fun x => x.state = .pegged && x.place = .cvc && !s.runStopping x)) (fun s => s.holdTask k) s

/-! ### ADMISSION (R376, R381) -/

/-- The command that is admitted next: the FIFO head, or one whose function has room for it in its reservation. -/
def State.admitNext (s : State) : Option (Nat × VolCmd) :=
  let fifo := s.cvc.cmds.filter (fun nc => nc.2.stage = .fifo)
  let fits (c : VolCmd) : Bool := s.mayAdmit c.fn c.locks.length && decide (s.stagingUsed + c.staging ≤ 268435456)
  match fifo with
  | [] => none
  | h :: rest =>
    if fits h.2 then some h
    else rest.find? (fun nc => decide (s.locksHeld nc.2.fn + nc.2.locks.length ≤ s.rd fCVC_FN_RESV nc.2.fn) && fits nc.2
      && !fifo.any (fun md => decide (md.1 < nc.1) && conflict md.2 nc.2))

/-- Admit a command: its pages in HBM are translated now, and the translation is held. -/
def State.admitReady (s : State) (n : Nat) (c : VolCmd) : State :=
  if c.host then s.setVcmd n { c with stage := .admitted }
  else
    match s.physSegs c.fn (if c.kind = .write then .read else .write) (pagedSegs c.segs) with
    | .error sub => ((s.countFault c.fn).setVcmd n (c.failed 0x22 sub)).finishVol n
    | .ok segs => s.setVcmd n { c with stage := .admitted, segs := segs }

def execAdmission (s : State) : Res :=
  steady s.cvcAwake
    (fun s => (match s.admitNext with
      | none => s
      | some nc => s.admitReady nc.1 nc.2).pump) s

/-! ### Lost members (R387) -/

/-- A read of a fetch cannot be served by its drive: reconstruct, or fail with `sub`. -/
def State.refetch (s : State) (n i sub : Nat) (repair : Bool) (port : Nat) : State :=
  match s.vcmd n, s.cvc.vol with
  | some c, some v =>
    match c.fetches[i]? with
    | none => s
    | some f =>
      let st := v.stripeAt f.block
      let others := v.missing.any (fun m => m ≠ f.member && (v.portAt s.rebuildPos m st).isNone)
      if f.recon ∨ !v.parity ∨ others ∨ c.kind = .resync then s.setVcmd n (c.failed 0x40 sub)
      else if v.awaits st then s.setVcmd n (c.failed 0x40 0x05)
      else
        let f' := { f with recon := true, repair := repair }
        (s.setVcmd n { c with fetches := c.fetches.set i f', lost := c.lost ||| portBit port }).issueFetch n i s.rebuildPos v f'
  | _, _ => s

/-- The port that SPECIFIC names for a block of a member (R376): the member's own, also where the spare held the block. -/
def State.lostPort (s : State) (port member : Nat) : Nat :=
  match s.cvc.vol with
  | some v => v.ports.getD member port
  | none => port

/-- The drive commands on a port are given up: reads are reconstructed, writes absorbed. -/
def State.abandonPort (s : State) (port sub : Nat) : State :=
  let gone := s.cvc.drv.filter (fun d => d.port = port)
  let u := { s with cvc := { s.cvc with drv := s.cvc.drv.filter (fun d => d.port ≠ port) } }
  let w := gone.foldl (fun s d =>
    match d.item with
    | some i => if (s.vcmd d.cmd).any (fun c => (c.fetches[i]?).any (fun f => f.recon && f.member = d.member)) then s
        else s.refetch d.cmd i sub false (s.lostPort port d.member)
    | none =>
      match s.vcmd d.cmd with
      | none => s
      | some c =>
        if c.internal ∨ s.volState = 4 then s.setVcmd d.cmd (c.failed 0x40 sub)
        else if c.kind = .flush ∨ c.kind = .deallocate then s
        else s.noteLost d.cmd (portBit (s.lostPort port d.member))) u
  ((gone.map DriveCmd.cmd).foldl State.stepVol w).pump

/-- The drive on a port is lost: its member goes missing, or its spare fails (R387, R388). -/
def State.memberLost (s : State) (port sub : Nat) : State :=
  match s.cvc.vol with
  | none => s.abandonPort port sub
  | some v =>
    if v.spare = some port then
      let w := { v with spare := none, rebuild := none }
      let u := (s.setVol (some w)).setRole port 0 0
      (if v.rebuild.isSome then u.setVolState 2 else u).abandonPort port sub
    else
      match (List.range v.members).find? (fun m => v.ports.getD m 8 = port && !v.missing.contains m) with
      | none => s.abandonPort port sub
      | some m =>
        let w := { v with missing := v.missing ++ [m] }
        let u := (s.wr fCVC_VOL_STATUS_MISSING 0 (withBit (s.rd fCVC_VOL_STATUS_MISSING 0) port)).setVol (some w)
        if v.parity ∧ v.missing = [] then ((u.setVolState 2).startRebuild w).abandonPort port sub
        else ((u.setVol (some { w with rebuild := none })).setVolState 4).abandonPort port sub

/-! ### DRIVE_COMPLETION (R386) -/

/-- Blocks that a read has brought. -/
def putBlocks (ps : NMap (List Byte)) (m b : Nat) (d : List Byte) : Nat → NMap (List Byte)
  | 0 => ps
  | n + 1 => putBlocks (put ps (partKey m b) (d.take 4096)) m (b + 1) (d.drop 4096) n

/-- A drive reported an error: it is counted, logged and raised. -/
def State.driveError (s : State) (port : Nat) : State :=
  let u := s.bumpSat fDSP_PORT_ERRORS port 1
  u.fault 11 { u.entry 11 1 with status := 0x40, unit := port, cause := 3 }

/-- A drive command of a volume command has ended. -/
def State.driveDone (s : State) (d : DriveCmd) (status : Nat) (data : List Byte) : State :=
  let u := ({ s with cvc := { s.cvc with drv := s.cvc.drv.filter (fun x => x.tag ≠ d.tag) } }).bumpWrap fDSP_PORT_COMMANDS d.port 1
  let v := match u.vcmd d.cmd with
    | none => u
    | some c =>
      if status = 0 then
        match d.item with
        | some i => u.setVcmd d.cmd { c with fetches := match c.fetches[i]? with
            | some f => c.fetches.set i { f with parts := putBlocks f.parts d.member d.block data d.count }
            | none => c.fetches }
        | none => u
      else
        let w := (u.setVcmd d.cmd { c with errs := c.errs ||| portBit d.port }).driveError d.port
        match d.item with
        | some i => if (c.fetches[i]?).any (fun (f : Fetch) => f.recon && f.member = d.member) then w
            else w.refetch d.cmd i 0x01 true d.port
        | none => match w.vcmd d.cmd with
          | some c => w.setVcmd d.cmd (c.failed 0x40 0x01)
          | none => w
  (v.stepVol d.cmd).pump

/-- The end of a DRIVE_ADMIN (R395). -/
def State.driveAdminEnd (s : State) (j : AdminJob) (status sub moved specific : Nat) : State :=
  ({ s with cvc := { s.cvc with admin := none } }).complete ⟨0, 0, j.entry⟩ status sub moved specific

/-- Admin opcodes that bring data to the host, and that take data from it. -/
def adminReads (opc : Nat) : Bool := opc = 0x06 || opc = 0x02 || opc = 0x0A
def adminSends (opc : Nat) : Bool := opc = 0x09 || opc = 0x11

def State.adminDone (s : State) (j : AdminJob) (status dword0 : Nat) (data : List Byte) : State :=
  if status = 0 then
    let d := data.take j.bytes
    let u := if adminReads j.opcode ∧ d ≠ [] then s.hostPut 0 j.addr d else s
    u.driveAdminEnd j 0 0 (if adminReads j.opcode then d.length else if adminSends j.opcode then j.bytes else 0) (lowBits 32 dword0)
  else (s.driveError j.port).driveAdminEnd j 0x40 0x10 0 (status % 2 ^ 15)

/-- DRIVE_COMPLETION: a read must bring the bytes of its blocks. -/
def State.driveCompletion (s : State) (tag status dword0 : Nat) (data : List Byte) : State :=
  match s.cvc.drv.find? (fun d => d.tag = tag), s.cvc.admin with
  | some d, _ => if status = 0 ∧ d.op = 2 ∧ data.length ≠ 4096 * d.count then s else s.driveDone d status data
  | none, some j => if j.tag = tag then s.adminDone j status dword0 data else s
  | none, none => s

/-- The drive ports answer: DSP is ready, or a soft reset of it waits for CVC to be idle (R76). -/
def State.dspActs (s : State) : Bool := s.running && (s.ready 11 || s.softPending.contains 11)

/-- A drive command ends in step 4 of a warm reset: nothing of it is used (R73). -/
def State.driveGone (s : State) (tag : Nat) : State :=
  { s with cvc := { s.cvc with
      drv := s.cvc.drv.filter (fun (d : DriveCmd) => d.tag ≠ tag),
      admin := if s.cvc.admin.any (fun j => j.tag = tag) then none else s.cvc.admin } }

def execDriveCompletion (tag status dword0 : Nat) (data : List Byte) (s : State) : Res :=
  steady ((s.dspActs || s.board.phase = .warm) && s.board.pwrGood)
    (fun s => if s.running then s.driveCompletion tag status dword0 data else s.driveGone tag) s

/-! ### DRIVE_TIMEOUT (R386) -/

def State.driveLimit (s : State) : Nat := ticksOfMs (s.setting1 fCVC_DRIVE_TIMEOUT_MS 0)

/-- Reissue every outstanding command of a port, once. -/
def State.reissue (s : State) (port : Nat) : State :=
  let u := { s with cvc := { s.cvc with drv := s.cvc.drv.map (fun (d : DriveCmd) =>
    if d.port = port then { d with again := true, since := s.clk.tsu } else d) } }
  (u.cvc.drv.filter (fun (d : DriveCmd) => d.port = port)).foldl (fun (s : State) (d : DriveCmd) => s.emit
    (.nvme port d.op (s.lba port d.block) (if (s.drive port).lba512 then 8 * d.count else d.count) d.tag d.fua d.data)) u

def State.driveTimeout (s : State) (tag : Nat) (reinit : Bool) : State :=
  match s.cvc.drv.find? (fun d => d.tag = tag), s.cvc.admin with
  | some d, _ =>
    if s.clk.tsu < d.since + s.driveLimit then s
    else
      let u := (s.bumpSat fCVC_MEDIA_TIMEOUTS 0 1).bumpSat fDSP_PORT_TIMEOUTS d.port 1
      let v := u.fault 11 { u.entry 11 1 with status := 0x40, sub := 0x03, unit := d.port, cause := 3 }
      if d.again then v.memberLost d.port 0x03 else if !reinit then v.memberLost d.port 0x02 else v.reissue d.port
  | none, some j =>
    if j.tag = tag ∧ j.since + s.driveLimit ≤ s.clk.tsu then
      ((s.bumpSat fCVC_MEDIA_TIMEOUTS 0 1).bumpSat fDSP_PORT_TIMEOUTS j.port 1 |>.raise 11 3).driveAdminEnd j 0x40 0x03 0 0
    else s
  | none, none => s

def execDriveTimeout (tag : Nat) (reinit : Bool) (s : State) : Res :=
  steady s.dspActs (fun s => s.driveTimeout tag reinit) s

/-! ### Rebuild and resync (R388, R389) -/

/-- The command of a stripe that CVC works on by itself; it counts as a WRITE accepted now. -/
def internalCmd (v : Volume) (kind : VolKind) (st : Nat) : VolCmd :=
  { fn := 0, kind := kind, entry := none, task := none, ranges := [(st * v.stripeBlocks, v.stripeBlocks)], host := false, segs := [],
    fua := false, locks := [⟨st * v.stripeBlocks, (st + 1) * v.stripeBlocks, true⟩], staging := 0, stage := .admitted, fetches := [],
    lost := 0, errs := 0, status := 0, sub := 0, orphan := false, held := none }

/-- Ticks between stripes of the rebuild at `RATE_MBS`. -/
def State.rebuildSpacing (s : State) (v : Volume) : Nat :=
  let r := s.setting fCVC_REBUILD_RATE_MBS 0
  if r = 0 then 0 else (4096 * v.chunk * 800 + r - 1) / r

def State.internalBusy (s : State) (kind : VolKind) : Bool := s.cvc.cmds.any (fun nc => nc.2.kind = kind)

def execRebuildStripe (s : State) : Res :=
  steady (s.cvcAwake && s.ready 10 && s.volState = 3 && !s.internalBusy .rebuild)
    (fun s => match s.cvc.vol with
      | none => s
      | some v =>
        if s.clk.tsu < s.cvc.rebuildAt + s.rebuildSpacing v then s
        else
          let u := { s with cvc := { s.cvc with rebuildAt := s.clk.tsu } }
          (u.accept (internalCmd v .rebuild s.rebuildPos)).pump) s

def execResyncStripe (s : State) : Res :=
  steady (s.cvcAwake && s.ready 10 && !s.internalBusy .resync)
    (fun s => match s.cvc.vol with
      | none => s
      | some v =>
        match v.resync, v.missing with
        | (st, _) :: _, [] => (s.accept (internalCmd v .resync st)).pump
        | _, _ => s) s

/-! ### Volume operations (R369, R371) -/

/-- An operation is refused: LAST_RESULT and an entry in CVC's log. -/
def State.opRefused (s : State) : State := (s.wr fCVC_VOL_STATUS_LAST_RESULT 0 2).notice 10 0xFFFF

def State.opDone (s : State) : State := s.wr fCVC_VOL_STATUS_LAST_RESULT 0 1

def State.portReady (s : State) (p : Nat) : Bool := s.rd fDSP_PORT_STATE p = 3

def memberPortFields : List Field :=
  [fCVC_VOL_CFG_MEMBER_PORT_0, fCVC_VOL_CFG_MEMBER_PORT_1, fCVC_VOL_CFG_MEMBER_PORT_2, fCVC_VOL_CFG_MEMBER_PORT_3,
   fCVC_VOL_CFG_MEMBER_PORT_4, fCVC_VOL_CFG_MEMBER_PORT_5, fCVC_VOL_CFG_MEMBER_PORT_6, fCVC_VOL_CFG_MEMBER_PORT_7]

/-- Stripes of a volume whose smallest member has `least` blocks (R369). -/
def stripesFor (least chunkLog : Nat) : Nat := (least - 256) / 2 ^ chunkLog

/-- The volume that `CVC_VOL_CFG` describes. -/
def State.cfgVolume (s : State) : Volume :=
  let n := s.setting fCVC_VOL_CFG_MEMBERS 0
  let ports := (memberPortFields.take n).map (fun f => s.setting f 0)
  let least := (ports.map (fun p => (s.drive p).blocks)).foldl min ((ports.map (fun p => (s.drive p).blocks)).headD 0)
  let log := s.setting fCVC_VOL_CFG_CHUNK_LOG2 0
  { members := n, parity := s.setting fCVC_VOL_CFG_PARITY 0 = 1, chunkLog := log, stripes := stripesFor least log, ports := ports,
    spare := if s.setting fCVC_VOL_CFG_SPARE_EN 0 = 1 then some (s.setting fCVC_VOL_CFG_SPARE_PORT 0) else none,
    missing := [], rebuild := none, resync := [] }

/-- No element stands twice. -/
def distinct : List Nat → Bool
  | [] => true
  | x :: rest => !rest.contains x && distinct rest

/-- The capacity that a spare needs (R369). -/
def Volume.spareFits (v : Volume) (blocks : Nat) : Bool := decide (256 + v.stripes * v.chunk ≤ blocks)

/-- CREATE is refused unless R366 and R371 hold. -/
def State.createBad (s : State) (v : Volume) : Bool :=
  let all := v.ports ++ v.spare.toList
  s.volState ≠ 0 || s.cvc.vol.isSome || v.members = 0 || decide (8 < v.members) || (v.parity && decide (v.members < 3)) || decide (v.chunkLog < 2)
    || decide (8 < v.chunkLog) || !distinct all || all.any (fun p => !s.portReady p || s.rd fDSP_PORT_ROLE p ≠ 0)
    || (v.parity && v.ports.any (fun p => !(s.drive p).zeroes)) || v.spare.any (fun p => !v.spareFits (s.drive p).blocks)

/-- The volume `v` exists: its identity and registers, deallocated members, fresh labels, and the roles of its ports. -/
def State.volumeCreated (s : State) (v : Volume) : State :=
  let u := (((s.wr fCVC_VOL_ID_VALUE 0 s.clk.tsu).wr fCVC_VOL_STATUS_GENERATION 0 1).wr fCVC_VOL_BLOCKS_VALUE 0 v.blocks).setVol (some v)
  let d := v.ports.foldl (fun s p => s.sendPlain p 9 0 (s.drive p).blocks []) u
  let w := (List.range v.members).foldl (fun s m => s.setRole (v.ports.getD m 0) 1 m) (d.writeLabels v 256)
  ((match v.spare with | some p => w.setRole p 2 0 | none => w).wr fCVC_VOL_STATUS_MISSING 0 0).setVolState 1

def State.createVolume (s : State) : State :=
  let v := s.cfgVolume
  if s.createBad v then s.opRefused else (s.volumeCreated v).opDone

def execCreate (s : State) : Res := steady (s.reaches 0 && s.ready 10) (fun s => (s.atRegion 10 0x88).createVolume) s

/-- A grant is enabled. -/
def State.anyGrant (s : State) : Bool := (List.range 1025).any (fun f => s.rd fCVC_FN_ENABLE f = 1)

/-- The volume `v` is no more: block 0 of its drives is cleared, their ports have no role, and its commands are gone. -/
def State.volumeDestroyed (s : State) (v : Volume) : State :=
  let ports := ((List.range v.members).filter (fun m => !v.missing.contains m)).map (fun m => v.ports.getD m 0) ++ v.spare.toList
  let z := ports.foldl (fun s p => s.sendPlain p 1 0 1 (List.replicate 4096 0)) s
  let u := ((List.range 8).filter (fun p => z.rd fDSP_PORT_ROLE p = 1 || z.rd fDSP_PORT_ROLE p = 2)).foldl
    (fun (s : State) p => s.setRole p 0 0) z
  let w := { u.setVol none with cvc := { (u.setVol none).cvc with cmds := [], drv := [] } }
  ((((w.wr fCVC_VOL_BLOCKS_VALUE 0 0).wr fCVC_VOL_ID_VALUE 0 0).wr fCVC_VOL_STATUS_GENERATION 0 0).wr
    fCVC_VOL_STATUS_MISSING 0 0).setResync false |>.setVolState 0

def State.destroyVolume (s : State) : State :=
  if s.anyGrant ∨ s.cvc.cmds.any (fun nc => !nc.2.internal) then s.opRefused
  else
    match s.cvc.vol with
    | none => s.opDone
    | some v => (s.volumeDestroyed v).opDone

def execDestroy (s : State) : Res := steady (s.reaches 0 && s.ready 10) (fun s => (s.atRegion 10 0x88).destroyVolume) s

def State.addSpare (s : State) (p : Nat) : State :=
  match s.cvc.vol with
  | none => s.opRefused
  | some v =>
    if v.spare.isSome ∨ !s.portReady p ∨ s.rd fDSP_PORT_ROLE p = 1 ∨ s.rd fDSP_PORT_ROLE p = 2 ∨ !v.spareFits (s.drive p).blocks
        ∨ 8 < v.members + 1 then s.opRefused
    else
      let w := { v with spare := some p }
      let u := (((s.sendPlain p 1 0 256 (List.replicate (4096 * 256) 0)).membership w).setRole p 2 0).opDone
      if u.volState = 2 then u.startRebuild w else u

def execAddSpare (p : Nat) (s : State) : Res := steady (s.reaches 0 && s.ready 10) (fun s => (s.atRegion 10 0x88).addSpare p) s

def State.removeSpare (s : State) : State :=
  match s.cvc.vol with
  | none => s.opRefused
  | some v =>
    match v.spare with
    | none => s.opRefused
    | some p =>
      if s.volState = 3 then s.opRefused
      else (((s.sendPlain p 1 0 1 (List.replicate 4096 0)).membership { v with spare := none }).setRole p 0 0).opDone

def execRemoveSpare (s : State) : Res := steady (s.reaches 0 && s.ready 10) (fun s => (s.atRegion 10 0x88).removeSpare) s

/-! ### Reservations (R382, R384) -/

/-- A reservation that is refused (R31). -/
def State.resvRefused (s : State) (fn : Nat) : State := s.fault 10 { s.entry 10 5 with fn := some fn, cause := 4 }

/-- A write of `CVC_FN[f].RESV`, refused above the sum of 512. -/
def State.writeLockResv (s : State) (fn v : Nat) : State :=
  if s.lockResvSum - s.rd fCVC_FN_RESV fn + v ≤ 512 then s.wr fCVC_FN_RESV fn v else s.resvRefused fn

/-- A write of `CVC_FN[f].CMD_RESV`, refused above the sum of 2,048. -/
def State.writeCmdResv (s : State) (fn v : Nat) : State :=
  if s.cmdResvSum - s.rd fCVC_FN_CMD_RESV fn + v ≤ 2048 then s.wr fCVC_FN_CMD_RESV fn v else s.resvRefused fn

def execCvcFnResv (fn v : Nat) (s : State) : Res :=
  steady (s.reaches 0 && s.ready 10 && decide (fn ≤ 1024))
    (fun s => (s.atRegion 10 (0x10010 + 32 * fn)).expertWrite 10 (fun s => s.writeLockResv fn (lowBits 10 v))) s

def execCmdResv (fn v : Nat) (s : State) : Res :=
  steady (s.reaches 0 && s.ready 10 && decide (fn ≤ 1024))
    (fun s => (s.atRegion 10 (0x10018 + 32 * fn)).expertWrite 10 (fun s => s.writeCmdResv fn (lowBits 12 v))) s

end Sys2Proof.Machine
end

