-- ==== Sys2Proof/Machine/Drives.lean ====
section
/-! DEFINITION. Handing entries on (spec/06_queues_and_rings.md R141, R142, R154), the drive ports, the drive admin
commands and the module's power states (spec/14_column_volume.md R390 to R399). -/

namespace Sys2Proof.Machine

/-! ### ENTRY_HAND_ON (R141, R142, R157) -/

/-- The power state of the module. -/
def State.psState (s : State) : Nat := s.rd fCVC_PS_STATUS_STATE 0

/-- The PF0-only admin commands with a reserved field set (R394, R396). -/
def adminReserved (l : Line) : Bool :=
  if entryOpcode l = 0x20 then entryBits l 4 3 5 ≠ 0 || entryNonzero l 6 8 || entryNonzero l 48 60
  else entryBits l 5 1 7 ≠ 0 || entryBits l 6 3 5 ≠ 0 || entryNonzero l 7 60

/-- A PF0-only opcode that a VF issued: its failure (R154, R157). -/
def pf0Only (fn : Nat) (l : Line) : Option (Nat × Nat) :=
  if fn ≠ 0 ∧ (entryOpcode l = 0x20 ∨ entryOpcode l = 0x21) then
    if adminReserved l then some (0x10, 0x01) else some (0x23, 0x01)
  else none

/-- The executing subsystem can take an entry of the class now (R142, R384, R397, R399). -/
def State.takes (s : State) (fn cls : Nat) (l : Line) : Bool :=
  match cls with
  | 0 => true
  | 1 => s.ready 3
  | 2 => s.cvcAwake && s.cvc.fw.isNone && !s.softPending.contains 10 && !s.softPending.contains 11 && s.mayCommand fn
  | _ => s.ready 7 && s.psState = 0 && ((s.moveError fn l).isSome || (s.moveChannel fn l).isSome)

/-- Hand on the first entry of a queue that may go, or complete it with its failure. -/
def State.handOn (s : State) (fn qid : Nat) : State :=
  match s.queue fn qid with
  | none => s
  | some q =>
    if q.disabling then s
    else
      match q.nextHandOn with
      | none => s
      | some e =>
        let r : Ref := ⟨fn, qid, e.tag⟩
        match (handOnError q.cls e.line).orElse (fun _ => if q.cls = 0 then pf0Only fn e.line else none) with
        | some x => s.complete r x.1 x.2 0 0
        | none => if s.takes fn q.cls e.line then s.setStage r .handed else s

def execEntryHandOn (fn qid : Nat) (s : State) : Res := steady (s.running && s.ready 2) (fun s => s.handOn fn qid) s

/-! ### DONE (R83) -/

def State.mastFailed (s : State) (m : Nat) : Bool := (s.rd fMGT_FAIL_MAP_MAST_MAST_FAIL 0).testBit m
def State.stackFailed (s : State) (st : Nat) : Bool := (s.rd fMGT_FAIL_MAP_MEM_STACK_FAIL 0).testBit st

def State.drvHere (s : State) (p : Nat) : Bool := s.board.drvPresent.testBit p

/-- A present port whose outcome is known: ready or failed, or of a drive that the device does not use. -/
def State.portSettled (s : State) (p : Nat) : Bool :=
  !s.drvHere p || [3, 5, 6, 7].contains (s.rd fDSP_PORT_STATE p)

/-- Every mast, stack and present port is ready or failed. -/
def State.allSettled (s : State) : Bool :=
  (List.range 32).all (fun m => s.mastReady m || s.mastFailed m) && (List.range 8).all (fun st => s.stackReady st || s.stackFailed st)
    && (List.range 8).all s.portSettled

/-- Some mast, stack or port has failed. -/
def State.someFailed (s : State) : Bool :=
  (List.range 32).any s.mastFailed || (List.range 8).any s.stackFailed || (List.range 8).any (fun p => s.rd fDSP_PORT_STATE p = 5)

/-- Milliseconds since `PWR_GOOD` or reset release, saturating (`MGT_BRINGUP_STATUS.ELAPSED_MS`). -/
def State.elapsedMs (s : State) : Nat := min 65535 ((s.clk.now - s.clk.releaseAt) / ticksOfMs 1)

/-- BRINGUP_DONE: DONE with its interrupt, DEGRADED, the time, and the staging stack (R83, R415). The spec names no cause
bit for DONE: bit [2], the first of a subsystem's own. -/
def State.checkDone (s : State) : State :=
  if s.rd fMGT_BRINGUP_STATUS_DONE 0 = 1 ∨ !s.allSettled then s
  else
    let u := ((s.wr fMGT_BRINGUP_STATUS_DONE 0 1).wr fMGT_BRINGUP_STATUS_DEGRADED 0 (bit s.someFailed)).wr
      fMGT_BRINGUP_STATUS_ELAPSED_MS 0 s.elapsedMs
    let w := match (List.range 8).find? s.stackReady with
      | some st => u.wr fHMC_STACK_STAGING st 1
      | none => u
    w.raise 16 2

/-! ### Drive ports (R63, R390, R391) -/

/-- Set a port's STATE; every change raises PORT_CHANGE. -/
def State.setPort (s : State) (p st : Nat) : State :=
  if s.rd fDSP_PORT_STATE p = st then s else (s.wr fDSP_PORT_STATE p st).raise 11 2

/-- `DRV_PERST_N[p]` and the port's transmitters. -/
def State.drvPerst (s : State) (p : Nat) (high : Bool) : State :=
  { s with board := { s.board with drvPerstN := if high then withBit s.board.drvPerstN p else withoutBit s.board.drvPerstN p } }

/-- What the port showed of its drive is gone. -/
def State.blankPort (s : State) (p : Nat) : State :=
  [fDSP_PORT_SPEED, fDSP_PORT_WIDTH, fDSP_PORT_VWC, fDSP_PORT_LBA512, fDSP_PORT_IO_QUEUES, fDSP_PORT_MTFA, fDSP_PORT_BLOCKS,
   fDSP_PORT_DRIVE_PS].foldl (fun s f => s.wr f p 0) s

/-- The drive of a port is lost to the device: the port shows nothing of it and its member goes missing (R387). A missing
member keeps its ROLE and INDEX. -/
def State.shutPort (s : State) (p st : Nat) : State :=
  let w := (((s.drvPerst p false).setPort p st).memberLost p 0x02).blankPort p
  let u := if w.rd fDSP_PORT_ROLE p = 1 then w else w.setRole p 0 0
  { u with cvc := { u.cvc with drives := del u.cvc.drives p } }

/-- DRIVE_REMOVAL: the presence pin rises. -/
def State.driveRemoval (s : State) (p : Nat) : State :=
  let u := { s with board := { s.board with drvPresent := withoutBit s.board.drvPresent p } }
  if u.running then (u.shutPort p (if u.rd fDSP_PORT_DISABLE p = 1 then 7 else 0)).checkDone else u.drvPerst p false

def execDriveRemoval (p : Nat) (s : State) : Res := steady (decide (p < 8) && s.drvHere p) (fun s => s.driveRemoval p) s

/-- The time at which `DRV_PERST_N[p]` is released in bring-up (R391). -/
def State.drvReleaseAt (s : State) (p : Nat) : Nat := s.clk.releaseAt + ticksOfMs (500 + 50 * p)

/-- A present drive is trained as a drive that came later; while `PERST_N` is low it waits (R58). -/
def State.trainArrived (s : State) (p : Nat) : State := if s.board.perstN then (s.drvPerst p true).setPort p 1 else s

/-- DRIVE_INSERTION: the presence pin has stayed low for 100 ms; before the port's release in bring-up the drive waits
for that. -/
def State.driveInsertion (s : State) (p : Nat) : State :=
  let u := { s with board := { s.board with drvPresent := withBit s.board.drvPresent p } }
  if u.running ∧ u.ready 11 ∧ u.rd fDSP_PORT_DISABLE p = 0 ∧ u.drvReleaseAt p ≤ u.clk.now then u.trainArrived p else u

def execDriveInsertion (p : Nat) (s : State) : Res := steady (decide (p < 8) && !s.drvHere p) (fun s => s.driveInsertion p) s

/-- RETRAIN: the link trains again; the outstanding commands stay, under R386. -/
def State.retrain (s : State) (p : Nat) : State := if s.portReady p then s.setPort p 1 else s

def execRetrain (p : Nat) (s : State) : Res :=
  steady (s.reaches 0 && s.ready 11 && decide (p < 8)) (fun s => (s.atRegion 11 (0x10020 + 64 * p)).retrain p) s

/-- DISABLE: the port is held in reset; its member or spare is lost. -/
def State.disablePort (s : State) (p : Nat) : State :=
  if s.rd fDSP_PORT_DISABLE p = 1 then s else ((s.wr fDSP_PORT_DISABLE p 1).shutPort p 7).checkDone

def execDisable (p : Nat) (s : State) : Res :=
  steady (s.reaches 0 && s.ready 11 && decide (p < 8)) (fun s => (s.atRegion 11 (0x10020 + 64 * p)).disablePort p) s

/-- DISABLE_CLEAR: a present drive is handled as one inserted now (R390). -/
def State.enablePort (s : State) (p : Nat) : State :=
  if s.rd fDSP_PORT_DISABLE p = 0 then s
  else
    let u := (s.wr fDSP_PORT_DISABLE p 0).setPort p 0
    if u.drvHere p then u.trainArrived p else u

def execDisableClear (p : Nat) (s : State) : Res :=
  steady (s.reaches 0 && s.ready 11 && decide (p < 8)) (fun s => (s.atRegion 11 (0x10020 + 64 * p)).enablePort p) s

/-! ### DRIVE_ADMIN (R394, R395) -/

/-- Opcodes that DRIVE_ADMIN accepts. -/
def driveOpcode (op : Nat) : Bool := [0x06, 0x02, 0x0A, 0x09, 0x80, 0x11, 0x10].contains op

/-- The feature or commit action is refused. -/
def driveActionBad (l : Line) : Bool :=
  (entryBytes l 5 1 = 0x09 && [0x02, 0x07, 0x08, 0x09, 0x0C].contains (entryBytes l 12 1))
    || (entryBytes l 5 1 = 0x10 && 1 < entryBits l 12 3 3)

/-- DATA_BYTES or DATA_ADDR breaks R394. -/
def driveDataBad (l : Line) : Bool :=
  let n := entryBytes l 44 4
  decide (1048576 < n) || n % 4 ≠ 0 || entryBytes l 36 8 % 4096 ≠ 0 || (n = 0 && entryBytes l 36 8 ≠ 0)

/-- The failure of a DRIVE_ADMIN, in the order of R395. -/
def State.driveAdminError (s : State) (l : Line) : Option (Nat × Nat) :=
  let p := entryBits l 4 0 3
  if adminReserved l then some (0x10, 0x01)
  else if !s.portReady p then some (0x10, 0x90)
  else if !driveOpcode (entryBytes l 5 1) then some (0x10, 0x91)
  else if driveActionBad l then some (0x10, 0x92)
  else if entryBytes l 5 1 = 0x80 ∧ (s.rd fDSP_PORT_ROLE p = 1 ∨ s.rd fDSP_PORT_ROLE p = 2) then some (0x23, 0x06)
  else if driveDataBad l then some (0x11, 0x22)
  else none

/-- Pass an accepted command on: its data, where it sends some, is read from host memory now. -/
def State.driveAdminSend (s : State) (e : Entry) : State :=
  let l := e.line
  let p := entryBits l 4 0 3
  let op := entryBytes l 5 1
  let n := entryBytes l 44 4
  let a := entryBytes l 36 8
  let cdw := leBytes 24 (entryBytes l 12 24)
  let sends := adminSends op && n ≠ 0
  let data := if sends then s.hostRead a n else []
  let u := if sends then s.hostGet 0 a n else s
  let v := ({ u with cvc := { u.cvc with nextTag := u.cvc.nextTag + 1, admin := some ⟨e.tag, u.cvc.nextTag, p, op, a, n, u.clk.tsu⟩ } }).setStage
    ⟨0, 0, e.tag⟩ .started
  v.emit (.nvmeAdmin p op (entryBytes l 8 4) u.cvc.nextTag cdw data)

def State.driveAdmin (s : State) : State :=
  match s.adminNext 0 0x20 with
  | none => s
  | some e =>
    match s.driveAdminError e.line with
    | some x => s.complete ⟨0, 0, e.tag⟩ x.1 x.2 0 0
    | none => s.driveAdminSend e

def execDriveAdmin (s : State) : Res :=
  steady (s.adminReady 0 0x20 && s.ready 10 && s.cvc.admin.isNone) State.driveAdmin s

/-! ### FW_ACTIVATE (R396, R397) -/

/-- Commands that count as outstanding: those in CVC, with those whose completions find no room, and VOLUME entries that
QMG has fetched. -/
def State.volOutstanding (s : State) : Bool :=
  s.cvc.cmds.any (fun (nc : Nat × VolCmd) => !nc.2.internal && !nc.2.orphan)
    || s.qmg.queues.any (fun (kq : Nat × Queue) => kq.2.cls = 2 && !(kq.2.fetched.isEmpty && kq.2.waiting.isEmpty))
    || s.bsn.tasks.any (fun (kt : Nat × Task) => kt.2.place = .cvc && kt.2.state ≠ .ending)

/-- Commands that are still in CVC and that an activation ends. -/
def State.fwWaits (s : State) : Bool := s.cvc.cmds.any (fun (nc : Nat × VolCmd) => !nc.2.internal && !nc.2.orphan)

/-- Step 3: commands in CVC end with ABORTED_ACTIVATION, those at drives when their drive commands end; entries that
were handed on and HOLD_READ tasks that CVC has not taken up end too. -/
def State.abortForFw (s : State) : State :=
  let ns := (s.cvc.cmds.filter (fun (nc : Nat × VolCmd) => !nc.2.internal && !nc.2.orphan)).map Prod.fst
  let u := ns.foldl (fun s n => match s.vcmd n with
    | none => s
    | some c =>
      let v := s.setVcmd n (c.failed 0x03 0)
      if v.atDrives n then v else v.finishVol n) s
  let refs := ((u.qmg.queues.filter (fun (kq : Nat × Queue) => kq.2.cls = 2)).map (fun (kq : Nat × Queue) =>
    (kq.2.fetched.filter (fun e => e.stage = .handed)).map (fun e => (⟨kq.1 / 8192, kq.1 % 8192, e.tag⟩ : Ref)))).flatten
  let v := refs.foldl (fun s r => s.complete r 0x03 0 0 0) u
  let ks := (v.bsn.tasks.filter (fun (kt : Nat × Task) => kt.2.place = .cvc && kt.2.state = .pegged)).map Prod.fst
  ks.foldl (fun s k => s.killTask k 0x03 0) v

/-- Step 4 for one port: Firmware Commit, action 0b011, which the drive answers. -/
def State.commitPort (s : State) (slot p : Nat) : State :=
  ({ s with cvc := { s.cvc with nextTag := s.cvc.nextTag + 1 } }).emit
    (.nvmeAdmin p 0x10 0 s.cvc.nextTag (leBytes 4 (slot + 24) ++ leBytes 20 0) [])

/-- Steps 4 and 5: each READY port of PORTS is activated where the drive returns (`ok`); a port that fails is lost. -/
def State.fwRun (s : State) (j : FwJob) (ok : Nat) : State :=
  let ports := (List.range 8).filter (fun p => j.ports.testBit p)
  let good (p : Nat) : Bool := s.portReady p && ok.testBit p
  let u := ports.foldl (fun s p => if s.portReady p then s.commitPort j.slot p else s) s
  let v := (ports.filter (fun p => s.portReady p && !ok.testBit p)).foldl (fun s p => (s.setPort p 5).memberLost p 0x02) u
  let done := (ports.filter good).foldl withBit 0
  let bad := (ports.filter (fun p => !good p)).foldl withBit 0
  let w := { v with cvc := { v.cvc with fw := none } }
  if bad = 0 then w.complete ⟨0, 0, j.tag⟩ 0 0 0 done else w.complete ⟨0, 0, j.tag⟩ 0x40 0x11 0 (done + 256 * bad)

/-- The first part: the checks and steps 1 to 3. -/
def State.fwBegin (s : State) (e : Entry) (ok : Nat) : State :=
  let l := e.line
  let r : Ref := ⟨0, 0, e.tag⟩
  let j : FwJob := ⟨e.tag, entryBytes l 4 1, entryBits l 6 0 3⟩
  if adminReserved l ∨ j.slot = 0 then s.complete r 0x10 0x01 0 0
  else if !s.volOutstanding then s.fwRun j ok
  else if entryBits l 5 0 1 = 0 then s.complete r 0x04 0 0 0
  else
    let u := ({ s with cvc := { s.cvc with fw := some j } }.setStage r .started).abortForFw
    if u.fwWaits then u else u.fwRun j ok

def State.fwActivate (s : State) (ok : Nat) : State :=
  match s.cvc.fw with
  | some j => if s.fwWaits then s else s.fwRun j ok
  | none =>
    match s.adminNext 0 0x21 with
    | none => s
    | some e => s.fwBegin e ok

def execFwActivate (ok : Nat) (s : State) : Res :=
  steady (s.running && s.ready 2 && s.ready 10 && (s.cvc.fw.isSome || (s.adminNext 0 0x21).isSome)) (fun s => s.fwActivate ok) s

/-! ### Power states (R398, R399) -/

/-- A task is with the Sorting Table, Mangle or Halyard. -/
def Place.engine : Place → Bool
  | .mangle _ | .amu _ | .halyard _ => true
  | _ => false

/-- A queue of the class holds fetched entries. -/
def State.fetchedOf (s : State) (cls : Nat) : Bool := s.qmg.queues.any (fun (kq : Nat × Queue) => kq.2.cls = cls && !kq.2.fetched.isEmpty)

/-- The condition of power state n (R398). -/
def State.psCond (s : State) (n : Nat) : Bool :=
  match n with
  | 1 => s.hal.jobs.isEmpty && s.mgl.jobs.isEmpty && !s.bsn.tasks.any (fun (kt : Nat × Task) => kt.2.place.engine && kt.2.state ≠ .ending)
      && !s.fetchedOf 3 && !s.dge.slots.any (fun (ks : Nat × DgeSlot) => ks.2.st ≠ 0)
  | 2 => s.bsn.tasks.isEmpty
  | 3 => s.bsn.runs.isEmpty && s.hmc.map.isNone && s.cvc.cmds.isEmpty && !s.fetchedOf 2 && !s.oca.any (fun (tc : Nat × Core) => !tc.2.accs.isEmpty)
      && s.hif.coWait.isEmpty && !(List.range 64).any (fun i => s.rd fHIF_CO_ENABLE i = 1)
  | _ => s.cvc.cmds.isEmpty && !s.fetchedOf 2 && s.volState ≠ 3 && s.rd fCVC_VOL_STATUS_RESYNC 0 = 0

/-- Note at a tick which conditions do not hold. -/
def State.psTouch (s : State) : State :=
  let broken := ([1, 2, 3, 4].filter (fun n => !s.psCond n)).foldl (fun m n => put m n s.clk.tsu) s.cvc.psBroken
  { s with cvc := { s.cvc with psBroken := broken } }

/-- The idle time of power state n in ticks; 0: never entered. -/
def State.psTimer (s : State) (n : Nat) : Nat := ticksOfUs (s.setting fCVC_PS_TIMER_IDLE_US (n - 1))

/-- The module enters power state n from n − 1. -/
def State.mayEnterPs (s : State) (n : Nat) : Bool :=
  s.psState + 1 = n && decide (n ≤ 4) && s.rd fCVC_PS_STATUS_WAKING 0 = 0
    && (List.range n).all (fun k => s.psTimer (k + 1) ≠ 0 && s.psCond (k + 1))
    && decide (getD 0 s.cvc.psBroken n + s.psTimer n ≤ s.clk.tsu)

/-- Tell a drive to change its power state: Set Features 0x02. -/
def State.drivePs (s : State) (p ps : Nat) : State :=
  if s.portReady p then
    (({ s with cvc := { s.cvc with nextTag := s.cvc.nextTag + 1 } }).emit
      (.nvmeAdmin p 0x09 0 s.cvc.nextTag (leBytes 4 2 ++ leBytes 4 ps ++ leBytes 16 0) [])).wr fDSP_PORT_DRIVE_PS p ps
  else s

def State.psEntry (s : State) (n : Nat) : State :=
  let u := s.wr fCVC_PS_STATUS_STATE 0 n
  if n = 4 then (List.range 8).foldl (fun s p => s.drivePs p (s.drive p).deepState) u else u

def execPsEntry (n : Nat) (s : State) : Res := steady (s.running && s.ready 10 && s.mayEnterPs n) (fun s => s.psEntry n) s

/-- Something breaks the condition of the state held. -/
def State.psWoken (s : State) : Bool :=
  s.psState ≠ 0 && s.rd fCVC_PS_STATUS_WAKING 0 = 0 && (List.range s.psState).any (fun k => !s.psCond (k + 1))

def execPsWake (s : State) : Res := steady (s.running && s.psWoken) (fun s => s.wr fCVC_PS_STATUS_WAKING 0 1) s

def State.psExit (s : State) : State :=
  let r := ((s.wr fCVC_PS_STATUS_STATE 0 0).wr fCVC_PS_STATUS_WAKING 0 0).bumpSat fCVC_PS_STATUS_WAKES 0 1
  let t := r.hif.coWait.foldl (fun (s : State) co => s.wr fHIF_CO_ENABLE co 1) r
  let u : State := { t with hif := { t.hif with coWait := [] } }
  if s.psState = 4 then (List.range 8).foldl (fun s p => s.drivePs p 0) u else u

def execPsExit (s : State) : Res := steady (s.running && s.rd fCVC_PS_STATUS_WAKING 0 = 1) State.psExit s

end Sys2Proof.Machine
end

