-- ==== Sys2Proof/Machine/Arbiter.lean ====
section
/-! DEFINITION. QMG's arbiters and the fetch of submission entries (spec/06_queues_and_rings.md R146, R158 to R161), and
the end of an accounting window (spec/05_host_link_and_functions.md R120 to R124). -/

namespace Sys2Proof.Machine

/-! ### Arbitration (R158 to R161) -/

/-- A fetched entry of a queue of function `fn` cannot be handed on (R142): a RUN that waits, a fenced entry with an earlier
one not completed, or an entry that its subsystem cannot take. -/
def State.stuck (s : State) (fn : Nat) (q : Queue) : Bool :=
  q.fetched.any (fun e => e.stage = .held) ||
    match q.fetched.find? (fun e => e.stage = .fetched) with
    | none => false
    | some e => q.nextHandOn.isNone || ((handOnError q.cls e.line).isNone && !s.takes fn q.cls e.line)

/-- An SQ has work for the lane arbiter (R161). -/
def State.laneWork (s : State) (fn : Nat) (q : Queue) : Bool :=
  q.poll && !q.cqFull && !s.stuck fn q
    && !(q.cls = 2 && (!s.ready 10 || s.cvc.fw.isSome || s.softPending.contains 10 || s.softPending.contains 11))

/-- An admin SQ has work: up to 16 entries are fetched ahead (R153, R161). -/
def State.adminWork (s : State) (fn : Nat) (q : Queue) : Bool :=
  q.poll && !q.cqFull && !q.disabling && !s.stuck fn q && decide (q.fetched.length < 16)

/-- QMG fetches at all: HIF and QMG are ready, the pins of the host link work and PF0 is not in D3hot (R34, R112). -/
def State.fetches (s : State) : Bool :=
  s.running && s.board.pwrGood && s.ready 1 && s.ready 2 && s.cfg 0 .powerState = 0 && !s.failedSubs.contains 2

/-- Functions whose admin queue has work, from `n` on and around. -/
def State.adminPick (s : State) : Option Nat :=
  let fns := (s.qmg.queues.filter (fun kq => kq.1 % 8192 = 0 && s.adminWork (kq.1 / 8192) kq.2)).map (fun kq => kq.1 / 8192)
  match fns.find? (fun f => decide (s.qmg.adminNext ≤ f)) with
  | some f => some f
  | none => fns.head?

/-- A function's dynamic queues with work, in rising queue ID; a function at its host-link cap is passed over (R160). -/
def State.dynWork (s : State) (fn : Nat) : List Nat :=
  if s.linkCapped fn then []
  else (s.qmg.queues.filter (fun kq => kq.1 / 8192 = fn && isDynamic fn (kq.1 % 8192) && s.laneWork fn kq.2)).map
    (fun kq => kq.1 % 8192)

/-- Functions with dynamic work, in rising order (each as often as it has queues). -/
def State.groupFns (s : State) : List Nat :=
  (s.qmg.queues.filter (fun kq => kq.1 % 8192 ≠ 0 && s.laneWork (kq.1 / 8192) kq.2
    && isDynamic (kq.1 / 8192) (kq.1 % 8192) && !s.linkCapped (kq.1 / 8192))).map (fun kq => kq.1 / 8192)

/-- Participant `p` of the lane arbiter has work: a lane, or the dynamic group (R159). -/
def State.partWork (s : State) (p : Nat) : Bool :=
  if p < 8 then (s.queue 0 (p + 1)).any (s.laneWork 0) else !s.groupFns.isEmpty

def State.partWeight (s : State) (p : Nat) : Nat :=
  if p < 8 then s.setting1 fQMG_PL_ARB_WEIGHT p else s.setting1 fQMG_DYN_ARB_WEIGHT 0

def State.partBurst (s : State) (p : Nat) : Nat :=
  min 64 (if p < 8 then s.setting1 fQMG_PL_ARB_BURST p else s.setting1 fQMG_DYN_ARB_BURST 0)

/-- Begin a visit of participant `p` with the credits of the round. -/
def State.visit (s : State) (credit : List Nat) (p : Nat) : State :=
  { s with qmg := { s.qmg with
      credit := credit, cur := p, left := min (s.partBurst p) (credit.getD p 0) } }

/-- The credits after a pass went by participants: one that has no work forfeits its own for the round (R159). -/
def State.forfeit (s : State) (ps : List Nat) : List Nat :=
  ps.foldl (fun (c : List Nat) p => if s.partWork p then c else c.set p 0) s.qmg.credit

/-- Choose the participant that the lane arbiter serves (R159): the visit in progress goes on; else the next one of
the pass with credit and work; else a new round begins. -/
def State.lanePick (s : State) : Option (State × Nat) :=
  if s.qmg.cur < 9 ∧ 0 < s.qmg.left ∧ s.partWork s.qmg.cur then some (s, s.qmg.cur)
  else
    let order := (List.range 9).map (fun k => (s.qmg.cur + 1 + k) % 9)
    match order.find? (fun p => decide (0 < s.qmg.credit.getD p 0) && s.partWork p) with
    | some p => some (s.visit (s.forfeit (order.takeWhile (fun q => q ≠ p))) p, p)
    | none =>
      match (List.range 9).find? s.partWork with
      | some p => some (s.visit ((List.range 9).map s.partWeight) p, p)
      | none => none

/-- Choose the function and queue that the dynamic group serves (R160). -/
def State.groupPick (s : State) : Option (State × Nat × Nat) :=
  let fns := s.groupFns
  let pick : Option (Nat × Nat) :=
    if fns.contains s.qmg.groupFn ∧ 0 < s.qmg.groupLeft then some (s.qmg.groupFn, s.qmg.groupLeft)
    else match fns.find? (fun f => decide (s.qmg.groupFn < f)) with
      | some f => some (f, s.linkWeight f)
      | none => fns.head?.map (fun f => (f, s.linkWeight f))
  match pick with
  | none => none
  | some (fn, quantum) =>
    let qids := s.dynWork fn
    let lastQ := getD 0 s.qmg.lastQid fn
    match (qids.find? (fun q => decide (lastQ < q))).orElse (fun _ => qids.head?) with
    | none => none
    | some qid =>
      some ({ s with qmg := { s.qmg with
        groupFn := fn, groupLeft := quantum, lastQid := setD 0 s.qmg.lastQid fn qid } }, fn, qid)

/-- Read slot H of an SQ (R146): an entry with OWN = 1 is taken, its slot's last dword cleared and H advanced; with
OWN = 0 the SQ is empty until its next doorbell. The answer says whether an entry was taken. -/
def State.fetchSlot (s : State) (fn qid : Nat) : State × Bool :=
  match s.queue fn qid with
  | none => (s, false)
  | some q =>
    let a := q.sqBase + 64 * q.head
    let l : Line := BitVec.ofNat 512 (leNat (s.hostRead a 64))
    let t := s.hostGet fn a 64
    if l.msb then
      let e : Entry := ⟨s.qmg.nextTag, l, .fetched⟩
      let u := t.setQueue fn qid { q with head := (q.head + 1) % q.sqSlots, fetched := q.fetched ++ [e] }
      (({ u with qmg := { u.qmg with nextTag := u.qmg.nextTag + 1 } }).hostPut fn (a + 60) (leBytes 4 0), true)
    else (t.setQueue fn qid { q with poll := false }, false)

/-- Account for a grant of the lane arbiter (R159): an entry taken costs one credit, and a participant that has no work
left forfeits the rest. -/
def State.laneDone (s : State) (p : Nat) (took : Bool) : State :=
  let n := bit took
  let credit := s.qmg.credit.set p (s.qmg.credit.getD p 0 - n)
  if s.partWork p then { s with qmg := { s.qmg with credit := credit, left := s.qmg.left - n } }
  else { s with qmg := { s.qmg with credit := credit.set p 0, left := 0 } }

/-- An entry taken costs the function that the group serves one of its quantum (R160). -/
def State.groupDone (s : State) (took : Bool) : State :=
  { s with qmg := { s.qmg with groupLeft := s.qmg.groupLeft - bit took } }

/-- A grant of the admin arbiter. -/
def State.adminGrant (s : State) (fn : Nat) : State :=
  let t := (s.fetchSlot fn 0).1
  { t with qmg := { t.qmg with adminNext := fn + 1, lastAdmin := true } }

/-- A grant of the lane arbiter. -/
def State.laneGrant (s : State) (p : Nat) : State :=
  if p < 8 then
    let r := s.fetchSlot 0 (p + 1)
    let t := r.1.laneDone p r.2
    { t with qmg := { t.qmg with lastAdmin := false } }
  else
    match s.groupPick with
    | none => s
    | some (t, fn, qid) =>
      let r := t.fetchSlot fn qid
      let u := (r.1.groupDone r.2).laneDone 8 r.2
      { u with qmg := { u.qmg with lastAdmin := false } }

/-- SQ_FETCH (R146, R158): one grant, the arbiters alternating when both have work. A function that only its host-link
cap keeps from being served is noted as held back (R122). -/
def State.sqFetch (s : State) : State :=
  match s.adminPick, s.lanePick with
  | some fn, none => s.adminGrant fn
  | none, some (t, p) => t.laneGrant p
  | some fn, some (t, p) => if s.qmg.lastAdmin then t.laneGrant p else s.adminGrant fn
  | none, none => s

/-- Functions whose dynamic queues have work but are passed over at a host-link cap (R122, R160). -/
def State.cappedFns (s : State) : List Nat :=
  (s.qmg.queues.filter (fun kq => isDynamic (kq.1 / 8192) (kq.1 % 8192) && s.laneWork (kq.1 / 8192) kq.2
    && s.linkCapped (kq.1 / 8192))).map (fun kq => kq.1 / 8192)

def execSqFetch (s : State) : Res :=
  steady s.fetches (fun s => (s.cappedFns.foldl State.heldBack s).sqFetch) s

/-! ### Accounting windows (R120 to R124) -/

/-- A budget after its window ends: use beyond the cap becomes debt, at most one window's capacity (R122). -/
def closeBudget (cap capacity : Nat) (b : Budget) : Budget :=
  if cap = 0 then ⟨0, 0⟩ else ⟨0, min capacity (b.used + b.debt - cap * capacity / 256)⟩

/-- Work of a function waits at the end of a window for a budget whose cap the function has reached (R122). -/
def State.waitsAtCap (s : State) (fn : Nat) : Bool :=
  (s.hbmCapped fn && s.hbmDemand.contains fn) || (s.txCapped fn && (s.linkDemand true).contains fn)
    || (s.rxCapped fn && (s.linkDemand false).contains fn)

/-- Close the accounts of one function (R122). -/
def State.closeAcct (s : State) (fn : Nat) : State :=
  let a := s.acct fn
  let b : QosAcct := ⟨closeBudget (s.coreCap fn) s.hif.capCore a.core, closeBudget (s.hbmCap fn) s.hif.capHbm a.hbm,
    closeBudget (s.linkCap fn) s.hif.capLink a.tx, closeBudget (s.linkCap fn) s.hif.capLink a.rx, false⟩
  let t := s.setAcct fn b
  if a.held || s.waitsAtCap fn then (t.bumpSat fHIF_FN_CAPPED_COUNT fn 1).raiseFn fn 0 else t

/-- Core time of the tasks that run when a window ends is charged to it (R120). -/
def State.chargeRunning (s : State) : State :=
  let stop := 8000 * (s.hif.qosWindow + 1)
  (s.oca.map Prod.fst).foldl (fun (s : State) t => match s.tileTask t with
    | none => s
    | some (_, x) => s.chargeCore x.fn (stop - s.chargedFrom x)) s

/-- Functions whose accounts a window's end looks at: those that used or wait for a budget. -/
def State.accounted (s : State) : List Nat :=
  (s.hif.qos.map Prod.fst ++ s.hbmDemand ++ s.linkDemand true ++ s.linkDemand false).eraseDups

/-- Open the window that follows, with the budgets written and the capacities measured at its start (R120, R124). -/
def State.openWindow (s : State) : State :=
  let force := (List.range 1025).foldl (fun m fn => setD qosDefault m fn (s.qosWritten fn)) ([] : NMap Nat)
  { s with hif := { s.hif with
      qosWindow := s.hif.qosWindow + 1, inForce := force, capCore := s.readyCores * 8000,
      capHbm := countBits 8 (s.rd fMGT_READY_MAP_MEM_STACK_READY 0) * 12288000, capLink := s.linkCapacity,
      cxlTx := 0, cxlRx := 0 } }

/-- QOS_WINDOW_END (R120 to R124): the window that ended first is closed, the next one opens, and volume commands that
waited at a cap go on. -/
def execQosWindowEnd (s : State) : Res :=
  steady (s.running && s.hif.qosWindow < s.clk.tsu / 8000)
    (fun s => (((s.accounted.foldl State.closeAcct s.chargeRunning).openWindow).pump)) s

end Sys2Proof.Machine
end

