-- ==== Sys2Proof/Machine/Sha.lean ====
section
/-! DEFINITION. The block functions of the digest algorithms of R401, as their standards (FIPS 180-4 and FIPS 202), which
the spec names, give them, and AES-256-GCM (FIPS 197, SP 800-38D), which R408 names (spec/15_digest_engine.md). -/

namespace Sys2Proof.Machine

/-! ### SHA-2 -/

/-- The prime numbers below 410: the first 80. -/
def shaPrimes : List Nat := (List.range 410).filter (fun n => 2 ≤ n && (List.range 21).all (fun d => d < 2 || n ≤ d || n % d ≠ 0))

/-- The largest number below 2^`bits` whose `k`-th power does not exceed `n`, found bit by bit from the highest. -/
def rootFloor (k n : Nat) : Nat → Nat → Nat
  | 0, r => r
  | bits + 1, r => rootFloor k n bits (if (r + 2 ^ bits) ^ k ≤ n then r + 2 ^ bits else r)

/-- The first `w` bits of the fractional part of the `k`-th root of `p` (FIPS 180-4): roots here are below 32. -/
def rootBits (k w p : Nat) : Nat := rootFloor k (p * 2 ^ (k * w)) (w + 5) 0 % 2 ^ w

/-- The round constants of SHA-256, and of SHA-384 and SHA-512: cube roots of the first primes. -/
def k256 : List Nat := (shaPrimes.take 64).map (rootBits 3 32)
def k512 : List Nat := shaPrimes.map (rootBits 3 64)

/-- The initial chaining values: square roots of the first eight primes, for SHA-384 of the eight after them. -/
def h256 : List Nat := (shaPrimes.take 8).map (rootBits 2 32)
def h512 : List Nat := (shaPrimes.take 8).map (rootBits 2 64)
def h384 : List Nat := ((shaPrimes.drop 8).take 8).map (rootBits 2 64)

/-- The shift register of FIPS 202 behind the round constants, one step on. -/
def keccakStep (r : Nat) : Nat := if r < 128 then 2 * r else (2 * r % 256) ^^^ 0x71

/-- The round constants of Keccak-f[1600], `n` of them from register `r`: of seven steps, step j gives bit 2^j − 1. -/
def keccakConsts : Nat → Nat → List Nat
  | 0, _ => []
  | n + 1, r =>
    let x := (List.range 7).foldl (fun (a : Nat × Nat) j => (a.1 + a.2 % 2 * 2 ^ (2 ^ j - 1), keccakStep a.2)) (0, r)
    x.1 :: keccakConsts n x.2

def keccakRc : List Nat := keccakConsts 24 1

/-- The counts of a SHA-2 function: the rotations of the two upper sigmas, and the rotations and the shift of the two
lower ones. -/
structure ShaRot where
  upper0 : List Nat
  upper1 : List Nat
  lower0 : List Nat × Nat
  lower1 : List Nat × Nat

def rot256 : ShaRot := ⟨[2, 13, 22], [6, 11, 25], ([7, 18], 3), ([17, 19], 10)⟩
def rot512 : ShaRot := ⟨[28, 34, 39], [14, 18, 41], ([1, 8], 7), ([19, 61], 6)⟩

/-- XOR of a word's rotations. -/
def rotXor {w : Nat} (x : BitVec w) (rs : List Nat) : BitVec w := rs.foldl (fun y r => y ^^^ x.rotateRight r) 0

def lowerSigma {w : Nat} (x : BitVec w) (r : List Nat × Nat) : BitVec w := rotXor x r.1 ^^^ x >>> r.2

/-- One round on the working variables, a first, and on the next sixteen words of the message schedule. Of each bit, the
choice takes f or g by e, and the majority is that of a, b and c. -/
def shaRound {w : Nat} (r : ShaRot) (v : List (BitVec w) × List (BitVec w)) (k : Nat) : List (BitVec w) × List (BitVec w) :=
  let word (i : Nat) : BitVec w := v.2.getD i 0
  match v.1 with
  | [a, b, c, d, e, f, g, h] =>
    let choice := g ^^^ (e &&& (f ^^^ g))
    let major := (a &&& (b ||| c)) ||| (b &&& c)
    let step := h + rotXor e r.upper1 + choice + BitVec.ofNat w k + word 0
    let next := lowerSigma (word 14) r.lower1 + word 9 + lowerSigma (word 1) r.lower0 + word 0
    ([step + rotXor a r.upper0 + major, a, b, c, d + step, e, f, g], v.2.drop 1 ++ [next])
  | _ => v

/-- Big-endian words of bytes, and the bytes of words. -/
def beWords (w n : Nat) (d : List Byte) : List (BitVec w) :=
  (List.range n).map (fun i => BitVec.ofNat w (leNat ((d.drop (w / 8 * i)).take (w / 8)).reverse))
def beBytes {w : Nat} (xs : List (BitVec w)) : List Byte := (xs.map (fun x => (leBytes (w / 8) x.toNat).reverse)).flatten

/-- The SHA-2 block function on chaining bytes. -/
def sha2Block (w : Nat) (r : ShaRot) (ks : List Nat) (chain block : List Byte) : List Byte :=
  let hs := beWords w 8 chain
  beBytes (List.zipWith (· + ·) hs (ks.foldl (shaRound r) (hs, beWords w 16 block)).1)

/-! ### SHA-3 -/

/-- The lanes that rho visits after lane (1, 0), `n` of them from lane (x, y): each with the number of its step. -/
def rhoWalk : Nat → Nat → Nat → Nat → List (Nat × Nat)
  | 0, _, _, _ => []
  | n + 1, x, y, t => (x + 5 * y, (t + 1) * (t + 2) / 2 % 64) :: rhoWalk n y ((2 * x + 3 * y) % 5) (t + 1)

/-- The rotation of lane i = x + 5y (FIPS 202): 0 of lane 0. -/
def rhoOffset (i : Nat) : Nat := (find (rhoWalk 24 1 0 0) i).getD 0

/-- One round of Keccak-f[1600] on 25 lanes. -/
def keccakRound (l : List (BitVec 64)) (rc : Nat) : List (BitVec 64) :=
  let c := (List.range 5).map (fun x => l.getD x 0 ^^^ l.getD (x + 5) 0 ^^^ l.getD (x + 10) 0 ^^^ l.getD (x + 15) 0 ^^^ l.getD (x + 20) 0)
  let t := (List.range 25).map (fun i =>
    (l.getD i 0 ^^^ c.getD ((i + 4) % 5) 0 ^^^ (c.getD ((i % 5 + 1) % 5) 0).rotateLeft 1).rotateLeft (rhoOffset i))
  let b := (List.range 25).map (fun i => t.getD ((i % 5 + 3 * (i / 5)) % 5 + 5 * (i % 5)) 0)
  (List.range 25).map (fun i =>
    let y := i / 5 * 5
    let z := b.getD i 0 ^^^ (~~~(b.getD (y + (i + 1) % 5) 0) &&& b.getD (y + (i + 2) % 5) 0)
    if i = 0 then z ^^^ BitVec.ofNat 64 rc else z)

/-- Little-endian lanes of the 200-byte state, and back. -/
def lanes (d : List Byte) : List (BitVec 64) := (List.range 25).map (fun i => BitVec.ofNat 64 (leNat ((d.drop (8 * i)).take 8)))
def laneBytes (l : List (BitVec 64)) : List Byte := (l.map (fun x => leBytes 8 x.toNat)).flatten

/-- Absorb a block of 136 bytes into the state. -/
def sha3Block (chain block : List Byte) : List Byte :=
  laneBytes (keccakRc.foldl keccakRound (lanes (List.zipWith (· ^^^ ·) chain (block ++ List.replicate 64 0))))

/-! ### The algorithms of R401 -/

/-- Bytes of a block, of the digest and of the chaining value. -/
def algBlock (alg : Nat) : Nat := if alg = 1 then 64 else if alg = 4 then 136 else 128
def algDigest (alg : Nat) : Nat := if alg = 2 then 48 else if alg = 3 then 64 else 32
def algState (alg : Nat) : Nat := if alg = 1 then 32 else if alg = 4 then 200 else 64

/-- The initial state. -/
def algInit (alg : Nat) : List Byte :=
  if alg = 1 then beBytes (h256.map (BitVec.ofNat 32))
  else if alg = 2 then beBytes (h384.map (BitVec.ofNat 64))
  else if alg = 3 then beBytes (h512.map (BitVec.ofNat 64))
  else List.replicate 200 0

/-- The state after a block. -/
def algAbsorb (alg : Nat) (chain block : List Byte) : List Byte :=
  if alg = 1 then sha2Block 32 rot256 k256 chain block
  else if alg = 4 then sha3Block chain block
  else sha2Block 64 rot512 k512 chain block

/-! ### AES-256-GCM -/

/-- Multiplication in GF(2^8) by x, and by a number of at most `n` bits. -/
def xtime (a : Nat) : Nat := if 128 ≤ a then (2 * a) % 256 ^^^ 0x1B else 2 * a
def gfMul (a b : Nat) : Nat → Nat
  | 0 => 0
  | n + 1 => (if b % 2 = 1 then a else 0) ^^^ gfMul (xtime a) (b / 2) n

/-- The inverse in GF(2^8), as the 254th power. -/
def gfInv (a : Nat) : Nat :=
  ((List.range 6).foldl (fun (p : Nat × Nat) _ => (gfMul p.1 p.1 8, gfMul p.2 (gfMul p.1 p.1 8) 8)) (gfMul a a 8, gfMul a a 8)).2

def rotl8 (a k : Nat) : Nat := (a * 2 ^ k) % 256 + a / 2 ^ (8 - k)

/-- The substitution box. -/
def sbox (a : Nat) : Nat :=
  let b := gfInv a
  b ^^^ rotl8 b 1 ^^^ rotl8 b 2 ^^^ rotl8 b 3 ^^^ rotl8 b 4 ^^^ 0x63

def xorList (a b : List Nat) : List Nat := List.zipWith (· ^^^ ·) a b

/-- The next word of the key schedule from the last eight. -/
def nextWord (i : Nat) (last : List (List Nat)) : List Nat :=
  let t := last.getD 7 []
  let u := if i % 8 = 0 then
      xorList (([t.getD 1 0, t.getD 2 0, t.getD 3 0, t.getD 0 0]).map sbox) [(List.range (i / 8 - 1)).foldl (fun a _ => xtime a) 1, 0, 0, 0]
    else if i % 8 = 4 then t.map sbox else t
  xorList (last.getD 0 []) u

/-- Words `i` and on of the schedule. -/
def keyWords (i : Nat) (last : List (List Nat)) : Nat → List (List Nat)
  | 0 => []
  | n + 1 =>
    let w := nextWord i last
    w :: keyWords (i + 1) (last.drop 1 ++ [w]) n

/-- The fifteen round keys of a 32-byte key. -/
def roundKeys (key : List Nat) : List (List Nat) :=
  let ws := (List.range 8).map (fun i => (key.drop (4 * i)).take 4)
  let all := ws ++ keyWords 8 ws 52
  (List.range 15).map (fun r => ((all.drop (4 * r)).take 4).flatten)

def mixColumn (c : List Nat) : List Nat :=
  (List.range 4).map (fun i => xtime (c.getD i 0) ^^^ xtime (c.getD ((i + 1) % 4) 0) ^^^ c.getD ((i + 1) % 4) 0
    ^^^ c.getD ((i + 2) % 4) 0 ^^^ c.getD ((i + 3) % 4) 0)

/-- SubBytes and ShiftRows. -/
def subShift (s : List Nat) : List Nat :=
  (List.range 16).map (fun i => sbox (s.getD ((i + 4 * (i % 4)) % 16) 0))

/-- Encrypt one block of 16 bytes. -/
def aesBlock (key block : List Nat) : List Nat :=
  let rks := roundKeys key
  let mid := (rks.drop 1).take 13
  let s := mid.foldl (fun s k => xorList (((List.range 4).map (fun c => mixColumn (((subShift s).drop (4 * c)).take 4))).flatten) k)
    (xorList block (rks.getD 0 []))
  xorList (subShift s) (rks.getD 14 [])

/-- Big-endian number of bytes, and back. -/
def beNat (d : List Nat) : Nat := d.foldl (fun n b => 256 * n + b) 0
def beNats (n v : Nat) : List Nat := (List.range n).map (fun i => v / 256 ^ (n - 1 - i) % 256)

/-- Multiplication in GF(2^128) with the bit order of GCM. -/
def ghashMul (x y : Nat) : Nat :=
  ((List.range 128).foldl (fun (p : Nat × Nat) i =>
    (if x.testBit (127 - i) then p.1 ^^^ p.2 else p.1, if p.2 % 2 = 1 then p.2 / 2 ^^^ (0xE1 * 2 ^ 120) else p.2 / 2)) (0, y)).1

/-- Zero-padded blocks of 16 bytes. -/
def blocks16 (d : List Nat) : List (List Nat) :=
  (List.range ((d.length + 15) / 16)).map (fun i =>
    let b := (d.drop (16 * i)).take 16
    b ++ List.replicate (16 - b.length) 0)

def ghash (h : Nat) (bs : List (List Nat)) : Nat := bs.foldl (fun y b => ghashMul (y ^^^ beNat b) h) 0

/-- The key stream applied to data: counter blocks from 2. -/
def gcmStream (key nonce d : List Nat) : List Nat :=
  xorList d (((List.range ((d.length + 15) / 16)).map (fun i => aesBlock key (nonce ++ beNats 4 (i + 2)))).flatten)

/-- The tag over additional data and ciphertext. -/
def gcmTag (key nonce aad ct : List Nat) : List Nat :=
  let h := beNat (aesBlock key (List.replicate 16 0))
  let lens := beNats 8 (8 * aad.length) ++ beNats 8 (8 * ct.length)
  xorList (aesBlock key (nonce ++ beNats 4 1)) (beNats 16 (ghash h (blocks16 aad ++ blocks16 ct ++ [lens])))

def natBytes (d : List Byte) : List Nat := d.map BitVec.toNat
def byteList (d : List Nat) : List Byte := d.map (BitVec.ofNat 8)

end Sys2Proof.Machine
end

