-- ==== Sys2Proof/Machine/Digest.lean ====
section
/-! DEFINITION. The digest engine: slots, blocks, state records, comparison, release and clearing
(spec/15_digest_engine.md). -/

namespace Sys2Proof.Machine

/-! ### Slots (R402 to R404) -/

def slotKey (fn sl : Nat) : Nat := fn * 16 + sl

def State.dslot (s : State) (fn sl : Nat) : DgeSlot := getD DgeSlot.blank s.dge.slots (slotKey fn sl)

def State.setDslot (s : State) (fn sl : Nat) (d : DgeSlot) : State :=
  { s with dge := { s.dge with slots := setD DgeSlot.blank s.dge.slots (slotKey fn sl) d } }

/-- Contexts held by slots, and the contexts in the pool. -/
def State.ctxClaimed (s : State) : Nat := (s.dge.slots.filter (fun (ks : Nat × DgeSlot) => 1 ≤ ks.2.st && ks.2.st ≤ 3)).length
def State.ctxFree (s : State) : Nat := 64 - s.ctxClaimed - s.dge.zeroing.length

/-- Slots of a function that are not FREE. -/
def State.slotsHeld (s : State) (fn : Nat) : Nat :=
  ((List.range 16).filter (fun sl => (s.dslot fn sl).st ≠ 0)).length

/-- Set the outcome of the last action on a slot. -/
def DgeSlot.note (d : DgeSlot) (status sub : Nat) : DgeSlot := { d with status := status, sub := sub }

/-- A slot falls into ERROR; a block of it that waits is not absorbed (R405). -/
def State.slotError (s : State) (fn sl sub : Nat) : State :=
  let d := s.dslot fn sl
  let u := s.setDslot fn sl { d.note 0x10 sub with st := 3, busy := 0, buf := [] }
  { u with dge := { u.dge with ready := u.dge.ready.filter (fun r => r.1 ≠ slotKey fn sl) } }

/-- A register of a slot lies at this offset of its function's window. -/
def slotOffset (sl off : Nat) : Nat := 0x4000 + 0x400 * sl + off

/-- The space of a function window in `HIF_DENIED_ADDR`. -/
def windowSpace (fn : Nat) : Nat := if fn = 0 then 0 else 1

/-- The digest engine can be reached by a function. -/
def State.dgeReaches (s : State) (fn : Nat) : Bool := s.reaches fn && s.ready 12

/-- An action of `DGE_SLOT_CTRL` on a slot that is neither FREE nor LOST; on those two it has no effect but what its
own rule says. -/
def State.onSlot (s : State) (fn sl : Nat) (f : DgeSlot → State → State) : State :=
  let d := s.dslot fn sl
  if d.st = 0 ∨ d.st = 4 then s else f d s

/-- CLAIM (R404). -/
def State.claim (s : State) (fn sl alg : Nat) : State :=
  let d := s.dslot fn sl
  if d.st = 4 then s
  else if d.st ≠ 0 then s.setDslot fn sl (d.note 0x10 0xA1)
  else if alg = 0 ∨ 4 < alg then s.setDslot fn sl (d.note 0x10 0xA2)
  else if s.ctxFree = 0 then (s.setDslot fn sl (d.note 0x17 0x01)).raise 12 4
  else if min 16 (s.rd fDGE_FN_LIMIT fn) ≤ s.slotsHeld fn then s.setDslot fn sl (d.note 0x17 0x02)
  else s.setDslot fn sl { DgeSlot.blank with st := 1, alg := alg, chain := algInit alg }

def execClaim (fn slot alg : Nat) (s : State) : Res :=
  digestStep (s.dgeReaches fn && decide (slot < 16)) (fun s => (s.atSlot fn slot).claim fn slot (lowBits 3 alg)) s

/-- RELEASE: the slot is FREE at once; its context is zeroed, unless a clear took it already (R411). -/
def State.releaseSlot (s : State) (fn sl : Nat) : State :=
  let d := s.dslot fn sl
  let zero := if 1 ≤ d.st ∧ d.st ≤ 3 then s.dge.zeroing ++ [s.clk.tsu] else s.dge.zeroing
  { s with dge := { s.dge with
      slots := setD DgeSlot.blank s.dge.slots (slotKey fn sl) DgeSlot.blank,
      ready := s.dge.ready.filter (fun r => r.1 ≠ slotKey fn sl), zeroing := zero } }

def execRelease (fn slot : Nat) (s : State) : Res :=
  digestStep (s.dgeReaches fn && decide (slot < 16)) (fun s => (s.atSlot fn slot).releaseSlot fn slot) s

/-- KEYED (R407). -/
def State.keySlot (s : State) (fn sl : Nat) : State :=
  let d := s.dslot fn sl
  if d.st = 4 then s
  else if d.st = 1 ∧ d.busy = 0 ∧ d.buf = [] then s.setDslot fn sl { d.note 0 0 with keyed := true }
  else s.setDslot fn sl (d.note 0x10 0xA6)

def execKeyed (fn slot : Nat) (s : State) : Res :=
  digestStep (s.dgeReaches fn && decide (slot < 16)) (fun s => (s.atSlot fn slot).keySlot fn slot) s

/-- LAST (R405). -/
def State.lastSlot (s : State) (fn sl : Nat) : State :=
  s.onSlot fn sl (fun d s =>
    if d.st = 3 then s
    else if d.buf = [] ∧ d.wasLast then s.slotError fn sl 0xA4
    else s.setDslot fn sl { d.note 0 0 with last := true })

def execLast (fn slot : Nat) (s : State) : Res :=
  digestStep (s.dgeReaches fn && decide (slot < 16)) (fun s => (s.atSlot fn slot).lastSlot fn slot) s

/-- RESTART: the initial state; the claim is kept, and EXPECT is cleared (R402, R409). -/
def State.restartSlot (s : State) (fn sl : Nat) : State :=
  s.onSlot fn sl (fun d s =>
    let u := { s with dge := { s.dge with ready := s.dge.ready.filter (fun r => r.1 ≠ slotKey fn sl) } }
    u.setDslot fn sl { DgeSlot.blank with st := 1, alg := d.alg, chain := algInit d.alg, image := d.image })

def execRestart (fn slot : Nat) (s : State) : Res :=
  digestStep (s.dgeReaches fn && decide (slot < 16)) (fun s => (s.atSlot fn slot).restartSlot fn slot) s

/-- EXPORT begins (R408). -/
def State.exportSlot (s : State) (fn sl : Nat) : State :=
  s.onSlot fn sl (fun d s => if d.st = 3 ∨ d.busy ≠ 0 then s else s.setDslot fn sl { d with busy := 2 })

def execExportContext (fn slot : Nat) (s : State) : Res :=
  digestStep (s.dgeReaches fn && decide (slot < 16)) (fun s => (s.atSlot fn slot).exportSlot fn slot) s

/-- IMPORT begins, or fails for the state of its context (R408). -/
def State.importSlot (s : State) (fn sl : Nat) : State :=
  let d := s.dslot fn sl
  if d.st = 4 then s
  else if d.st = 0 then s.setDslot fn sl (d.note 0x10 0xA7)
  else if d.st = 1 ∧ !d.keyed ∧ d.busy = 0 ∧ d.buf = [] then s.setDslot fn sl { d with busy := 3 }
  else s.slotError fn sl 0xA7

def execImportContext (fn slot : Nat) (s : State) : Res :=
  digestStep (s.dgeReaches fn && decide (slot < 16)) (fun s => (s.atSlot fn slot).importSlot fn slot) s

/-! ### Blocks (R405, R406) -/

/-- A write to DATA. -/
def State.slotData (s : State) (fn sl v : Nat) : State :=
  let d := s.dslot fn sl
  if d.st = 0 then s.denied fn true 1 (slotOffset sl 8) (windowSpace fn)
  else if d.st = 3 ∨ d.st = 4 then s
  else if d.busy ≠ 0 ∨ d.st = 2 then s.slotError fn sl 0xA3
  else
    let b := d.buf ++ leBytes 8 v
    if b.length < algBlock d.alg then s.setDslot fn sl { d with buf := b }
    else
      let u := s.setDslot fn sl { d with buf := [], busy := 1, last := false, wasLast := d.last }
      { u with dge := { u.dge with ready := u.dge.ready ++ [(slotKey fn sl, b, d.last)] } }

def execDgeSlotData (fn slot v : Nat) (s : State) : Res :=
  digestStep (s.dgeReaches fn && decide (slot < 16)) (fun s => (s.atSlot fn slot).slotData fn slot v) s

/-- The ready block of a slot that a pipeline works on: one of the first four. -/
def State.pipelined (s : State) (fn sl : Nat) : Option (Nat × List Byte × Bool) :=
  (s.dge.ready.take 4).find? (fun (r : Nat × List Byte × Bool) => r.1 = slotKey fn sl)

/-- A block has been absorbed. -/
def State.absorbed (s : State) (fn sl : Nat) : State :=
  match s.pipelined fn sl with
  | none => s
  | some (_, b, last) =>
    let d := s.dslot fn sl
    let c := algAbsorb d.alg d.chain b
    let e := { d with chain := c, blocks := (d.blocks + 1) % 2 ^ 64, busy := 0 }
    let f := if last then { e with st := 2, digest := c.take (algDigest d.alg) } else e
    let u := (s.setDslot fn sl f).bumpWrap fDGE_BLOCKS_COUNT 0 1
    { u with dge := { u.dge with ready := u.dge.ready.filter (fun r => r.1 ≠ slotKey fn sl) } }

/-- A pipeline works on a slot's block: blocks are begun while the engine is enabled (R91). -/
def State.digests (s : State) (fn sl : Nat) : Bool := s.starts 12 || (s.running && s.ready 12 && s.dge.begun.contains (slotKey fn sl))

def execBlockAbsorbed (fn slot : Nat) (s : State) : Res :=
  digestStep (s.digests fn slot && s.psState = 0) (fun s => s.absorbed fn slot) s

/-! ### State records (R408) -/

def State.dgeKey (s : State) : List Nat := beNats 32 (Config.deviceKey s.dge.key).toNat

/-- Bytes 0 to 19 of the record of a context. -/
def recordHead (d : DgeSlot) (fn epoch : Nat) : List Byte :=
  leBytes 4 0x54534744 ++ leBytes 1 d.alg ++ leBytes 1 (bit d.keyed + 2 * bit d.keyed + 4 * bit (d.st = 2)) ++ leBytes 2 fn
    ++ leBytes 8 d.blocks ++ leBytes 4 (if d.keyed then epoch else 0)

/-- The record of a context; a KEYED one is sealed with a nonce that the device chooses. -/
def State.exportRecord (s : State) (fn : Nat) (d : DgeSlot) : List Byte × State :=
  let head := recordHead d fn (s.rd fDGE_FN_EPOCH fn)
  let plain := d.chain ++ List.replicate (200 - d.chain.length) 0
  let nonce := if d.keyed then beNats 12 s.free else List.replicate 12 0
  let t := if d.keyed then s.drawn else s
  let body := if d.keyed then gcmStream s.dgeKey nonce (natBytes plain) else natBytes plain
  let tag := if d.keyed then gcmTag s.dgeKey nonce (natBytes head) body else List.replicate 16 0
  let r := head ++ byteList nonce ++ byteList body ++ byteList tag
  (r ++ leBytes 4 (crc32c r).toNat ++ leBytes 4 0, t)

/-- A reserved bit of a record is set. -/
def recordReservedBits (r : List Byte) : Bool :=
  bitsAt r 4 3 5 ≠ 0 || bitsAt r 5 3 5 ≠ 0 || bitsAt r 6 11 5 ≠ 0 || nonzeroAt r 252 256

/-- The failure of an import, in the order of R408. -/
def State.importError (s : State) (fn : Nat) (d : DgeSlot) (r : List Byte) : Option (Nat × Nat) :=
  let wrapped := bitsAt r 5 1 1 = 1
  if recordReservedBits r then some (0x10, 0xA7)
  else if fieldAt r 0 4 ≠ 0x54534744 ∨ fieldAt r 4 1 ≠ d.alg ∨ fieldAt r 6 2 ≠ fn ∨ (wrapped ∧ fieldAt r 16 4 ≠ s.rd fDGE_FN_EPOCH fn) then
    some (0x10, 0xA8)
  else if fieldAt r 248 4 ≠ (crc32c (r.take 248)).toNat then some (0x15, 0xA9)
  else if wrapped ∧ gcmTag s.dgeKey (natBytes ((r.drop 20).take 12)) (natBytes (r.take 20)) (natBytes ((r.drop 32).take 200))
      ≠ natBytes ((r.drop 232).take 16) then some (0x15, 0xAA)
  else none

/-- The context that a record restores. -/
def State.imported (s : State) (d : DgeSlot) (r : List Byte) : DgeSlot :=
  let wrapped := bitsAt r 5 1 1 = 1
  let body := natBytes ((r.drop 32).take 200)
  let plain := byteList (if wrapped then gcmStream s.dgeKey (natBytes ((r.drop 20).take 12)) body else body)
  let chain := plain.take (algState d.alg)
  let isDone := bitsAt r 5 2 1 = 1
  { d.note 0 0 with busy := 0, keyed := wrapped, chain := chain, blocks := fieldAt r 8 8, st := if isDone then 2 else 1,
                    wasLast := isDone, digest := if isDone then chain.take (algDigest d.alg) else [] }

/-- The 256 bytes of RECORD. -/
def DgeSlot.record (d : DgeSlot) : List Byte := d.image ++ List.replicate (256 - d.image.length) 0

/-- RECORD_TRANSFER_DONE: an export has written RECORD, or an import has read it. -/
def State.transferDone (s : State) (fn sl : Nat) : State :=
  let d := s.dslot fn sl
  if d.busy = 2 then
    let r := s.exportRecord fn d
    r.2.setDslot fn sl { d.note 0 0 with busy := 0, image := r.1 }
  else if d.busy = 3 then
    match s.importError fn d d.record with
    | some e => s.setDslot fn sl { d.note e.1 e.2 with st := 3, busy := 0 }
    | none => s.setDslot fn sl (s.imported d d.record)
  else s

def execRecordTransferDone (fn slot : Nat) (s : State) : Res :=
  digestStep (s.running && s.ready 12 && decide (slot < 16)) (fun s => s.transferDone fn slot) s

/-! ### Comparison (R409) -/

/-- EXPECT over the digest length. -/
def DgeSlot.expected (d : DgeSlot) : List Byte := (d.expect ++ List.replicate 64 0).take (algDigest d.alg)

/-- MATCH and MATCH_N as one number; `disagree` when the two comparators differ. -/
def DgeSlot.cmp (d : DgeSlot) (disagree : Bool) : Nat :=
  if d.st ≠ 2 ∨ d.busy ≠ 0 then 0 else if disagree then 3 else if d.digest = d.expected then 1 else 2

/-- A read of `DGE_SLOT_CMP`. -/
def State.readCmp (s : State) (fn sl : Nat) (disagree : Bool) : State :=
  let d := s.dslot fn sl
  if d.st = 0 then (s.denied fn false 1 (slotOffset sl 0x18) (windowSpace fn)).emit (.readData fn 0)
  else if d.cmp disagree = 3 then
    (s.fault 12 { s.entry 12 1 with fn := some fn, cause := 3 }).emit (.readData fn 3)
  else s.emit (.readData fn (d.cmp disagree))

def execDgeSlotCmp (fn slot : Nat) (disagree : Bool) (s : State) : Res :=
  steady (s.dgeReaches fn && decide (slot < 16)) (fun s => (s.atSlot fn slot).readCmp fn slot disagree) s

/-! ### Clearing (R410, R411) -/

/-- CONTEXT_ZEROED: a released context is back in the pool. -/
def execContextZeroed (s : State) : Res :=
  digestStep (s.running && !s.dge.zeroing.isEmpty)
    (fun s => { s with dge := { s.dge with zeroing := s.dge.zeroing.drop 1 } }) s

/-- The bits of `DGE_CLEAR_CAUSE`: 0 bus error, 1 glitch, 2 test port, 3 fatal error, 4 soft reset. -/
def clearCauses : List Field :=
  [fDGE_CLEAR_CAUSE_BUS_ERROR, fDGE_CLEAR_CAUSE_ALARM_GLITCH, fDGE_CLEAR_CAUSE_ALARM_TEST_PORT, fDGE_CLEAR_CAUSE_ALARM_FATAL,
   fDGE_CLEAR_CAUSE_SOFT_RESET]

/-- Draw a new device key. -/
def State.newDeviceKey (s : State) : State := { s.drawn with dge := { s.dge with key := s.draws } }

/-- Clear every context: each slot in use becomes LOST, the pool is full, and the device key is new. -/
def State.clearContexts (s : State) (cause : Nat) : State :=
  let sub := if cause = 0 then 0xB0 else 0xB1
  let lost := (s.dge.slots.filter (fun (ks : Nat × DgeSlot) => ks.2.st ≠ 0)).map (fun (ks : Nat × DgeSlot) =>
    (ks.1, { DgeSlot.blank with st := 4, status := 0xF0, sub := sub }))
  let u := { s with dge := { s.dge with slots := lost, ready := [], zeroing := [] } }.newDeviceKey
  let v := (u.wr (clearCauses.getD cause fDGE_CLEAR_CAUSE_BUS_ERROR) 0 1).bumpSat fDGE_CLEAR_CAUSE_COUNT 0 1
  v.fault 12 { v.entry 12 1 with status := 0xF0, sub := sub, cause := 2 }

/-- CONTEXT_CLEAR: a bus error, a glitch, test-port activity or a fatal error. -/
def execContextClear (cause : Nat) (s : State) : Res :=
  digestStep (s.railsUp && s.ready 12 && decide (cause < 4)) (fun s => s.clearContexts cause) s

/-- DGE_ALARM_TEST.GO, an expert setting. -/
def execDgeAlarmTest (s : State) : Res :=
  digestStep (s.reaches 0 && s.ready 12) (fun s => (s.atRegion 12 0x900).expertWrite 12 (fun s => s.clearContexts 3)) s

end Sys2Proof.Machine
end

