-- ==== Sys2Proof/Machine/Memory.lean ====
section
/-! DEFINITION. The map commands, page ownership, Scrub, the leaky buckets, sticky errors with their row repair, the ECC
test window and the marking of poisoned tokens (spec/16_memory_translation_ecc.md R415 to R420, R425 to R427, R434;
spec/18_power_reefing_and_spares.md R465; spec/19_faults_and_containment.md R479, R480). -/

namespace Sys2Proof.Machine

/-! ### Pages (R414 to R416) -/

/-- Pages of a stack, and of all stacks. -/
def stackPages : Nat := 18432
def allPages : Nat := 147456

/-- The stack of a physical page. -/
def stackOfPage (ppn : Nat) : Nat := ppn / stackPages

/-- A device-area page, or a page of the staging pool. -/
def State.devicePage (s : State) (ppn : Nat) : Bool :=
  let o := ppn % stackPages * pageBytes
  decide (0x8FC000000 ≤ o) || (decide (0x8EC000000 ≤ o) && s.rd fHMC_STACK_STAGING (stackOfPage ppn) = 1)

/-- An address lies in an enabled carve-out (R135). -/
def State.inCarveOut (s : State) (dpa : Nat) : Bool :=
  (List.range 64).any (fun i => s.rd fHIF_CO_ENABLE i = 1 && decide (s.rd fHIF_CO_BASE i ≤ dpa / 2 ^ 28)
    && decide (dpa / 2 ^ 28 < s.rd fHIF_CO_BASE i + s.rd fHIF_CO_UNITS i))

/-- A stack is READY for HMC. -/
def State.hmcReady (s : State) (st : Nat) : Bool := s.rd fHMC_STACK_STATE st = 1

def leafKey (fn vpn : Nat) : Nat := fn * 2 ^ 27 + vpn

def State.leaf (s : State) (fn vpn : Nat) : Option Leaf := find s.hmc.leaves (leafKey fn vpn)

/-- Functions that map a page. -/
def State.mappers (s : State) (ppn : Nat) : List Nat :=
  ((s.hmc.leaves.filter (fun (kl : Nat × Leaf) => kl.2.ppn = ppn)).map (fun (kl : Nat × Leaf) => kl.1 / 2 ^ 27)).eraseDups

/-- The owner of a page follows the functions that map it. -/
def State.setOwner (s : State) (ppn : Nat) : State :=
  let o : Owner := match s.mappers ppn with
    | [] => .free
    | [f] => .fn f
    | _ => .shared
  { s with hmc := { s.hmc with owner := setD .free s.hmc.owner ppn o } }

/-- Write every line of a page with zero data and fresh check bits. -/
def State.zeroPage (s : State) (ppn : Nat) : State :=
  let s := s.dropCopies (fun c => c.line / 32768 = ppn)
  { s with
    hbm := s.hbm.filter (fun (c : Nat × Byte) => c.1 / pageBytes ≠ ppn),
    hmc := { s.hmc with check := s.hmc.check.filter (fun (c : Nat × Check) => c.1 / 32768 ≠ ppn) } }

/-! ### Translation tables (R417, R420) -/

/-- Virtual pages of a function with a valid leaf. -/
def State.vpns (s : State) (fn : Nat) : List Nat :=
  (s.hmc.leaves.filter (fun (kl : Nat × Leaf) => kl.1 / 2 ^ 27 = fn)).map (fun (kl : Nat × Leaf) => kl.1 % 2 ^ 27)

/-- Tables that the translation of some virtual pages takes: the root, and those of the two lower levels. -/
def tablesFor (vs : List Nat) : Nat :=
  if vs = [] then 0 else 1 + ((vs.map (fun v => v / 2 ^ 18)).eraseDups).length + ((vs.map (fun v => v / 2 ^ 9)).eraseDups).length

/-- Tables in use in the device area of a stack. -/
def State.tablesIn (s : State) (st : Nat) : Nat :=
  (s.hmc.tableStack.filter (fun (ft : Nat × Nat) => ft.2 = st)).foldl (fun n (ft : Nat × Nat) => n + tablesFor (s.vpns ft.1)) 0

/-- The table stack of a function, or the one that a MAP from page `ppn` takes. -/
def State.tableHome (s : State) (fn ppn : Nat) : Nat := (find s.hmc.tableStack fn).getD (stackOfPage ppn)

/-- A table that the page needs can be had. -/
def State.tableFits (s : State) (fn ppn vpn : Nat) : Bool :=
  let vs := s.vpns fn
  decide (s.tablesIn (s.tableHome fn ppn) + (tablesFor (vs ++ [vpn]) - tablesFor vs) ≤ 8192)

/-! ### Map commands (R419, R420) -/

/-- The command that the map registers describe. -/
def State.mapArgs (s : State) (op : Nat) : MapCmd :=
  { op := op, fn := s.setting fHMC_MAP_ARGS_FN 0, vpn := s.setting fHMC_MAP_VA_VPN 0, ppn := s.setting fHMC_MAP_PA_PPN 0,
    count := s.setting fHMC_MAP_ARGS_COUNT 0, write := s.setting fHMC_MAP_ARGS_WRITE 0 = 1,
    exec := s.setting fHMC_MAP_ARGS_EXEC 0 = 1 }

/-- A write of `HMC_MAP_CTRL.OP`: it starts a command, or is ignored and logged while one is in progress. -/
def State.mapStart (s : State) (op : Nat) : State :=
  if op = 0 then s
  else if s.hmc.map.isSome then s.notice 6 0xFFFF
  else { s with hmc := { s.hmc with map := some (s.mapArgs op) } }.wr fHMC_MAP_STATUS_BUSY 0 1

def execMap (s : State) : Res := steady (s.reaches 0 && s.ready 6) (fun s => (s.atRegion 6 0x94).mapStart 1) s
def execUnmap (s : State) : Res := steady (s.reaches 0 && s.ready 6) (fun s => (s.atRegion 6 0x94).mapStart 2) s
def execProtect (s : State) : Res := steady (s.reaches 0 && s.ready 6) (fun s => (s.atRegion 6 0x94).mapStart 3) s
def execQuery (s : State) : Res := steady (s.reaches 0 && s.ready 6) (fun s => (s.atRegion 6 0x94).mapStart 4) s

/-- BAD_ARGS. -/
def MapCmd.bad (c : MapCmd) : Bool :=
  4 < c.op || c.op = 0 || c.count = 0 || (c.op = 4 && c.count ≠ 1) || decide (1024 < c.fn) || decide (2 ^ 27 < c.vpn + c.count)
    || (c.op = 1 && decide (allPages < c.ppn + c.count))

/-- A page may be mapped by the function for its owner (RESULT 4). -/
def State.ownerAllows (s : State) (fn ppn : Nat) : Bool :=
  s.inCarveOut (ppn * pageBytes) ||
    (match s.ownerOf ppn with
    | .free => true
    | .fn g => g = fn
    | _ => false)

/-- The failure of MAP for a page; 0 for none. -/
def State.mapError (s : State) (c : MapCmd) (i : Nat) : Nat :=
  let p := c.ppn + i
  if !s.hmcReady (stackOfPage p) then 2
  else if s.devicePage p then 3
  else if !s.ownerAllows c.fn p then 4
  else if (s.leaf c.fn (c.vpn + i)).isSome then 5
  else if !s.tableFits c.fn c.ppn (c.vpn + i) then 6 else 0

def State.setLeaf (s : State) (fn vpn : Nat) (l : Leaf) : State :=
  { s with hmc := { s.hmc with leaves := put s.hmc.leaves (leafKey fn vpn) l } }

/-- Map a page: zeroed first where it goes to a function other than its last owner and is not shared. -/
def State.mapPage (s : State) (c : MapCmd) (i : Nat) : State :=
  let p := c.ppn + i
  let others := (s.mappers p).any (fun f => f ≠ c.fn)
  let u := if others ∨ find s.hmc.lastOwner p = some (c.fn + 1) ∨ (s.mappers p).contains c.fn then s else s.zeroPage p
  let v := (u.setLeaf c.fn (c.vpn + i) ⟨p, c.write, c.exec⟩).setOwner p
  let w := { v with hmc := { v.hmc with
    tableStack := put v.hmc.tableStack c.fn (s.tableHome c.fn c.ppn), lastOwner := put v.hmc.lastOwner p (c.fn + 1) } }
  w.wr fHMC_FN_PAGES c.fn (w.vpns c.fn).length

/-- Unmap a page: the function that unmapped it last stays its last owner, and its copies of the page's lines are written
back and invalidated (R420). -/
def State.unmapPage (s : State) (c : MapCmd) (vpn : Nat) (l : Leaf) : State :=
  let s := s.dropCopies (fun o => o.fn = c.fn && o.line / 32768 = l.ppn)
  let u := { s with hmc := { s.hmc with leaves := del s.hmc.leaves (leafKey c.fn vpn), lastOwner := put s.hmc.lastOwner l.ppn (c.fn + 1) } }
  let v := u.setOwner l.ppn
  let w := if v.vpns c.fn = [] then { v with hmc := { v.hmc with tableStack := del v.hmc.tableStack c.fn } } else v
  w.wr fHMC_FN_PAGES c.fn (w.vpns c.fn).length

/-- Process one page: the result, and the state. -/
def State.doPage (s : State) (c : MapCmd) (i : Nat) : Nat × State :=
  if c.op = 1 then
    let e := s.mapError c i
    if e ≠ 0 then (e, s) else (0, s.mapPage c i)
  else
    match s.leaf c.fn (c.vpn + i) with
    | none => (7, s)
    | some l =>
      if c.op = 2 then (0, s.unmapPage c (c.vpn + i) l)
      else if c.op = 3 then (0, s.setLeaf c.fn (c.vpn + i) { l with write := c.write, exec := c.exec })
      else (0, ((s.wr fHMC_MAP_PA_PPN 0 l.ppn).wr fHMC_MAP_ARGS_WRITE 0 (bit l.write)).wr fHMC_MAP_ARGS_EXEC 0 (bit l.exec))

/-- Process the pages in ascending order up to the first failure: result, pages done, state. -/
def State.doPages (s : State) (c : MapCmd) (i : Nat) : Nat → Nat × Nat × State
  | 0 => (0, i, s)
  | n + 1 =>
    let r := s.doPage c i
    if r.1 ≠ 0 then (r.1, i, r.2) else r.2.doPages c (i + 1) n

/-- A command of CVC holds the translation of a page that an UNMAP or PROTECT changes (R376, R420). -/
def State.mapPinned (s : State) (c : MapCmd) : Bool :=
  (c.op = 2 || c.op = 3) && s.cvc.cmds.any (fun (nc : Nat × VolCmd) => nc.2.fn = c.fn && !nc.2.host && nc.2.stage ≠ .fifo
    && nc.2.segs.any (fun (x : Nat × Nat) => (s.hmc.leaves.any (fun (kl : Nat × Leaf) =>
      kl.1 / 2 ^ 27 = c.fn && decide (c.vpn ≤ kl.1 % 2 ^ 27) && decide (kl.1 % 2 ^ 27 < c.vpn + c.count)
        && decide (kl.2.ppn * pageBytes < x.1 + x.2) && decide (x.1 < (kl.2.ppn + 1) * pageBytes)))))

/-- MAP_DONE: the command in progress completes. -/
def State.mapDone (s : State) : State :=
  match s.hmc.map with
  | none => s
  | some c =>
    let r := if c.bad then (1, 0, s) else s.doPages c 0 c.count
    let u := { r.2.2 with hmc := { r.2.2.hmc with map := none } }
    (((u.wr fHMC_MAP_STATUS_BUSY 0 0).wr fHMC_MAP_STATUS_RESULT 0 r.1).wr fHMC_MAP_STATUS_DONE_PAGES 0 r.2.1).raise 6 4

def execMapDone (s : State) : Res :=
  steady (s.running && decide (s.psState < 3) && s.hmc.map.any (fun c => !s.mapPinned c)) State.mapDone s

/-! ### Buckets (R426) -/

/-- Ticks of a bucket window. -/
def State.bucketTicks (s : State) : Nat := ticksOfMs (1000 * s.setting1 fHMC_BUCKET_CFG_WINDOW_S 0)

/-- The end of the window in progress. -/
def State.bucketDue (s : State) : Nat := s.hmc.bucketEnd.getD s.bucketTicks

/-- BUCKET_WINDOW: a window starts; every level leaks and every filter empties. -/
def State.bucketWindow (s : State) : State :=
  let w := s.bucketTicks
  let u := (List.range 8).foldl (fun s st => s.wr fHMC_STACK_BUCKET st (s.rd fHMC_STACK_BUCKET st - s.setting fHMC_BUCKET_CFG_LEAK 0)) s
  { u with hmc := { u.hmc with filter := [], bucketEnd := some ((s.clk.tsu / w + 1) * w) } }

def execBucketWindow (s : State) : Res := steady (s.running && s.ready 6 && decide (s.bucketDue ≤ s.clk.tsu)) State.bucketWindow s

/-! ### Row repair (R465) -/

/-- Stack, pseudo-channel, bank and row of a line (R413, R427). -/
def rowOfLine (line : Nat) : Nat × Nat × Nat × Nat :=
  let o := 64 * line % stackBytes
  (stackOf (64 * line), ((o / 2 ^ 8) ^^^ (o / 2 ^ 21)) % 32, (Config.rowOf o).1 % 64, (Config.rowOf o).2 % 2 ^ 18)

/-- DETAIL of the history records of a row. -/
def rowDetail (r : Nat × Nat × Nat × Nat) : Nat := r.1 + 2 ^ 3 * r.2.1 + 2 ^ 8 * r.2.2.1 + 2 ^ 14 * r.2.2.2

def bankKey (r : Nat × Nat × Nat × Nat) : Nat := (r.1 * 32 + r.2.1) * 64 + r.2.2.1

/-- ROW_REPAIR: Darning takes a row that was handed off as sticky; without a repair resource the row is recorded as
unrepairable. -/
def State.rowHandOff (s : State) (r : Nat × Nat × Nat × Nat) : State :=
  if s.setting fDRN_POLICY_ROW_REPAIR 0 = 0 ∨ s.darn.repairs.contains r then s
  else if getD 0 s.darn.pprBank (bankKey r) < Config.pprOfBank (bankKey r) then
    { s with darn := { s.darn with repairs := s.darn.repairs ++ [r] } }
  else
    let u := (s.bumpSat fDRN_STACK_UNREPAIRABLE r.1 1).history 6 5 0xFFFF r.1 0xFFFF (rowDetail r)
    u.fault 15 { u.entry 15 2 with unit := r.1, cause := 4 }

/-- ROW_REPAIR_DONE: the oldest repair of a stack ends. Its lines hold what they held, raw. -/
def State.rowRepaired (s : State) (st : Nat) : State :=
  match s.darn.repairs.find? (fun (r : Nat × Nat × Nat × Nat) => r.1 = st) with
  | none => s
  | some r =>
    let k := bankKey r
    let u := { s with darn := { s.darn with
      repairs := s.darn.repairs.erase r, pprBank := put s.darn.pprBank k (getD 0 s.darn.pprBank k + 1) } }
    (u.bumpSat fDRN_STACK_PPR_USED st 1).history 5 5 0xFFFF st 0xFFFF (rowDetail r)

def execRowRepairDone (st : Nat) (s : State) : Res :=
  steady (s.starts 15 && s.board.holdupOk) (fun s => s.rowRepaired st) s

/-! ### Scrub (R425, R427) -/

/-- Scrub walks a stack. -/
def State.scrubOn (s : State) (st : Nat) : Bool :=
  s.hmcReady st && s.setting fHMC_SCRUB_CFG_ENABLE 0 = 1 && decide (s.psState < 3)

/-- The candidate with the lowest count, the oldest among equals. -/
def lowestCand : List (Nat × Nat) → Option (Nat × Nat)
  | [] => none
  | c :: rest =>
    match lowestCand rest with
    | none => some c
    | some d => if d.2 < c.2 then some d else some c

def State.setSticky (s : State) (st : Nat) (cs : List (Nat × Nat)) : State :=
  { s with hmc := { s.hmc with sticky := setD [] s.hmc.sticky st cs } }.wr fHMC_STACK_STICKY_HELD st cs.length

/-- Scrub corrected a line and wrote it back: its candidate count rises; at 3 the row is handed off. -/
def State.stickyAdd (s : State) (st line : Nat) : State :=
  let cs := getD [] s.hmc.sticky st
  match cs.find? (fun (c : Nat × Nat) => c.1 = line) with
  | some c =>
    if c.2 + 1 < 3 then s.setSticky st (cs.map (fun (d : Nat × Nat) => if d.1 = line then (d.1, d.2 + 1) else d))
    else ((s.setSticky st (cs.filter (fun (d : Nat × Nat) => d.1 ≠ line))).bumpSat fHMC_STACK_STICKY_SENT st 1).rowHandOff (rowOfLine line)
  | none =>
    if cs.length < 64 then s.setSticky st (cs ++ [(line, 1)])
    else
      match lowestCand cs with
      | none => s
      | some d => (s.setSticky st (cs.erase d ++ [(line, 1)])).bumpSat fHMC_STACK_STICKY_DROPPED st 1

/-- A clean read drops the candidate. -/
def State.stickyDrop (s : State) (st line : Nat) : State :=
  s.setSticky st ((getD [] s.hmc.sticky st).filter (fun (d : Nat × Nat) => d.1 ≠ line))

/-- The line as Scrub finds it: `cells` adds what faulty cells do to a line that is neither poisoned nor bad already,
0 nothing, 1 an error in one symbol, 2 in two. -/
def State.scrubClass (s : State) (line cells : Nat) : Nat :=
  let c := s.lineClass line
  if c = 3 then 3 else min 2 (c + cells)

/-- SCRUB_READ: the next line of a stack. -/
def State.scrubRead (s : State) (st cells : Nat) : State :=
  let pos := s.rd fHMC_STACK_SCRUB_POS st
  let line := (st * stackBytes + pos) / 64
  let u := match s.scrubClass line cells with
    | 0 => s.stickyDrop st line
    | 1 =>
      let v := match s.checkOf line with
        | .raw k => s.putLine line (Config.eccData (s.lineData line) k) .good
        | _ => s
      (v.noteCorrected line true).stickyAdd st line
    | 2 => s.noteUncorrectable line
    | _ => s
  if pos + 64 < stackBytes then u.wr fHMC_STACK_SCRUB_POS st (pos + 64)
  else (u.wr fHMC_STACK_SCRUB_POS st 0).bumpSat fHMC_STACK_PASSES st 1

def execScrubRead (st cells : Nat) (s : State) : Res :=
  steady (s.running && s.ready 6 && decide (st < 8) && s.scrubOn st) (fun s => s.scrubRead st cells) s

/-! ### The ECC test window (R434) -/

def State.testLine (s : State) : Nat := s.rd fHMC_TEST_ADDR_LINE 0

/-- The test window may act on the line of `HMC_TEST_ADDR`. -/
def State.testAllowed (s : State) : Bool :=
  let dpa := 64 * s.testLine
  let p := dpa / pageBytes
  decide (p < allPages) && s.hmcReady (stackOf dpa) && (s.mappers p).isEmpty && !s.devicePage p && !s.inCarveOut dpa
    && (find s.hmc.lastOwner p).all (fun o => o = 1)

/-- `HMC_TEST_DATA` as a line. -/
def State.testData (s : State) : Line :=
  BitVec.ofNat 512 (leNat ((List.range 16).map (fun i => leBytes 4 (s.rd fHMC_TEST_DATA_BYTES i))).flatten)

def State.writeRaw (s : State) : State :=
  if s.testAllowed then
    let u := ((s.dropLine s.testLine).putLine s.testLine s.testData (.raw (BitVec.ofNat 32 (s.rd fHMC_TEST_CHECK_CHECK 0)))).wr fHMC_TEST_RESULT_REFUSED 0 0
    { u with hmc := { u.hmc with lastOwner := put u.hmc.lastOwner (64 * s.testLine / pageBytes) 1 } }
  else s.wr fHMC_TEST_RESULT_REFUSED 0 1

def execWriteRaw (s : State) : Res := steady (s.reaches 0 && s.ready 6) (fun s => (s.atRegion 6 0x908).expertWrite 6 State.writeRaw) s

/-- The check bytes of a line as stored. -/
def State.rawCheck (s : State) (line : Nat) : BitVec 32 :=
  match s.checkOf line with
  | .good => Config.eccCheck (s.lineData line) false
  | .poison => Config.eccCheck (s.lineData line) true
  | .raw v => v

def State.readRaw (s : State) : State :=
  if s.testAllowed then
    let line := s.testLine
    let d := s.lineData line
    let cls := s.lineClass line
    let u := (List.range 16).foldl (fun (t : State) i => t.wr fHMC_TEST_DATA_BYTES i (d.toNat / 2 ^ (32 * i))) s
    (((u.wr fHMC_TEST_CHECK_CHECK 0 (s.rawCheck line).toNat).wr fHMC_TEST_RESULT_DECODE 0 cls).wr fHMC_TEST_RESULT_SYMBOL 0
      (if cls = 1 then Config.eccSymbol d (s.rawCheck line) % 68 else 0)).wr fHMC_TEST_RESULT_REFUSED 0 0
  else s.wr fHMC_TEST_RESULT_REFUSED 0 1

def execReadRaw (s : State) : Res := steady (s.reaches 0 && s.ready 6) (fun s => (s.atRegion 6 0x908).expertWrite 6 State.readRaw) s

/-! ### Poisoned tokens (R479, R480) -/

/-- A buffer of a run holds a virtual address. -/
def Run.bufHolds (x : Run) (g : Graph) (va b : Nat) : Bool :=
  decide (x.bufAddr g b ≤ va) && decide (va < x.bufAddr g b + (g.edge (b / 256)).slotBytes)

/-- A token refers to a buffer that holds one of the addresses. -/
def Token.refers (t : Token) (x : Run) (g : Graph) (vas : List Nat) : Bool :=
  t.bufs.any (fun b => vas.any (fun va => x.bufHolds g va b))

/-- The addresses at which a function sees a line. -/
def State.lineAddrs (s : State) (fn line : Nat) : List Nat :=
  (s.hmc.leaves.filter (fun (kl : Nat × Leaf) => kl.1 / 2 ^ 27 = fn && kl.2.ppn = 64 * line / pageBytes)).map
    (fun (kl : Nat × Leaf) => kl.1 % 2 ^ 27 * pageBytes + 64 * line % pageBytes)

def markIf (hit : Token → Bool) (t : Token) : Token := if hit t && !t.poison then { t with poison := true, skipped := true } else t

/-- Mark the tokens of one run; READY and PEGGED tasks made from a marked token end, but a SINK's writes its header. The
marking counts as an end of a task of the run. -/
def State.markRun (s : State) (r : Nat) (x : Run) (line : Nat) : State :=
  let g := s.graphOf x
  let vas := s.lineAddrs x.fn line
  let hit (t : Token) : Bool := t.refers x g vas
  let waits (k : Task) : Bool := k.run = r && (k.state = .ready || k.state = .pegged)
  let sinks (k : Task) : Bool := (g.node k.node).kind = 9
  let found := x.queues.any (fun (q : Nat × List Token) => q.2.any (fun t => hit t && !t.poison))
    || s.bsn.tasks.any (fun (kt : Nat × Task) => (waits kt.2 && kt.2.token.any (fun t => hit t && !t.poison))
        || (kt.2.run = r && kt.2.outs.any (fun (o : Nat × Token) => hit o.2 && !o.2.poison)))
    || s.bsn.flows.any (fun (kf : Nat × Flow) => kf.2.run = r && kf.2.outs.any (fun (w : Nat × List (Nat × Nat × Token)) =>
        w.2.any (fun (o : Nat × Nat × Token) => hit o.2.2 && !o.2.2.poison)))
  if vas = [] ∨ !found then s
  else
    let ks := (s.bsn.tasks.filter (fun (kt : Nat × Task) => waits kt.2 && !sinks kt.2 && kt.2.token.any hit)).map Prod.fst
    let u := s.setRun r { x with
      queues := x.queues.map (fun (q : Nat × List Token) => (q.1, q.2.map (markIf hit))),
      first := noteFirst x.first s.clk.tsu 3 0x21 0x43 }
    let v := { u with bsn := { u.bsn with
      tasks := u.bsn.tasks.map (fun (kt : Nat × Task) =>
        if kt.2.run = r then (kt.1, { kt.2 with
          outs := kt.2.outs.map (fun (o : Nat × Token) => (o.1, markIf hit o.2)),
          token := if waits kt.2 then kt.2.token.map (markIf hit) else kt.2.token }) else kt),
      flows := u.bsn.flows.map (fun (kf : Nat × Flow) =>
        if kf.2.run = r then (kf.1, { kf.2 with outs := kf.2.outs.map (fun (w : Nat × List (Nat × Nat × Token)) =>
          (w.1, w.2.map (fun (o : Nat × Nat × Token) => (o.1, o.2.1, markIf hit o.2.2)))) }) else kf) } }
    (ks.foldl (fun (s : State) k => s.killTask k 0x21 0x43) v).stopOnFault r

/-- POISON_MARKING: Bosun compares a poisoned line with the buffers of every run. -/
def State.poisonMarking (s : State) (line : Nat) : State :=
  s.bsn.runs.foldl (fun (t : State) (rx : Nat × Run) => match t.run rx.1 with
    | none => t
    | some x => if x.started then t.markRun rx.1 x line else t) s

def execPoisonMarking (line : Nat) (s : State) : Res :=
  steady (s.running && s.ready 3 && s.lineClass line = 3) (fun s => s.poisonMarking line) s

end Sys2Proof.Machine
end

