-- ==== Sys2Proof/Machine/Darn.lean ====
section
/-! DEFINITION. Darning: swaps of tiles, requests of PF0, wear windows and wire groups
(spec/18_power_reefing_and_spares.md R459 to R463, R467, R468). -/

namespace Sys2Proof.Machine

/-! ### DRN_SWAP_CTRL (R461) -/

/-- A unit that a request may mark: no spare, no unit that has failed or is retired. -/
def State.swappable (s : State) (kind unit : Nat) : Bool :=
  match kind with
  | 0 => decide (unit < 544) && [tsService, tsMaintenance, 4, 3, tsDrain].contains (s.rd fOCA_TILE_STATE unit)
      && s.rd fOCA_TILE_LOGICAL unit ≠ 1023
  | 1 => decide (unit < 68) && decide (s.rd fAMU_BANK_STATE unit < 3)
  | 2 => decide (unit < 18) && decide (s.rd fMGL_ENGINE_STATE unit < 4)
  | _ => false

/-- Mark a unit at PF0's request. A bank is cleared at once where it is free. -/
def State.swapRequest (s : State) (kind unit : Nat) : State :=
  if !s.swappable kind unit then (s.wr fDRN_SWAP_STATUS_LAST_RESULT 0 2).notice 15 unit
  else
    let u := s.mark kind unit 3
    if kind = 1 then
      let v := u.wr fAMU_BANK_RETIRE_MARK unit 1
      if v.rd fAMU_BANK_STATE unit = 0 then v.clearBank unit else v
    else if kind = 2 then u.wr fMGL_ENGINE_RETIRE_MARK unit 1
    else u

def execDrnSwapCtrl (kind unit : Nat) (s : State) : Res := steady (s.reaches 0 && s.ready 15) (fun s => (s.atRegion 15 0x84).swapRequest kind unit) s

/-! ### Tile swaps (R460, R462, R463) -/

/-- The marked tile that is served next: one that runs no maintenance program. -/
def State.tileMarked (s : State) : Option Swap :=
  s.darn.marks.find? (fun m => m.kind = 0 && s.rd fOCA_TILE_STATE m.unit ≠ tsMaintenance)

/-- Step 1: DRAIN; the pegged tasks go back to their lists. -/
def State.swapBegin (s : State) (m : Swap) : State :=
  let u : State := { s with darn := { s.darn with marks := s.darn.marks.erase m, current := some { m with step := 2, since := s.clk.tsu } } }
  let v := (((u.unpeg (.pegA m.unit)).unpeg (.pegB m.unit)).wr fOCA_TILE_STATE m.unit tsDrain)
  (((v.wr fDRN_SWAP_STATUS_BUSY 0 1).wr fDRN_SWAP_STATUS_KIND 0 0).wr fDRN_SWAP_STATUS_UNIT 0 m.unit).wr fDRN_SWAP_STATUS_STEP 0 2

/-- The spare tile of a mast. -/
def State.spareTile (s : State) (m : Nat) : Option Nat :=
  ((List.range 17).map (fun i => 17 * m + i)).find? (fun t => s.tileState t = tsSpare)

/-- The swap has ended with a result. -/
def State.swapOver (s : State) (result : Nat) : State :=
  let u : State := { s with darn := { s.darn with current := none } }
  ((u.wr fDRN_SWAP_STATUS_BUSY 0 0).wr fDRN_SWAP_STATUS_STEP 0 0).swapEnds 0 (s.rd fDRN_SWAP_STATUS_UNIT 0) result

/-- Steps 3 to 5: the tile is scrubbed; the spare takes the logical core, or the core is marked invalid. -/
def State.swapFinish (s : State) (m : Swap) : State :=
  let t := m.unit
  let c := s.rd fOCA_TILE_LOGICAL t
  let spare := s.spareTile (mastOf t)
  let u := ((s.scrub t).wr fOCA_TILE_STATE t tsFailed).wr fOCA_TILE_LOGICAL t 1023
  let v := (u.wr fDRN_TILE_WEAR_RETIRED t 1).wr fDRN_TILE_WEAR_MARKED t 0
  if c = 1023 then ((v.raise 4 3).history 2 m.cause 0xFFFF t 0xFFFF 0).swapOver 1
  else
    match spare with
    | some n =>
      let w := (((v.wr fDRN_CORE_MAP_TILE c n).wr fOCA_TILE_STATE n tsService).wr fOCA_TILE_LOGICAL n c).wr fOCA_TILE_FN_VALID n 0
      ((w.raise 4 3).history 1 m.cause c t n 0).swapOver 1
    | none =>
      let w := (v.wr fDRN_CORE_MAP_VALID c 0).fault 4 { v.entry (0x400 + t) 2 with unit := t, cause := 3 }
      ((w.history 2 m.cause c t 0xFFFF 0).raise 15 3).swapOver 3

/-- TILE_SWAP: begin the swap of the next marked tile, or finish the one in progress once its task has ended. -/
def State.tileSwap (s : State) : State :=
  match s.darn.current with
  | some m => if (s.tileTask m.unit).isSome then s else s.swapFinish m
  | none =>
    match s.tileMarked with
    | none => s
    | some m => if s.starts 15 then s.swapBegin m else s

/-- Darning acts: it is ready, or a soft reset of it waits for the swap in progress (R76). -/
def State.drnActs (s : State) : Bool := s.ready 15 || (s.softPending.contains 15 && s.darn.current.isSome)

def execTileSwap (s : State) : Res := steady (s.running && s.drnActs && s.ready 4) State.tileSwap s

/-- DRAIN_TIMEOUT (R462 step 2): the running task is killed and the tile core-reset. -/
def State.drainTimeout (s : State) : State :=
  match s.darn.current with
  | none => s
  | some m =>
    if (s.tileTask m.unit).isSome ∧ m.since + ticksOfUs (s.setting1 fDRN_POLICY_DRAIN_US 0) ≤ s.clk.tsu then
      (s.endOnTile m.unit 0x32 0x04 []).scrub m.unit
    else s

def execDrainTimeout (s : State) : Res := steady (s.running && s.drnActs) State.drainTimeout s

/-! ### Wear windows (R461, R468) -/

/-- Ticks of a wear window: 3,600 s. -/
def wearTicks : Nat := ticksOfMs 3600000

def State.wearWindow (s : State) : State :=
  let u := (List.range 544).foldl (fun s t => s.wr fDRN_TILE_WEAR_WINDOW_CORR t 0) s
  { u with darn := { u.darn with wearWindow := s.clk.tsu / wearTicks, rowCorr := [], groupErr := [] } }

def execWearWindow (s : State) : Res :=
  steady (s.running && decide (s.darn.wearWindow < s.clk.tsu / wearTicks)) State.wearWindow s

/-! ### Wire groups (R467) -/

/-- A group reached its threshold: steered to the spare, or the direction falls to 16 groups. -/
def State.groupWorn (s : State) (l g : Nat) : State :=
  if s.rd fDRN_LINK_DEGRADED l = 1 then s
  else if s.rd fDRN_LINK_GROUP_SWAPPED l = 0x3F then (s.wr fDRN_LINK_GROUP_SWAPPED l g).history 8 1 0xFFFF l g 0
  else
    let u := (s.wr fDRN_LINK_DEGRADED l 1).history 9 1 0xFFFF l g 0
    u.fault 15 { u.entry 15 2 with unit := l, cause := 5 }

/-- A wire group of a link direction carries flits: group 32, the spare, only while it stands for another, and that one
not. -/
def State.groupUsed (s : State) (l g : Nat) : Bool :=
  let w := s.rd fDRN_LINK_GROUP_SWAPPED l
  w ≠ g && (decide (g < 32) || (g = 32 && w ≠ 0x3F))

/-- LINK_CRC_ERROR: the CRC of a flit fails in a group. -/
def State.linkCrc (s : State) (l g : Nat) : State :=
  let k := l * 64 + g
  let n : Nat := getD 0 s.darn.groupErr k + 1
  let u : State := { s with darn := { s.darn with groupErr := put s.darn.groupErr k n } }
  let v := u.bumpSat fDRN_LINK_ERRORS l 1
  if s.setting1 fDRN_THRESH_LINK_ERR 0 ≤ n ∧ s.setting fDRN_POLICY_LINK_REPAIR 0 = 1 then v.groupWorn l g else v

def execLinkCrcError (l g : Nat) (s : State) : Res :=
  steady (s.running && s.ready 5 && decide (l < 224) && s.groupUsed l g)
    (fun s => s.linkCrc l g) s

end Sys2Proof.Machine
end

