-- ==== Sys2Proof/Machine/RegTable.lean ====
section
/-! DEFINITION. The register maps of the spec as one table: where each register lies, how wide it is, how its array
is laid out (R97) and which fields it holds. `sub` is the subsystem ID of R11 (0: a register of the common page
header of R91, in every page); `win` marks a register of the function window (R98). -/

namespace Sys2Proof.Machine

/-- One register, or one register array (R97). -/
structure RegDesc where
  name : String
  sub : Nat
  win : Bool
  off : Nat
  bytes : Nat
  stride : Nat
  count : Nat
  expert : Bool
  ovr : Option Nat
  fields : List Field
  deriving DecidableEq, Repr

/-- Registers of spec/03_clocks_reset_bringup.md. -/
def regs03_0 : List RegDesc := [
  ⟨"MGT_READY_MAP_SUB", 16, false, 0x80, 4, 0, 1, false, none,
    [fMGT_READY_MAP_SUB_SUB_READY]⟩,
  ⟨"MGT_READY_MAP_MAST", 16, false, 0x84, 4, 0, 1, false, none,
    [fMGT_READY_MAP_MAST_MAST_READY]⟩,
  ⟨"MGT_FAIL_MAP_MAST", 16, false, 0x8C, 4, 0, 1, false, none,
    [fMGT_FAIL_MAP_MAST_MAST_FAIL]⟩,
  ⟨"MGT_READY_MAP_MEM", 16, false, 0x88, 4, 0, 1, false, none,
    [fMGT_READY_MAP_MEM_STACK_READY, fMGT_READY_MAP_MEM_PORT_READY]⟩,
  ⟨"MGT_FAIL_MAP_MEM", 16, false, 0x90, 4, 0, 1, false, none,
    [fMGT_FAIL_MAP_MEM_STACK_FAIL, fMGT_FAIL_MAP_MEM_PORT_FAIL, fMGT_FAIL_MAP_MEM_PORT_LATE]⟩,
  ⟨"MGT_BRINGUP_STATUS", 16, false, 0x94, 4, 0, 1, false, none,
    [fMGT_BRINGUP_STATUS_DONE, fMGT_BRINGUP_STATUS_DEGRADED, fMGT_BRINGUP_STATUS_ELAPSED_MS]⟩,
  ⟨"MGT_RESET_CAUSE", 16, false, 0x98, 4, 0, 1, false, none,
    [fMGT_RESET_CAUSE_COLD, fMGT_RESET_CAUSE_PERST, fMGT_RESET_CAUSE_HOT_RESET, fMGT_RESET_CAUSE_WARM_REG, fMGT_RESET_CAUSE_WARM_SIDEBAND, fMGT_RESET_CAUSE_FATAL_AUTO]⟩,
  ⟨"MGT_LAST_STOP", 16, false, 0x9C, 4, 0, 1, false, none,
    [fMGT_LAST_STOP_CAUSE]⟩,
  ⟨"MGT_BOOT_COUNT", 16, false, 0xA0, 4, 0, 1, false, none,
    [fMGT_BOOT_COUNT_COUNT]⟩,
  ⟨"MGT_WARM_RESET", 16, false, 0xA8, 4, 0, 1, false, none,
    [fMGT_WARM_RESET_KEY]⟩]

/-- Registers of spec/04_register_pages_and_address_map.md, part 1. -/
def regs04_0 : List RegDesc := [
  ⟨"ID", 0, false, 0x0, 4, 0, 1, false, none,
    [fID_SUB_ID, fID_CODE]⟩,
  ⟨"VERSION", 0, false, 0x4, 4, 0, 1, false, none,
    [fVERSION_MINOR, fVERSION_MAJOR, fVERSION_STEPPING]⟩,
  ⟨"CAPS", 0, false, 0x8, 8, 0, 1, false, none,
    [fCAPS_SOFT_RESET, fCAPS_ERR_LOG, fCAPS_ARRAYS, fCAPS_SUB_CAPS]⟩,
  ⟨"CONTROL", 0, false, 0x10, 4, 0, 1, false, none,
    [fCONTROL_SOFT_RESET, fCONTROL_ENABLE]⟩,
  ⟨"STATUS", 0, false, 0x14, 4, 0, 1, false, none,
    [fSTATUS_READY, fSTATUS_FAULT, fSTATUS_BUSY]⟩,
  ⟨"IRQ_STATUS", 0, false, 0x20, 4, 0, 1, false, none,
    [fIRQ_STATUS_ERR, fIRQ_STATUS_FAULT, fIRQ_STATUS_SUB]⟩,
  ⟨"IRQ_ENABLE", 0, false, 0x24, 4, 0, 1, false, none,
    [fIRQ_ENABLE_ERR, fIRQ_ENABLE_FAULT, fIRQ_ENABLE_SUB]⟩,
  ⟨"IRQ_SET", 0, false, 0x28, 4, 0, 1, false, none,
    [fIRQ_SET_ERR, fIRQ_SET_FAULT, fIRQ_SET_SUB]⟩,
  ⟨"ERR_COUNT", 0, false, 0x30, 4, 0, 1, false, none,
    [fERR_COUNT_COUNT]⟩,
  ⟨"ERR_LOG_PTR", 0, false, 0x38, 4, 0, 1, false, none,
    [fERR_LOG_PTR_LOG_BASE, fERR_LOG_PTR_NEXT, fERR_LOG_PTR_WRAPPED]⟩,
  ⟨"EXPERT_UNLOCK", 0, false, 0x40, 4, 0, 1, false, none,
    [fEXPERT_UNLOCK_KEY, fEXPERT_UNLOCK_UNLOCKED, fEXPERT_UNLOCK_DENIED]⟩,
  ⟨"HIF_FN_STATUS", 1, true, 0x0, 4, 0, 1, false, none,
    [fHIF_FN_STATUS_READY, fHIF_FN_STATUS_RESET_BUSY]⟩]

/-- Registers of spec/04_register_pages_and_address_map.md, part 2. -/
def regs04_1 : List RegDesc := [
  ⟨"HIF_FN_ID", 1, true, 0x4, 4, 0, 1, false, none,
    [fHIF_FN_ID_FN]⟩,
  ⟨"HIF_FN_DENIED", 1, true, 0x8, 4, 0, 1, false, none,
    [fHIF_FN_DENIED_COUNT]⟩,
  ⟨"HIF_DENIED_INFO", 1, false, 0x60, 4, 0, 1, false, none,
    [fHIF_DENIED_INFO_FN, fHIF_DENIED_INFO_WRITE, fHIF_DENIED_INFO_KIND, fHIF_DENIED_INFO_MORE, fHIF_DENIED_INFO_VALID]⟩,
  ⟨"HIF_DENIED_ADDR", 1, false, 0x64, 4, 0, 1, false, none,
    [fHIF_DENIED_ADDR_OFFSET, fHIF_DENIED_ADDR_SPACE]⟩]

/-- Registers of spec/05_host_link_and_functions.md, part 1. -/
def regs05_0 : List RegDesc := [
  ⟨"HIF_LINK_STATUS", 1, false, 0x80, 4, 0, 1, false, none,
    [fHIF_LINK_STATUS_SPEED, fHIF_LINK_STATUS_WIDTH, fHIF_LINK_STATUS_FLIT, fHIF_LINK_STATUS_CXL, fHIF_LINK_STATUS_REVERSED, fHIF_LINK_STATUS_DEGRADED]⟩,
  ⟨"HIF_LINK_CONTROL", 1, false, 0x84, 4, 0, 1, false, some 1,
    [fHIF_LINK_CONTROL_MAX_SPEED, fHIF_LINK_CONTROL_L0P_EN, fHIF_LINK_CONTROL_CXLMEM_WEIGHT]⟩,
  ⟨"HIF_FN_QOS", 1, false, 0x20000, 8, 16, 1025, false, none,
    [fHIF_FN_QOS_CORE_WEIGHT, fHIF_FN_QOS_CORE_CAP, fHIF_FN_QOS_HBM_WEIGHT, fHIF_FN_QOS_HBM_CAP, fHIF_FN_QOS_LINK_WEIGHT, fHIF_FN_QOS_LINK_CAP]⟩,
  ⟨"HIF_FLR_RESULT", 1, false, 0x28000, 4, 4, 1025, false, none,
    [fHIF_FLR_RESULT_UNPOSTED, fHIF_FLR_RESULT_ORPHANED, fHIF_FLR_RESULT_VALID]⟩,
  ⟨"HIF_CO", 1, false, 0x30000, 8, 16, 64, false, none,
    [fHIF_CO_ENABLE, fHIF_CO_BASE, fHIF_CO_UNITS]⟩,
  ⟨"HIF_FN_IRQ_STATUS", 1, true, 0x200, 4, 0, 1, false, none,
    [fHIF_FN_IRQ_STATUS_QOS_CAPPED, fHIF_FN_IRQ_STATUS_DENIED, fHIF_FN_IRQ_STATUS_CQ_FULL]⟩,
  ⟨"HIF_FN_IRQ_ENABLE", 1, true, 0x204, 4, 0, 1, false, none,
    [fHIF_FN_IRQ_ENABLE_QOS_CAPPED, fHIF_FN_IRQ_ENABLE_DENIED, fHIF_FN_IRQ_ENABLE_CQ_FULL]⟩,
  ⟨"HIF_FN_EVENT_VECTOR", 1, true, 0x208, 4, 0, 1, false, none,
    [fHIF_FN_EVENT_VECTOR_VECTOR]⟩,
  ⟨"HIF_FN_MOD", 1, true, 0x240, 4, 4, 16, false, none,
    [fHIF_FN_MOD_MAX_COUNT, fHIF_FN_MOD_DELAY_US]⟩,
  ⟨"HIF_FN_CORE_TIME", 1, true, 0x2000, 8, 0, 1, false, none,
    [fHIF_FN_CORE_TIME_COUNT]⟩,
  ⟨"HIF_FN_HBM_BYTES", 1, true, 0x2008, 8, 0, 1, false, none,
    [fHIF_FN_HBM_BYTES_COUNT]⟩,
  ⟨"HIF_FN_LINK_TX_BYTES", 1, true, 0x2010, 8, 0, 1, false, none,
    [fHIF_FN_LINK_TX_BYTES_COUNT]⟩]

/-- Registers of spec/05_host_link_and_functions.md, part 2. -/
def regs05_1 : List RegDesc := [
  ⟨"HIF_FN_LINK_RX_BYTES", 1, true, 0x2018, 8, 0, 1, false, none,
    [fHIF_FN_LINK_RX_BYTES_COUNT]⟩,
  ⟨"HIF_FN_CAPPED", 1, true, 0x2020, 4, 0, 1, false, none,
    [fHIF_FN_CAPPED_COUNT]⟩,
  ⟨"HIF_FN_QOS_VIEW", 1, true, 0x2028, 8, 0, 1, false, none,
    [fHIF_FN_QOS_VIEW_QOS]⟩]

/-- Registers of spec/06_queues_and_rings.md, part 1. -/
def regs06_0 : List RegDesc := [
  ⟨"QMG_ADM_SQ_BASE", 2, true, 0x100, 8, 0, 1, false, none,
    [fQMG_ADM_SQ_BASE_BASE]⟩,
  ⟨"QMG_ADM_CQ_BASE", 2, true, 0x108, 8, 0, 1, false, none,
    [fQMG_ADM_CQ_BASE_BASE]⟩,
  ⟨"QMG_ADM_CONFIG", 2, true, 0x110, 4, 0, 1, false, none,
    [fQMG_ADM_CONFIG_SQ_LOG2, fQMG_ADM_CONFIG_CQ_LOG2, fQMG_ADM_CONFIG_MOD, fQMG_ADM_CONFIG_IRQ_EN]⟩,
  ⟨"QMG_ADM_VECTOR", 2, true, 0x114, 4, 0, 1, false, none,
    [fQMG_ADM_VECTOR_VECTOR]⟩,
  ⟨"QMG_ADM_CONTROL", 2, true, 0x118, 4, 0, 1, false, none,
    [fQMG_ADM_CONTROL_ENABLE]⟩,
  ⟨"QMG_ADM_STATUS", 2, true, 0x11C, 4, 0, 1, false, none,
    [fQMG_ADM_STATUS_ENABLED, fQMG_ADM_STATUS_ERROR, fQMG_ADM_STATUS_CQ_FULL, fQMG_ADM_STATUS_ERR_SUB, fQMG_ADM_STATUS_UNPOSTED]⟩,
  ⟨"QMG_FN_QCOUNT", 2, true, 0x120, 4, 0, 1, false, none,
    [fQMG_FN_QCOUNT_IN_USE, fQMG_FN_QCOUNT_LIMIT]⟩,
  ⟨"QMG_FN_CQ_FULL", 2, true, 0x124, 4, 0, 1, false, none,
    [fQMG_FN_CQ_FULL_LAST_QID, fQMG_FN_CQ_FULL_COUNT]⟩,
  ⟨"QMG_PL_ARB", 2, false, 0x80, 4, 4, 8, false, some 2,
    [fQMG_PL_ARB_WEIGHT, fQMG_PL_ARB_BURST]⟩,
  ⟨"QMG_DYN_ARB", 2, false, 0xA0, 4, 0, 1, false, some 3,
    [fQMG_DYN_ARB_WEIGHT, fQMG_DYN_ARB_BURST]⟩,
  ⟨"QMG_QPOOL", 2, false, 0xA4, 4, 0, 1, false, none,
    [fQMG_QPOOL_IN_USE, fQMG_QPOOL_FREE]⟩,
  ⟨"QMG_QSEL", 2, false, 0xB0, 4, 0, 1, false, some 4,
    [fQMG_QSEL_FN, fQMG_QSEL_QID]⟩]

/-- Registers of spec/06_queues_and_rings.md, part 2. -/
def regs06_1 : List RegDesc := [
  ⟨"QMG_QVIEW", 2, false, 0xB8, 8, 0, 1, false, none,
    [fQMG_QVIEW_STATE, fQMG_QVIEW_CQ_FULL, fQMG_QVIEW_CLASS, fQMG_QVIEW_PENDING, fQMG_QVIEW_SQ_HEAD, fQMG_QVIEW_CQ_TAIL, fQMG_QVIEW_WAITING]⟩,
  ⟨"QMG_CQ_RECHECK", 2, false, 0x900, 4, 0, 1, true, none,
    [fQMG_CQ_RECHECK_INTERVAL_US]⟩,
  ⟨"QMG_FN_QLIMIT", 2, false, 0x10000, 4, 4, 1025, false, none,
    [fQMG_FN_QLIMIT_LIMIT, fQMG_FN_QLIMIT_IN_USE]⟩]

/-- Registers of spec/08_bosun_scheduler.md, part 1. -/
def regs08_0 : List RegDesc := [
  ⟨"BSN_TABLE_STATUS", 3, false, 0x80, 4, 0, 1, false, none,
    [fBSN_TABLE_STATUS_IN_USE, fBSN_TABLE_STATUS_SHARED_FREE]⟩,
  ⟨"BSN_TABLE_RESV", 3, false, 0x84, 4, 0, 1, false, none,
    [fBSN_TABLE_RESV_RESV_SUM, fBSN_TABLE_RESV_SHARED_SIZE]⟩,
  ⟨"BSN_TASK_LIMIT", 3, false, 0x88, 4, 0, 1, false, some 5,
    [fBSN_TASK_LIMIT_DEFAULT_US]⟩,
  ⟨"BSN_AFFINITY", 3, false, 0x8C, 4, 0, 1, false, some 6,
    [fBSN_AFFINITY_HOLD_US, fBSN_AFFINITY_SCRUB_ON_IDLE]⟩,
  ⟨"BSN_PL_LIST", 3, false, 0x90, 4, 0, 1, false, some 7,
    [fBSN_PL_LIST_LIST]⟩,
  ⟨"BSN_QOS_MAP", 3, false, 0xA0, 4, 4, 8, false, some 8,
    [fBSN_QOS_MAP_CLASS_0, fBSN_QOS_MAP_CLASS_1, fBSN_QOS_MAP_CLASS_2, fBSN_QOS_MAP_CLASS_3, fBSN_QOS_MAP_CLASS_4, fBSN_QOS_MAP_CLASS_5, fBSN_QOS_MAP_CLASS_6, fBSN_QOS_MAP_CLASS_7]⟩,
  ⟨"BSN_LOCKSTEP", 3, false, 0xC0, 4, 0, 1, false, none,
    [fBSN_LOCKSTEP_RECOVERED, fBSN_LOCKSTEP_FATAL]⟩,
  ⟨"BSN_LOCKSTEP_TS", 3, false, 0xC8, 8, 0, 1, false, none,
    [fBSN_LOCKSTEP_TS_TS]⟩,
  ⟨"BSN_FLOW_SEL", 3, false, 0xD0, 4, 0, 1, false, some 9,
    [fBSN_FLOW_SEL_FLOW]⟩,
  ⟨"BSN_FLOW_VIEW", 3, false, 0xD8, 8, 0, 1, false, none,
    [fBSN_FLOW_VIEW_STATE, fBSN_FLOW_VIEW_DONE, fBSN_FLOW_VIEW_FN, fBSN_FLOW_VIEW_HEAD]⟩,
  ⟨"BSN_SCRUB_COUNT", 3, false, 0xE0, 8, 0, 1, false, none,
    [fBSN_SCRUB_COUNT_COUNT]⟩,
  ⟨"BSN_LOCKSTEP_TEST", 3, false, 0x900, 4, 0, 1, true, none,
    [fBSN_LOCKSTEP_TEST_INJECT_WEST, fBSN_LOCKSTEP_TEST_INJECT_EAST]⟩]

/-- Registers of spec/08_bosun_scheduler.md, part 2. -/
def regs08_1 : List RegDesc := [
  ⟨"BSN_FN_00", 3, false, 0x10000, 4, 16, 1025, false, none,
    [fBSN_FN_LIST, fBSN_FN_RESV]⟩,
  ⟨"BSN_FN_04", 3, false, 0x10004, 4, 16, 1025, false, none,
    [fBSN_FN_HELD, fBSN_FN_RUNNING]⟩,
  ⟨"BSN_FN_08", 3, false, 0x10008, 4, 16, 1025, false, none,
    [fBSN_FN_FLOWS, fBSN_FN_RUNS]⟩]

/-- Registers of spec/09_operator_core.md. -/
def regs09_0 : List RegDesc := [
  ⟨"OCA_TILE_SUMMARY", 4, false, 0x80, 4, 0, 1, false, none,
    [fOCA_TILE_SUMMARY_IN_SERVICE, fOCA_TILE_SUMMARY_IN_MAINT, fOCA_TILE_SUMMARY_FAILED]⟩,
  ⟨"OCA_CORRECTED", 4, false, 0x88, 8, 0, 1, false, none,
    [fOCA_CORRECTED_LOCAL_STORE, fOCA_CORRECTED_REGISTERS, fOCA_CORRECTED_ICACHE]⟩,
  ⟨"OCA_MEM_POLICY", 4, false, 0x90, 4, 0, 1, false, some 10,
    [fOCA_MEM_POLICY_MAX_LOADS]⟩,
  ⟨"OCA_ECC_INJECT", 4, false, 0x900, 4, 0, 1, true, none,
    [fOCA_ECC_INJECT_TILE, fOCA_ECC_INJECT_TARGET, fOCA_ECC_INJECT_DOUBLE, fOCA_ECC_INJECT_GO]⟩,
  ⟨"OCA_TILE_00", 4, false, 0x10000, 4, 32, 544, false, none,
    [fOCA_TILE_STATE, fOCA_TILE_LOGICAL, fOCA_TILE_FN_VALID, fOCA_TILE_FN]⟩,
  ⟨"OCA_TILE_04", 4, false, 0x10004, 4, 32, 544, false, none,
    [fOCA_TILE_CORE_RESET, fOCA_TILE_MAINT_ENTER, fOCA_TILE_PROGRAM]⟩,
  ⟨"OCA_TILE_08", 4, false, 0x10008, 4, 32, 544, false, none,
    [fOCA_TILE_TASKS]⟩,
  ⟨"OCA_TILE_0C", 4, false, 0x1000C, 4, 32, 544, false, none,
    [fOCA_TILE_FAULTS, fOCA_TILE_CORRECTED]⟩,
  ⟨"OCA_TILE_10", 4, false, 0x10010, 8, 32, 544, false, none,
    [fOCA_TILE_BUSY_CYCLES]⟩,
  ⟨"OCA_TILE_18", 4, false, 0x10018, 4, 32, 544, false, none,
    [fOCA_TILE_MAINT_PROGRAM, fOCA_TILE_MAINT_DONE, fOCA_TILE_MAINT_PASS]⟩]

/-- Registers of spec/11_associative_match.md, part 1. -/
def regs11_0 : List RegDesc := [
  ⟨"AMU_POOL", 8, false, 0x80, 4, 0, 1, false, none,
    [fAMU_POOL_FREE, fAMU_POOL_IN_USE, fAMU_POOL_CLEARING, fAMU_POOL_HOLDING, fAMU_POOL_IN_SERVICE]⟩,
  ⟨"AMU_FALSE_HITS", 8, false, 0x88, 4, 0, 1, false, none,
    [fAMU_FALSE_HITS_COUNT]⟩,
  ⟨"AMU_SCRUB", 8, false, 0x90, 4, 0, 1, false, some 11,
    [fAMU_SCRUB_PERIOD_MS]⟩,
  ⟨"AMU_SCRUB_FIXED", 8, false, 0x94, 4, 0, 1, false, none,
    [fAMU_SCRUB_FIXED_COUNT]⟩,
  ⟨"AMU_SEARCHES", 8, false, 0x98, 8, 0, 1, false, none,
    [fAMU_SEARCHES_COUNT]⟩,
  ⟨"AMU_TSEL", 8, false, 0xA0, 4, 0, 1, false, some 12,
    [fAMU_TSEL_FN, fAMU_TSEL_TABLE, fAMU_TSEL_RUN_TAG]⟩,
  ⟨"AMU_TVIEW", 8, false, 0xA8, 8, 0, 1, false, none,
    [fAMU_TVIEW_VALID, fAMU_TVIEW_HASHED, fAMU_TVIEW_SPILLED, fAMU_TVIEW_DAMAGED, fAMU_TVIEW_KEY_UNITS, fAMU_TVIEW_BANKS, fAMU_TVIEW_ENTRIES, fAMU_TVIEW_MULTI_ROWS]⟩,
  ⟨"AMU_RETIRE", 8, false, 0x900, 4, 0, 1, true, none,
    [fAMU_RETIRE_THRESHOLD]⟩,
  ⟨"AMU_INJECT", 8, false, 0x904, 4, 0, 1, true, none,
    [fAMU_INJECT_BANK, fAMU_INJECT_ENTRY, fAMU_INJECT_COPY, fAMU_INJECT_GO]⟩,
  ⟨"AMU_BANK_00", 8, false, 0x10000, 4, 32, 68, false, none,
    [fAMU_BANK_STATE, fAMU_BANK_RETIRE_MARK, fAMU_BANK_LOGICAL, fAMU_BANK_FN_VALID, fAMU_BANK_FN, fAMU_BANK_TABLE, fAMU_BANK_KEY_UNITS]⟩,
  ⟨"AMU_BANK_04", 8, false, 0x10004, 4, 32, 68, false, none,
    [fAMU_BANK_USED]⟩,
  ⟨"AMU_BANK_08", 8, false, 0x10008, 4, 32, 68, false, none,
    [fAMU_BANK_FALSE_HITS, fAMU_BANK_SCRUB_FIXED]⟩]

/-- Registers of spec/11_associative_match.md, part 2. -/
def regs11_1 : List RegDesc := [
  ⟨"AMU_BANK_10", 8, false, 0x10010, 8, 32, 68, false, none,
    [fAMU_BANK_SEARCHES]⟩,
  ⟨"AMU_FN", 8, false, 0x20000, 4, 4, 1025, false, none,
    [fAMU_FN_LIMIT, fAMU_FN_HELD]⟩]

/-- Registers of spec/12_mangle_compression.md, part 1. -/
def regs12_0 : List RegDesc := [
  ⟨"MGL_VERIFY", 9, false, 0x80, 4, 0, 1, false, some 13,
    [fMGL_VERIFY_GRAPH, fMGL_VERIFY_FORCE]⟩,
  ⟨"MGL_GRAPH_COMP", 9, false, 0x84, 4, 0, 1, false, some 14,
    [fMGL_GRAPH_COMP_BLOCK_KIB]⟩,
  ⟨"MGL_POOL", 9, false, 0x88, 4, 0, 1, false, none,
    [fMGL_POOL_IN_SERVICE, fMGL_POOL_BUSY, fMGL_POOL_SPARES_LEFT]⟩,
  ⟨"MGL_VERIFY_FAILS", 9, false, 0x90, 4, 0, 1, false, none,
    [fMGL_VERIFY_FAILS_COUNT]⟩,
  ⟨"MGL_CHECK_FAILS", 9, false, 0x94, 4, 0, 1, false, none,
    [fMGL_CHECK_FAILS_COUNT]⟩,
  ⟨"MGL_BYTES_IN", 9, false, 0x98, 8, 0, 1, false, none,
    [fMGL_BYTES_IN_COUNT]⟩,
  ⟨"MGL_BYTES_OUT", 9, false, 0xA0, 8, 0, 1, false, none,
    [fMGL_BYTES_OUT_COUNT]⟩,
  ⟨"MGL_RETIRE", 9, false, 0x900, 4, 0, 1, true, none,
    [fMGL_RETIRE_THRESHOLD]⟩,
  ⟨"MGL_INJECT", 9, false, 0x904, 4, 0, 1, true, none,
    [fMGL_INJECT_ENGINE, fMGL_INJECT_GO]⟩,
  ⟨"MGL_ENGINE_00", 9, false, 0x10000, 4, 32, 18, false, none,
    [fMGL_ENGINE_STATE, fMGL_ENGINE_RETIRE_MARK, fMGL_ENGINE_LOGICAL, fMGL_ENGINE_FN_VALID, fMGL_ENGINE_FN]⟩,
  ⟨"MGL_ENGINE_04", 9, false, 0x10004, 4, 32, 18, false, none,
    [fMGL_ENGINE_JOBS]⟩,
  ⟨"MGL_ENGINE_08", 9, false, 0x10008, 4, 32, 18, false, none,
    [fMGL_ENGINE_VERIFY_FAILS]⟩]

/-- Registers of spec/12_mangle_compression.md, part 2. -/
def regs12_1 : List RegDesc := [
  ⟨"MGL_ENGINE_10", 9, false, 0x10010, 8, 32, 18, false, none,
    [fMGL_ENGINE_BYTES_OUT]⟩]

/-- Registers of spec/13_halyard_dma.md, part 1. -/
def regs13_0 : List RegDesc := [
  ⟨"HAL_GPIO_MAP", 7, false, 0x80, 4, 0, 1, false, some 15,
    [fHAL_GPIO_MAP_MODE_0, fHAL_GPIO_MAP_MODE_1, fHAL_GPIO_MAP_MODE_2, fHAL_GPIO_MAP_MODE_3, fHAL_GPIO_MAP_MODE_4, fHAL_GPIO_MAP_MODE_5, fHAL_GPIO_MAP_MODE_6, fHAL_GPIO_MAP_MODE_7]⟩,
  ⟨"HAL_CH_DONE", 7, false, 0x88, 8, 0, 1, false, none,
    [fHAL_CH_DONE_DONE]⟩,
  ⟨"HAL_BYTES", 7, false, 0x90, 8, 0, 1, false, none,
    [fHAL_BYTES_COUNT]⟩,
  ⟨"HAL_CH_CFG", 7, false, 0x10000, 4, 64, 64, false, none,
    [fHAL_CH_CFG_ASSIGNED, fHAL_CH_CFG_MODE, fHAL_CH_CFG_COMPAT, fHAL_CH_CFG_IRQ_EN, fHAL_CH_CFG_FN, fHAL_CH_CFG_VECTOR]⟩,
  ⟨"HAL_CH_RATE", 7, false, 0x10004, 4, 64, 64, false, none,
    [fHAL_CH_RATE_SHARE, fHAL_CH_RATE_BURST_LINES, fHAL_CH_RATE_DEPTH]⟩,
  ⟨"HAL_CH_STATUS", 7, false, 0x10008, 4, 64, 64, false, none,
    [fHAL_CH_STATUS_STATE, fHAL_CH_STATUS_LAST_STATUS, fHAL_CH_STATUS_LAST_SUB, fHAL_CH_STATUS_REQ_PENDING, fHAL_CH_STATUS_REQ_LOST, fHAL_CH_STATUS_ERR_VALID, fHAL_CH_STATUS_ERR_HOST]⟩,
  ⟨"HAL_CH_CTRL", 7, false, 0x1000C, 4, 64, 64, false, none,
    [fHAL_CH_CTRL_START, fHAL_CH_CTRL_CLEAR, fHAL_CH_CTRL_STOP, fHAL_CH_CTRL_REQ_SEL, fHAL_CH_CTRL_PULSE_SEL]⟩,
  ⟨"HAL_CH_SRC", 7, false, 0x10010, 8, 64, 64, false, none,
    [fHAL_CH_SRC_ADDR]⟩,
  ⟨"HAL_CH_DST", 7, false, 0x10018, 8, 64, 64, false, none,
    [fHAL_CH_DST_ADDR]⟩,
  ⟨"HAL_CH_COUNT", 7, false, 0x10020, 4, 64, 64, false, none,
    [fHAL_CH_COUNT_COUNT]⟩,
  ⟨"HAL_CH_FORMAT", 7, false, 0x10024, 4, 64, 64, false, none,
    [fHAL_CH_FORMAT_SW, fHAL_CH_FORMAT_DW, fHAL_CH_FORMAT_SRC_SPACE, fHAL_CH_FORMAT_DST_SPACE, fHAL_CH_FORMAT_CXL_CACHE]⟩,
  ⟨"HAL_CH_SSTRIDE", 7, false, 0x10028, 4, 64, 64, false, none,
    [fHAL_CH_SSTRIDE_STRIDE]⟩]

/-- Registers of spec/13_halyard_dma.md, part 2. -/
def regs13_1 : List RegDesc := [
  ⟨"HAL_CH_DSTRIDE", 7, false, 0x1002C, 4, 64, 64, false, none,
    [fHAL_CH_DSTRIDE_STRIDE]⟩,
  ⟨"HAL_CH_DONE_BYTES", 7, false, 0x10030, 4, 64, 64, false, none,
    [fHAL_CH_DONE_BYTES_BYTES]⟩,
  ⟨"HAL_CH_ERR_ADDR", 7, false, 0x10038, 8, 64, 64, false, none,
    [fHAL_CH_ERR_ADDR_ADDR]⟩]

/-- Registers of spec/14_column_volume.md, part 1. -/
def regs14_0 : List RegDesc := [
  ⟨"CVC_VOL_CFG", 10, false, 0x80, 8, 0, 1, false, some 16,
    [fCVC_VOL_CFG_MEMBERS, fCVC_VOL_CFG_PARITY, fCVC_VOL_CFG_CHUNK_LOG2, fCVC_VOL_CFG_SPARE_PORT, fCVC_VOL_CFG_SPARE_EN, fCVC_VOL_CFG_MEMBER_PORT_0, fCVC_VOL_CFG_MEMBER_PORT_1, fCVC_VOL_CFG_MEMBER_PORT_2, fCVC_VOL_CFG_MEMBER_PORT_3, fCVC_VOL_CFG_MEMBER_PORT_4, fCVC_VOL_CFG_MEMBER_PORT_5, fCVC_VOL_CFG_MEMBER_PORT_6, fCVC_VOL_CFG_MEMBER_PORT_7]⟩,
  ⟨"CVC_VOL_CTRL", 10, false, 0x88, 4, 0, 1, false, none,
    [fCVC_VOL_CTRL_OP, fCVC_VOL_CTRL_PORT]⟩,
  ⟨"CVC_VOL_STATUS", 10, false, 0x90, 8, 0, 1, false, none,
    [fCVC_VOL_STATUS_STATE, fCVC_VOL_STATUS_RESYNC, fCVC_VOL_STATUS_OP_BUSY, fCVC_VOL_STATUS_LAST_RESULT, fCVC_VOL_STATUS_MISSING, fCVC_VOL_STATUS_FOREIGN, fCVC_VOL_STATUS_GENERATION]⟩,
  ⟨"CVC_VOL_BLOCKS", 10, false, 0x98, 8, 0, 1, false, none,
    [fCVC_VOL_BLOCKS_VALUE]⟩,
  ⟨"CVC_VOL_ID", 10, false, 0xA0, 8, 0, 1, false, none,
    [fCVC_VOL_ID_VALUE]⟩,
  ⟨"CVC_LOCKS", 10, false, 0xA8, 4, 0, 1, false, none,
    [fCVC_LOCKS_IN_USE, fCVC_LOCKS_ORPHANED, fCVC_LOCKS_FIFO]⟩,
  ⟨"CVC_LOCK_RESV", 10, false, 0xAC, 4, 0, 1, false, none,
    [fCVC_LOCK_RESV_RESV_SUM, fCVC_LOCK_RESV_SHARED_SIZE]⟩,
  ⟨"CVC_COMMANDS", 10, false, 0xB0, 4, 0, 1, false, none,
    [fCVC_COMMANDS_IN_CVC]⟩,
  ⟨"CVC_DRIVE_TIMEOUT", 10, false, 0xB4, 4, 0, 1, false, some 17,
    [fCVC_DRIVE_TIMEOUT_MS]⟩,
  ⟨"CVC_REBUILD", 10, false, 0xB8, 4, 0, 1, false, some 18,
    [fCVC_REBUILD_RATE_MBS]⟩,
  ⟨"CVC_REBUILD_POS", 10, false, 0xC0, 8, 0, 1, false, none,
    [fCVC_REBUILD_POS_STRIPE]⟩,
  ⟨"CVC_PS_CAPS", 10, false, 0xD0, 8, 0, 1, false, none,
    [fCVC_PS_CAPS_EXIT_US_1, fCVC_PS_CAPS_EXIT_US_2, fCVC_PS_CAPS_EXIT_US_3, fCVC_PS_CAPS_EXIT_US_4]⟩]

/-- Registers of spec/14_column_volume.md, part 2. -/
def regs14_1 : List RegDesc := [
  ⟨"CVC_PS_TIMER", 10, false, 0xE0, 4, 4, 4, false, some 19,
    [fCVC_PS_TIMER_IDLE_US]⟩,
  ⟨"CVC_PS_STATUS", 10, false, 0xF0, 4, 0, 1, false, none,
    [fCVC_PS_STATUS_STATE, fCVC_PS_STATUS_WAKING, fCVC_PS_STATUS_WAKES]⟩,
  ⟨"CVC_MEDIA", 10, false, 0xF8, 8, 0, 1, false, none,
    [fCVC_MEDIA_REPAIRED, fCVC_MEDIA_TIMEOUTS]⟩,
  ⟨"CVC_FN_00", 10, false, 0x10000, 8, 32, 1025, false, none,
    [fCVC_FN_GRANT_BASE]⟩,
  ⟨"CVC_FN_08", 10, false, 0x10008, 8, 32, 1025, false, none,
    [fCVC_FN_GRANT_BLOCKS]⟩,
  ⟨"CVC_FN_10", 10, false, 0x10010, 4, 32, 1025, false, none,
    [fCVC_FN_ENABLE, fCVC_FN_READ_ONLY, fCVC_FN_RESV]⟩,
  ⟨"CVC_FN_14", 10, false, 0x10014, 4, 32, 1025, false, none,
    [fCVC_FN_HELD, fCVC_FN_CMDS]⟩,
  ⟨"CVC_FN_18", 10, false, 0x10018, 4, 32, 1025, false, none,
    [fCVC_FN_CMD_RESV, fCVC_FN_CMD_LIMIT]⟩,
  ⟨"DSP_PORT_00", 11, false, 0x10000, 4, 64, 8, false, none,
    [fDSP_PORT_STATE, fDSP_PORT_PRESENT, fDSP_PORT_SPEED, fDSP_PORT_WIDTH, fDSP_PORT_VWC, fDSP_PORT_ROLE, fDSP_PORT_INDEX, fDSP_PORT_LBA512]⟩,
  ⟨"DSP_PORT_04", 11, false, 0x10004, 4, 64, 8, false, none,
    [fDSP_PORT_IO_QUEUES, fDSP_PORT_MTFA]⟩,
  ⟨"DSP_PORT_08", 11, false, 0x10008, 8, 64, 8, false, none,
    [fDSP_PORT_BLOCKS]⟩,
  ⟨"DSP_PORT_10", 11, false, 0x10010, 4, 64, 8, false, none,
    [fDSP_PORT_ERRORS, fDSP_PORT_TIMEOUTS]⟩]

/-- Registers of spec/14_column_volume.md, part 3. -/
def regs14_2 : List RegDesc := [
  ⟨"DSP_PORT_14", 11, false, 0x10014, 4, 64, 8, false, none,
    [fDSP_PORT_DRIVE_PS]⟩,
  ⟨"DSP_PORT_18", 11, false, 0x10018, 8, 64, 8, false, none,
    [fDSP_PORT_COMMANDS]⟩,
  ⟨"DSP_PORT_20", 11, false, 0x10020, 4, 64, 8, false, none,
    [fDSP_PORT_RETRAIN, fDSP_PORT_DISABLE]⟩]

/-- Registers of spec/15_digest_engine.md, part 1. -/
def regs15_0 : List RegDesc := [
  ⟨"DGE_POOL", 12, false, 0x80, 4, 0, 1, false, none,
    [fDGE_POOL_FREE, fDGE_POOL_CLAIMED, fDGE_POOL_QUEUED]⟩,
  ⟨"DGE_BLOCKS", 12, false, 0x88, 8, 0, 1, false, none,
    [fDGE_BLOCKS_COUNT]⟩,
  ⟨"DGE_CLEAR_CAUSE", 12, false, 0x90, 4, 0, 1, false, none,
    [fDGE_CLEAR_CAUSE_BUS_ERROR, fDGE_CLEAR_CAUSE_ALARM_GLITCH, fDGE_CLEAR_CAUSE_ALARM_TEST_PORT, fDGE_CLEAR_CAUSE_ALARM_FATAL, fDGE_CLEAR_CAUSE_SOFT_RESET, fDGE_CLEAR_CAUSE_COUNT]⟩,
  ⟨"DGE_ALARM_TEST", 12, false, 0x900, 4, 0, 1, true, none,
    [fDGE_ALARM_TEST_GO]⟩,
  ⟨"DGE_FN_00", 12, false, 0x10000, 4, 8, 1025, false, none,
    [fDGE_FN_LIMIT, fDGE_FN_HELD]⟩,
  ⟨"DGE_FN_04", 12, false, 0x10004, 4, 8, 1025, false, none,
    [fDGE_FN_EPOCH]⟩,
  ⟨"DGE_SLOT_CTRL", 12, true, 0x4000, 4, 1024, 16, false, none,
    [fDGE_SLOT_CTRL_CLAIM, fDGE_SLOT_CTRL_RELEASE, fDGE_SLOT_CTRL_KEYED, fDGE_SLOT_CTRL_LAST, fDGE_SLOT_CTRL_EXPORT, fDGE_SLOT_CTRL_IMPORT, fDGE_SLOT_CTRL_RESTART, fDGE_SLOT_CTRL_ALG]⟩,
  ⟨"DGE_SLOT_STATUS", 12, true, 0x4004, 4, 1024, 16, false, none,
    [fDGE_SLOT_STATUS_STATE, fDGE_SLOT_STATUS_BUSY, fDGE_SLOT_STATUS_KEYED, fDGE_SLOT_STATUS_ALG, fDGE_SLOT_STATUS_LAST_STATUS, fDGE_SLOT_STATUS_LAST_SUB, fDGE_SLOT_STATUS_QWORDS]⟩,
  ⟨"DGE_SLOT_DATA", 12, true, 0x4008, 8, 1024, 16, false, none,
    [fDGE_SLOT_DATA_DATA]⟩,
  ⟨"DGE_SLOT_BLOCKS", 12, true, 0x4010, 8, 1024, 16, false, none,
    [fDGE_SLOT_BLOCKS_COUNT]⟩,
  ⟨"DGE_SLOT_CMP", 12, true, 0x4018, 4, 1024, 16, false, none,
    [fDGE_SLOT_CMP_MATCH, fDGE_SLOT_CMP_MATCH_N]⟩,
  ⟨"DGE_SLOT_DIGEST", 12, true, 0x4040, 4, 1024, 16, false, none,
    [fDGE_SLOT_DIGEST_BYTES]⟩]

/-- Registers of spec/15_digest_engine.md, part 2. -/
def regs15_1 : List RegDesc := [
  ⟨"DGE_SLOT_EXPECT", 12, true, 0x4080, 4, 1024, 16, false, none,
    [fDGE_SLOT_EXPECT_BYTES]⟩,
  ⟨"DGE_SLOT_RECORD", 12, true, 0x4100, 4, 1024, 16, false, none,
    [fDGE_SLOT_RECORD_BYTES]⟩]

/-- Registers of spec/16_memory_translation_ecc.md, part 1. -/
def regs16_0 : List RegDesc := [
  ⟨"HMC_MAP_VA", 6, false, 0x80, 8, 0, 1, false, some 20,
    [fHMC_MAP_VA_VPN]⟩,
  ⟨"HMC_MAP_PA", 6, false, 0x88, 8, 0, 1, false, some 21,
    [fHMC_MAP_PA_PPN]⟩,
  ⟨"HMC_MAP_ARGS", 6, false, 0x90, 4, 0, 1, false, some 22,
    [fHMC_MAP_ARGS_FN, fHMC_MAP_ARGS_WRITE, fHMC_MAP_ARGS_EXEC, fHMC_MAP_ARGS_COUNT]⟩,
  ⟨"HMC_MAP_CTRL", 6, false, 0x94, 4, 0, 1, false, none,
    [fHMC_MAP_CTRL_OP]⟩,
  ⟨"HMC_MAP_STATUS", 6, false, 0x98, 4, 0, 1, false, none,
    [fHMC_MAP_STATUS_BUSY, fHMC_MAP_STATUS_RESULT, fHMC_MAP_STATUS_DONE_PAGES]⟩,
  ⟨"HMC_SCRUB_CFG", 6, false, 0xA0, 4, 0, 1, false, some 23,
    [fHMC_SCRUB_CFG_PASS_MIN, fHMC_SCRUB_CFG_ENABLE]⟩,
  ⟨"HMC_BUCKET_CFG", 6, false, 0xA4, 4, 0, 1, false, some 24,
    [fHMC_BUCKET_CFG_CAPACITY, fHMC_BUCKET_CFG_LEAK, fHMC_BUCKET_CFG_WINDOW_S]⟩,
  ⟨"HMC_POISON_COUNT", 6, false, 0xB0, 4, 0, 1, false, none,
    [fHMC_POISON_COUNT_COUNT]⟩,
  ⟨"HMC_TEST_ADDR", 6, false, 0x900, 8, 0, 1, true, none,
    [fHMC_TEST_ADDR_LINE]⟩,
  ⟨"HMC_TEST_CTRL", 6, false, 0x908, 4, 0, 1, true, none,
    [fHMC_TEST_CTRL_OP]⟩,
  ⟨"HMC_TEST_CHECK", 6, false, 0x90C, 4, 0, 1, true, none,
    [fHMC_TEST_CHECK_CHECK]⟩,
  ⟨"HMC_TEST_RESULT", 6, false, 0x910, 4, 0, 1, true, none,
    [fHMC_TEST_RESULT_DECODE, fHMC_TEST_RESULT_SYMBOL, fHMC_TEST_RESULT_REFUSED]⟩]

/-- Registers of spec/16_memory_translation_ecc.md, part 2. -/
def regs16_1 : List RegDesc := [
  ⟨"HMC_TEST_DATA", 6, false, 0x940, 4, 4, 16, true, none,
    [fHMC_TEST_DATA_BYTES]⟩,
  ⟨"HMC_STACK_00", 6, false, 0x10000, 4, 64, 8, false, none,
    [fHMC_STACK_STATE, fHMC_STACK_STAGING, fHMC_STACK_SCRUB_ACTIVE]⟩,
  ⟨"HMC_STACK_04", 6, false, 0x10004, 4, 64, 8, false, none,
    [fHMC_STACK_BUCKET, fHMC_STACK_OVERFLOWS]⟩,
  ⟨"HMC_STACK_08", 6, false, 0x10008, 4, 64, 8, false, none,
    [fHMC_STACK_CORRECTED]⟩,
  ⟨"HMC_STACK_0C", 6, false, 0x1000C, 4, 64, 8, false, none,
    [fHMC_STACK_UNCORR, fHMC_STACK_POISON_WRITES]⟩,
  ⟨"HMC_STACK_10", 6, false, 0x10010, 8, 64, 8, false, none,
    [fHMC_STACK_SCRUB_POS, fHMC_STACK_PASSES]⟩,
  ⟨"HMC_STACK_18", 6, false, 0x10018, 4, 64, 8, false, none,
    [fHMC_STACK_STICKY_HELD, fHMC_STACK_STICKY_SENT, fHMC_STACK_STICKY_DROPPED]⟩,
  ⟨"HMC_FN_00", 6, false, 0x20000, 4, 8, 1025, false, none,
    [fHMC_FN_PAGES]⟩,
  ⟨"HMC_FN_04", 6, false, 0x20004, 4, 8, 1025, false, none,
    [fHMC_FN_FAULTS]⟩]

/-- Registers of spec/17_time_and_events.md. -/
def regs17_0 : List RegDesc := [
  ⟨"TSU_COUNT", 13, false, 0x80, 8, 0, 1, false, none,
    [fTSU_COUNT_COUNT]⟩,
  ⟨"TSU_LOG_SEL", 13, false, 0x88, 4, 0, 1, false, some 25,
    [fTSU_LOG_SEL_SOURCES, fTSU_LOG_SEL_TILES]⟩,
  ⟨"TSU_LOG_TOTAL", 13, false, 0x90, 8, 0, 1, false, none,
    [fTSU_LOG_TOTAL_TOTAL]⟩,
  ⟨"TSU_LOG_LOST", 13, false, 0x98, 4, 0, 1, false, none,
    [fTSU_LOG_LOST_COUNT]⟩,
  ⟨"TSU_MARK", 13, false, 0x9C, 4, 0, 1, false, none,
    [fTSU_MARK_DETAIL]⟩,
  ⟨"TSU_PTM_CTRL", 13, false, 0xA0, 4, 0, 1, false, some 26,
    [fTSU_PTM_CTRL_ENABLE, fTSU_PTM_CTRL_PERIOD_MS]⟩,
  ⟨"TSU_PTM_STATUS", 13, false, 0xA4, 4, 0, 1, false, none,
    [fTSU_PTM_STATUS_VALID, fTSU_PTM_STATUS_FAILED, fTSU_PTM_STATUS_SYNCS]⟩,
  ⟨"TSU_PTM_LOCAL", 13, false, 0xA8, 8, 0, 1, false, none,
    [fTSU_PTM_LOCAL_LOCAL]⟩,
  ⟨"TSU_PTM_HOST", 13, false, 0xB0, 8, 0, 1, false, none,
    [fTSU_PTM_HOST_HOST]⟩,
  ⟨"TSU_PTM_RATE", 13, false, 0xB8, 4, 0, 1, false, none,
    [fTSU_PTM_RATE_RATE]⟩,
  ⟨"TSU_LOG_00", 13, false, 0x10000, 8, 16, 4096, false, none,
    [fTSU_LOG_ENTRY_LO]⟩,
  ⟨"TSU_LOG_08", 13, false, 0x10008, 8, 16, 4096, false, none,
    [fTSU_LOG_ENTRY_HI]⟩]

/-- Registers of spec/18_power_reefing_and_spares.md, part 1. -/
def regs18_0 : List RegDesc := [
  ⟨"PWR_LIMIT", 14, false, 0x80, 4, 0, 1, false, some 27,
    [fPWR_LIMIT_LIMIT_W, fPWR_LIMIT_HYST_W]⟩,
  ⟨"PWR_REEF_STATUS", 14, false, 0x84, 4, 0, 1, false, none,
    [fPWR_REEF_STATUS_LEVEL, fPWR_REEF_STATUS_CONTROLLER, fPWR_REEF_STATUS_THERMAL, fPWR_REEF_STATUS_THROTTLE, fPWR_REEF_STATUS_DROOP, fPWR_REEF_STATUS_SUPPLY, fPWR_REEF_STATUS_FLOOR, fPWR_REEF_STATUS_STEPPING]⟩,
  ⟨"PWR_REEF_FLOOR", 14, false, 0x88, 4, 0, 1, false, some 28,
    [fPWR_REEF_FLOOR_LEVEL]⟩,
  ⟨"PWR_REEF_MAP", 14, false, 0x8C, 4, 0, 1, false, some 29,
    [fPWR_REEF_MAP_THROTTLE, fPWR_REEF_MAP_DROOP, fPWR_REEF_MAP_THERMAL, fPWR_REEF_MAP_SUPPLY_LOSS]⟩,
  ⟨"PWR_THROTTLE_CFG", 14, false, 0x90, 4, 0, 1, false, some 30,
    [fPWR_THROTTLE_CFG_HOLD_US]⟩,
  ⟨"PWR_THERMAL_CFG", 14, false, 0x94, 4, 0, 1, false, some 31,
    [fPWR_THERMAL_CFG_WARN_C, fPWR_THERMAL_CFG_RELEASE_C]⟩,
  ⟨"PWR_INPUT", 14, false, 0x98, 8, 0, 1, false, none,
    [fPWR_INPUT_MILLIVOLTS, fPWR_INPUT_WATTS_X10, fPWR_INPUT_MEAN_10MS_X10]⟩,
  ⟨"PWR_TEMP", 14, false, 0xA0, 4, 0, 1, false, none,
    [fPWR_TEMP_DIE_MAX_C, fPWR_TEMP_HBM_MAX_C]⟩,
  ⟨"PWR_ENERGY", 14, false, 0xA8, 8, 0, 1, false, none,
    [fPWR_ENERGY_MICROJOULES]⟩,
  ⟨"PWR_REEF_TIME", 14, false, 0xB0, 8, 8, 4, false, none,
    [fPWR_REEF_TIME_TICKS]⟩,
  ⟨"PWR_SUPPLY_STATUS", 14, false, 0xD0, 4, 0, 1, false, none,
    [fPWR_SUPPLY_STATUS_HOLDUP_OK, fPWR_SUPPLY_STATUS_ON_HOLDUP, fPWR_SUPPLY_STATUS_AUX_OK]⟩,
  ⟨"PWR_ALERT_STATUS", 14, false, 0xD4, 4, 0, 1, false, none,
    [fPWR_ALERT_STATUS_SUPPLY_LOW, fPWR_ALERT_STATUS_SUPPLY_HIGH, fPWR_ALERT_STATUS_SUPPLY_LOSS, fPWR_ALERT_STATUS_AUX_LOSS, fPWR_ALERT_STATUS_DROOP, fPWR_ALERT_STATUS_THERMAL_WARN, fPWR_ALERT_STATUS_DEVICE_FAULT]⟩]

/-- Registers of spec/18_power_reefing_and_spares.md, part 2. -/
def regs18_1 : List RegDesc := [
  ⟨"PWR_ALERT_ENABLE", 14, false, 0xD8, 4, 0, 1, false, some 32,
    [fPWR_ALERT_ENABLE_SUPPLY_LOW, fPWR_ALERT_ENABLE_SUPPLY_HIGH, fPWR_ALERT_ENABLE_SUPPLY_LOSS, fPWR_ALERT_ENABLE_AUX_LOSS, fPWR_ALERT_ENABLE_DROOP, fPWR_ALERT_ENABLE_THERMAL_WARN, fPWR_ALERT_ENABLE_DEVICE_FAULT]⟩,
  ⟨"PWR_STEP_DOWN", 14, false, 0x900, 4, 0, 1, true, none,
    [fPWR_STEP_DOWN_STEP_US]⟩,
  ⟨"PWR_RAIL_00", 14, false, 0x10000, 4, 16, 6, false, none,
    [fPWR_RAIL_NOMINAL_MV, fPWR_RAIL_DROOP_MV]⟩,
  ⟨"PWR_RAIL_04", 14, false, 0x10004, 4, 16, 6, false, none,
    [fPWR_RAIL_MILLIVOLTS, fPWR_RAIL_DROOPS]⟩,
  ⟨"PWR_RAIL_08", 14, false, 0x10008, 4, 16, 6, false, none,
    [fPWR_RAIL_MILLIWATTS]⟩,
  ⟨"DRN_POLICY", 15, false, 0x80, 4, 0, 1, false, some 33,
    [fDRN_POLICY_AUTO, fDRN_POLICY_ROW_REPAIR, fDRN_POLICY_LINK_REPAIR, fDRN_POLICY_DRAIN_US]⟩,
  ⟨"DRN_SWAP_CTRL", 15, false, 0x84, 4, 0, 1, false, none,
    [fDRN_SWAP_CTRL_KIND, fDRN_SWAP_CTRL_UNIT, fDRN_SWAP_CTRL_GO]⟩,
  ⟨"DRN_SWAP_STATUS", 15, false, 0x88, 4, 0, 1, false, none,
    [fDRN_SWAP_STATUS_BUSY, fDRN_SWAP_STATUS_KIND, fDRN_SWAP_STATUS_UNIT, fDRN_SWAP_STATUS_STEP, fDRN_SWAP_STATUS_LAST_RESULT]⟩,
  ⟨"DRN_SPARES", 15, false, 0x8C, 4, 0, 1, false, none,
    [fDRN_SPARES_TILES_LEFT, fDRN_SPARES_BANKS_LEFT, fDRN_SPARES_ENGINES_LEFT]⟩,
  ⟨"DRN_HISTORY_TOTAL", 15, false, 0x90, 4, 0, 1, false, none,
    [fDRN_HISTORY_TOTAL_TOTAL]⟩,
  ⟨"DRN_SRAM", 15, false, 0x94, 4, 0, 1, false, none,
    [fDRN_SRAM_PENDING, fDRN_SRAM_APPLIED]⟩,
  ⟨"DRN_THRESH", 15, false, 0x900, 4, 0, 1, true, none,
    [fDRN_THRESH_TILE_CORR, fDRN_THRESH_SRAM_CORR, fDRN_THRESH_LINK_ERR]⟩]

/-- Registers of spec/18_power_reefing_and_spares.md, part 3. -/
def regs18_2 : List RegDesc := [
  ⟨"DRN_CORE_MAP", 15, false, 0x10000, 4, 4, 512, false, none,
    [fDRN_CORE_MAP_TILE, fDRN_CORE_MAP_VALID]⟩,
  ⟨"DRN_TILE_WEAR_00", 15, false, 0x12000, 4, 8, 544, false, none,
    [fDRN_TILE_WEAR_CORRECTED, fDRN_TILE_WEAR_UNCORR, fDRN_TILE_WEAR_WINDOW_CORR]⟩,
  ⟨"DRN_TILE_WEAR_04", 15, false, 0x12004, 4, 8, 544, false, none,
    [fDRN_TILE_WEAR_RETIRED, fDRN_TILE_WEAR_MARKED]⟩,
  ⟨"DRN_STACK_00", 15, false, 0x14000, 4, 16, 8, false, none,
    [fDRN_STACK_PPR_USED, fDRN_STACK_PPR_LEFT]⟩,
  ⟨"DRN_STACK_04", 15, false, 0x14004, 4, 16, 8, false, none,
    [fDRN_STACK_UNREPAIRABLE]⟩,
  ⟨"DRN_LINK_00", 15, false, 0x18000, 4, 8, 224, false, none,
    [fDRN_LINK_GROUP_SWAPPED, fDRN_LINK_DEGRADED, fDRN_LINK_ERRORS]⟩,
  ⟨"DRN_HISTORY_0", 15, false, 0x20000, 8, 32, 256, false, none,
    [fDRN_HISTORY_0_RECORD]⟩,
  ⟨"DRN_HISTORY_1", 15, false, 0x20008, 8, 32, 256, false, none,
    [fDRN_HISTORY_1_RECORD]⟩,
  ⟨"DRN_HISTORY_2", 15, false, 0x20010, 8, 32, 256, false, none,
    [fDRN_HISTORY_2_RECORD]⟩,
  ⟨"DRN_HISTORY_3", 15, false, 0x20018, 8, 32, 256, false, none,
    [fDRN_HISTORY_3_RECORD]⟩]

/-- Registers of spec/19_faults_and_containment.md. -/
def regs19_0 : List RegDesc := [
  ⟨"MGT_FAULT_STATUS", 16, false, 0xC0, 4, 0, 1, false, none,
    [fMGT_FAULT_STATUS_WORST, fMGT_FAULT_STATUS_FIRST_SOURCE, fMGT_FAULT_STATUS_CONTAINED]⟩,
  ⟨"MGT_RECORD_SEL", 16, false, 0xC4, 4, 0, 1, false, some 34,
    [fMGT_RECORD_SEL_KIND, fMGT_RECORD_SEL_PAGE]⟩,
  ⟨"MGT_RECORD_STATUS", 16, false, 0xC8, 4, 0, 1, false, none,
    [fMGT_RECORD_STATUS_SNAP_VALID, fMGT_RECORD_STATUS_PLR_VALID, fMGT_RECORD_STATUS_RESET_VALID, fMGT_RECORD_STATUS_PRESERVED, fMGT_RECORD_STATUS_OVERFLOW, fMGT_RECORD_STATUS_BYTES]⟩,
  ⟨"MGT_SNAP_CTRL", 16, false, 0xCC, 4, 0, 1, false, none,
    [fMGT_SNAP_CTRL_CLEAR, fMGT_SNAP_CTRL_CLEAR_RECORDS]⟩,
  ⟨"MGT_SNAP_PRESERVE", 16, false, 0xD0, 4, 0, 1, false, some 35,
    [fMGT_SNAP_PRESERVE_PRESERVE]⟩]

/-- Every register of the device. -/
def regTable : List RegDesc :=
  regs03_0 ++ regs04_0 ++ regs04_1 ++ regs05_0 ++ regs05_1 ++ regs06_0 ++ regs06_1 ++ regs08_0 ++ regs08_1 ++ regs09_0 ++ regs11_0 ++ regs11_1 ++ regs12_0 ++ regs12_1 ++ regs13_0 ++ regs13_1 ++ regs14_0 ++ regs14_1 ++ regs14_2 ++ regs15_0 ++ regs15_1 ++ regs16_0 ++ regs16_1 ++ regs17_0 ++ regs18_0 ++ regs18_1 ++ regs18_2 ++ regs19_0

end Sys2Proof.Machine
end

