-- ==== Sys2Proof/Machine/Teardown.lean ====
section
/-! DEFINITION. What ends work before its time: queue reset and destroy (spec/06_queues_and_rings.md R156, R162, R163),
CANCEL (spec/08_bosun_scheduler.md R221 to R225), function-level reset (spec/05_host_link_and_functions.md R125 to R131)
and the soft reset of a subsystem (spec/03_clocks_reset_bringup.md R76). -/

namespace Sys2Proof.Machine

/-! ### Jobs of a channel (R361) -/

/-- Jobs of a channel that satisfy `p` end with a status: the running one at a burst boundary, a staged one at once. -/
def State.cutChannel (s : State) (p : HalJob → Bool) (status sub c : Nat) : State :=
  match s.chJobs c with
  | [] => s
  | j :: rest =>
    let refs := (rest.filter p).filterMap (fun (k : HalJob) => match k.work with
      | .copy q t => some (⟨k.fn, q, t⟩ : Ref)
      | .mangle q t _ _ => some (⟨k.fn, q, t⟩ : Ref)
      | _ => none)
    let u := refs.foldl (fun (s : State) r => s.complete r status sub 0 0) (s.setChJobs c (j :: rest.filter (fun k => !p k)))
    if !p j then u
    else
      match j.work with
      | .mangle q t _ _ =>
        let p (m : MglJob) : Bool := m.task.isNone && m.channel = c && m.qid = q && m.tag = t
        match ((u.mgl.jobs.map Prod.snd).flatten).find? p with
        | some m => (u.dropMgl p).endDesc m (m.cutResult u status sub)
        | none => u.endJob c status sub false
      | .task _ => u.nextJob c
      | _ => u.stopJob c status sub

/-- The same on every channel. -/
def State.cutChannels (s : State) (p : HalJob → Bool) (status sub : Nat) : State :=
  (List.range 64).foldl (fun (s : State) c => s.cutChannel p status sub c) s

/-- The entry that a channel's job serves. -/
def HalWork.entry : HalWork → Option (Nat × Nat)
  | .copy q t => some (q, t)
  | .mangle q t _ _ => some (q, t)
  | _ => none

/-! ### Queues (R162, R163) -/

/-- A run leaves without a completion of its own: its tasks end with TASK_KILLED `sub`, its segment is closed and it lets
go of everything. -/
def State.dropRun (s : State) (sub r : Nat) : State :=
  match (s.emptyRun r sub).run r with
  | none => s
  | some x =>
    let u := (s.emptyRun r sub).closeSegment x
    { u with bsn := { u.bsn with runs := del u.bsn.runs r } }

/-- Work of a queue ends in every subsystem; its entries have left the queue already. -/
def State.endWork (s : State) (fn qid cls : Nat) (tags : List Nat) : State :=
  match cls with
  | 1 => tags.foldl (fun s r => s.dropRun 0x01 r) s
  | 2 => (s.dropVol (fun c => c.fn = fn && c.entry.any (fun e => e.1 = qid))).pump
  | 3 => s.cutChannels (fun j => j.fn = fn && j.work.entry.any (fun e => e.1 = qid && tags.contains e.2)) 0x01 0
  | _ => s

/-- The completions that a torn-down queue owes, in order: the pending ones, those of producers that wait, whose
status is discarded, and one for each entry that is not completed. -/
def State.tornCqes (s : State) (status : Nat) (q : Queue) : List Cqe :=
  q.pend ++ (q.waiting.filter (fun w => !w.1.more)).map (fun w =>
      (⟨w.1.cid, status, 0, false, 0, s.clk.tsu, 0⟩ : Cqe)) ++ q.fetched.map (s.abortedCqe status)

/-- A queue whose entries have left it: nothing of it is fetched or owed any more. -/
def Queue.torn (q : Queue) : Queue := { q with poll := false, fetched := [], pend := [], waiting := [] }

/-- Steps 1 to 3 of R162 on a queue: its entries end with ABORTED, and what finds a slot is written. The answer counts
the written and the unwritten completions. -/
def State.tearQueue (s : State) (fn qid : Nat) : State × Nat × Nat :=
  match s.queue fn qid with
  | none => (s, 0, 0)
  | some q =>
    ((s.setQueue fn qid q.torn).endWork fn qid q.cls (q.fetched.map Entry.tag)).flushCqes fn qid false (s.tornCqes 0x01 q) 0 0

/-- SPECIFIC of DESTROY_QUEUE and RESET_QUEUE (R156). -/
def tornSpecific (w u : Nat) : Nat := min w 0xFFFF + 2 ^ 16 * min u 0xFFFF

/-- The checks of R157 for DESTROY_QUEUE and RESET_QUEUE. -/
def State.tearError (s : State) (fn : Nat) (l : Line) : Option (Nat × Nat) :=
  let qid := entryBytes l 4 2
  if entryNonzero l 6 60 then some (0x10, 0x01)
  else if !qidOk fn qid then some (0x10, 0x03)
  else if (s.queue fn qid).isNone then some (0x10, 0x05)
  else none

/-- Steps 1 to 3 with their message (R162). -/
def State.tearSignalled (s : State) (fn qid : Nat) : State × Nat × Nat :=
  let r := s.tearQueue fn qid
  (if r.2.1 = 0 then r.1 else r.1.signal fn qid, r.2.1, r.2.2)

/-- A queue as it is after step 4 of a reset. -/
def Queue.emptied (q : Queue) : Queue :=
  { q with head := 0, tail := 0, poll := false, known := false, fetched := [], pend := [], waiting := [], cqFull := false,
           unsignalled := 0, oldest := 0 }

/-- DESTROY_QUEUE (R156, R162). -/
def State.destroyQueue (s : State) (fn : Nat) (l : Line) : Nat × Nat × Nat × Nat × State :=
  match s.tearError fn l with
  | some e => (e.1, e.2, 0, 0, s)
  | none =>
    let qid := entryBytes l 4 2
    let r := s.tearSignalled fn qid
    (0, 0, 0, tornSpecific r.2.1 r.2.2, r.1.delQueue fn qid)

def execDestroyQueue (fn : Nat) (s : State) : Res :=
  steady (s.adminReady fn 0x02) (fun s => s.adminRun fn 0x02 (fun l s => s.destroyQueue fn l)) s

/-- RESET_QUEUE (R156, R162). -/
def State.resetQueue (s : State) (fn : Nat) (l : Line) : Nat × Nat × Nat × Nat × State :=
  match s.tearError fn l with
  | some e => (e.1, e.2, 0, 0, s)
  | none =>
    let qid := entryBytes l 4 2
    let r := s.tearSignalled fn qid
    (0, 0, 0, tornSpecific r.2.1 r.2.2, r.1.onQueue fn qid Queue.emptied)

def execResetQueue (fn : Nat) (s : State) : Res :=
  steady (s.adminReady fn 0x03) (fun s => s.adminRun fn 0x03 (fun l s => s.resetQueue fn l)) s

/-! ### CANCEL (R221 to R225) -/

def cancelScope (l : Line) : Nat := entryBits l 4 0 2
def cancelFn (l : Line) : Nat := entryBits l 6 0 11

/-- The checks of R222. -/
def State.cancelError (s : State) (fn : Nat) (l : Line) : Option (Nat × Nat) :=
  let sc := cancelScope l
  if entryBits l 4 2 6 ≠ 0 ∨ entryNonzero l 5 6 ∨ entryBits l 6 11 5 ≠ 0 ∨ entryNonzero l 13 16 ∨ entryNonzero l 20 60 then
    some (0x10, 0x01)
  else if sc = 3 ∨ (sc = 1 ∧ (entryNonzero l 12 13 ∨ entryNonzero l 16 20))
      ∨ (sc = 2 ∧ (entryNonzero l 8 13 ∨ entryNonzero l 16 20)) then some (0x10, 0x40)
  else if fn ≠ 0 ∧ cancelFn l ≠ fn then some (0x23, 0x04)
  else if !s.present (cancelFn l) then some (0x10, 0x41)
  else none

/-- The RUN entries that are active in the GRAPH queues of a function that satisfy `p`: their queue and tag. -/
def State.activeRuns (s : State) (fn : Nat) (p : Nat → Entry → Bool) : List Ref :=
  ((s.qmg.queues.filter (fun (kq : Nat × Queue) => kq.1 / 8192 = fn && kq.2.cls = 1)).map (fun (kq : Nat × Queue) =>
    (kq.2.fetched.filter (p (kq.1 % 8192))).map (fun e => (⟨fn, kq.1 % 8192, e.tag⟩ : Ref)))).flatten

/-- The runs that a CANCEL of TASK or RUN scope names. -/
def State.namedRuns (s : State) (l : Line) : List Ref :=
  s.activeRuns (cancelFn l) (fun q e => q = entryBytes l 8 2 && entryCid e.line = entryBytes l 10 2)

/-- Saturate the two counts of SPECIFIC. -/
def cancelSpecific (tasks runs : Nat) : Nat := min tasks 0xFFFF + 2 ^ 16 * min runs 0xFFFF

/-- Tasks of a node at a sequence number that have not ended. -/
def State.tasksAt (s : State) (r node seq : Nat) : List Nat :=
  ((s.tasksOf r).filter (fun kt => kt.2.node = node && kt.2.seq = seq && kt.2.state ≠ .ending)).map Prod.fst

/-- Tokens of a sequence number that wait at a node become SKIPPED; TOKEN_FORWARD forwards them. -/
def State.skipWaiting (s : State) (r node seq : Nat) : State :=
  s.onRun r (fun x =>
    let g := s.graphOf x
    let here (e : Nat) : Bool := decide (e < g.edges.length) && decide ((g.edge e).dst = node)
    { x with queues := x.queues.map (fun (q : Nat × List Token) =>
        if here q.1 then (q.1, q.2.map (fun t => if t.seq = seq then { t with skipped := true } else t)) else q) })

/-- TASK scope on one run (R223). -/
def State.cancelTasks (s : State) (node seq : Nat) (r : Ref) : State :=
  ((s.tasksAt r.tag node seq).foldl (fun (s : State) k => s.killTask k 0x32 0x01) s).skipWaiting r.tag node seq

/-- Sum over the runs named. -/
def sumOver (f : Ref → Nat) (rs : List Ref) : Nat := (rs.map f).foldl (· + ·) 0

/-- What a CANCEL answers (status, sub-status, SPECIFIC), the state in which its completion is produced, and what
follows it: step 5 of R224. -/
abbrev Cancelled := (Nat × Nat × Nat) × State × (State → State)

/-- CANCEL of TASK scope (R223). -/
def State.cancelTask (s : State) (fn : Nat) (l : Line) : Cancelled :=
  match s.cancelError fn l with
  | some e => ((e.1, e.2, 0), s, id)
  | none =>
    let node := entryBytes l 12 1
    let seq := entryBytes l 16 4
    let rs := s.namedRuns l
    let n := sumOver (fun r => (s.tasksAt r.tag node seq).length) rs
    ((0, if rs = [] then 0x01 else 0, cancelSpecific n 0), rs.foldl (State.cancelTasks · node seq) s, id)

/-- RUN scope on one run (R224): one that BSN has not taken yet ends with no tasks. -/
def State.cancelRun (s : State) (sub : Nat) (r : Ref) : State :=
  match s.run r.tag with
  | none => s.complete r 0x32 sub 0 0
  | some _ => s.finishRun r.tag 0x32 sub

/-- The answer of a CANCEL of runs; their final completions follow its own. -/
def State.cancelRuns (s : State) (sub : Nat) (rs : List Ref) : Cancelled :=
  ((0, if rs = [] then 0x01 else 0, cancelSpecific (sumOver (fun r => s.liveTasks r.tag) rs) rs.length), s,
    fun s => rs.foldl (State.cancelRun · sub) s)

/-- CANCEL of RUN scope (R224). -/
def State.cancelRunCmd (s : State) (fn : Nat) (l : Line) : Cancelled :=
  match s.cancelError fn l with
  | some e => ((e.1, e.2, 0), s, id)
  | none => s.cancelRuns 0x01 (s.namedRuns l)

/-- CANCEL of FUNCTION scope (R225). -/
def State.cancelFunctionCmd (s : State) (fn : Nat) (l : Line) : Cancelled :=
  match s.cancelError fn l with
  | some e => ((e.1, e.2, 0), s, id)
  | none => s.cancelRuns 0x02 (s.activeRuns (cancelFn l) (fun _ _ => true))

/-- The first CANCEL of a function's admin queue, of a scope that satisfies `p`: it runs whatever else is in progress
(R153). -/
def State.cancelNext (s : State) (fn : Nat) (p : Nat → Bool) : Option Entry :=
  match s.queue fn 0 with
  | none => none
  | some q =>
    if q.disabling then none
    else q.fetched.find? (fun e => e.stage = .handed && entryOpcode e.line = 0x18 && p (cancelScope e.line))

/-- Run a CANCEL and post its completion. -/
def State.cancelWith (s : State) (fn : Nat) (p : Nat → Bool)
    (f : State → Nat → Line → Cancelled) : State :=
  match s.cancelNext fn p with
  | none => s
  | some e =>
    let r := f s fn e.line
    r.2.2 (r.2.1.complete ⟨fn, 0, e.tag⟩ r.1.1 r.1.2.1 0 r.1.2.2)

/-- A CANCEL of a scope can run. -/
def State.cancelReady (s : State) (fn : Nat) (p : Nat → Bool) : Bool := s.running && s.ready 2 && (s.cancelNext fn p).isSome

def execCancelTask (fn : Nat) (s : State) : Res :=
  steady (s.cancelReady fn (fun c => c = 0)) (fun s => s.cancelWith fn (fun c => c = 0) State.cancelTask) s

def execCancelRun (fn : Nat) (s : State) : Res :=
  steady (s.cancelReady fn (fun c => c = 1)) (fun s => s.cancelWith fn (fun c => c = 1) State.cancelRunCmd) s

/-- A CANCEL of the reserved scope fails here as well. -/
def execCancelFunction (fn : Nat) (s : State) : Res :=
  steady (s.cancelReady fn (fun c => 2 ≤ c)) (fun s => s.cancelWith fn (fun c => 2 ≤ c) State.cancelFunctionCmd) s

/-! ### Function-level reset (R125 to R131) -/

/-- Tiles that run a task of a function. -/
def State.tilesOf (s : State) (fn : Nat) : List Nat :=
  (s.oca.filter (fun (tc : Nat × Core) => (s.tileTask tc.1).any (fun kx => kx.2.fn = fn))).map Prod.fst

/-- Step 1: the function's runs are gone, the tiles that ran its tasks are scrubbed, its graphs are freed. -/
def State.flrRuns (s : State) (fn : Nat) : State :=
  let tiles := s.tilesOf fn
  let rs := (s.bsn.runs.filter (fun (kr : Nat × Run) => kr.2.fn = fn)).map Prod.fst
  let u := tiles.foldl State.scrub (rs.foldl (fun s r => s.dropRun 0x03 r) s)
  { u with bsn := { u.bsn with graphs := u.bsn.graphs.filter (fun (kg : Nat × Graph) => kg.1 / 64 ≠ fn) } }

/-- Queue IDs in use of a function. -/
def State.qidsOf (s : State) (fn : Nat) : List Nat :=
  (s.qmg.queues.filter (fun (kq : Nat × Queue) => kq.1 / 8192 = fn)).map (fun (kq : Nat × Queue) => kq.1 % 8192)

/-- One queue of step 2: the completions that find a slot are written without a message, the pending ones first. Of those
that find none, the ABORTED_FLR ones are counted (R129). The work of its entries ends in steps 3 and 4. -/
def State.flrQueue (fn : Nat) (a : State × Nat) (qid : Nat) : State × Nat :=
  match a.1.queue fn qid with
  | none => a
  | some q =>
    let cqes := a.1.tornCqes 0x02 q
    let r := (a.1.setQueue fn qid q.torn).flushCqes fn qid false cqes 0 0
    (r.1.delQueue fn qid, a.2 + min r.2.2 (cqes.length - q.pend.length))

/-- Fields that an index chooses return to their reset values. -/
def State.resetAll (s : State) (i : Nat) (fs : List Field) : State := fs.foldl (fun (s : State) f => s.wr f i (f.resetAt i)) s

/-- The admin queue registers of a function. -/
def admFields : List Field :=
  [fQMG_ADM_SQ_BASE_BASE, fQMG_ADM_CQ_BASE_BASE, fQMG_ADM_CONFIG_SQ_LOG2, fQMG_ADM_CONFIG_CQ_LOG2, fQMG_ADM_CONFIG_MOD,
   fQMG_ADM_CONFIG_IRQ_EN, fQMG_ADM_VECTOR_VECTOR, fQMG_ADM_CONTROL_ENABLE, fQMG_ADM_STATUS_ENABLED, fQMG_ADM_STATUS_ERROR,
   fQMG_ADM_STATUS_CQ_FULL, fQMG_ADM_STATUS_ERR_SUB, fQMG_ADM_STATUS_UNPOSTED]

/-- The function event registers and the QoS readouts. -/
def flrFields : List Field :=
  [fHIF_FN_IRQ_STATUS_QOS_CAPPED, fHIF_FN_IRQ_STATUS_DENIED, fHIF_FN_IRQ_STATUS_CQ_FULL, fHIF_FN_IRQ_ENABLE_QOS_CAPPED,
   fHIF_FN_IRQ_ENABLE_DENIED, fHIF_FN_IRQ_ENABLE_CQ_FULL, fHIF_FN_EVENT_VECTOR_VECTOR, fHIF_FN_CORE_TIME_COUNT,
   fHIF_FN_HBM_BYTES_COUNT, fHIF_FN_LINK_TX_BYTES_COUNT, fHIF_FN_LINK_RX_BYTES_COUNT, fHIF_FN_CAPPED_COUNT]

/-- Step 2; the answer counts the entries that found no slot. -/
def State.flrQueues (s : State) (fn : Nat) : State × Nat :=
  let r := (s.qidsOf fn).foldl (State.flrQueue fn) (s, 0)
  (r.1.resetAll fn admFields, r.2)

/-- The bursts of a channel's running job that are started end: their writes are performed, or their reads fail. -/
def State.endBursts (s : State) (c : Nat) : Nat → State
  | 0 => s
  | n + 1 =>
    (match s.chJobs c with
      | j :: _ => if (j.bursts.head?).any (fun b => (s.burstBad j b).isSome) then s.channelHalt c 0 else s.burstEnd c
      | [] => s).endBursts c n

/-- Step 3 on one channel: its jobs end with ABORTED_FLR, the running one once the bursts that it started have ended. -/
def State.flrChannel (s : State) (fn c : Nat) : State :=
  let n := (((s.chJobs c).head?).filter (fun j => j.fn = fn)).elim 0 (fun j => j.bursts.length)
  (s.cutChannel (fun j => j.fn = fn) 0x02 0 c).endBursts c n

/-- Step 3. -/
def State.flrChannels (s : State) (fn : Nat) : State :=
  (List.range 64).foldl (fun (s : State) c => s.flrChannel fn c) s

/-- Commands of a function that drives still work on when their owner goes: their range locks are orphaned (R127). -/
def State.orphansOf (s : State) (fn : Nat) : Nat :=
  ((s.cvc.cmds.filter (fun (nc : Nat × VolCmd) => nc.2.fn = fn && !nc.2.internal && !nc.2.orphan && s.atDrives nc.1)).map
    (fun (nc : Nat × VolCmd) => nc.2.locks.length)).foldl (· + ·) 0

/-- Step 4; an admin command of PF0 that waits for a drive is forgotten. -/
def State.flrVolume (s : State) (fn : Nat) : State :=
  let u := (s.dropVol (fun c => c.fn = fn && !c.internal && !c.orphan)).pump
  if fn = 0 then { u with cvc := { u.cvc with fw := none, admin := none } } else u

/-- Step 5. -/
def State.flrDigest (s : State) (fn : Nat) : State :=
  let held := (List.range 16).filter (fun sl => (s.dslot fn sl).st ≠ 0)
  (held.foldl (fun (s : State) sl => s.releaseSlot fn sl) s).bumpWrap fDGE_FN_EPOCH fn 1

/-- A debt that is forgiven. -/
def Budget.forgiven (b : Budget) : Budget := { b with debt := 0 }

/-- Step 6. The HDM decoders are no part of a function's configuration space, and stay (notes/assumptions/90.md). -/
def State.flrHost (s : State) (fn : Nat) : State :=
  let mods := (List.range 16).foldl (fun (s : State) p =>
    s.resetAll (fn * 16 + p) [fHIF_FN_MOD_MAX_COUNT, fHIF_FN_MOD_DELAY_US]) (s.resetAll fn flrFields)
  let a := mods.acct fn
  let u := mods.setAcct fn { a with core := a.core.forgiven, hbm := a.hbm.forgiven, tx := a.tx.forgiven, rx := a.rx.forgiven }
  { u with hif := { u.hif with
      msix := u.hif.msix.filter (fun (kv : Nat × Msix) => kv.1 / 2048 ≠ fn),
      pba := u.hif.pba.filter (fun (kv : Nat × Bool) => kv.1 / 2048 ≠ fn),
      cfg := u.hif.cfg.filter (fun (kv : Nat × Nat) => kv.1 / 128 ≠ fn || decide (64 ≤ kv.1 % 128)) } }

/-- Mangle forgets the function's history and context (R126). -/
def State.flrMangle (s : State) (fn : Nat) : State :=
  (List.range 18).foldl (fun (s : State) p =>
    if s.rd fMGL_ENGINE_FN_VALID p = 1 ∧ s.rd fMGL_ENGINE_FN p = fn then s.clearEngine p else s) s

/-- `HIF_FLR_RESULT` at the end of an FLR. -/
def State.flrResult (s : State) (fn unposted orphaned : Nat) : State :=
  (((s.wr fHIF_FLR_RESULT_UNPOSTED fn (min unposted 0xFFFF)).wr fHIF_FLR_RESULT_ORPHANED fn orphaned).wr
    fHIF_FLR_RESULT_VALID fn 1).raise 1 4

/-- The function-level reset of one function (R125 to R129). Volume commands end at step 2 and their locks at step 4. -/
def State.flrOne (s : State) (fn : Nat) : State :=
  let orphans := s.orphansOf fn
  let q := (s.flrRuns fn).flrQueues fn
  (((((q.1.flrChannels fn).flrVolume fn).flrMangle fn).flrDigest fn).dropCopies (fun c => c.fn = fn)).flrHost fn |>.flrResult fn q.2 orphans

/-- Enabled VFs. -/
def State.enabledVfs (s : State) : List Nat :=
  if s.cfg 0 .vfEnable = 1 then (List.range (s.cfg 0 .numVfs)).map (· + 1) else []

/-- FLR of a function; one of PF0 resets every enabled VF first, and its configuration space loses VF Enable (R131). -/
def State.flr (s : State) (fn : Nat) : State :=
  if fn = 0 then (s.enabledVfs.foldl State.flrOne s).flrOne 0 else s.flrOne fn

def execFlr (fn : Nat) (s : State) : Res := steady (s.live fn) (fun s => s.flr fn) s

/-! ### Soft reset of a subsystem (R76, R93, R96) -/

/-- Fields of a subsystem's page that a soft reset keeps: persistent ones, and those that mirror the volume and the
module's power state. -/
def softKept : List Field :=
  [fDRN_HISTORY_TOTAL_TOTAL, fDRN_SRAM_PENDING, fDRN_SRAM_APPLIED, fCVC_VOL_STATUS_STATE, fCVC_VOL_STATUS_RESYNC,
   fCVC_VOL_STATUS_MISSING, fCVC_VOL_STATUS_FOREIGN, fCVC_VOL_STATUS_GENERATION, fCVC_VOL_BLOCKS_VALUE, fCVC_VOL_ID_VALUE,
   fCVC_REBUILD_POS_STRIPE, fCVC_PS_STATUS_STATE, fCVC_PS_STATUS_WAKING, fCVC_PS_STATUS_WAKES]

/-- Fields of a subsystem that a soft reset returns to their reset values: those of its page, and the expert fields of
its arrays (R71, R96). -/
def softFields (sub : Nat) : List Field :=
  ((regTable.filter (fun r => r.sub = sub && !r.win)).map (fun r =>
    if r.off < 0x1000 then r.fields else r.fields.filter (fun f => f.expert))).flatten.filter (fun f => !softKept.contains f)

/-- Numbers of fields with those of their overrides. -/
def withOverrides (fs : List Field) : List Nat :=
  (fs.map (fun f => if f.ovr = 0 then [f.id] else [f.id, f.x.id, f.ovr])).flatten

/-- The fields of the page header that a soft reset clears, `ENABLE` and `READY` aside. -/
def softHeader : List Field :=
  [fIRQ_STATUS_ERR, fIRQ_STATUS_FAULT, fIRQ_STATUS_SUB, fIRQ_ENABLE_ERR, fIRQ_ENABLE_FAULT, fIRQ_ENABLE_SUB,
   fERR_COUNT_COUNT, fERR_LOG_PTR_NEXT, fERR_LOG_PTR_WRAPPED, fEXPERT_UNLOCK_UNLOCKED, fEXPERT_UNLOCK_DENIED]

/-- The registers of a subsystem's page return to their reset values. -/
def State.softRegs (s : State) (sub : Nat) : State :=
  let ids := withOverrides (softFields sub)
  let u := { s with
    regs := s.regs.filter (fun (kv : Nat × Nat) => !ids.contains (kv.1 / 65536)),
    errLog := s.errLog.filter (fun (ke : Nat × ErrEntry) => ke.1 / 16 ≠ sub) }
  u.resetAll sub softHeader

/-- Tasks at places that satisfy `p` end with INTERNAL 0x01. -/
def State.endPlaced (s : State) (p : Place → Bool) : State :=
  let ks := (s.bsn.tasks.filter (fun (kt : Nat × Task) => p kt.2.place && kt.2.state ≠ .ending)).map Prod.fst
  ks.foldl (fun (s : State) k => s.killTask k 0xF0 0x01) s

/-- OCA: every running task is killed and every tile is core-reset. -/
def State.softOca (s : State) : State := (List.range 544).foldl State.coreReset s

/-- HAL: every channel stops, and its job ends with INTERNAL. -/
def State.softHal (s : State) : State :=
  (s.endPlaced (fun p => match p with | .halyard _ => true | _ => false)).cutChannels (fun _ => true) 0xF0 0x01

/-- AMU: jobs end, and the contents of every bank are cleared; runs keep their banks (DEDUCED,
notes/assumptions/42.md). -/
def State.softAmu (s : State) : State :=
  let u := s.endPlaced (fun p => match p with | .amu _ => true | _ => false)
  let v := (List.range 68).foldl (fun (s : State) b => s.wr fAMU_BANK_USED b 0) u
  { v with amu := { v.amu with
      entries := [], scrubAt := [],
      tables := v.amu.tables.map (fun (kt : Nat × AmuTable) => (kt.1, { kt.2 with
        spilled := false, damaged := false, entries := 0, multiRows := 0, keyBytes := none, payType := none })) } }

/-- MGL: jobs end, those that a channel handed over with their MOVE entries. -/
def State.softMgl (s : State) : State :=
  let u := s.endPlaced (fun p => match p with | .mangle _ => true | _ => false)
  let v := u.cutChannels (fun j => match j.work with | .mangle _ _ _ (some _) => true | _ => false) 0xF0 0x01
  (List.range 18).foldl State.clearEngine v

/-- DRN: marks and window counts are forgotten; the maps and wear counters are reloaded as they are stored. -/
def State.softDrn (s : State) : State :=
  let ids := [fDRN_TILE_WEAR_WINDOW_CORR.id, fDRN_TILE_WEAR_MARKED.id, fDRN_LINK_ERRORS.id]
  { s with
    regs := s.regs.filter (fun (kv : Nat × Nat) => !ids.contains (kv.1 / 65536)),
    darn := { s.darn with marks := [], rowCorr := [], groupErr := [] } }

/-- A soft reset that waits: DRN for a swap, CVC and DSP until CVC holds no command. -/
def softWaits (sub : Nat) : Bool := sub = 10 || sub = 11 || sub = 15

/-- What a soft reset does to a subsystem's work. -/
def State.softWork (s : State) (sub : Nat) : State :=
  match sub with
  | 4 => s.softOca
  | 7 => s.softHal
  | 8 => s.softAmu
  | 9 => s.softMgl
  | 12 => s.clearContexts 4
  | _ => s

/-- A soft reset takes READY and ENABLE at once; work and registers follow now, or where the reset waits when the
subsystem becomes ready again. -/
def State.softReset (s : State) (sub : Nat) : State :=
  if !softResets sub then s
  else
    let u := (s.wr fSTATUS_READY sub 0).wr fCONTROL_ENABLE sub 0
    if softWaits sub then
      { u with softPending := if u.softPending.contains sub then u.softPending else u.softPending ++ [sub] }
    else if sub = 12 then (u.softRegs sub).softWork sub
    else (u.softWork sub).softRegs sub

/-- SOFT_RESET: PF0 writes CONTROL with SOFT_RESET at 1; ENABLE stays 0 whatever the write gives it (R93). -/
def execSoftReset (sub : Nat) (_enable : Bool) (s : State) : Res :=
  steady (s.reaches 0 && decide (1 ≤ sub) && decide (sub ≤ 16)) (fun s => (s.atRegion sub 0x10).softReset sub) s

end Sys2Proof.Machine
end

