-- ==== Sys2Proof/Machine/Host.lean ====
section
/-! DEFINITION. The host link and configuration space: training, lane failures, power management, SR-IOV, MSI-X masks,
the link services, CXL.mem and its carve-outs (spec/05_host_link_and_functions.md R109 to R118, R132 to R136). -/

namespace Sys2Proof.Machine

/-! ### The link (R109 to R112) -/

/-- A width at which the link operates (R109). -/
def linkWidthOk (w : Nat) : Bool := w = 4 || w = 8 || w = 16

/-- The rate at which the link trains: at most `MAX_SPEED`, and at most 32 GT/s without FLIT mode (R110). -/
def State.linkSpeed (s : State) (speed : Nat) (flit : Bool) : Nat :=
  let m := min speed (s.setting fHIF_LINK_CONTROL_MAX_SPEED 0)
  if flit then m else min m 3

/-- The link trains at a rate and width that both ports support, or stays down (R109, R110, R37). -/
def State.trainLink (s : State) (speed width : Nat) (flit cxl reversed : Bool) : State :=
  let v := s.linkSpeed speed flit
  if linkWidthOk width ∧ 1 ≤ v ∧ v ≤ 4 then
    let t := ((s.wr fHIF_LINK_STATUS_SPEED 0 v).wr fHIF_LINK_STATUS_WIDTH 0 width).wr fHIF_LINK_STATUS_FLIT 0 (bit flit)
    let u := ((t.wr fHIF_LINK_STATUS_CXL 0 (bit (flit && cxl))).wr fHIF_LINK_STATUS_REVERSED 0 (bit reversed)).wr
      fHIF_LINK_STATUS_DEGRADED 0 0
    { u with hif := { u.hif with linkUp := true } }
  else s.alert fPWR_ALERT_STATUS_DEVICE_FAULT

def execLinkTrained (speed width : Nat) (flit cxl reversed : Bool) (s : State) : Res :=
  steady (s.running && s.board.pwrGood && s.board.perstN && !s.clk.held && !s.hif.linkUp)
    (fun s => s.trainLink speed width flit cxl reversed) s

/-- A lane fails and the link goes on at the next narrower width (R111). At x4 there is none, and the rule gives no outcome
of a failure there: LANE_FAILURE leaves the link as it is (DESIGN CHOICE, notes/assumptions/89.md). The spec names no unit number and no cause
code for the history record of a host lane: free values. -/
def State.narrowLink (s : State) : State :=
  let w := s.rd fHIF_LINK_STATUS_WIDTH 0 / 2
  let t := (s.wr fHIF_LINK_STATUS_WIDTH 0 w).wr fHIF_LINK_STATUS_DEGRADED 0 1
  let u := t.fault 1 { t.entry 1 2 with cause := 3 }
  (u.history 0xA (u.free % 256) 0xFFFF (u.drawn.free % 65536) 0xFFFF 0).drawn.drawn

def execLaneFailure (s : State) : Res :=
  steady (s.running && s.board.pwrGood && s.hif.linkUp && decide (8 ≤ s.rd fHIF_LINK_STATUS_WIDTH 0)) State.narrowLink s

/-- D3HOT_ENTRY (R112): the power state of PF0; QMG fetches nothing while it is 3. -/
def execD3hotEntry (s : State) : Res := steady (s.live 0) (fun s => s.setCfg 0 .powerState 3) s

def execD0Return (s : State) : Res := steady (s.live 0) (fun s => s.setCfg 0 .powerState 0) s

/-! ### SR-IOV (R114, R116) -/

/-- VF Enable is set: VF1 to VFNumVFs become present. -/
def State.enableVfs (s : State) : State := s.setCfg 0 .vfEnable 1

/-- VF Enable is cleared: every enabled VF is reset by FLR before the VFs disappear; PF0's grants are kept. -/
def State.disableVfs (s : State) : State :=
  if s.cfg 0 .vfEnable = 1 then (s.enabledVfs.foldl State.flrOne s).setCfg 0 .vfEnable 0 else s

/-- NumVFs, writable while VF Enable is 0, from 0 to 1,024. -/
def State.writeNumVfs (s : State) (n : Nat) : State :=
  if s.cfg 0 .vfEnable = 0 ∧ n ≤ 1024 then s.setCfg 0 .numVfs n else s

def execVfEnable (numVfs : Nat) (s : State) : Res :=
  steady (s.live 0 && s.cfg 0 .vfEnable = 0 && decide (numVfs ≤ 1024)) (fun s => (s.writeNumVfs numVfs).enableVfs) s

def execVfDisable (s : State) : Res := steady (s.live 0) State.disableVfs s

/-! ### MSI-X masks (R117, R118) -/

/-- The message owed on a vector is sent where nothing masks it any more. -/
def State.sendOwed (s : State) (fn vec : Nat) : State :=
  if s.msixPending fn vec ∧ !s.vecMasked fn vec ∧ s.cfg fn .msixEnable = 1 ∧ s.running ∧ s.board.pwrGood ∧ s.ready 1 then
    (s.setPending fn vec false).message fn vec
  else s

/-- Write an MSI-X table entry; a mask that is cleared sends the message owed. -/
def State.setMsix (s : State) (fn vec : Nat) (e : Msix) : State :=
  ({ s with hif := { s.hif with msix := setD Msix.blank s.hif.msix (fn * 2048 + vec) e } }).sendOwed fn vec

/-- MSIX_UNMASK of one vector. -/
def execMsixUnmask (fn vec : Nat) (s : State) : Res :=
  steady (s.reaches fn && decide (vec < vectorsOf fn))
    (fun s => (if fn = 0 then s.atRegion 1 (0x10000 + 16 * vec) else s.atWindow fn (0x1000 + 16 * vec)).setMsix fn vec
      { s.msixEntry fn vec with masked := false }) s

/-- Vectors of a function whose pending bit is set. -/
def State.owedVectors (s : State) (fn : Nat) : List Nat :=
  (s.hif.pba.filter (fun (kv : Nat × Bool) => kv.1 / 2048 = fn)).map (fun (kv : Nat × Bool) => kv.1 % 2048)

/-! ### Configuration requests (R85, R113 to R118) -/

/-- A write to a field of an HDM decoder, PF0's: one that is on keeps its fields. -/
def State.setHdm (s : State) (fn : Nat) (i : Fin 4) (item : CfgItem) (v : Nat) : State :=
  if fn = 0 ∧ s.cfg 0 (.hdmOn i) = 0 then s.setCfg 0 item v else s

/-- A configuration write to an item that software may write; every other item is read-only. -/
def State.cfgWrite (s : State) (fn : Nat) (item : CfgItem) (v : Nat) : State :=
  match item with
  | .numVfs => if fn = 0 then s.writeNumVfs v else s
  | .vfEnable => if fn ≠ 0 then s else if v % 2 = 1 then s.enableVfs else s.disableVfs
  | .memorySpace => s.setCfg fn .memorySpace (v % 2)
  | .msixEnable => s.setCfg fn .msixEnable (v % 2)
  | .msixFnMask =>
    let t := s.setCfg fn .msixFnMask (v % 2)
    (s.owedVectors fn).foldl (fun (s : State) vec => s.sendOwed fn vec) t
  | .ptmEnable => if fn = 0 then s.setCfg 0 .ptmEnable (v % 2) else s
  | .aerUncorrStatus => s.setCfg fn .aerUncorrStatus (clearBits (s.cfg fn .aerUncorrStatus) v)
  | .aerCorrStatus => s.setCfg fn .aerCorrStatus (clearBits (s.cfg fn .aerCorrStatus) v)
  | .aerUncorrSeverity => s.setCfg fn .aerUncorrSeverity (v % 2 ^ 32)
  | .powerState => if fn = 0 ∧ (v = 0 ∨ v = 3) then s.setCfg 0 .powerState v else s
  | .bar i => if fn = 0 then s.setCfg 0 (.bar i) (barType false i + (v &&& barMask false i)) else s
  | .vfBar i => if fn = 0 then s.setCfg 0 (.vfBar i) (barType true i + (v &&& barMask true i)) else s
  | .atsEnable => s.setCfg fn .atsEnable (v % 2)
  | .hdmBase i => s.setHdm fn i (.hdmBase i) (v % 2 ^ 64)
  | .hdmSize i => s.setHdm fn i (.hdmSize i) (v % 2 ^ 64)
  | .hdmWays i => if v = 1 ∨ v = 2 ∨ v = 4 then s.setHdm fn i (.hdmWays i) v else s
  | .hdmGran i => if [256, 512, 1024, 2048, 4096].contains v then s.setHdm fn i (.hdmGran i) v else s
  | .hdmOn i => if fn = 0 then s.setCfg 0 (.hdmOn i) (v % 2) else s
  | .vendorId | .deviceId | .subsystemVendorId | .subsystemId | .classCode | .revisionId | .maxPayload | .ari
  | .totalVfs | .initialVfs | .firstVfOffset | .vfStride | .pageSizes | .vfDeviceId | .routingId
  | .msixTableSize | .tagSupport | .aspmSupport | .l1Substates | .noSoftReset | .atsPageAligned | .atsGlobalInvalidate
  | .atsQueueDepth => s

/-- A configuration request: Request Retry Status until HIF is ready, or the value read and the write. -/
def State.cfgRequest (s : State) (fn : Nat) (item : CfgItem) (wr : Option Nat) : State :=
  if !(s.running && s.ready 1) then s.emit (.requestRetry fn)
  else if !s.present fn then s
  else
    match wr with
    | none => s.emit (.cfgDone fn (s.cfg fn item))
    | some v => (s.cfgWrite fn item v).emit (.cfgDone fn 0)

/-- A configuration request reaches the device: its link is not held in reset, and its clocks run (R42, R85). -/
def execConfigRequest (fn : Nat) (item : CfgItem) (wr : Option Nat) (s : State) : Res :=
  steady ((s.clocked || s.board.phase = .unlocked) && s.board.pwrGood && s.board.perstN && decide (fn ≤ 1024))
    (fun s => s.cfgRequest fn item wr) s

/-! ### Link services (R132, R133) -/

/-- Host addresses [lo, hi) that a burst of a job uses. -/
def HalJob.usesHost (j : HalJob) (lo hi : Nat) (b : Burst) : Bool :=
  let hit (w : Nat) (as : List Nat) : Bool := as.any (fun a => decide (a < hi) && decide (lo < a + w))
  (j.x.srcHost && hit j.x.sw (j.x.srcElems b.off b.len)) || (j.x.dstHost && hit j.x.dw (j.x.dstElems b.off b.len))

/-- A request of a function that uses a translation of the range is outstanding. -/
def State.hostBusy (s : State) (fn addr len : Nat) : Bool :=
  s.hal.jobs.any (fun (cj : Nat × List HalJob) =>
    cj.2.any (fun j => decide (j.fn = fn) && j.bursts.any (j.usesHost addr (addr + len))))

/-- An invalidation completes: the function's entries of the range leave the translation cache. -/
def State.atsComplete (s : State) (fn addr len : Nat) : State :=
  ({ s with hif := { s.hif with atc := s.hif.atc.filter (fun e => !(e.1 = fn && (hostPages addr len).contains e.2)) } }).emit
    (.atsDone fn addr)

/-- ATS_INVALIDATE: complete at once, or after the requests that use the entry. -/
def State.atsInvalidate (s : State) (fn addr len : Nat) : State :=
  if s.hostBusy fn addr len then { s with hif := { s.hif with atsWait := s.hif.atsWait ++ [(fn, addr, len)] } }
  else s.atsComplete fn addr len

/-- The invalidate queue of a function holds 32 requests. -/
def execAtsInvalidate (fn addr len : Nat) (s : State) : Res :=
  steady (s.live fn && s.hif.linkUp && decide ((s.hif.atsWait.filter (fun w => w.1 = fn)).length < 32))
    (fun s => s.atsInvalidate fn addr len) s

/-- The answer to a DOE object: 0 Discovery, 1 CMA/SPDM, 2 Secured CMA/SPDM. -/
def State.doeAnswer (s : State) (kind : Nat) (req : List Byte) : List Byte :=
  (if kind = 0 then Config.doeDiscovery s.draws req else Config.spdmAnswer s.draws req).take 4096

/-- A Secured CMA/SPDM object programs the IDE streams that its IDE_KM message names: the link stream, and four selective
streams with up to 8 address and 4 routing-ID association blocks each (R132). -/
def State.ideProgram (s : State) (kind : Nat) (req : List Byte) : State :=
  if kind = 2 then
    ((Config.ideStreams s.draws req).filter (fun x => decide (x.1 < 5))).foldl (fun (s : State) x =>
      { s with hif := { s.hif with ide := put s.hif.ide x.1 ⟨x.2.1, x.2.2.1.take 8, x.2.2.2.take 4⟩ } }) s
  else s

def execDoeRequest (kind : Nat) (req : List Byte) (s : State) : Res :=
  steady (s.live 0 && s.hif.linkUp && decide (kind < 3) && decide (req.length ≤ 4096))
    (fun s => ((s.ideProgram kind req).drawn).emit (.doe (s.doeAnswer kind req))) s

/-- CXL is in use on the link. -/
def State.cxlUp (s : State) : Bool := s.running && s.board.pwrGood && s.ready 1 && s.hif.linkUp && s.rd fHIF_LINK_STATUS_CXL 0 = 1

def execCxlSnoop (addr : Nat) (s : State) : Res := steady s.cxlUp (fun s => s.emit (.snoopMiss addr)) s

/-! ### CXL.mem and carve-outs (R134 to R136, R415, R428, R432) -/

/-- The lines that `n` bytes at a device physical address touch. -/
def dpaLines (dpa n : Nat) : List Nat :=
  if n = 0 then [] else (List.range ((dpa + n - 1) / 64 - dpa / 64 + 1)).map (fun i => dpa / 64 + i)

/-- The host reaches every line of a range: it lies in an enabled carve-out, and no page of it is the device's. -/
def State.cxlReaches (s : State) (dpa n : Nat) : Bool :=
  (dpaLines dpa n).all (fun l => s.inCarveOut (64 * l) && !s.devicePage (64 * l / pageBytes))

/-- A CXL.mem access outside every carve-out is recorded in HIF's log and raises CXL_MEM_REFUSED (R134). -/
def State.cxlRefused (s : State) (a kind : Nat) : State :=
  s.fault 1 { s.entry 1 5 with addr := a, kind := kind, cause := 5 }

/-- Free bytes: what the spec leaves open of a refused read's data. -/
def State.freeBytes (s : State) (n : Nat) : List Byte := (List.range n).map (fun i => BitVec.ofNat 8 (s.free / 256 ^ i))

/-- Where a host physical address lies in HBM, by the HDM decoders from `i` on that are enabled (R134): the decoder that
holds it removes the interleave of its ways; each decoder's part of HBM follows those of the decoders before it, as the
CXL specification has it (PRESUMED, notes/assumptions/90.md). -/
def State.hdmLook (s : State) (hpa : Nat) : List (Fin 4) → Nat → Option Nat
  | [], _ => none
  | i :: rest, dpa =>
    let off := hpa - s.cfg 0 (.hdmBase i)
    let size := s.cfg 0 (.hdmSize i)
    let ways := s.cfg 0 (.hdmWays i)
    let gran := s.cfg 0 (.hdmGran i)
    if s.cfg 0 (.hdmOn i) = 0 then s.hdmLook hpa rest dpa
    else if s.cfg 0 (.hdmBase i) ≤ hpa ∧ off < size then some (dpa + off / (gran * ways) * gran + off % gran)
    else s.hdmLook hpa rest (dpa + size / ways)

def State.hdmDpa (s : State) (hpa : Nat) : Option Nat := s.hdmLook hpa [0, 1, 2, 3] 0

/-- Where an access of `n` bytes lies that the host makes and an enabled carve-out holds. -/
def State.cxlAddr (s : State) (hpa n : Nat) : Option Nat := (s.hdmDpa hpa).filter (fun dpa => s.cxlReaches dpa n)

/-- What an access outside every carve-out is recorded with: its device physical address, or the host address that no
decoder holds. -/
def State.cxlOutside (s : State) (hpa : Nat) : State :=
  match s.hdmDpa hpa with
  | some dpa => s.cxlRefused dpa 1
  | none => s.cxlRefused hpa 3

/-- CXL.mem is served in link arbitration: it has part of its share against the host-link weights of all functions left,
or no function waits for the link in that direction (R121, R123). -/
def State.cxlTurn (s : State) (tx : Bool) : Bool :=
  let weight := s.setting1 fHIF_LINK_CONTROL_CXLMEM_WEIGHT 0
  let total := (List.range 1025).foldl (fun n f => n + s.linkWeight f) weight
  !overShare s.hif.capLink total (if tx then s.hif.cxlTx else s.hif.cxlRx) weight || (s.linkDemand tx).isEmpty

/-- Bytes of CXL.mem count in the accounting window, for no function (R123). -/
def State.cxlUse (s : State) (tx : Bool) (n : Nat) : State :=
  if tx then { s with hif := { s.hif with cxlTx := s.hif.cxlTx + n } }
  else { s with hif := { s.hif with cxlRx := s.hif.cxlRx + n } }

def State.cxlRead (s : State) (hpa n : Nat) : State :=
  match s.cxlAddr hpa n with
  | some dpa =>
    let ls := dpaLines dpa n
    let t := ls.foldl State.readLine s
    t.emit (.cxlData (((t.linesBytes ls).drop (dpa % 64)).take n) (ls.any (fun l => t.lineClass l = 3)))
  | none => ((s.drawn).cxlOutside hpa).emit (.cxlData (s.freeBytes n) true)

def execCxlMemRead (hpa len : Nat) (s : State) : Res :=
  steady (s.cxlUp && s.cxlTurn true) (fun s => (s.cxlUse true len).cxlRead hpa len) s

def State.cxlWrite (s : State) (hpa : Nat) (d : List Byte) : State :=
  match s.cxlAddr hpa d.length with
  | some dpa => (linePieces dpa d (d.length + 1)).foldl (fun (s : State) p => (s.writeWithinLine p.1 p.2).1) s
  | none => s.cxlOutside hpa

def execCxlMemWrite (hpa : Nat) (data : List Byte) (s : State) : Res :=
  steady (s.cxlUp && s.cxlTurn false) (fun s => (s.cxlUse false data.length).cxlWrite hpa data) s

/-- Units of 256 MiB of a carve-out as its registers hold it: first and end. -/
def State.coRange (s : State) (co : Nat) : Nat × Nat :=
  (s.rd fHIF_CO_BASE co, s.rd fHIF_CO_BASE co + s.rd fHIF_CO_UNITS co)

/-- A carve-out is enabled, or will be once PS3 has been left (R399). -/
def State.coOn (s : State) (co : Nat) : Bool := s.rd fHIF_CO_ENABLE co = 1 || s.hif.coWait.contains co

/-- A carve-out overlaps another enabled one. -/
def State.coOverlaps (s : State) (co : Nat) : Bool :=
  (List.range 64).any (fun i => decide (i ≠ co) && s.coOn i
    && decide ((s.coRange i).1 < (s.coRange co).2) && decide ((s.coRange co).1 < (s.coRange i).2))

/-- A carve-out may be enabled: 1 to 1,152 units within the address space, in ready stacks, overlapping no other. A
stack holds 144 units. -/
def State.coAllowed (s : State) (co : Nat) : Bool :=
  let r := s.coRange co
  decide (r.1 < r.2) && decide (r.2 ≤ 1152) && !s.coOverlaps co
    && (List.range 8).all (fun st => decide (r.2 ≤ 144 * st) || decide (144 * (st + 1) ≤ r.1) || s.stackReady st)

/-- A write sets ENABLE of a carve-out: applied, after the exit of PS3 where the module is in it, or refused and counted
in `HIF_ERR_COUNT`. -/
def State.coEnable (s : State) (co : Nat) : State :=
  if s.coOn co then s
  else if !s.coAllowed co then s.notice 1 0xFFFF
  else if 3 ≤ s.psState then { s with hif := { s.hif with coWait := s.hif.coWait ++ [co] } }
  else s.wr fHIF_CO_ENABLE co 1

/-- A write clears ENABLE. -/
def State.coDisable (s : State) (co : Nat) : State :=
  ({ s with hif := { s.hif with coWait := s.hif.coWait.erase co } }).wr fHIF_CO_ENABLE co 0

def execCarveOutEnable (co : Nat) (s : State) : Res := steady (s.reaches 0 && decide (co < 64)) (fun s => (s.atRegion 1 (0x30000 + 16 * co)).coEnable co) s

/-- CARVE_OUT_DISABLE: every accepted access has completed, since an access is one step of the model. -/
def execCarveOutDisable (co : Nat) (s : State) : Res :=
  steady (s.reaches 0 && decide (co < 64)) (fun s => (s.atRegion 1 (0x30000 + 16 * co)).coDisable co) s

end Sys2Proof.Machine
end

