-- ==== Sys2Proof/Machine/Reef.lean ====
section
/-! DEFINITION. Reefing: the demands, the level in force, the power limit, heat, throttle and droop
(spec/18_power_reefing_and_spares.md R449 to R458; spec/02_module_power_and_pins.md R53, R54). -/

namespace Sys2Proof.Machine

/-- The CCLK divider of a reef level (R449). -/
def levelDivider (level : Nat) : Nat := if level = 0 then 3 else if level = 1 then 4 else 6

/-- The nominal VDD_CORE of a reef level in mV (R449). -/
def levelCoreMv (level : Nat) : Nat := if level = 0 then 750 else if level = 1 then 680 else 620

/-- The THROTTLE demand is active: the pin is recognised low, or its hold time runs (R54). -/
def State.throttleOn (s : State) : Bool := s.board.throttleLow || s.board.throttleRise.isSome

/-- The demand of each source (R450), highest governing. -/
def State.demandThermal (s : State) : Nat := if s.reef.thermal then s.setting fPWR_REEF_MAP_THERMAL 0 else 0
def State.demandThrottle (s : State) : Nat := if s.throttleOn then s.setting fPWR_REEF_MAP_THROTTLE 0 else 0
def State.demandDroop (s : State) : Nat := if s.board.droopAt.isSome then s.setting fPWR_REEF_MAP_DROOP 0 else 0
def State.demandSupply (s : State) : Nat := if s.board.faultAt.isSome then 3 else 0
def State.demandFloor (s : State) : Nat := s.setting fPWR_REEF_FLOOR_LEVEL 0
def State.demandController (s : State) : Nat := s.rd fPWR_REEF_STATUS_CONTROLLER 0

/-- The highest of the demands (R450). -/
def State.demand (s : State) : Nat :=
  max (max (max s.demandController s.demandThermal) (max s.demandThrottle s.demandDroop))
    (max s.demandSupply s.demandFloor)

/-- The level in force. -/
def State.level (s : State) : Nat := s.rd fPWR_REEF_STATUS_LEVEL 0

/-- A request for a CCLK divider: it takes effect at the next boundary of 12 root cycles, two TCLK ticks; a request that
has not taken effect is forgotten (R68). -/
def State.requestDiv (s : State) (d : Nat) : State :=
  { s with clk := { s.clk with divReq := some d, divAt := (s.clk.tsu / 2 + 1) * 2 % 2 ^ 64 } }

/-- Put a level in force: the CCLK divider of the level is requested, and REEF_CHANGE is raised (R451, R452). -/
def State.setLevel (s : State) (l : Nat) : State :=
  let t := (s.wr fPWR_REEF_STATUS_LEVEL 0 l).requestDiv (levelDivider l)
  { t with reef := { t.reef with changedAt := t.clk.tsu } }.raise 14 2

/-- Compare the demands with the level in force: a rise goes straight to the new level and abandons a fall in
progress; a lower demand starts a fall, which STEP_DOWN takes one level at a time (R451, R452, R458). -/
def State.reefAgain (s : State) : State :=
  if s.level < s.demand then (s.wr fPWR_REEF_STATUS_STEPPING 0 0).setLevel s.demand
  else s.wr fPWR_REEF_STATUS_STEPPING 0 (bit (s.demand < s.level))

/-- The same where the derived clocks run; elsewhere the demands are compared when they start again. -/
def State.reefNow (s : State) : State := if s.clocked then s.reefAgain else s

/-- STEP_DOWN (R452): at least STEP_US (20 or more) microseconds after the previous change. -/
def execStepDown (s : State) : Res :=
  enabled (s.clocked && s.rd fPWR_REEF_STATUS_STEPPING 0 = 1
      && s.reef.changedAt + ticksOfUs (max 20 (s.rd fPWR_STEP_DOWN_STEP_US 0)) ≤ s.clk.tsu)
    (fun s => (s.setLevel (s.level - 1)).reefAgain) s

/-- The boundary of 12 root cycles that a request waits for begins now (R68). -/
def Clocks.atBoundary (c : Clocks) : Bool := c.divReq.isSome && c.divAt = c.tsu

/-- The latest request takes effect. -/
def Clocks.divided (c : Clocks) : Clocks := { c with div := c.divReq.getD c.div, divReq := none }

/-- CCLK_DIVIDER_CHANGE: the latest request takes effect at the boundary (R68). -/
def execCclkDividerChange (s : State) : Res :=
  enabled (s.clocked && s.clk.atBoundary) (fun s => { s with clk := s.clk.divided }) s

/-- PWR_REEF_FLOOR: PF0 writes the floor level (R450, R451). -/
def execPwrReefFloor (level : Nat) (s : State) : Res :=
  enabled (s.reaches 0 && s.ready 14)
    (fun s => ((s.atRegion 14 0x88).wr fPWR_REEF_FLOOR_LEVEL 0 level).reefAgain) s

/-- The write of PWR_LIMIT: 300 W to 800 W, else the previous values are kept and a NOTICE is logged (R454). -/
def State.writeLimit (s : State) (fw fh : Field) (watts hyst : Nat) : State :=
  if 300 ≤ watts ∧ watts ≤ 800 then (s.wr fw 0 watts).wr fh 0 hyst else s.notice 14 0xFFFF

/-- PWR_LIMIT: PF0 writes the sustained limit and the hysteresis (R454). -/
def execPwrLimit (watts hyst : Nat) (s : State) : Res :=
  steady (s.reaches 0 && s.ready 14)
    (fun s => (s.atRegion 14 0x80).writeLimit fPWR_LIMIT_LIMIT_W fPWR_LIMIT_HYST_W (lowBits 10 watts) (lowBits 8 hyst)) s

/-- The sum of the newest `n` window means. -/
def windowSum (n : Nat) (ws : List Nat) : Nat := (ws.take n).foldl (· + ·) 0

/-- The controller's demand after a window (R454): the rise of rule 1 or 2, then the fall of rule 3. `ws` holds the
window means in 0.1 W, newest first; the answer is the demand and the windows that have ended since its last rise. DEDUCED
(notes/assumptions/19.md): a rise counts to the window at whose end it comes. -/
def controllerStep (limit hyst : Nat) (ws : List Nat) (demand since : Nat) : Nat × Nat :=
  let peak := min (limit + 100) 900
  let n := since + 1
  let rise := ws.headD 0 > peak * 10 ∨ (ws.length = 1000 ∧ windowSum 1000 ws > limit * 10 * 1000 ∧ n ≥ 10)
  let d1 := if rise then min 3 (demand + 1) else demand
  let n1 := if rise then 0 else n
  if ws.length ≥ 100 ∧ windowSum 100 ws + hyst * 10 * 100 < limit * 10 * 100 ∧ n1 ≥ 100 then (d1 - 1, n1)
  else (d1, n1)

/-- The power of each rail over the window: a measurement, whose value nothing gives. -/
def State.railPowers (s : State) : State :=
  (List.range 6).foldl (fun (s : State) r => (s.wr fPWR_RAIL_MILLIWATTS r s.free).drawn) s

/-- CONTROLLER_WINDOW_END (R454, R455): `dw` is the mean input power of the window in 0.1 W, `mv` the INPUT voltage at
its end and `uj` the energy that entered the module in it. -/
def execControllerWindowEnd (dw mv uj : Nat) (s : State) : Res :=
  enabled (s.clocked && s.reef.lastWindow < s.clk.tsu / 8000)
    (fun s =>
      let ws := (dw :: s.reef.windows).take 1000
      let lim := s.setting fPWR_LIMIT_LIMIT_W 0
      let r := controllerStep lim (s.setting fPWR_LIMIT_HYST_W 0) ws s.demandController s.reef.sinceRise
      let t := { s with
        reef := { s.reef with windows := ws, sinceRise := r.2, lastWindow := s.reef.lastWindow + 1 },
        board := { s.board with inputMv := mv } }
      let u := (t.wr fPWR_REEF_STATUS_CONTROLLER 0 r.1).reefAgain
      let v := ((u.wr fPWR_INPUT_MILLIVOLTS 0 mv).wr fPWR_INPUT_WATTS_X10 0 dw).wr fPWR_INPUT_MEAN_10MS_X10 0
        (windowSum 1000 ws / ws.length)
      let w := (v.bumpWrap fPWR_ENERGY_MICROJOULES 0 uj).railPowers
      if ws.length = 1000 ∧ windowSum 1000 ws > lim * 10 * 1000 ∧ r.1 = 3 then w.raise 14 3 else w) s

/-- The warning temperature in force: clamped to 70 °C to 110 °C. -/
def State.warnC (s : State) : Nat := min 110 (max 70 (s.setting fPWR_THERMAL_CFG_WARN_C 0))

/-- THERMAL_SAMPLE (R456): the hottest die and HBM readings in °C. -/
def execThermalSample (die hbm : Nat) (s : State) : Res :=
  enabled s.clocked
    (fun s =>
      let t := (s.wr fPWR_TEMP_DIE_MAX_C 0 die).wr fPWR_TEMP_HBM_MAX_C 0 hbm
      let hot := max die hbm
      if s.warnC ≤ hot then
        let u := { t with reef := { t.reef with thermal := true, coolSince := none } }
        u.reefAgain.alert fPWR_ALERT_STATUS_THERMAL_WARN
      else if !t.reef.thermal then t
      else if hot + t.setting fPWR_THERMAL_CFG_RELEASE_C 0 < s.warnC then
        let since := t.reef.coolSince.getD t.clk.tsu
        if since + ticksOfMs 1 ≤ t.clk.tsu then
          ({ t with reef := { t.reef with thermal := false, coolSince := none } }).reefAgain
        else { t with reef := { t.reef with coolSince := some since } }
      else { t with reef := { t.reef with coolSince := none } }) s

/-- Nominal voltage of a main rail in mV (R457); VDD_CORE follows the level. -/
def State.railNominal (s : State) (rail : Nat) : Nat :=
  match rail with
  | 0 => levelCoreMv s.level
  | 1 => 850 | 2 => 1100 | 3 => 400 | 4 => 850 | _ => 1800

/-- Droop threshold of a main rail, in hundredths of a mV (R457). -/
def State.railDroop (s : State) (rail : Nat) : Nat :=
  match rail with
  | 0 => s.railNominal 0 * 94
  | 1 => 80000 | 2 => 104500 | 3 => 38000 | 4 => 80000 | _ => 170000

/-- A rail's sample is at or above its threshold plus 2 % of nominal (R452). -/
def State.railGood (s : State) (rail mv : Nat) : Bool := s.railDroop rail + s.railNominal rail * 2 ≤ mv * 100

/-- The reading of a rail lies below its threshold: a new droop of the rail counts, and the DROOP demand starts where no
rail made it before (R457). -/
def State.railLow (s : State) (rail : Nat) : State :=
  { s.bumpSat fPWR_RAIL_DROOPS rail (bit (find s.board.droopRails rail).isNone) with
    board := { s.board with
      droopRails := put s.board.droopRails rail 0, droopAt := some (s.board.droopAt.getD s.clk.now),
      droopAlerted := s.board.droopAt.isSome && s.board.droopAlerted } }

/-- The reading of a rail that made the DROOP demand is good: after 10 µs of them its part of the demand ends. A rail's
entry is 1 more than the time of its first good reading, or 0 (R452). -/
def State.railRecovers (s : State) (rail since : Nat) : State :=
  if since = 0 then { s with board := { s.board with droopRails := put s.board.droopRails rail (s.clk.now + 1) } }
  else if since - 1 + ticksOfUs 10 ≤ s.clk.now then
    let rails := del s.board.droopRails rail
    ({ s with board := { s.board with
        droopRails := rails, droopAt := if rails = [] then none else s.board.droopAt } }).reefAgain
  else s

/-- DROOP_SAMPLE (R457, R452): a sample of one rail. -/
def execDroopSample (rail mv : Nat) (s : State) : Res :=
  enabled (s.clocked && rail < 6)
    (fun s =>
      let t := s.wr fPWR_RAIL_MILLIVOLTS rail mv
      if mv * 100 < s.railDroop rail then (t.railLow rail).reefAgain
      else
        match find t.board.droopRails rail with
        | none => t
        | some since =>
          if s.railGood rail mv then t.railRecovers rail since
          else { t with board := { t.board with droopRails := put t.board.droopRails rail 0 } }) s

/-- DROOP_ALERT (R53): the droop reef has lasted more than 1 ms. -/
def execDroopAlert (s : State) : Res :=
  steady (s.clocked && !s.board.droopAlerted && s.board.droopAt.any (fun t => t + ticksOfMs 1 < s.clk.now))
    (fun s => ({ s with board := { s.board with droopAlerted := true } }).alert fPWR_ALERT_STATUS_DROOP) s

/-- THROTTLE_N_FALL (R54): a low pulse of `lowNs` nanoseconds so far. Shorter than 50 ns it is ignored, from 100 ns it
is recognised; between the two the spec leaves it open, a free value. A running hold restarts. The pin is watched while
aux is present (R34). -/
def execThrottleNFall (lowNs : Nat) (s : State) : Res :=
  let seen := 100 ≤ lowNs ∨ (50 ≤ lowNs ∧ s.free % 2 = 1)
  enabled s.auheundOn
    (fun s =>
      let t := if 50 ≤ lowNs ∧ lowNs < 100 then s.drawn else s
      if seen then
        ({ t with board := { t.board with throttleLow := true, throttleRise := none } }).reefNow
      else t) s

/-- THROTTLE_N_RISE (R54): the release hold time starts. -/
def execThrottleNRise (s : State) : Res :=
  steady (s.auheundOn && s.board.throttleLow)
    (fun s => { s with board := { s.board with throttleLow := false, throttleRise := some s.clk.now } }) s

/-- THROTTLE_HOLD_END (R452): HOLD_US has passed since the pin rose. -/
def execThrottleHoldEnd (s : State) : Res :=
  enabled (s.auheundOn && s.board.throttleRise.any
      (fun t => t + ticksOfUs (s.setting fPWR_THROTTLE_CFG_HOLD_US 0) ≤ s.clk.now))
    (fun s => ({ s with board := { s.board with throttleRise := none } }).reefNow) s

/-! ### Alert causes that persist (R55) -/

/-- The condition of an alert cause persists. INPUT is what the last command told of it. -/
def State.alertHolds (s : State) (f : Field) : Bool :=
  if f.id = fPWR_ALERT_STATUS_SUPPLY_LOW.id then decide (38000 ≤ s.board.inputMv) && decide (s.board.inputMv < 40000)
  else if f.id = fPWR_ALERT_STATUS_SUPPLY_HIGH.id then decide (60000 < s.board.inputMv)
  else if f.id = fPWR_ALERT_STATUS_SUPPLY_LOSS.id then s.board.faultAt.isSome
  else if f.id = fPWR_ALERT_STATUS_AUX_LOSS.id then !s.board.auxOk
  else if f.id = fPWR_ALERT_STATUS_DROOP.id then s.board.droopAt.isSome && s.board.droopAlerted
  else if f.id = fPWR_ALERT_STATUS_THERMAL_WARN.id then s.reef.thermal
  else false

/-- A cause whose condition persists is raised again at once. -/
def State.alertAgain (s : State) (f : Field) : State := if s.alertHolds f then s.alert f else s

/-- The causes after a reset, which clears them all. -/
def State.alertsAgain (s : State) : State := alertFields.foldl (fun (s : State) p => s.alertAgain p.1) s

/-- Software or the sideband clears latched causes. -/
def State.clearAlerts (s : State) (p : Field → Bool) : State :=
  alertFields.foldl (fun (s : State) q => if p q.1 ∧ s.rd q.1 0 = 1 then (s.wr q.1 0 0).alertAgain q.1 else s) s

end Sys2Proof.Machine
end

