-- ==== Sys2Proof/Machine/Power.lean ====
section
/-! DEFINITION. The module's supplies and input disturbances (spec/02_module_power_and_pins.md). The orderly stops and
the cold reset stand in Reset.lean. -/

namespace Sys2Proof.Machine

/-- MAIN_RAILS_START (R41, R33, R52, R57): aux in range for `auxMs` ms, `mv` at `P54V`, `PWR_EN` high after having been
low for `lowMs` ms, or both supplies removed since the stop. -/
def execMainRailsStart (auxMs mv lowMs : Nat) (removed : Bool) (s : State) : Res :=
  steady (s.board.phase = .off && s.board.auxOk && 50 ≤ auxMs && 40000 ≤ mv
      && (s.board.stopLatch = 0 || 10 ≤ lowMs || removed))
    (fun s => { s with board := { s.board with
      phase := .starting, pwrEn := true, stopLatch := 0, thermTrip := false, inputMv := mv, inputSwitch := true,
      holdupSwitch := false } }) s

/-- HOLDUP_CHARGED (R41): the bank reads 57 V or more. -/
def execHoldupCharged (mv : Nat) (s : State) : Res :=
  steady (s.board.phase ≠ .off && s.board.faultAt.isNone && 57000 ≤ mv)
    (fun s => { s with board := { s.board with holdupOk := true } }) s

/-- AUX_POWER_UP (R62, R39): `P3V3_AUX` comes within range; the straps are sampled once. -/
def execAuxPowerUp (mv straps : Nat) (s : State) : Res :=
  steady (!s.board.auxOk && 3135 ≤ mv && mv ≤ 3465)
    (fun s => { s with board := { s.board with auxOk := true, smbusAddr := some (0x58 + straps % 8) } }) s

/-- `P3V3_AUX` is out of its range (R39). -/
def auxBad (mv : Nat) : Bool := mv < 3135 || 3465 < mv

/-- AUX_LOSS (R44): the module runs on from the standby converter. -/
def execAuxLoss (mv : Nat) (s : State) : Res :=
  steady (s.board.auxOk && s.board.pwrGood && auxBad mv)
    (fun s => ({ s with board := { s.board with auxOk := false } }).alert fPWR_ALERT_STATUS_AUX_LOSS) s

/-- INPUT is compared with its thresholds from the start of the rails on: the input switch is closed, or opened by a
fault (R41, R45). -/
def State.inputWatched (s : State) : Bool := s.board.phase ≠ .off

/-- SUPPLY_LOW (R45, R55): INPUT from 38 V to below 40 V for 100 µs. -/
def execSupplyLow (mv us : Nat) (s : State) : Res :=
  steady (s.inputWatched && 38000 ≤ mv && mv < 40000 && 100 ≤ us)
    (fun s => ({ s with board := { s.board with inputMv := mv } }).alert fPWR_ALERT_STATUS_SUPPLY_LOW) s

/-- SUPPLY_HIGH (R45, R55): INPUT above 60 V for 100 µs. Above 80 V the spec guarantees no behaviour. -/
def execSupplyHigh (mv us : Nat) (s : State) : Res :=
  if 80000 < mv then .fault .beyondAbsoluteMaximum
  else steady (s.inputWatched && 60000 < mv && 100 ≤ us)
    (fun s => ({ s with board := { s.board with inputMv := mv } }).alert fPWR_ALERT_STATUS_SUPPLY_HIGH) s

/-- The response to an input fault (R47): the input switch opens, the hold-up switch closes, SUPPLY_LOSS is latched and
the module reefs to CLOSE. -/
def State.inputFault (s : State) (mv : Nat) : State :=
  let t := { s with board := { s.board with
    inputMv := mv, inputSwitch := false, holdupSwitch := true, faultAt := some s.clk.now,
    faultTs := s.clk.tsu, faultHoldup := s.board.holdupOk } }
  (t.alert fPWR_ALERT_STATUS_SUPPLY_LOSS).reefNow

/-- SURGE (R45, R46): INPUT above 63 V for `us` microseconds. A surge of 100 µs or less is ridden through unless it
begins within 100 ms of the start of one that was. -/
def execSurge (mv us : Nat) (s : State) : Res :=
  if 80000 < mv then .fault .beyondAbsoluteMaximum
  else enabled (s.inputWatched && s.board.faultAt.isNone && 63000 < mv)
    (fun s =>
      if s.board.surgeAt.any (fun t => s.clk.now < t + ticksOfMs 100) ∨ 100 < us then s.inputFault mv
      else { s with board := { s.board with surgeAt := some s.clk.now } }) s

/-- INPUT_FAULT (R45, R47): INPUT below 38 V, or above 63 V for more than 100 µs. -/
def execInputFault (mv us : Nat) (s : State) : Res :=
  if 80000 < mv then .fault .beyondAbsoluteMaximum
  else enabled (s.inputWatched && s.board.faultAt.isNone && (mv < 38000 || (63000 < mv && 100 < us)))
    (fun s => s.inputFault mv) s

/-- INPUT_RECOVERY (R48): INPUT between 39 V and 60 V for 100 µs, before the 1 ms qualification ends (R49). Whether the
bank is still at 57 V or more is open: a free value. -/
def execInputRecovery (mv us : Nat) (s : State) : Res :=
  enabled (s.inputWatched && 39000 ≤ mv && mv ≤ 60000 && 100 ≤ us && s.board.faultHoldup
      && s.board.faultAt.any (fun t => s.clk.now < t + ticksOfMs 1))
    (fun s => ({ s with board := { s.board with
      inputMv := mv, inputSwitch := true, holdupSwitch := false, faultAt := none,
      holdupOk := s.board.holdupOk && s.free % 2 = 1 } }).drawn.reefNow) s

/-- RAIL_OUT_OF_LIMITS (R56): `PWR_GOOD` falls. -/
def execRailOutOfLimits (rail mv : Nat) (s : State) : Res :=
  steady (s.railsUp && s.board.pwrGood && rail < 6)
    (fun s => { s.wr fPWR_RAIL_MILLIVOLTS rail mv with board := { s.board with pwrGood := false } }) s

/-- The pin groups of R58. -/
inductive Pin where
  | hostTx | hostRx | hostRefclk | drvTx | drvRx | drvRefclk | drvPerst | pwrGood | openDrain | smbus | controlIn
  | gpio | uartTx | straps
  deriving DecidableEq, Repr

/-- What a pin group does (R58). -/
inductive PinState where
  | highZ | highZNoTerm | noTermNoBack | noTerm | highZNoBack | received | notDriven | drivenLow | drivenHigh | active
  | noBack | strap | inService
  deriving DecidableEq, Repr

/-- The conditions of R58: unpowered, aux only, reset, and in service. -/
inductive PinCond where
  | unpowered | auxOnly | reset | service
  deriving DecidableEq, Repr

/-- The condition of the module's pins (R58). -/
def State.pinCond (s : State) : PinCond :=
  if s.board.phase = .off then (if s.board.auxOk then .auxOnly else .unpowered)
  else if s.board.phase = .starting ∨ !s.board.pwrGood ∨ !s.board.perstN then .reset
  else .service

/-- The state of each pin group (R58). -/
def State.pin (s : State) (p : Pin) : PinState :=
  match p, s.pinCond with
  | .hostTx, .service | .hostRx, .service | .hostRefclk, .service | .drvTx, .service | .drvRx, .service
  | .drvRefclk, .service | .drvPerst, .service | .gpio, .service => .inService
  | .hostTx, _ | .drvTx, _ => .highZNoTerm
  | .hostRx, .reset | .drvRx, .reset => .noTerm
  | .hostRx, _ | .drvRx, _ => .noTermNoBack
  | .hostRefclk, .reset => .received
  | .hostRefclk, _ => .highZNoBack
  | .drvRefclk, .reset => .notDriven
  | .drvRefclk, _ => .highZ
  | .drvPerst, .unpowered => .highZ
  | .drvPerst, _ => .drivenLow
  | .pwrGood, .unpowered => .highZ
  | .pwrGood, _ => if s.board.pwrGood then .drivenHigh else .drivenLow
  | .openDrain, .unpowered | .smbus, .unpowered | .uartTx, .unpowered | .gpio, _ => .highZ
  | .openDrain, _ | .smbus, _ | .uartTx, _ => .active
  | .controlIn, .unpowered => .noBack
  | .controlIn, _ => .received
  | .straps, _ => .strap

end Sys2Proof.Machine
end

