-- ==== Sys2Proof/Machine/Reset.lean ====
section
/-! DEFINITION. Resets and stops of the whole device: cold and warm reset, the orderly stop, the thermal trip and the
loss of PLL lock (spec/03_clocks_reset_bringup.md R66 to R77; spec/02_module_power_and_pins.md R33, R41 to R52). -/

namespace Sys2Proof.Machine

/-! ### What a reset clears (R9, R71, R72) -/

/-- Persistent fields: every reset keeps them (R9, R72, R468). -/
def persistentFields : List Field :=
  [fMGT_LAST_STOP_CAUSE, fMGT_BOOT_COUNT_COUNT, fMGT_SNAP_PRESERVE_PRESERVE, fDRN_SRAM_APPLIED, fDRN_HISTORY_TOTAL_TOTAL,
   fDRN_CORE_MAP_TILE, fDRN_CORE_MAP_VALID, fDRN_TILE_WEAR_CORRECTED, fDRN_TILE_WEAR_UNCORR, fDRN_TILE_WEAR_RETIRED,
   fDRN_STACK_PPR_USED, fDRN_STACK_UNREPAIRABLE, fDRN_LINK_GROUP_SWAPPED, fDRN_LINK_DEGRADED, fAMU_BANK_FALSE_HITS,
   fAMU_BANK_SCRUB_FIXED, fMGL_ENGINE_VERIFY_FAILS]

/-- The bits of `MGT_RESET_CAUSE`: a warm reset keeps those already set (R71). -/
def causeFields : List Field :=
  [fMGT_RESET_CAUSE_COLD, fMGT_RESET_CAUSE_PERST, fMGT_RESET_CAUSE_HOT_RESET, fMGT_RESET_CAUSE_WARM_REG,
   fMGT_RESET_CAUSE_WARM_SIDEBAND, fMGT_RESET_CAUSE_FATAL_AUTO]

/-- `MGT_RESET_CAUSE` bits [5:0]. -/
def State.resetCauses (s : State) : Nat := (causeFields.map (fun f => s.rd f 0 * 2 ^ f.lo)).foldl (· + ·) 0

/-- The registers with the kept fields alone: every other one reads its reset value. -/
def keepRegs (kept : List Field) (rs : NMap Nat) : NMap Nat :=
  rs.filter (fun (kv : Nat × Nat) => (kept.map Field.id).contains (kv.1 / 65536))

/-- Darning after a reset: the history, the repair list and the repaired rows stay; a swap and marks are lost (R470). -/
def Darn.kept (d : Darn) (tsu : Nat) : Darn :=
  { Darn.reset with history := d.history, sramRows := d.sramRows, pprBank := d.pprBank, wearWindow := tsu / wearTicks }

/-- The main domain returns to its reset values; windows go on from the TSU count. -/
def State.mainReset (s : State) (kept : List Field) (tsu : Nat) : State :=
  { s with
    regs := keepRegs kept s.regs, hif := { Hif.reset with qosWindow := tsu / 8000 }, tsu := Tsu.reset,
    reef := { Reef.reset with lastWindow := tsu / 8000, changedAt := tsu }, darn := s.darn.kept tsu,
    errLog := [], failedSubs := [], softPending := [], qmg := Qmg.reset, hmc := Hmc.reset, bsn := Bosun.reset, oca := [], mast := [],
    amu := Amu.reset, mgl := Mgl.reset, hal := Hal.reset, cvc := Cvc.reset, dge := Dge.reset, hbm := [] }

/-- Rows of SRAM arrays on the repair list are replaced during self-test (R466). -/
def State.applyRows (s : State) : State :=
  let rows := s.darn.sramRows
  let u := s.bumpSat fDRN_SRAM_APPLIED 0 rows.length
  rows.foldl (fun (s : State) k => s.history 7 1 0xFFFF (k / 2 ^ 32) 0xFFFF 0) { u with darn := { u.darn with sramRows := [] } }

/-- The TSU event of a reset release (R442 kind 4). -/
def State.releaseEvent (s : State) : State := s.record 16 4 none s.resetCauses

/-! ### Stop records (R51, R74, R483) -/

/-- The volume writes that CVC had accepted and not completed: their entries, and the volume blocks that they touch. -/
def State.openWrites (s : State) : List (StopEntry × List (Nat × Nat)) :=
  s.cvc.cmds.filterMap (fun (nc : Nat × VolCmd) =>
    if nc.2.kind = .write ∧ !nc.2.orphan then
      nc.2.entry.bind (fun qt =>
        ((s.queue nc.2.fn qt.1).bind (fun q => q.fetched.find? (fun e => e.tag = qt.2))).map (fun e =>
          (⟨nc.2.fn, qt.1, entryCid e.line, entryBytes e.line 8 8, entryBytes e.line 16 4⟩, nc.2.ranges)))
    else none)

/-- A stop record of at most 2,048 entries. -/
def State.stopRecord (s : State) (kind cause step faultTs declTs : Nat) : StopRecord :=
  let ws := s.openWrites.take 2048
  ⟨kind, cause, step, faultTs, declTs, s.rd fMGT_BOOT_COUNT_COUNT 0, ws.map Prod.fst, (ws.map Prod.snd).flatten⟩

/-! ### Power down (R33, R43, R49 to R52, R70) -/

/-- Auheund is reset when both its supplies are lost (R72): what it holds outside its non-volatile store is gone. -/
def State.auheundReset (s : State) : State :=
  { s with board := { s.board with smbusAddr := none },
           store := { s.store with health := 1, sensors := [], eventsOn := false } }

/-- The main rails are removed: `PWR_GOOD` and every `DRV_PERST_N` fall, the main domain loses what it held, and how
the rails went down is recorded for `MGT_LAST_STOP`. -/
def State.railsOff (s : State) (cause : Nat) : State :=
  let u := s.mainReset persistentFields 0
  let v : State := { u with
    board := { u.board with
      phase := .off, pwrGood := false, stopLatch := cause, inputSwitch := false, holdupSwitch := false, holdupOk := false,
      faultAt := none, faultTs := 0, faultHoldup := false, surgeAt := none, perstN := false, drvPerstN := 0,
      droopAt := none, droopAlerted := false, droopRails := [] },
    clk := { Clocks.reset with now := s.clk.now },
    store := { u.store with lastStop := cause } }
  if v.board.auxOk then v else v.auheundReset

/-- What the stop left behind for the next assembly (R389). -/
def State.leaveRecord (s : State) (r : Option StopRecord) : State :=
  match r with
  | some x => { s with store := { s.store with powerLoss := some x, lastRec := 1 } }
  | none => { s with store := { s.store with lastRec := 3 } }

/-- Ports whose drive controller is enabled: those in READY. The spec defines no such state; a port that trains again or
whose drive the device does not use is taken not to be (DESIGN CHOICE, notes/assumptions/89.md). -/
def State.enabledPorts (s : State) : List Nat := (List.range 8).filter (fun p => s.rd fDSP_PORT_STATE p = 3)

/-- Step 3 of R50, or step 4 of R73: every enabled drive controller is told to shut down. -/
def State.shutDrives (s : State) (shn : Nat) : State :=
  s.enabledPorts.foldl (fun (s : State) p => s.emit (.driveShutdown p shn)) s

/-- The orderly stop of R50 with `steps` of its five steps completed. -/
def State.orderlyStop (s : State) (cause steps faultTs declTs : Nat) : State :=
  let r := if 2 ≤ steps then some (s.stopRecord 1 cause steps faultTs declTs) else none
  let u := s.leaveRecord r
  (if 3 ≤ steps then u.shutDrives 2 else u).railsOff cause

/-- BROWN_OUT (R49 to R52): 1 ms after an input fault, or at once where HOLDUP_OK was 0; then no step is guaranteed, and
with `P3V3_AUX` gone as well both supplies are lost without a whole stop. -/
def State.brownOut (s : State) : State :=
  let t := s.board.faultTs
  if s.board.faultHoldup then s.orderlyStop 2 5 t s.clk.tsu
  else
    let n := s.free % 6
    s.drawn.orderlyStop (if n < 5 ∧ !s.board.auxOk then 4 else 2) n t s.clk.tsu

def execBrownOut (s : State) : Res :=
  enabled (s.inputWatched && s.board.faultAt.any (fun t => !s.board.faultHoldup || decide (t + ticksOfMs 1 ≤ s.clk.now)))
    State.brownOut s

/-- PWR_EN_FALL (R43, R57, R70): the orderly stop with `P54V` present; after a loss of lock, without derived clocks, the
rails are removed without it. The record's time stamps have no meaning that the spec gives for this stop: free values. -/
def State.pwrEnFall (s : State) : State :=
  let u := { s with board := { s.board with pwrEn := false } }
  if s.board.phase = .starting then { u with board := { u.board with phase := .off } }
  else if s.board.phase = .pllLost ∨ s.board.phase = .pllFailed then (u.leaveRecord none).railsOff 1
  else u.drawn.drawn.orderlyStop 1 5 u.free u.drawn.free

def execPwrEnFall (s : State) : Res := enabled (s.board.phase ≠ .off && s.board.pwrEn) State.pwrEnFall s

/-- THERM_TRIP (R33): no orderly stop; the trip is latched. -/
def State.thermalTrip (s : State) : State :=
  let u := (s.leaveRecord none).railsOff 3
  { u with board := { u.board with thermTrip := true } }

/-- The trip governs over every reset and stop, the rise of the rails included (R77). -/
def execThermTrip (celsius : Nat) (s : State) : Res :=
  enabled (decide (s.board.phase ≠ .off) && decide (115 ≤ celsius)) State.thermalTrip s

/-- AUX_SUPPLY_REMOVED (R44, R59, R72): `P3V3_AUX` goes while the main rails are not up. -/
def execAuxSupplyRemoved (s : State) : Res :=
  steady (!s.railsUp && s.board.auxOk)
    (fun s => ({ s with board := { s.board with auxOk := false, phase := .off } }).auheundReset) s

/-! ### Cold reset (R41, R67, R71) -/

/-- RAILS_UP: `PWR_GOOD` rises, the main domain is reset, the persistent counts and the stop's cause are loaded. -/
def State.coldReset (s : State) : State :=
  let u := s.mainReset persistentFields 0
  let v := ((u.wr fMGT_LAST_STOP_CAUSE 0 u.store.lastStop).bumpSat fMGT_BOOT_COUNT_COUNT 0 1).applyRows
  ({ v with board := { v.board with phase := .unlocked, pwrGood := true, perstN := false, drvPerstN := 0 },
            clk := { Clocks.reset with now := s.clk.now, releaseAt := s.clk.now } }).newDeviceKey.alertsAgain

def execRailsUp (s : State) : Res := enabled (s.board.phase = .starting) State.coldReset s

/-- PLL_LOCK: the derived clocks start. -/
def execPllLock (s : State) : Res :=
  enabled (s.board.phase = .unlocked)
    (fun s => ({ s with board := { s.board with phase := .run } }).reefAgain.releaseEvent) s

/-! ### Warm reset (R73, R74, R77) -/

/-- Bursts that a channel has started end, and the channel stops (R73 step 3). -/
def State.finishBursts (c : Nat) : Nat → State → State
  | 0, s => s
  | n + 1, s =>
    match s.chJobs c with
    | [] => s
    | j :: rest =>
      match j.bursts with
      | [] => s
      | b :: _ => if (s.burstBad j b).isSome then s else finishBursts c n (s.burstMoved c rest j b.len)

/-- Steps 1 to 3: Bosun and QMG stop, tasks stop, Halyard stops at burst boundaries. -/
def State.quiesce (s : State) : State := (List.range 64).foldl (fun (s : State) c => State.finishBursts c 16 s) s

/-- Quiescing reaches neither the clock root nor the pins. -/
def State.quiesced (s : State) : State := { s.offClock State.quiesce with board := s.board }

/-- A warm reset starts, or is merged into the one in progress; then bring-up waits for `PERST_N` as well. -/
def State.startWarm (s : State) (cause : Field) : State :=
  if s.board.phase = .warm then
    let u := s.wr cause 0 1
    { u with clk := { u.clk with held := true } }
  else
    let u := s.quiesced.wr cause 0 1
    { u with board := { u.board with phase := .warm }, clk := { u.clk with held := false, warmAt := u.clk.tsu } }

/-- The host link goes down. -/
def State.dropLink (s : State) : State := { s with hif := { s.hif with linkUp := false } }

/-- PERST_N_LOW: every `DRV_PERST_N` is low while `PERST_N` is (R58). -/
def State.perstLow (s : State) : State :=
  let u := { s with board := { s.board with perstN := false, drvPerstN := 0 } }
  if s.clocked then (u.startWarm fMGT_RESET_CAUSE_PERST).dropLink else u.dropLink

def execPerstNLow (s : State) : Res := enabled (s.railsUp && s.board.perstN) State.perstLow s

/-- PERST_N_RISE (R42, R77, R78): bring-up that was held restarts now. -/
def State.perstRise (s : State) : State :=
  let u := { s with board := { s.board with perstN := true } }
  if s.clk.held then
    { u with clk := { u.clk with held := false, releaseAt := if s.running then u.clk.now else u.clk.releaseAt } }
  else u

def execPerstNRise (s : State) : Res := enabled (s.railsUp && s.board.pwrGood && !s.board.perstN) State.perstRise s

def execHotReset (s : State) : Res :=
  enabled (s.clocked && s.board.pwrGood && s.hif.linkUp) (fun s => (s.startWarm fMGT_RESET_CAUSE_HOT_RESET).dropLink) s

def execLinkDown (s : State) : Res :=
  enabled (s.clocked && s.hif.linkUp) (fun s => (s.startWarm fMGT_RESET_CAUSE_HOT_RESET).dropLink) s

/-- The write of `MGT_WARM_RESET`. -/
def State.writeWarmReset (s : State) (key : Nat) : State :=
  if key = 0xA5C3 then s.startWarm fMGT_RESET_CAUSE_WARM_REG else s

def execMgtWarmReset (key : Nat) (s : State) : Res :=
  enabled (s.reaches 0 && s.ready 16) (fun s => (s.atRegion 16 0xA8).writeWarmReset (lowBits 16 key)) s

/-- The drives have ended their commands, or step 4 has taken its 100 ms. -/
def State.drivesQuiet (s : State) : Bool :=
  (s.cvc.drv.isEmpty && s.cvc.admin.isNone) || decide (s.clk.warmAt + ticksOfMs 100 ≤ s.clk.tsu)

/-- The reset of step 5: as a cold one, but the TSU counter, the clock root and the causes stay. -/
def State.warmClear (s : State) : State :=
  let u := s.mainReset (persistentFields ++ causeFields) s.clk.tsu
  ({ u with board := { u.board with drvPerstN := 0 } }).applyRows.newDeviceKey

/-- RESET_RELEASE: steps 4 to 6. The clock root is not reset: the divider of level OPEN, which is in force again, is
requested (R68, R449). The highest step that the reset record gives is 4 or 5: the spec does not say whether
the step that writes it counts. -/
def State.resetRelease (s : State) : State :=
  let r := s.stopRecord 2 s.resetCauses (4 + s.free % 2) s.clk.warmAt 0
  let t := s.drawn.shutDrives 1
  let u := ({ t with store := { t.store with resetRec := some r, lastRec := 2 } }).warmClear
  let v : State := { u with
    board := { u.board with phase := .run },
    clk := { u.clk with
      releaseAt := u.clk.now, held := u.clk.held && !u.board.perstN, stackNext := 0, assembled := false } }
  ((v.requestDiv 3).reefAgain).releaseEvent.alertsAgain

def execResetRelease (s : State) : Res := enabled (s.board.phase = .warm && s.drivesQuiet) State.resetRelease s

/-! ### Loss of PLL lock (R70) -/

/-- PLL_LOCK_LOSS: a FATAL fault without a snapshot, at which the digest contexts are cleared (R410). Every derived clock
stops. -/
def State.lockLost (s : State) : State :=
  let u := (s.wr fMGT_RESET_CAUSE_FATAL_AUTO 0 1).writeLog 16 { s.entry 16 4 with unit := 0xFFFF }
  let f := (((u.noteClass 4 16).pageFault 16).alert fPWR_ALERT_STATUS_DEVICE_FAULT).aer true
  let v := if f.ready 12 then f.clearContexts 3 else f
  { v with board := { v.board with phase := .pllLost }, clk := { v.clk with lostAt := v.clk.now } }

def execPllLockLoss (s : State) : Res := enabled s.clocked State.lockLost s

/-- The 10 ms in which the PLL may relock have passed. -/
def State.lockGone (s : State) : Bool := s.clk.lostAt + ticksOfMs 10 ≤ s.clk.now

/-- PLL_RELOCK: a warm reset follows, from its first step on. -/
def State.relock (s : State) : State :=
  let u := s.quiesced
  { u with board := { u.board with phase := .warm }, clk := { u.clk with warmAt := u.clk.tsu } }

def execPllRelock (s : State) : Res := enabled (s.board.phase = .pllLost && !s.lockGone) State.relock s

/-- PLL_RELOCK_TIMEOUT: the module stays stopped with DEVICE_FAULT on `ALERT_N`. -/
def execPllRelockTimeout (s : State) : Res :=
  steady (s.board.phase = .pllLost && s.lockGone)
    (fun s => (s.wr fPWR_ALERT_STATUS_DEVICE_FAULT 0 1) |> fun u => { u with board := { u.board with phase := .pllFailed } }) s

end Sys2Proof.Machine
end

