-- ==== Sys2Proof/Machine/Bringup.lean ====
section
/-! DEFINITION. Bring-up: subsystems, masts, stacks, drive ports and the assembly of the volume
(spec/03_clocks_reset_bringup.md R78 to R84; spec/14_column_volume.md R370, R389 to R391). -/

namespace Sys2Proof.Machine

/-- Bring-up goes on: the clocks run and no merged warm reset waits for `PERST_N` (R77). -/
def State.bringing (s : State) : Bool := s.running && !s.clk.held

/-- At least `ms` milliseconds have passed since `PWR_GOOD` or reset release (R78). -/
def State.elapsed (s : State) (ms : Nat) : Bool := decide (s.clk.releaseAt + ticksOfMs ms ≤ s.clk.now)

/-! ### SUBSYSTEM_READY (R76, R79) -/

/-- Replace a unit that failed self-test, or mark it failed where no spare is left (R316, R464): the good spares, the
kind of the history record for a swap, the state codes, and the fields of the unit. -/
structure SpareKind where
  sub : Nat
  history : Nat
  retired : Nat
  failed : Nat
  state : Field
  logical : Field

def bankKind : SpareKind := ⟨8, 3, 4, 5, fAMU_BANK_STATE, fAMU_BANK_LOGICAL⟩
def engineKind : SpareKind := ⟨9, 4, 5, 6, fMGL_ENGINE_STATE, fMGL_ENGINE_LOGICAL⟩

/-- Put unit `u` into service as logical unit `u`, or a spare in its place, reported for a bank as a swap in service is (R316);
the answer is the spares left. -/
def State.placeUnit (k : SpareKind) (mask : Nat) (a : State × List Nat) (u : Nat) : State × List Nat :=
  if !mask.testBit u then ((a.1.wr k.state u 0).wr k.logical u u, a.2)
  else
    match a.2 with
    | n :: rest =>
      let t := (((a.1.wr k.state u k.retired).wr k.state n 0).wr k.logical n u).history k.history 4 u u n 0
      (if k.sub = 8 then (t.raise 8 3).swapEnds 1 u 1 else t, rest)
    | [] =>
      let t := (a.1.wr k.state u k.failed).fault k.sub { a.1.entry k.sub 2 with unit := u }
      let v := (t.history 0xB 4 u u 0xFFFF 0).raise 15 3
      (if k.sub = 8 then (v.raise 8 3).swapEnds 1 u 3 else v, [])

/-- The spare map is applied: `n` logical units, spares from `n` to `n` + `m` − 1, the mask of the units that failed
self-test. -/
def State.placeUnits (s : State) (k : SpareKind) (n m spareState mask : Nat) : State :=
  let spares := (List.range m).map (· + n)
  let good := spares.filter (fun u => !mask.testBit u)
  let bad := spares.filter (fun u => mask.testBit u)
  let r := (List.range n).foldl (State.placeUnit k mask) (s, good)
  let t := r.2.foldl (fun (s : State) u => s.wr k.state u spareState) r.1
  bad.foldl (fun (s : State) u =>
    let v := (s.wr k.state u k.failed).history 0xB 4 0xFFFF u 0xFFFF 0
    if k.sub = 8 then v.raise 8 3 else v) t

/-- What a subsystem prepares before it is ready; the map of banks and engines is laid out once after a reset. -/
def State.prepare (s : State) (sub failed : Nat) : State :=
  match sub with
  | 8 => if (List.range 68).all (fun b => s.rd fAMU_BANK_LOGICAL b = 127) then s.placeUnits bankKind 64 4 3 failed else s
  | 9 => if (List.range 18).all (fun b => s.rd fMGL_ENGINE_LOGICAL b = 31) then s.placeUnits engineKind 16 2 4 failed else s
  | _ => s

/-- CVC holds no command. -/
def State.cvcIdle (s : State) : Bool := s.cvc.cmds.isEmpty && s.cvc.drv.isEmpty && s.cvc.admin.isNone && s.cvc.fw.isNone
    && !s.qmg.queues.any (fun (kq : Nat × Queue) => kq.2.cls = 2 && kq.2.fetched.any (fun e => e.stage ≠ .fetched))
    && !s.bsn.tasks.any (fun (kt : Nat × Task) => kt.2.place = .cvc && kt.2.state = .running)

/-- The condition under which a subsystem becomes ready. CVC becomes ready by the assembly of the volume, or by this
step where a soft reset of it waited that was written after the assembly (R76, R79). -/
def State.readyCond (s : State) (sub : Nat) : Bool :=
  match sub with
  | 1 => s.hif.linkUp && s.board.perstN && s.board.pwrGood
  | 2 => s.ready 1
  | 4 => s.rd fMGT_READY_MAP_MAST_MAST_READY 0 ≠ 0
  | 6 => s.rd fMGT_READY_MAP_MEM_STACK_READY 0 ≠ 0
  | 10 => s.softPending.contains 10 && s.clk.assembled && s.cvcIdle
  | 11 => !s.softPending.contains 11 || s.cvcIdle
  | 15 => !s.softPending.contains 15 || s.darn.current.isNone
  | _ => true

/-- DSP's soft reset trains every port again that is not disabled: one with a drive, while `PERST_N` is high, at once. -/
def State.portAgain (s : State) (p : Nat) : State :=
  if s.rd fDSP_PORT_DISABLE p = 1 then s
  else if s.drvHere p then ((s.drvPerst p false).setPort p 0).trainArrived p
  else (s.drvPerst p false).setPort p 0

/-- A soft reset that waited takes effect: registers, and for DSP its ports train again, for DRN its maps are
reloaded. -/
def State.softTakes (s : State) (sub : Nat) : State :=
  if !s.softPending.contains sub then s
  else
    let u := { (if sub = 15 then s.softDrn else s) with softPending := s.softPending.filter (fun x => x ≠ sub) }
    let v := u.softRegs sub
    if sub = 11 then (List.range 8).foldl State.portAgain v else v

/-- A subsystem sets `STATUS.READY`; the functions are ready with HIF, QMG and BSN (R84). -/
def State.becomeReady (s : State) (sub failed : Nat) : State := ((s.softTakes sub).prepare sub failed).wr fSTATUS_READY sub 1

def execSubsystemReady (sub failed : Nat) (s : State) : Res :=
  steady (s.bringing && decide (1 ≤ sub) && decide (sub ≤ 16) && !s.ready sub && s.readyCond sub)
    (fun s => s.becomeReady sub failed) s

/-- `HIF_FN_STATUS.READY` of a function (R84). -/
def State.fnReady (s : State) (fn : Nat) : Bool := s.ready 1 && s.ready 2 && s.ready 3 && s.present fn

/-! ### Masts (R80, R12, R460) -/

/-- The logical core that a tile carries. -/
def State.coreOn (s : State) (t : Nat) : Option Nat :=
  ((List.range 16).map (fun i => 16 * mastOf t + i)).find? (fun c => s.rd fDRN_CORE_MAP_VALID c = 1 && s.rd fDRN_CORE_MAP_TILE c = t)

/-- The tiles of a mast. -/
def mastTiles (m : Nat) : List Nat := (List.range 17).map (fun i => 17 * m + i)

/-- A tile that fails: it fails self-test now, or a swap retired it. -/
def State.tileBad (s : State) (m mask t : Nat) : Bool := mask.testBit (t - 17 * m) || s.rd fDRN_TILE_WEAR_RETIRED t = 1

/-- A failed mast: a contained error. -/
def State.failMast (s : State) (m : Nat) : State :=
  (s.wr fMGT_FAIL_MAP_MAST_MAST_FAIL 0 (withBit (s.rd fMGT_FAIL_MAP_MAST_MAST_FAIL 0) m)).fault 4 { s.entry 4 2 with unit := 0xFFFF }

/-- A tile that passed takes the place that the map gives it. -/
def State.placeTile (s : State) (t : Nat) : State :=
  match s.coreOn t with
  | some c => (s.wr fOCA_TILE_STATE t tsService).wr fOCA_TILE_LOGICAL t c
  | none => (s.wr fOCA_TILE_STATE t tsSpare).wr fOCA_TILE_LOGICAL t 1023

/-- A tile that failed enters FAILED; the spare takes its core. -/
def State.dropTile (s : State) (good : List Nat) (t : Nat) : State :=
  let u := ((s.wr fOCA_TILE_STATE t tsFailed).wr fOCA_TILE_LOGICAL t 1023).raise 4 3
  match s.coreOn t, good.find? (fun n => (s.coreOn n).isNone) with
  | some c, some n => (u.wr fDRN_CORE_MAP_TILE c n).history 1 4 c t n 0
  | some _, none => u
  | none, _ => if s.rd fDRN_TILE_WEAR_RETIRED t = 1 then u else u.history 0xB 4 0xFFFF t 0xFFFF 0

/-- A mast ends its self-test: `mask` has a bit for each of its 17 tiles that fails. -/
def State.mastTested (s : State) (m mask : Nat) : State :=
  let bad := (mastTiles m).filter (s.tileBad m mask)
  let good := (mastTiles m).filter (fun t => !s.tileBad m mask t)
  let u := if bad.length ≤ 1 then bad.foldl (fun (s : State) t => s.dropTile good t) s
    else bad.foldl (fun (s : State) t => (s.wr fOCA_TILE_STATE t tsFailed).raise 4 3) s
  let v := good.foldl State.placeTile u
  (if bad.length ≤ 1 then
    v.wr fMGT_READY_MAP_MAST_MAST_READY 0 (withBit (v.rd fMGT_READY_MAP_MAST_MAST_READY 0) m)
  else v.failMast m).checkDone

/-- A mast whose outcome is open. -/
def State.mastOpen (s : State) (m : Nat) : Bool := s.bringing && decide (m < 32) && !s.mastReady m && !s.mastFailed m

def execMastReady (mast failMask : Nat) (s : State) : Res :=
  paced (s.mastOpen mast && s.elapsed 150) (fun s => s.mastTested mast failMask) s

def execMastTimeout (mast : Nat) (s : State) : Res :=
  paced (s.mastOpen mast && s.elapsed 600) (fun s => (s.failMast mast).checkDone) s

/-! ### Stacks (R78, R81) -/

/-- The stack that trains now. -/
def State.stackTrains (s : State) (st : Nat) : Bool := s.bringing && decide (st < 8) && decide (s.clk.stackNext = st)

/-- Training of the next stack begins. -/
def State.nextStack (s : State) : State := { s with clk := { s.clk with stackNext := s.clk.stackNext + 1 } }

/-- A stack is trained, and every line of it holds zero with good check bytes. -/
def State.stackUp (s : State) (st : Nat) : State :=
  let u := s.wr fHMC_STACK_STATE st 1
  (u.wr fMGT_READY_MAP_MEM_STACK_READY 0 (withBit (u.rd fMGT_READY_MAP_MEM_STACK_READY 0) st)).nextStack.checkDone

def execStackTrained (stack : Nat) (s : State) : Res :=
  paced (s.stackTrains stack && s.elapsed 200) (fun s => s.stackUp stack) s

/-- A stack fails: a contained error. -/
def State.stackDown (s : State) (st : Nat) : State :=
  let u := s.wr fHMC_STACK_STATE st 2
  let v := u.wr fMGT_FAIL_MAP_MEM_STACK_FAIL 0 (withBit (u.rd fMGT_FAIL_MAP_MEM_STACK_FAIL 0) st)
  ((v.fault 6 { v.entry 6 2 with unit := st }).nextStack).checkDone

/-- 200 ms + 87.5 ms × (s + 1) (R78). -/
def State.stackLate (s : State) (st : Nat) : Bool :=
  decide (s.clk.releaseAt + ticksOfUs (200000 + 87500 * (st + 1)) ≤ s.clk.now)

def execStackTimeout (stack : Nat) (s : State) : Res :=
  paced (s.stackTrains stack && s.stackLate stack) (fun s => s.stackDown stack) s

/-! ### Drive ports (R82, R391) -/

def execDrivePerstRelease (port : Nat) (s : State) : Res :=
  steady (s.bringing && s.ready 11 && decide (port < 8) && s.drvHere port && s.rd fDSP_PORT_STATE port = 0
      && s.rd fDSP_PORT_DISABLE port = 0 && s.board.perstN && decide (s.drvReleaseAt port ≤ s.clk.now))
    (fun s => s.trainArrived port) s

/-- The label block begins with a valid label (R368). -/
def labelOk (d : List Byte) : Bool :=
  fieldAt d 0 8 = 0x4C424C4C4F56584B && fieldAt d 44 4 = (crc32c (d.take 44)).toNat && decide (1 ≤ bitsAt d 20 0 4)
    && decide (bitsAt d 20 0 4 ≤ 8) && decide (2 ≤ bitsAt d 22 0 4) && decide (bitsAt d 22 0 4 ≤ 8)
    && (bitsAt d 21 0 1 = 0 || decide (3 ≤ bitsAt d 20 0 4)) && decide (48 ≤ d.length)

/-- What a port shows of the drive that it has identified. -/
def State.showDrive (s : State) (p : Nat) (i : DriveInfo) : State :=
  let u : State := { s with cvc := { s.cvc with drives := put s.cvc.drives p i } }
  let v := (((u.wr fDSP_PORT_SPEED p i.speed).wr fDSP_PORT_WIDTH p i.width).wr fDSP_PORT_VWC p (bit i.vwc)).wr
    fDSP_PORT_LBA512 p (bit i.lba512)
  ((v.wr fDSP_PORT_IO_QUEUES p (min 16 i.queues)).wr fDSP_PORT_MTFA p i.mtfa).wr fDSP_PORT_BLOCKS p i.blocks

/-- A drive that comes after assembly is foreign or unassigned, and takes over its port's role from a drive that left it
(R370, R390). -/
def State.lateRole (s : State) (p : Nat) (i : DriveInfo) : State :=
  if s.clk.assembled ∧ (find s.cvc.drives p).isNone then s.setRole p (if labelOk i.label then 3 else 0) 0 else s

/-- A port ends its initialisation: READY, or UNSUPPORTED. -/
def State.enumerated (s : State) (p : Nat) (i : DriveInfo) : State :=
  (if i.supported then ((s.lateRole p i).showDrive p i).setPort p 3 else s.setPort p 6).checkDone

def execDriveEnumerated (port : Nat) (info : DriveInfo) (s : State) : Res :=
  paced (s.bringing && s.board.pwrGood && s.ready 11 && decide (port < 8) && s.drvHere port && [1, 2, 4].contains (s.rd fDSP_PORT_STATE port)
      && s.elapsed 1000)
    (fun s => s.enumerated port info) s

/-- A present drive that is not ready at 3 s is late. -/
def execDriveLate (port : Nat) (s : State) : Res :=
  steady (s.bringing && s.ready 11 && decide (port < 8) && s.drvHere port && [0, 1, 2].contains (s.rd fDSP_PORT_STATE port)
      && s.elapsed 3000)
    (fun s => s.setPort port 4) s

/-- The late drive's own ready timeout passes: the port fails, a contained error. -/
def State.driveFails (s : State) (p : Nat) : State :=
  let u := s.setPort p 5
  (u.fault 11 { u.entry 11 2 with unit := p }).checkDone

def execDriveReadyTimeout (port : Nat) (s : State) : Res :=
  paced (s.bringing && s.ready 11 && decide (port < 8) && s.rd fDSP_PORT_STATE port = 4) (fun s => s.driveFails port) s

/-! ### VOLUME_ASSEMBLY (R368, R370, R389) -/

/-- The label that a ready port's drive carries. -/
def State.labelOf (s : State) (p : Nat) : Option (List Byte) :=
  if s.rd fDSP_PORT_STATE p = 3 ∧ labelOk (s.drive p).label then some (s.drive p).label else none

/-- A label is of a later set: a higher VOLUME_ID, or a higher GENERATION of the same. -/
def labelAfter (a b : List Byte) : Bool :=
  decide (fieldAt b 8 8 < fieldAt a 8 8) || (fieldAt a 8 8 = fieldAt b 8 8 && decide (fieldAt b 16 4 < fieldAt a 16 4))

/-- The labels belong to one set. -/
def sameSet (a b : List Byte) : Bool := fieldAt a 8 8 = fieldAt b 8 8 && fieldAt a 16 4 = fieldAt b 16 4

/-- Ports whose drive carries a valid label. -/
def State.labelled (s : State) : List (Nat × List Byte) :=
  (List.range 8).filterMap (fun p => (s.labelOf p).map (fun d => (p, d)))

/-- The label of the set that is assembled. -/
def bestLabel : List (Nat × List Byte) → Option (List Byte)
  | [] => none
  | (_, d) :: rest =>
    match bestLabel rest with
    | none => some d
    | some b => if labelAfter b d then some b else some d

/-- The first port of the set that carries index `i`. -/
def portOfIndex (ls : List (Nat × List Byte)) (d : List Byte) (i : Nat) : Option Nat :=
  (ls.find? (fun x => sameSet x.2 d && decide (fieldAt x.2 23 1 = i))).map Prod.fst

/-- Stripe ranges in one ascending list. -/
def mergeRanges : List (Nat × Nat) → List (Nat × Nat) → List (Nat × Nat)
  | acc, [] => acc
  | acc, r :: rest =>
    let touch (x : Nat × Nat) : Bool := decide (x.1 ≤ r.2) && decide (r.1 ≤ x.2)
    let m := (acc.filter touch).foldl (fun (a : Nat × Nat) x => (min a.1 x.1, max a.2 x.2)) r
    let low := (acc.filter (fun x => !touch x)).filter (fun x => decide (x.1 < m.1))
    let high := (acc.filter (fun x => !touch x)).filter (fun x => decide (m.1 < x.1))
    mergeRanges (low ++ [m] ++ high) rest

/-- The stripes that await resync (R389): those that the last record lists, or every stripe where the rails went down
without a record. -/
def State.staleStripes (s : State) (v : Volume) : List (Nat × Nat) :=
  let b := max 1 v.stripeBlocks
  let of (r : Option StopRecord) : List (Nat × Nat) := match r with
    | none => []
    | some x => mergeRanges [] (((x.ranges.filter (fun vn => vn.2 ≠ 0)).map (fun vn => (vn.1 / b, (vn.1 + vn.2 - 1) / b + 1))).filter
        (fun r => decide (r.2 ≤ v.stripes)))
  if !v.parity then []
  else
    match s.store.lastRec with
    | 1 => of s.store.powerLoss
    | 2 => of s.store.resetRec
    | 3 => if v.stripes = 0 then [] else [(0, v.stripes)]
    | _ => []

/-- The volume of a set of labels. -/
def labelVolume (ls : List (Nat × List Byte)) (d : List Byte) : Volume :=
  let n := bitsAt d 20 0 4
  { members := n, parity := bitsAt d 21 0 1 = 1, chunkLog := bitsAt d 22 0 4, stripes := fieldAt d 24 8,
    ports := (List.range n).map (fun i => (portOfIndex ls d i).getD (fieldAt d (32 + i) 1)),
    spare := portOfIndex ls d 0xFF, missing := (List.range n).filter (fun i => (portOfIndex ls d i).isNone),
    rebuild := none, resync := [] }

/-- The role of each port after assembly: member, spare, or foreign with a label of another set. -/
def State.assignRoles (s : State) (v : Volume) (ls : List (Nat × List Byte)) : State :=
  let u := ((List.range v.members).filter (fun i => !v.missing.contains i)).foldl (fun (s : State) i => s.setRole (v.ports.getD i 0) 1 i) s
  let w := match v.spare with | some p => u.setRole p 2 0 | none => u
  (ls.filter (fun x => w.rd fDSP_PORT_ROLE x.1 = 0)).foldl (fun (s : State) x => s.setRole x.1 3 0) w

/-- STATE at assembly: with a member missing, a rebuild starts onto the spare. -/
def State.openVolume (s : State) (v : Volume) : State :=
  match v.missing with
  | [] => s.setVolState 1
  | [_] => if v.parity then (s.setVolState 2).startRebuild v else s.setVolState 4
  | _ => s.setVolState 4

/-- The volume is assembled from the labels found. -/
def State.assembleFrom (s : State) (d : List Byte) : State :=
  let ls := s.labelled
  let v0 := labelVolume ls d
  let v := { v0 with resync := s.staleStripes v0 }
  let u := (((s.wr fCVC_VOL_ID_VALUE 0 (fieldAt d 8 8)).wr fCVC_VOL_STATUS_GENERATION 0 (fieldAt d 16 4)).wr
    fCVC_VOL_BLOCKS_VALUE 0 v.blocks).setVol (some v)
  let w := (u.assignRoles v ls).wr fCVC_VOL_STATUS_MISSING 0
    ((v.missing.map (fun i => v.ports.getD i 0)).foldl withBit 0)
  let x := if v.resync = [] then w else (w.wr fCVC_REBUILD_POS_STRIPE 0 ((v.resync.map Prod.fst).headD 0)).setResync true
  x.openVolume v

/-- CVC assembles the volume, and is ready; a soft reset of it that waited has taken effect before (R76). -/
def State.assemble (s : State) : State :=
  let r := s.softTakes 10
  let u := match bestLabel r.labelled with
    | none => r
    | some d => r.assembleFrom d
  ({ u with clk := { u.clk with assembled := true }, store := { u.store with lastRec := 0 } }).wr fSTATUS_READY 10 1

def execVolumeAssembly (s : State) : Res :=
  paced (s.bringing && s.ready 11 && !s.clk.assembled && s.elapsed 1000
      && ((List.range 8).all s.portSettled || s.elapsed 3000)) State.assemble s

end Sys2Proof.Machine
end

