-- ==== Sys2Proof/Machine/Views.lean ====
section
/-! DEFINITION. Read-only register fields that show state held elsewhere, and the records that Auheund builds: error
log entries (R472), stop records and snapshots (R482, R483), identity records (R87), the swap history (R469), the event
log (R443). -/

namespace Sys2Proof.Machine

/-- How many numbers below `n` satisfy `p`. -/
abbrev tally (n : Nat) (p : Nat → Bool) : Nat := countTo n p

/-- The bits [n - 1 : 0] that `p` sets. -/
def bitMap (n : Nat) (p : Nat → Bool) : Nat := (List.range n).foldl (fun m b => if p b then m + 2 ^ b else m) 0

/-! ### Records -/

/-- The fields FN and FN_VALID of an entry. -/
def fnBits (f : Option Nat) : Nat :=
  match f with
  | some n => n + 2 ^ 11
  | none => 0

/-- An error log entry (R472). -/
def errEntryBytes (e : ErrEntry) : List Byte :=
  leBytes 8 e.ts ++ leBytes 2 (e.source % 2 ^ 12 + 2 ^ 12 * e.cls) ++ leBytes 2 (fnBits e.fn) ++ leBytes 1 e.status
    ++ leBytes 1 e.sub ++ leBytes 2 e.unit ++ leBytes 8 e.addr ++ leBytes 1 e.kind ++ leBytes 1 e.cause ++ leBytes 6 0

/-- The error log of a page: 16 entries, those never written as zeros. -/
def State.logBytes (s : State) (sub : Nat) : List Byte :=
  ((List.range 16).map (fun i =>
    match find s.errLog (sub * 16 + i) with
    | some e => errEntryBytes e
    | none => leBytes 32 0)).flatten

/-- A record of the TSU log (R443). -/
def logRecBytes (r : LogRec) : List Byte :=
  leBytes 8 r.ts ++ leBytes 2 (r.source % 2 ^ 12 + 2 ^ 12 * r.kind) ++ leBytes 2 (fnBits r.fn) ++ leBytes 4 r.detail

/-- A record of the swap history (R469). -/
def histBytes (h : HistRec) : List Byte :=
  leBytes 8 h.ts ++ leBytes 4 h.boot ++ leBytes 1 h.kind ++ leBytes 1 h.cause ++ leBytes 2 h.logical ++ leBytes 2 h.old
    ++ leBytes 2 h.new ++ leBytes 8 h.detail ++ leBytes 4 h.seq

/-- An entry of a stop record (R483). -/
def stopEntryBytes (e : StopEntry) : List Byte :=
  leBytes 2 e.fn ++ leBytes 2 e.qid ++ leBytes 2 e.cid ++ leBytes 2 0 ++ leBytes 8 e.slba ++ leBytes 4 e.blocks ++ leBytes 12 0

/-- A stop record (R483): the header with its CRC-32C, and the entries. -/
def StopRecord.bytes (r : StopRecord) : List Byte :=
  let es := (r.entries.map stopEntryBytes).flatten
  let h := leBytes 4 0x5253584B ++ leBytes 1 r.kind ++ leBytes 1 r.cause ++ leBytes 1 r.step ++ leBytes 1 0
    ++ leBytes 8 r.faultTs ++ leBytes 8 r.declTs ++ leBytes 4 r.entries.length ++ leBytes 4 r.boot
  h ++ leBytes 4 (crc32c (h ++ es)).toNat ++ leBytes 28 0 ++ es

/-- A snapshot, or an overflow header, whose body is empty (R482). -/
def Snapshot.bytes (p : Snapshot) : List Byte :=
  let h := leBytes 4 0x4E53584B ++ leBytes 1 p.cls ++ leBytes 1 p.cause ++ leBytes 2 p.source ++ leBytes 8 p.ts
    ++ leBytes 4 p.boot ++ leBytes 4 (64 + p.body.length) ++ leBytes 2 p.unit ++ leBytes 2 p.sections
  h ++ leBytes 4 (crc32c (h ++ leBytes 32 0 ++ p.body)).toNat ++ leBytes 32 0 ++ p.body

/-- A record by its kind in `MGT_RECORD_SEL` (R484). -/
def State.recordBytes (s : State) (kind : Nat) : List Byte :=
  match kind with
  | 0 => (s.store.snapshot.map Snapshot.bytes).getD []
  | 1 => (s.store.powerLoss.map StopRecord.bytes).getD []
  | 2 => (s.store.resetRec.map StopRecord.bytes).getD []
  | 3 => (s.store.overflow.map Snapshot.bytes).flatten
  | _ => []

/-- A 4 KiB page of a record: bytes beyond it read 0 (R484). -/
def State.recordPage (s : State) (kind page : Nat) : List Byte :=
  let d := ((s.recordBytes kind).drop (4096 * page)).take 4096
  d ++ List.replicate (4096 - d.length) 0

/-- Kind and index of an identity record (R86). -/
def identityKind (i : Nat) : Nat × Nat :=
  if i = 0 then (1, 0) else if i = 1 then (2, 0) else if i < 10 then (3, i - 2) else if i < 554 then (4, i - 10)
  else if i < 622 then (5, i - 554) else if i < 640 then (6, i - 622) else if i = 640 then (7, 0) else (8, 0)

/-- The unit was a spare when shipped: the last tile of each mast, banks 64 to 67, engines 16 and 17 (R86). -/
def factorySpare (k : Nat × Nat) : Bool :=
  (k.1 = 4 && k.2 % 17 = 16) || (k.1 = 5 && 64 ≤ k.2) || (k.1 = 6 && 16 ≤ k.2)

/-- A character of a lot: an upper-case letter or a digit (R87). -/
def lotChar (b : Byte) : Byte :=
  let n := b.toNat % 36
  BitVec.ofNat 8 (if n < 10 then 0x30 + n else 0x37 + n)

/-- An identity record (R87): units on the Kelbele die share its lot, wafer and position. -/
def identityRecord (i : Nat) : List Byte :=
  let k := identityKind i
  let place := (List.range 11).map (Config.identityByte (if 4 ≤ k.1 then 1 else i))
  let b8 := if k.1 = 1 then place.getD 8 0 else place.getD 8 0 &&& 0x1F
  (place.take 8).map lotChar ++ [b8, place.getD 9 0, place.getD 10 0] ++ leBytes 1 k.1 ++ leBytes 2 k.2
    ++ leBytes 1 (1 + 2 * bit (factorySpare k)) ++ leBytes 1 (if k.1 = 1 then 0x43 else if k.1 = 2 then 0xB1 else 0)

/-- The health state of R486: the highest value that applies. -/
def State.health (s : State) : Nat :=
  if s.board.phase = .pllLost ∨ s.board.phase = .pllFailed ∨ s.rd fMGT_FAULT_STATUS_WORST 0 = 4 then 4
  else if s.rd fMGT_FAULT_STATUS_WORST 0 = 3 ∨ s.failedSubs ≠ [] then 3
  else if s.rd fMGT_FAULT_STATUS_CONTAINED 0 ≠ 0 ∨ s.rd fMGT_BRINGUP_STATUS_DEGRADED 0 = 1 then 2
  else bit (s.rd fMGT_BRINGUP_STATUS_DONE 0 = 0)

/-! ### The page header (R91) -/

/-- `CAPS.SUB_CAPS`, as the chapters give it. -/
def subCaps : Nat → Nat
  | 2 => 16384 + 16 * 2 ^ 15 + 4 * 2 ^ 20 + 32 * 2 ^ 25
  | 3 => 4096 + 63 * 2 ^ 13 + 1024 * 2 ^ 19 + 64 * 2 ^ 30
  | 4 => 544 + 512 * 2 ^ 10 + 16 * 2 ^ 20
  | 6 => 8 + 32 * 2 ^ 4 + 36 * 2 ^ 12 + 1024 * 2 ^ 20
  | 7 => 64 + 16 * 2 ^ 7 + 64 * 2 ^ 12
  | 8 => 64 + 4 * 2 ^ 7 + 4096 * 2 ^ 10 + 8 * 2 ^ 23
  | 9 => 16 + 2 * 2 ^ 5 + 7 * 2 ^ 7 + 23 * 2 ^ 10
  | 10 => 2048 + 512 * 2 ^ 12 + 8 * 2 ^ 22
  | 11 => 8 + 4 * 2 ^ 4
  | 12 => 4 + 64 * 2 ^ 3 + 16 * 2 ^ 10 + 15 * 2 ^ 15
  | 13 => 4096 + 512 * 2 ^ 13 + 800 * 2 ^ 23
  | 14 => 300 + 800 * 2 ^ 10 + 3 * 2 ^ 20
  | 15 => 32 + 4 * 2 ^ 6 + 2 * 2 ^ 9 + 256 * 2 ^ 11
  | n => Config.subCaps n

/-- `STATUS.BUSY`: the subsystem holds a job, a command or an active channel. -/
def State.busy (s : State) (sub : Nat) : Bool :=
  match sub with
  | 2 => s.qmg.queues.any (fun (kq : Nat × Queue) => !kq.2.fetched.isEmpty)
  | 3 => !s.bsn.runs.isEmpty || !s.bsn.tasks.isEmpty
  | 4 => s.oca.any (fun (kc : Nat × Core) => kc.2.task.isSome)
  | 6 => s.hmc.map.isSome
  | 7 => !s.hal.jobs.isEmpty || (List.range 64).any (fun c => [chActive, chStopping].contains (s.chState c))
  | 8 => s.bsn.tasks.any (fun (kt : Nat × Task) => match kt.2.place with | .amu _ => true | _ => false)
  | 9 => !s.mgl.jobs.isEmpty
  | 10 => !s.cvc.cmds.isEmpty || s.cvc.fw.isSome
  | 11 => !s.cvc.drv.isEmpty || s.cvc.admin.isSome
  | 12 => !s.dge.ready.isEmpty || !s.dge.zeroing.isEmpty
  | 13 => s.tsu.dialogue.isSome
  | 15 => s.darn.current.isSome || !s.darn.repairs.isEmpty
  | _ => false

/-- Ranges of a region that arrays, the MSI-X table and the records take, [first, end) (R86, R90, R97, R117, R484). -/
def regionRanges (sub : Nat) : List (Nat × Nat) :=
  ((regTable.filter (fun d => !d.win && d.sub = sub && decide (0x1000 ≤ d.off))).map (fun d =>
    (d.off, d.off + max d.bytes (d.stride * d.count))))
    ++ (if sub = 1 then [(0x10000, 0x18100)] else if sub = 16 then [(0x10000, 0x12820), (0x20000, 0x21000)] else [])

/-- Where an error log of 16 entries of 32 bytes can lie: multiples of 0x200 from 0x1000 on that nothing else takes. -/
def logPlaces (sub : Nat) : List Nat :=
  ((List.range 512).map (· * 0x200)).filter (fun o =>
    decide (0x1000 ≤ o) && (regionRanges sub).all (fun r => decide (o + 0x200 ≤ r.1) || decide (r.2 ≤ o)))

/-- Region offset of a page's error log (R91). -/
def logBase (sub : Nat) : Nat := (logPlaces sub).getD (Config.logBase sub % (logPlaces sub).length) 0x1000

/-- `CAPS.ARRAYS`: the per-instance arrays that the chapters lay out in a region, at 0x1000 and above (R90, R91). -/
def capsArrays : Nat → Nat
  | 1 => 3 | 5 => 0 | 6 => 2 | 8 => 2 | 15 => 5 | 16 => 0 | _ => 1

/-- A field and the value that it shows at an index. -/
abbrev View := Field × (State → Nat → Nat)

def viewsHeader : List View := [
  (fCAPS_ARRAYS, fun _ sub => capsArrays sub),
  (fCAPS_SUB_CAPS, fun _ sub => subCaps sub),
  (fSTATUS_BUSY, fun s sub => bit (s.busy sub)),
  (fERR_LOG_PTR_LOG_BASE, fun _ sub => logBase sub),
  (fIRQ_SET_ERR, fun s sub => s.rd fIRQ_STATUS_ERR sub),
  (fIRQ_SET_FAULT, fun s sub => s.rd fIRQ_STATUS_FAULT sub),
  (fIRQ_SET_SUB, fun s sub => s.rd fIRQ_STATUS_SUB sub)]

/-! ### MGT and HIF -/

def viewsMgt : List View := [
  (fMGT_READY_MAP_SUB_SUB_READY, fun s _ => bitMap 16 (fun b => s.ready (b + 1))),
  (fMGT_READY_MAP_MEM_PORT_READY, fun s _ => bitMap 8 (fun p => s.rd fDSP_PORT_STATE p = 3)),
  (fMGT_FAIL_MAP_MEM_PORT_FAIL, fun s _ => bitMap 8 (fun p => s.rd fDSP_PORT_STATE p = 5)),
  (fMGT_FAIL_MAP_MEM_PORT_LATE, fun s _ => bitMap 8 (fun p => s.rd fDSP_PORT_STATE p = 4)),
  (fMGT_BRINGUP_STATUS_ELAPSED_MS, fun s _ =>
    if s.rd fMGT_BRINGUP_STATUS_DONE 0 = 1 then s.rd fMGT_BRINGUP_STATUS_ELAPSED_MS 0 else s.elapsedMs),
  (fMGT_RECORD_STATUS_SNAP_VALID, fun s _ => bit s.store.snapshot.isSome),
  (fMGT_RECORD_STATUS_PLR_VALID, fun s _ => bit s.store.powerLoss.isSome),
  (fMGT_RECORD_STATUS_RESET_VALID, fun s _ => bit s.store.resetRec.isSome),
  (fMGT_RECORD_STATUS_PRESERVED, fun s _ => s.rd fMGT_SNAP_PRESERVE_PRESERVE 0),
  (fMGT_RECORD_STATUS_OVERFLOW, fun s _ => s.store.overflow.length),
  (fMGT_RECORD_STATUS_BYTES, fun s _ => (s.recordBytes (s.setting fMGT_RECORD_SEL_KIND 0)).length),
  (fHIF_FN_STATUS_READY, fun s fn => bit (s.fnReady fn)),
  (fHIF_FN_QOS_VIEW_QOS, fun s fn => s.qosForce fn)]

/-! ### QMG and BSN -/

/-- The queue that `QMG_QSEL` names. -/
def State.shownQueue (s : State) : Option Queue := s.queue (s.setting fQMG_QSEL_FN 0) (s.setting fQMG_QSEL_QID 0)

/-- A value of the shown queue, or 0. -/
def viewQueue (f : Queue → Nat) : State → Nat → Nat := fun s _ => (s.shownQueue.map f).getD 0

def viewsQmg : List View := [
  (fQMG_ADM_STATUS_ENABLED, fun s fn => bit (s.queue fn 0).isSome),
  (fQMG_ADM_STATUS_CQ_FULL, fun s fn => bit ((s.queue fn 0).any Queue.cqFull)),
  (fQMG_FN_QCOUNT_LIMIT, fun s fn => s.rd fQMG_FN_QLIMIT_LIMIT fn),
  (fQMG_FN_QCOUNT_IN_USE, fun s fn => s.dynamicOf fn),
  (fQMG_FN_QLIMIT_IN_USE, fun s fn => s.dynamicOf fn),
  (fQMG_FN_CQ_FULL_COUNT, fun s fn => (s.qmg.queues.filter (fun (kq : Nat × Queue) => kq.1 / 8192 = fn && kq.2.cqFull)).length),
  (fQMG_QPOOL_IN_USE, fun s _ => s.dynamicAll),
  (fQMG_QPOOL_FREE, fun s _ => 15351 - s.dynamicAll),
  (fQMG_QVIEW_STATE, viewQueue (fun _ => 1)),
  (fQMG_QVIEW_CQ_FULL, viewQueue (fun q => bit q.cqFull)),
  (fQMG_QVIEW_CLASS, viewQueue (fun q => q.cls)),
  (fQMG_QVIEW_PENDING, viewQueue (fun q => q.pend.length)),
  (fQMG_QVIEW_SQ_HEAD, viewQueue (fun q => q.head)),
  (fQMG_QVIEW_CQ_TAIL, viewQueue (fun q => q.tail)),
  (fQMG_QVIEW_WAITING, viewQueue (fun q => min 65535 q.waiting.length))]

/-- The flow that `BSN_FLOW_SEL` names. -/
def viewFlow (f : Flow → Nat) : State → Nat → Nat := fun s _ => ((s.flow (s.setting fBSN_FLOW_SEL_FLOW 0)).map f).getD 0

/-- Slots of a flow that are complete and not released: made, and no lineage left (R227). -/
def Flow.complete (f : Flow) : Nat := (f.counts.filter (fun (kc : Nat × Nat) => kc.2 = 0)).length

def viewsBsn : List View := [
  (fBSN_TABLE_STATUS_IN_USE, fun s _ => s.bsn.tasks.length),
  (fBSN_TABLE_STATUS_SHARED_FREE, fun s _ => s.sharedSize - s.sharedUsed),
  (fBSN_TABLE_RESV_RESV_SUM, fun s _ => s.resvSum),
  (fBSN_TABLE_RESV_SHARED_SIZE, fun s _ => s.sharedSize),
  (fBSN_FLOW_VIEW_STATE, viewFlow (fun _ => 1)),
  (fBSN_FLOW_VIEW_DONE, viewFlow Flow.complete),
  (fBSN_FLOW_VIEW_FN, viewFlow (fun f => f.fn)),
  (fBSN_FLOW_VIEW_HEAD, viewFlow (fun f => f.head)),
  (fBSN_FN_HELD, fun s fn => s.heldBy fn),
  (fBSN_FN_RUNNING, fun s fn => (s.bsn.tasks.filter (fun (kt : Nat × Task) => kt.2.fn = fn && kt.2.state = .running)).length),
  (fBSN_FN_FLOWS, fun s fn => (s.bsn.flows.filter (fun (kf : Nat × Flow) => kf.2.fn = fn)).length),
  (fBSN_FN_RUNS, fun s fn => min 65535 (s.bsn.runs.filter (fun (kr : Nat × Run) => kr.2.fn = fn)).length)]

/-! ### OCA, AMU and MGL -/

/-- `OCA_TILE.STATE`: a tile that its mast's self-test has not settled runs the self-test in MAINTENANCE (R80, R265). -/
def State.tileShown (s : State) (t : Nat) : Nat :=
  if s.rd fOCA_TILE_STATE t = 0 ∧ s.mastOpen (mastOf t) then tsMaintenance else s.tileState t

/-- Tiles in one of these states. -/
def State.tilesIn (s : State) (sts : List Nat) : Nat := tally 544 (fun t => sts.contains (s.tileShown t))

/-- The table that `AMU_TSEL` names. -/
def State.shownTable (s : State) : Option AmuTable :=
  match s.bsn.runs.find? (fun (kr : Nat × Run) => kr.2.started && kr.2.fn = s.setting fAMU_TSEL_FN 0
      && kr.2.runTag = s.setting fAMU_TSEL_RUN_TAG 0) with
  | some kr => s.table (kr.1 * 8 + s.setting fAMU_TSEL_TABLE 0)
  | none => none

def viewTable (f : AmuTable → Nat) : State → Nat → Nat := fun s _ => (s.shownTable.map f).getD 0

/-- A count over the banks in one state. -/
def State.banksIn (s : State) (st : Nat) : Nat := tally 68 (fun b => s.rd fAMU_BANK_STATE b = st)

def viewsEngines : List View := [
  (fOCA_TILE_STATE, fun s t => s.tileShown t),
  (fOCA_TILE_SUMMARY_IN_SERVICE, fun s _ => s.tilesIn [2, 3, 4, 5]),
  (fOCA_TILE_SUMMARY_IN_MAINT, fun s _ => s.tilesIn [1]),
  (fOCA_TILE_SUMMARY_FAILED, fun s _ => s.tilesIn [6]),
  (fAMU_POOL_FREE, fun s _ => s.freeBanksList.length),
  (fAMU_POOL_IN_USE, fun s _ => s.banksIn 2),
  (fAMU_POOL_CLEARING, fun s _ => s.banksIn 1),
  (fAMU_POOL_HOLDING, fun s _ => bit s.amu.hold.isSome),
  (fAMU_POOL_IN_SERVICE, fun s _ => s.banksInService),
  (fAMU_SEARCHES_COUNT, fun s _ => (List.range 68).foldl (fun n b => n + s.rd fAMU_BANK_SEARCHES b) 0),
  (fAMU_TVIEW_VALID, viewTable (fun _ => 1)),
  (fAMU_TVIEW_HASHED, viewTable (fun t => bit t.hashed)),
  (fAMU_TVIEW_SPILLED, viewTable (fun t => bit t.spilled)),
  (fAMU_TVIEW_DAMAGED, viewTable (fun t => bit t.damaged)),
  (fAMU_TVIEW_KEY_UNITS, viewTable (fun t => t.keyUnits)),
  (fAMU_TVIEW_BANKS, viewTable (fun t => t.banks.length)),
  (fAMU_TVIEW_ENTRIES, viewTable (fun t => t.entries)),
  (fAMU_TVIEW_MULTI_ROWS, viewTable (fun t => min (2 ^ 29 - 1) t.multiRows)),
  (fAMU_FN_HELD, fun s fn => s.banksHeld fn),
  (fMGL_POOL_IN_SERVICE, fun s _ => tally 18 (fun p => s.rd fMGL_ENGINE_STATE p ≤ 3 && s.rd fMGL_ENGINE_LOGICAL p < 16)),
  (fMGL_POOL_BUSY, fun s _ => s.mgl.jobs.length),
  (fMGL_POOL_SPARES_LEFT, fun s _ => tally 18 (fun p => s.rd fMGL_ENGINE_STATE p = 4)),
  (fMGL_ENGINE_STATE, fun s p =>
    let st := s.rd fMGL_ENGINE_STATE p
    let busy := !(s.engineJobs (s.rd fMGL_ENGINE_LOGICAL p)).isEmpty
    let clears := ((s.engineJobs (s.rd fMGL_ENGINE_LOGICAL p)).head?).any (fun j => !s.engineClear (s.rd fMGL_ENGINE_LOGICAL p) j.fn)
    if st = 0 ∧ clears then 2 else if st = 0 ∧ busy then 1 else st)]

/-! ### CVC, DSP and DGE -/

/-- Commands that CVC holds for a function, or for all. -/
def State.cmdsHeld (s : State) (fn : Option Nat) : Nat :=
  (s.cvc.cmds.filter (fun (nc : Nat × VolCmd) => !nc.2.internal && !nc.2.orphan && (fn = none || fn = some nc.2.fn))).length

/-- A dword of a byte string. -/
def dwordOf (d : List Byte) (i : Nat) : Nat := fieldAt d (4 * i) 4

/-- A value of a digest slot: index function × 16 + slot. -/
def viewSlot (f : DgeSlot → Nat) : State → Nat → Nat := fun s i => f (s.dslot (i / 16) (i % 16))

def viewsVolume : List View := [
  (fCVC_LOCKS_IN_USE, fun s _ =>
    s.cvc.cmds.foldl (fun n (nc : Nat × VolCmd) => if !nc.2.internal && nc.2.stage ≠ .fifo then n + nc.2.locks.length else n) 0),
  (fCVC_LOCKS_ORPHANED, fun s _ => s.locksOrphaned),
  (fCVC_LOCKS_FIFO, fun s _ => (s.cvc.cmds.filter (fun (nc : Nat × VolCmd) => nc.2.stage = .fifo)).length),
  (fCVC_LOCK_RESV_RESV_SUM, fun s _ => s.lockResvSum),
  (fCVC_LOCK_RESV_SHARED_SIZE, fun s _ => 512 - s.lockResvSum),
  (fCVC_COMMANDS_IN_CVC, fun s _ => s.cmdsHeld none),
  (fCVC_FN_HELD, fun s fn => s.locksHeld fn),
  (fCVC_FN_CMDS, fun s fn => s.cmdsHeld (some fn)),
  (fDSP_PORT_PRESENT, fun s p => bit (s.board.drvPresent.testBit p)),
  (fDGE_POOL_FREE, fun s _ => s.ctxFree),
  (fDGE_POOL_CLAIMED, fun s _ => s.ctxClaimed),
  (fDGE_POOL_QUEUED, fun s _ => s.dge.ready.length),
  (fDGE_FN_HELD, fun s fn => s.slotsHeld fn),
  (fDGE_SLOT_STATUS_STATE, viewSlot (fun d => d.st)),
  (fDGE_SLOT_STATUS_BUSY, viewSlot (fun d => bit (d.busy ≠ 0))),
  (fDGE_SLOT_STATUS_KEYED, viewSlot (fun d => bit d.keyed)),
  (fDGE_SLOT_STATUS_ALG, viewSlot (fun d => d.alg)),
  (fDGE_SLOT_STATUS_LAST_STATUS, viewSlot (fun d => d.status)),
  (fDGE_SLOT_STATUS_LAST_SUB, viewSlot (fun d => d.sub)),
  (fDGE_SLOT_STATUS_QWORDS, viewSlot (fun d => d.buf.length / 8)),
  (fDGE_SLOT_BLOCKS_COUNT, viewSlot (fun d => d.blocks))]

/-! ### HMC, TSU, PWR and DRN -/

/-- Two 64-bit halves, or four quarters, of a record. -/
def qwordOf (d : List Byte) (i : Nat) : Nat := fieldAt d (8 * i) 8

def viewHistory (k : Nat) : State → Nat → Nat := fun s i => ((find s.darn.history i).map (fun h => qwordOf (histBytes h) k)).getD 0
def viewLog (k : Nat) : State → Nat → Nat := fun s i => ((find s.tsu.log i).map (fun r => qwordOf (logRecBytes r) k)).getD 0

/-- A transfer register of a channel: in queue mode the running job's value. -/
def viewXfer (f : Field) (g : Xfer → Nat) : View :=
  (f, fun s c =>
    if s.rd fHAL_CH_CFG_MODE c = 0 then
      match s.chJobs c with
      | j :: _ => g j.x
      | [] => s.rd f c
    else s.rd f c)

def viewsHal : List View := [
  viewXfer fHAL_CH_SRC_ADDR (fun x => x.src), viewXfer fHAL_CH_DST_ADDR (fun x => x.dst), viewXfer fHAL_CH_COUNT_COUNT (fun x => x.count),
  viewXfer fHAL_CH_FORMAT_SW (fun x => Nat.log2 x.sw), viewXfer fHAL_CH_FORMAT_DW (fun x => Nat.log2 x.dw),
  viewXfer fHAL_CH_FORMAT_SRC_SPACE (fun x => bit x.srcHost), viewXfer fHAL_CH_FORMAT_DST_SPACE (fun x => bit x.dstHost),
  viewXfer fHAL_CH_FORMAT_CXL_CACHE (fun x => bit x.cxl), viewXfer fHAL_CH_SSTRIDE_STRIDE (fun x => x.sstride),
  viewXfer fHAL_CH_DSTRIDE_STRIDE (fun x => x.dstride)]

def viewsDevice : List View := [
  (fHMC_STACK_STATE, fun s st => if s.rd fHMC_STACK_STATE st = 1 ∧ 3 ≤ s.psState then 3 else s.rd fHMC_STACK_STATE st),
  (fHMC_STACK_SCRUB_ACTIVE, fun s st => bit (s.scrubOn st)),
  (fTSU_COUNT_COUNT, fun s _ => s.clk.tsu),
  (fTSU_LOG_ENTRY_LO, viewLog 0),
  (fTSU_LOG_ENTRY_HI, viewLog 1),
  (fPWR_REEF_STATUS_THERMAL, fun s _ => s.demandThermal),
  (fPWR_REEF_STATUS_THROTTLE, fun s _ => s.demandThrottle),
  (fPWR_REEF_STATUS_DROOP, fun s _ => s.demandDroop),
  (fPWR_REEF_STATUS_SUPPLY, fun s _ => s.demandSupply),
  (fPWR_REEF_STATUS_FLOOR, fun s _ => s.demandFloor),
  (fPWR_SUPPLY_STATUS_HOLDUP_OK, fun s _ => bit s.board.holdupOk),
  (fPWR_SUPPLY_STATUS_ON_HOLDUP, fun s _ => bit s.board.faultAt.isSome),
  (fPWR_SUPPLY_STATUS_AUX_OK, fun s _ => bit s.board.auxOk),
  (fPWR_RAIL_NOMINAL_MV, fun s r => s.railNominal r),
  (fPWR_RAIL_DROOP_MV, fun s r => s.railDroop r / 100),
  (fDRN_SPARES_TILES_LEFT, fun s _ => s.tilesIn [7]),
  (fDRN_SPARES_BANKS_LEFT, fun s _ => s.banksIn 3),
  (fDRN_SPARES_ENGINES_LEFT, fun s _ => tally 18 (fun p => s.rd fMGL_ENGINE_STATE p = 4)),
  (fDRN_STACK_PPR_LEFT, fun s st => Config.pprLeft st (s.rd fDRN_STACK_PPR_USED st)),
  (fDRN_HISTORY_0_RECORD, viewHistory 0),
  (fDRN_HISTORY_1_RECORD, viewHistory 1),
  (fDRN_HISTORY_2_RECORD, viewHistory 2),
  (fDRN_HISTORY_3_RECORD, viewHistory 3)]

/-- Every field whose home is not the register store. -/
def views : List View :=
  viewsHeader ++ viewsMgt ++ viewsQmg ++ viewsBsn ++ viewsEngines ++ viewsHal ++ viewsVolume ++ viewsDevice

/-- The value that a field shows at an index. -/
def State.view (s : State) (f : Field) (i : Nat) : Nat :=
  match views.find? (fun v => v.1.id = f.id) with
  | some v => lowBits f.len (v.2 s i)
  | none => s.rd f i

/-- The value of a register: its fields in their places, reserved bits 0 (R4). -/
def State.word (s : State) (fs : List Field) (i : Nat) : Nat := fs.foldl (fun n f => n + s.view f i * 2 ^ f.lo) 0

end Sys2Proof.Machine
end

