-- ==== Sys2Proof/Machine/Sideband.lean ====
section
/-! DEFINITION. Records and the sideband: what PF0 and Auheund do with the snapshot and the stop records, and the
commands and messages that Auheund answers (spec/19_faults_and_containment.md R484 to R487). -/

namespace Sys2Proof.Machine

/-! ### Clearing records (R484) -/

/-- The snapshot and the overflow headers are gone. -/
def State.dropSnapshot (s : State) : State := { s with store := { s.store with snapshot := none, overflow := [] } }

/-- `MGT_SNAP_CTRL.CLEAR`: refused while PRESERVE is 1. -/
def State.clearSnapshot (s : State) : State :=
  if s.rd fMGT_SNAP_PRESERVE_PRESERVE 0 = 1 then s.notice 16 0xFFFF else s.dropSnapshot

/-- `MGT_SNAP_CTRL.CLEAR_RECORDS`. -/
def State.clearRecords (s : State) : State := { s with store := { s.store with powerLoss := none, resetRec := none } }

/-- SNAP_CTRL_CLEAR. -/
def execSnapCtrlClear (s : State) : Res :=
  steady (s.reaches 0 && s.ready 16) (fun s => (s.atRegion 16 0xCC).clearSnapshot) s

/-- CLEAR_RECORDS. -/
def execClearRecords (s : State) : Res :=
  steady (s.reaches 0 && s.ready 16) (fun s => (s.atRegion 16 0xCC).clearRecords) s

/-! ### Commands of MCTP type 0x7E (R485) -/

/-- The response code of a command that was carried out, and NOT_READY. -/
def rcOk : Nat := 0
def rcNotReady : Nat := 1

def State.answer (s : State) (code : Nat) (resp : List Byte) : State := s.emit (.sideband code rcOk resp)

/-- A command that needs the main domain (R485). -/
def State.needsMain (s : State) (code : Nat) (f : State → State) : State :=
  if s.railsUp then f s else s.emit (.sideband code rcNotReady [])

/-- GET_HEALTH: the health state, `MGT_FAULT_STATUS` and `MGT_BRINGUP_STATUS`. -/
def State.healthAnswer (s : State) : List Byte :=
  leBytes 1 s.health
    ++ leBytes 4 (s.word [fMGT_FAULT_STATUS_WORST, fMGT_FAULT_STATUS_FIRST_SOURCE, fMGT_FAULT_STATUS_CONTAINED] 0)
    ++ leBytes 4 (s.word [fMGT_BRINGUP_STATUS_DONE, fMGT_BRINGUP_STATUS_DEGRADED, fMGT_BRINGUP_STATUS_ELAPSED_MS] 0)

def execGetHealth (s : State) : Res := steady s.auheundOn (fun s => s.answer 0x01 s.healthAnswer) s

/-- READ_LOG: the page's `ERR_LOG_PTR` and its 16 entries. -/
def State.logAnswer (s : State) (sub : Nat) : List Byte :=
  leBytes 4 (s.word [fERR_LOG_PTR_LOG_BASE, fERR_LOG_PTR_NEXT, fERR_LOG_PTR_WRAPPED] sub) ++ s.logBytes sub

def execReadLog (sub : Nat) (s : State) : Res :=
  steady (s.auheundOn && decide (1 ≤ sub) && decide (sub ≤ 16))
    (fun s => s.needsMain 0x02 (fun s => s.answer 0x02 (s.logAnswer sub))) s

/-- READ_RECORD: the records lie in Auheund's non-volatile store. -/
def execReadRecord (kind page : Nat) (s : State) : Res :=
  steady (s.auheundOn && decide (kind < 4)) (fun s => s.answer 0x03 (s.recordPage kind page)) s

/-- CLEAR_SNAPSHOT: whatever PRESERVE holds. -/
def execClearSnapshot (s : State) : Res := steady s.auheundOn (fun s => s.dropSnapshot.answer 0x04 []) s

/-- WARM_RESET: NOT_READY while the main domain cannot be reset. -/
def State.sidebandReset (s : State) : State :=
  if s.clocked then (s.answer 0x05 []).startWarm fMGT_RESET_CAUSE_WARM_SIDEBAND else s.emit (.sideband 0x05 rcNotReady [])

def execWarmReset (s : State) : Res := enabled s.auheundOn State.sidebandReset s

/-- READ_IDENTITY: 16 records per response (R86). -/
def identityAnswer (first : Nat) : List Byte :=
  (((List.range 16).filter (fun i => first + i < 642)).map (fun i => identityRecord (first + i))).flatten

def execReadIdentity (first : Nat) (s : State) : Res :=
  steady (s.auheundOn && decide (first < 642)) (fun s => s.answer 0x06 (identityAnswer first)) s

/-- SET_PRESERVE: the one way to write `MGT_SNAP_PRESERVE`. -/
def execSetPreserve (on : Bool) (s : State) : Res :=
  steady s.auheundOn (fun s => (s.wr fMGT_SNAP_PRESERVE_PRESERVE 0 (bit on)).answer 0x07 []) s

/-! ### Other messages (R132, R485): code 0x100 plus the MCTP message type -/

def execMctpControlMessage (req : List Byte) (s : State) : Res :=
  steady s.auheundOn (fun s => s.drawn.answer 0x100 (Config.mctpAnswer s.draws req)) s

def execPldmMessage (req : List Byte) (s : State) : Res :=
  steady s.auheundOn
    (fun s =>
      let u := (s.drawn.answer 0x101 (Config.pldmAnswer s.draws req)).clearAlerts (fun f => s.railsUp && Config.pldmClears f.lo req)
      { u with store := { u.store with eventsOn := Config.pldmEvents u.store.eventsOn req } }) s

def execSpdmMessage (req : List Byte) (s : State) : Res :=
  steady s.auheundOn (fun s => s.drawn.answer 0x105 (Config.spdmAnswer s.draws req)) s

/-! ### Sensors (R486) -/

/-- The values of sensors 1 to 7. -/
def State.sensorValues (s : State) : List Nat :=
  [s.health, s.rd fPWR_INPUT_MILLIVOLTS 0, s.rd fPWR_INPUT_MEAN_10MS_X10 0, s.rd fPWR_TEMP_DIE_MAX_C 0,
   s.rd fPWR_TEMP_HBM_MAX_C 0, s.level, s.word [fDRN_SPARES_TILES_LEFT, fDRN_SPARES_BANKS_LEFT, fDRN_SPARES_ENGINES_LEFT] 0]

/-- SENSOR_REFRESH: a change of health is reported where the receiver has enabled events. -/
def State.sensorRefresh (s : State) : State :=
  let u := { s with store := { s.store with sensors := s.sensorValues, health := s.health } }
  if s.health ≠ s.store.health ∧ s.store.eventsOn then u.emit (.platformEvent s.health) else u

def execSensorRefresh (s : State) : Res := steady s.auheundOn State.sensorRefresh s

end Sys2Proof.Machine
end

