-- ==== Sys2Proof/Machine/RegWrite.lean ====
section
/-! DEFINITION. What a write to a register does: the access codes of R7, the values that a field clamps, and the
registers whose writes act (spec/04_register_pages_and_address_map.md R91 to R97 and the register maps of every
chapter). -/

namespace Sys2Proof.Machine

/-- The bits that a write gives a field. -/
def Field.of (f : Field) (v : Nat) : Nat := bitField v f.lo f.len

/-! ### Values that a field clamps -/

/-- Fields in which 0 reads as 1, with the largest value that they show. -/
def clampedFields : List (Field × Nat) :=
  [(fHIF_LINK_CONTROL_CXLMEM_WEIGHT, 255), (fHIF_FN_QOS_CORE_WEIGHT, 255), (fHIF_FN_QOS_HBM_WEIGHT, 255),
   (fHIF_FN_QOS_LINK_WEIGHT, 255), (fQMG_PL_ARB_WEIGHT, 255), (fQMG_DYN_ARB_WEIGHT, 255), (fQMG_PL_ARB_BURST, 64),
   (fQMG_DYN_ARB_BURST, 64), (fQMG_CQ_RECHECK_INTERVAL_US, 65535), (fBSN_TASK_LIMIT_DEFAULT_US, 65535),
   (fOCA_MEM_POLICY_MAX_LOADS, 16), (fAMU_SCRUB_PERIOD_MS, 255), (fAMU_RETIRE_THRESHOLD, 65535),
   (fMGL_RETIRE_THRESHOLD, 65535), (fHAL_CH_RATE_BURST_LINES, 64), (fHAL_CH_RATE_DEPTH, 16),
   (fCVC_DRIVE_TIMEOUT_MS, 65535), (fCVC_FN_CMD_LIMIT, 2048), (fHMC_SCRUB_CFG_PASS_MIN, 65535),
   (fHMC_BUCKET_CFG_CAPACITY, 4095), (fHMC_BUCKET_CFG_WINDOW_S, 127), (fTSU_PTM_CTRL_PERIOD_MS, 255),
   (fDRN_POLICY_DRAIN_US, 65535), (fDRN_THRESH_TILE_CORR, 255), (fDRN_THRESH_SRAM_CORR, 255), (fDRN_THRESH_LINK_ERR, 255)]

/-- Fields that clamp in another way: the least and the largest value. -/
def rangedFields : List (Field × Nat × Nat) :=
  [(fAMU_FN_LIMIT, 0, 64), (fDGE_FN_LIMIT, 0, 16), (fPWR_THERMAL_CFG_WARN_C, 70, 110), (fPWR_STEP_DOWN_STEP_US, 20, 65535)]

/-- The modes of the GPIO pins: 0b11 reads 0b00. -/
def Field.isGpio (f : Field) : Bool := gpioFields.any (fun g => g.id = f.id)

/-- The value that a field takes when software writes `v`: what it then reads. -/
def Field.normal (f : Field) (v : Nat) : Nat :=
  match clampedFields.find? (fun p => p.1.id = f.id) with
  | some p => min p.2 (max 1 v)
  | none =>
    match rangedFields.find? (fun p => p.1.id = f.id) with
    | some p => min p.2.2 (max p.2.1 v)
    | none =>
      if f.isGpio then v % 3
      else if f.id = fMGL_GRAPH_COMP_BLOCK_KIB.id then min 4096 (max 4 (v / 4 * 4))
      else v

/-! ### Access codes (R7) -/

/-- A write to one field under its access code. -/
def State.writeField (s : State) (f : Field) (i v : Nat) : State :=
  match f.acc with
  | .rw => s.wr f i (f.normal (f.of v))
  | .w1c => s.wr f i (clearBits (s.rd f i) (f.of v))
  | .w1s => s.wr f i (s.rd f i ||| f.of v)
  | .ro | .rc | .wo => s

/-- A write to a field that is expert, in a page that is locked, has no effect and sets DENIED (R97). -/
def State.writeGuarded (s : State) (sub : Nat) (f : Field) (i v : Nat) : State :=
  if f.expert then s.expertWrite sub (fun s => s.writeField f i v) else s.writeField f i v

def State.writeFields (s : State) (sub : Nat) (fs : List Field) (i v : Nat) : State :=
  fs.foldl (fun (s : State) f => s.writeGuarded sub f i v) s

/-! ### The page header (R91 to R94) -/

/-- ENABLE: read as 1 and unwritable in a page without a soft reset. -/
def State.writeEnable (s : State) (sub : Nat) (on : Bool) : State :=
  if !softResets sub then s
  else
    let begun := if on then [] else if s.rd fCONTROL_ENABLE sub = 0 then s.dge.begun else (s.dge.ready.take 4).map Prod.fst
    (if sub = 12 then { s with dge := { s.dge with begun := begun } } else s).wr fCONTROL_ENABLE sub (bit on)

/-- CONTROL: a write that sets SOFT_RESET starts the reset and leaves ENABLE at 0 (R93). -/
def State.writeControl (s : State) (sub v : Nat) : State :=
  if fCONTROL_SOFT_RESET.of v = 1 then s.softReset sub else s.writeEnable sub (fCONTROL_ENABLE.of v = 1)

/-- The message of R92 after a write to `IRQ_STATUS` or `IRQ_ENABLE`: the masked value is not zero after it. -/
def State.irqAfter (s : State) (sub : Nat) : State := if s.irqMasked sub ≠ 0 then s.message 0 (sub - 1) else s

def State.writeIrqStatus (s : State) (sub v : Nat) : State :=
  (s.setIrqStatus sub (clearBits (s.irqStatus sub) v)).irqAfter sub

def State.writeIrqEnable (s : State) (sub v : Nat) : State := (s.setIrqEnable sub v).irqAfter sub

/-- `IRQ_SET`: as if the causes had occurred, in one event. -/
def State.writeIrqSet (s : State) (sub v : Nat) : State :=
  let old := s.irqStatus sub
  let t := s.setIrqStatus sub (old ||| v)
  let u := if s.irqMasked sub = 0 ∧ t.irqMasked sub ≠ 0 then t.message 0 (sub - 1) else t
  ((List.range 32).filter (fun b => v.testBit b && !old.testBit b)).foldl (fun (s : State) b => s.record sub 1 none b) u

/-- `EXPERT_UNLOCK`: DENIED is W1C; 0x5EA5 unlocks, any other key locks. -/
def State.unlock (s : State) (sub key : Nat) : State := s.wr fEXPERT_UNLOCK_UNLOCKED sub (bit (key = 0x5EA5))

def State.writeUnlock (s : State) (sub v : Nat) : State :=
  (s.writeField fEXPERT_UNLOCK_DENIED sub v).unlock sub (fEXPERT_UNLOCK_KEY.of v)

/-- A page that PF0's write reaches. -/
def State.pageReaches (s : State) (sub : Nat) : Bool :=
  s.reaches 0 && decide (1 ≤ sub) && decide (sub ≤ 16) && s.ready sub

/-- ENABLE: CONTROL takes writes in a page that is not ready too (R85, R93). -/
def execEnable (sub : Nat) (on : Bool) (s : State) : Res :=
  steady (s.reaches 0 && decide (1 ≤ sub) && decide (sub ≤ 16)) (fun s => (s.atRegion sub 0x10).writeEnable sub on) s

def execIrqSet (sub v : Nat) (s : State) : Res := steady (s.pageReaches sub) (fun s => (s.atRegion sub 0x28).writeIrqSet sub (lowBits 32 v)) s

def execIrqStatusWrite (sub v : Nat) (s : State) : Res :=
  steady (s.pageReaches sub) (fun s => (s.atRegion sub 0x20).writeIrqStatus sub (lowBits 32 v)) s

def execIrqEnableWrite (sub v : Nat) (s : State) : Res :=
  steady (s.pageReaches sub) (fun s => (s.atRegion sub 0x24).writeIrqEnable sub (lowBits 32 v)) s

def execExpertUnlock (sub key : Nat) (s : State) : Res :=
  steady (s.pageReaches sub) (fun s => (s.atRegion sub 0x40).unlock sub (lowBits 16 key)) s

/-! ### Registers whose writes act -/

/-- A write to `HIF_CO[i]`: a change to an enabled carve-out is refused (R136). -/
def State.writeCo (s : State) (i v : Nat) : State :=
  let base := fHIF_CO_BASE.of v
  let units := fHIF_CO_UNITS.of v
  let t :=
    if s.coOn i then
      if base = s.rd fHIF_CO_BASE i ∧ units = s.rd fHIF_CO_UNITS i then s else s.notice 1 i
    else (s.wr fHIF_CO_BASE i base).wr fHIF_CO_UNITS i units
  if fHIF_CO_ENABLE.of v = 1 then t.coEnable i else t.coDisable i

/-- Function events: the message of R92 on the function's own vector. -/
def State.fnIrqAfter (s : State) (fn : Nat) : State :=
  if (s.fnIrqStatus fn &&& s.fnIrqEnable fn) ≠ 0 then s.message fn (s.rd fHIF_FN_EVENT_VECTOR_VECTOR fn) else s

/-- `HIF_FN_EVENT_VECTOR`: a vector that the function may not name is refused (R117). -/
def State.writeVector (s : State) (fn v : Nat) : State :=
  let n := fHIF_FN_EVENT_VECTOR_VECTOR.of v
  if vectorOk fn n then s.wr fHIF_FN_EVENT_VECTOR_VECTOR fn n else s.fault 1 { s.entry 1 5 with fn := some fn, unit := 0xFFFF }

/-- The admin queue's settings take no write while ENABLE or ENABLED is 1 (R152). -/
def State.writeAdm (s : State) (fs : List Field) (fn v : Nat) : State :=
  if s.rd fQMG_ADM_CONTROL_ENABLE fn = 1 ∨ (s.queue fn 0).isSome then s else s.writeFields 2 fs fn v

/-- `OCA_TILE` control: CORE_RESET, then MAINT_ENTER. -/
def State.writeTile (s : State) (t v : Nat) : State :=
  let u := if fOCA_TILE_CORE_RESET.of v = 1 then s.coreReset t else s
  if fOCA_TILE_MAINT_ENTER.of v = 1 then u.maintEnter t (fOCA_TILE_PROGRAM.of v) else u

/-- `HAL_CH_CTRL`: the selections first, then CLEAR, STOP and START. -/
def State.writeChannel (s : State) (c v : Nat) : State :=
  let a := (s.writeField fHAL_CH_CTRL_REQ_SEL c v).writeField fHAL_CH_CTRL_PULSE_SEL c v
  let b := if fHAL_CH_CTRL_CLEAR.of v = 1 then a.clearChannel c else a
  let d := if fHAL_CH_CTRL_STOP.of v = 1 then b.stopChannel c else b
  if fHAL_CH_CTRL_START.of v = 1 then d.startChannel c else d

/-- The transfer registers take no write while the channel is not IDLE (R355). -/
def State.writeXfer (s : State) (fs : List Field) (c v : Nat) : State :=
  if s.chState c = chIdle then s.writeFields 7 fs c v else s

/-- `CVC_VOL_CTRL` (R371). -/
def State.volumeOp (s : State) (op port : Nat) : State :=
  match op with
  | 0 => s
  | 1 => s.createVolume
  | 2 => s.destroyVolume
  | 3 => s.addSpare port
  | 4 => s.removeSpare
  | _ => s.opRefused

/-- A refused change of a grant (R372). -/
def State.grantRefused (s : State) (fn : Nat) : State := s.fault 10 { s.entry 10 5 with fn := some fn, unit := 0xFFFF }

/-- A grant's range: unchangeable while ENABLE is 1. -/
def State.writeGrant (s : State) (f : Field) (fn v : Nat) : State :=
  if s.rd fCVC_FN_ENABLE fn = 1 then (if f.of v = s.rd f fn then s else s.grantRefused fn) else s.writeField f fn v

/-- ENABLE, READ_ONLY and RESV of a grant: READ_ONLY stays while ENABLE is and stays 1. -/
def State.writeGrantBits (s : State) (fn v : Nat) : State :=
  let on := fCVC_FN_ENABLE.of v
  let ro := fCVC_FN_READ_ONLY.of v
  let t :=
    if s.rd fCVC_FN_ENABLE fn = 1 ∧ on = 1 then (if ro = s.rd fCVC_FN_READ_ONLY fn then s else s.grantRefused fn)
    else (s.wr fCVC_FN_ENABLE fn on).wr fCVC_FN_READ_ONLY fn ro
  t.expertWrite 10 (fun s => s.writeLockResv fn (fCVC_FN_RESV.of v))

/-- `DSP_PORT` control: DISABLE, then RETRAIN. -/
def State.writePort (s : State) (p v : Nat) : State :=
  let u := if fDSP_PORT_DISABLE.of v = 1 then s.disablePort p else s.enablePort p
  if fDSP_PORT_RETRAIN.of v = 1 then u.retrain p else u

/-- `PWR_ALERT_STATUS`: the causes named are cleared. -/
def State.writeAlerts (s : State) (v : Nat) : State := s.clearAlerts (fun f => f.of v = 1)

/-- `MGT_SNAP_CTRL`. -/
def State.writeSnapCtrl (s : State) (v : Nat) : State :=
  let u := if fMGT_SNAP_CTRL_CLEAR.of v = 1 then s.clearSnapshot else s
  if fMGT_SNAP_CTRL_CLEAR_RECORDS.of v = 1 then u.clearRecords else u

/-- The test window of HMC: `HMC_TEST_CTRL` (R434). -/
def State.testOp (s : State) (op : Nat) : State := if op = 1 then s.writeRaw else if op = 2 then s.readRaw else s

/-- A register whose writes act, named by its first field: what a write of `v` to its element `i` does. -/
abbrev Writer := Field × (State → Nat → Nat → State)

def writersHeader : List Writer := [
  (fCONTROL_SOFT_RESET, State.writeControl),
  (fIRQ_STATUS_ERR, State.writeIrqStatus),
  (fIRQ_ENABLE_ERR, State.writeIrqEnable),
  (fIRQ_SET_ERR, State.writeIrqSet),
  (fEXPERT_UNLOCK_KEY, State.writeUnlock)]

def writersHost : List Writer := [
  (fHIF_CO_ENABLE, State.writeCo),
  (fHIF_FN_IRQ_STATUS_QOS_CAPPED, fun s fn v => (s.setFnIrqStatus fn (clearBits (s.fnIrqStatus fn) v)).fnIrqAfter fn),
  (fHIF_FN_IRQ_ENABLE_QOS_CAPPED, fun s fn v => (s.setFnIrqEnable fn v).fnIrqAfter fn),
  (fHIF_FN_EVENT_VECTOR_VECTOR, State.writeVector),
  (fQMG_ADM_SQ_BASE_BASE, fun s fn v => s.writeAdm [fQMG_ADM_SQ_BASE_BASE] fn v),
  (fQMG_ADM_CQ_BASE_BASE, fun s fn v => s.writeAdm [fQMG_ADM_CQ_BASE_BASE] fn v),
  (fQMG_ADM_CONFIG_SQ_LOG2, fun s fn v =>
    s.writeAdm [fQMG_ADM_CONFIG_SQ_LOG2, fQMG_ADM_CONFIG_CQ_LOG2, fQMG_ADM_CONFIG_MOD, fQMG_ADM_CONFIG_IRQ_EN] fn v),
  (fQMG_ADM_VECTOR_VECTOR, fun s fn v => s.writeAdm [fQMG_ADM_VECTOR_VECTOR] fn v),
  (fQMG_ADM_CONTROL_ENABLE, fun s fn v => if v % 2 = 1 then s.adminEnable fn else s.adminDisable fn),
  (fQMG_FN_QLIMIT_LIMIT, fun s fn v => s.writeQlimit fn (fQMG_FN_QLIMIT_LIMIT.of v))]

def writersEngines : List Writer := [
  (fBSN_LOCKSTEP_TEST_INJECT_WEST, fun s _ v =>
    let u := if fBSN_LOCKSTEP_TEST_INJECT_WEST.of v = 1 then s.injectStop 0 else s
    if fBSN_LOCKSTEP_TEST_INJECT_EAST.of v = 1 then u.injectStop 1 else u),
  (fBSN_FN_LIST, fun s fn v =>
    (s.writeField fBSN_FN_LIST fn v).expertWrite 3 (fun s => s.writeResv fn (fBSN_FN_RESV.of v))),
  (fOCA_ECC_INJECT_TILE, fun s _ v =>
    if fOCA_ECC_INJECT_GO.of v = 1 then
      s.eccInject (fOCA_ECC_INJECT_TILE.of v) (fOCA_ECC_INJECT_TARGET.of v) (fOCA_ECC_INJECT_DOUBLE.of v = 1)
    else s),
  (fOCA_TILE_CORE_RESET, State.writeTile),
  (fAMU_INJECT_BANK, fun s _ v =>
    if fAMU_INJECT_GO.of v = 1 then s.amuInject (fAMU_INJECT_BANK.of v) (fAMU_INJECT_ENTRY.of v) (fAMU_INJECT_COPY.of v = 1)
    else s),
  (fMGL_INJECT_ENGINE, fun s _ v => if fMGL_INJECT_GO.of v = 1 then s.mglInject (fMGL_INJECT_ENGINE.of v) else s),
  (fHAL_CH_CFG_ASSIGNED, State.chCfg),
  (fHAL_CH_CTRL_START, State.writeChannel),
  (fHAL_CH_SRC_ADDR, fun s c v => s.writeXfer [fHAL_CH_SRC_ADDR] c v),
  (fHAL_CH_DST_ADDR, fun s c v => s.writeXfer [fHAL_CH_DST_ADDR] c v),
  (fHAL_CH_COUNT_COUNT, fun s c v => s.writeXfer [fHAL_CH_COUNT_COUNT] c v),
  (fHAL_CH_FORMAT_SW, fun s c v => s.writeXfer [fHAL_CH_FORMAT_SW, fHAL_CH_FORMAT_DW, fHAL_CH_FORMAT_SRC_SPACE,
    fHAL_CH_FORMAT_DST_SPACE, fHAL_CH_FORMAT_CXL_CACHE] c v),
  (fHAL_CH_SSTRIDE_STRIDE, fun s c v => s.writeXfer [fHAL_CH_SSTRIDE_STRIDE] c v),
  (fHAL_CH_DSTRIDE_STRIDE, fun s c v => s.writeXfer [fHAL_CH_DSTRIDE_STRIDE] c v)]

def writersVolume : List Writer := [
  (fCVC_VOL_CTRL_OP, fun s _ v => s.volumeOp (fCVC_VOL_CTRL_OP.of v) (fCVC_VOL_CTRL_PORT.of v)),
  (fCVC_FN_GRANT_BASE, State.writeGrant (f := fCVC_FN_GRANT_BASE)),
  (fCVC_FN_GRANT_BLOCKS, State.writeGrant (f := fCVC_FN_GRANT_BLOCKS)),
  (fCVC_FN_ENABLE, State.writeGrantBits),
  (fCVC_FN_CMD_RESV, fun s fn v =>
    (s.writeField fCVC_FN_CMD_LIMIT fn v).expertWrite 10 (fun s => s.writeCmdResv fn (fCVC_FN_CMD_RESV.of v))),
  (fDSP_PORT_RETRAIN, State.writePort),
  (fDGE_ALARM_TEST_GO, fun s _ v => if fDGE_ALARM_TEST_GO.of v = 1 then s.clearContexts 3 else s)]

def writersDevice : List Writer := [
  (fHMC_MAP_CTRL_OP, fun s _ v => s.mapStart (fHMC_MAP_CTRL_OP.of v)),
  (fHMC_TEST_CTRL_OP, fun s _ v => s.testOp (fHMC_TEST_CTRL_OP.of v)),
  (fTSU_MARK_DETAIL, fun s _ v => s.record 13 6 (some 0) v),
  (fPWR_LIMIT_LIMIT_W, fun s _ v =>
    s.writeLimit fPWR_LIMIT_LIMIT_W fPWR_LIMIT_HYST_W (fPWR_LIMIT_LIMIT_W.of v) (fPWR_LIMIT_HYST_W.of v)),
  (fPWR_REEF_FLOOR_LEVEL, fun s _ v => (s.writeField fPWR_REEF_FLOOR_LEVEL 0 v).reefAgain),
  (fPWR_REEF_MAP_THROTTLE, fun s _ v =>
    (s.writeFields 14 [fPWR_REEF_MAP_THROTTLE, fPWR_REEF_MAP_DROOP, fPWR_REEF_MAP_THERMAL] 0 v).reefAgain),
  (fPWR_ALERT_STATUS_SUPPLY_LOW, fun s _ v => s.writeAlerts v),
  (fDRN_SWAP_CTRL_KIND, fun s _ v =>
    if fDRN_SWAP_CTRL_GO.of v = 1 then s.swapRequest (fDRN_SWAP_CTRL_KIND.of v) (fDRN_SWAP_CTRL_UNIT.of v) else s),
  (fMGT_WARM_RESET_KEY, fun s _ v => s.writeWarmReset (fMGT_WARM_RESET_KEY.of v)),
  (fMGT_SNAP_CTRL_CLEAR, fun s _ v => s.writeSnapCtrl v)]

def writers : List Writer := writersHeader ++ writersHost ++ writersEngines ++ writersVolume ++ writersDevice

/-- The first field of a register, which names it. -/
def RegDesc.head (d : RegDesc) : Nat := (d.fields.map Field.id).headD 0

/-- The registers whose writes reach the clock root: a reef level goes with a CCLK divider, a key starts a warm reset. -/
def clockHeads : List Nat := [fPWR_REEF_FLOOR_LEVEL.id, fPWR_REEF_MAP_THROTTLE.id, fMGT_WARM_RESET_KEY.id]

/-- A write of `v` to element `i` of a register in the page of `sub`. -/
def State.writeReg (s : State) (d : RegDesc) (sub i v : Nat) : State :=
  match writers.find? (fun w => w.1.id = d.head) with
  | some w => if clockHeads.contains d.head then w.2 s i v else s.offClock (fun s => w.2 s i v)
  | none => s.writeFields sub d.fields i v

/-! ### Override registers (R95) -/

/-- The highest bit of a register. -/
def RegDesc.topBit (d : RegDesc) : Nat := 8 * d.bytes - 1

/-- The RW fields of a register, whose values its override register holds beside the basic ones. -/
def RegDesc.overridden (d : RegDesc) : List Field := d.fields.filter (fun f => f.acc = .rw)

/-- The field of OVR_EN of a register. -/
def RegDesc.ovrEn (d : RegDesc) : Field := (d.overridden.headD fCONTROL_ENABLE).ovrEn

/-- The value of an override register: OVR_EN, its own RW fields, and the other fields as the basic register shows them
(R95). -/
def State.overrideWord (s : State) (d : RegDesc) (i : Nat) : Nat :=
  d.overridden.foldl (fun n f => n + s.rd f.x i * 2 ^ f.lo)
    (s.rd d.ovrEn i * 2 ^ d.topBit + s.word (d.fields.filter (fun f => f.acc ≠ .rw)) i)

/-- A write to an override register: its highest bit is OVR_EN, the rest are the fields. An override of PWR_LIMIT
outside 300 W to 800 W is refused like the basic setting (R454). -/
def State.writeOverride (s : State) (d : RegDesc) (sub i v : Nat) : State :=
  let low := v % 2 ^ d.topBit
  if d.head = fPWR_LIMIT_LIMIT_W.id ∧ (fPWR_LIMIT_LIMIT_W.of v < 300 ∨ 800 < fPWR_LIMIT_LIMIT_W.of v) then s.notice 14 0xFFFF
  else
    let t := d.overridden.foldl (fun (s : State) f => s.wr f.x i (f.normal (f.of low))) s
    let u := t.wr d.ovrEn i (v / 2 ^ d.topBit)
    if sub = 14 then u.reefAgain else u

end Sys2Proof.Machine
end

