-- ==== Sys2Proof/Machine/RegAccess.lean ====
section
/-! DEFINITION. Accesses to the base address registers: what lies at an offset, widths and denied accesses, pages that
are not ready, the latches of 64-bit registers and the effects of reads (spec/04_register_pages_and_address_map.md). -/

namespace Sys2Proof.Machine

/-! ### What lies at an offset (R88 to R100) -/

/-- What a dword of a base address register belongs to. -/
inductive Place4 where
  /-- Reserved: reads 0, takes no write (R90). -/
  | empty
  /-- A register: its page, its index, whether it is the override register, and the dword of it. -/
  | reg (d : RegDesc) (sub idx : Nat) (ovr : Bool) (dw : Nat)
  /-- A dword of a log or record, which only reads: its page, the bytes, the offset, and whether it is one of a 64-bit
  value. -/
  | rom (sub : Nat) (bytes : State → List Byte) (off : Nat) (wide : Bool)
  /-- A dword of an MSI-X table entry. -/
  | msix (fn vec part : Nat)
  /-- A dword of a pending bit array. -/
  | pba (fn dw : Nat)
  /-- A dword of a digest slot, by the offset in the slot. -/
  | slot (fn sl off : Nat)

/-- A register that covers an offset of its page or region, and the element. -/
def RegDesc.covers (d : RegDesc) (o : Nat) : Option Nat :=
  if o < d.off then none
  else if d.count = 1 then (if o < d.off + d.bytes then some 0 else none)
  else
    let k := (o - d.off) / d.stride
    if k < d.count ∧ (o - d.off) % d.stride < d.bytes then some k else none

/-- The register at an offset among those that `p` allows. -/
def findReg (p : RegDesc → Bool) (o : Nat) : Option (RegDesc × Nat) :=
  match regTable.find? (fun d => p d && (d.covers o).isSome) with
  | some d => some (d, (d.covers o).getD 0)
  | none => none

/-- The registers of a subsystem's region, the page header among them (R91). -/
def inRegion (sub : Nat) (d : RegDesc) : Bool := !d.win && (d.sub = 0 || d.sub = sub)

/-- The dword of a register that an offset names. -/
def RegDesc.dwOf (d : RegDesc) (o k : Nat) : Nat := (o - d.off - k * d.stride) / 4

/-- What a region holds beside its registers: the error log, identity records, the record window, PF0's MSI-X table. -/
def placeInStores (sub o : Nat) : Place4 :=
  if sub = 1 ∧ 0x10000 ≤ o ∧ o < 0x18000 then .msix 0 ((o - 0x10000) / 16) (o % 16 / 4)
  else if sub = 1 ∧ 0x18000 ≤ o ∧ o < 0x18100 then .pba 0 ((o - 0x18000) / 4)
  else if sub = 16 ∧ 0x10000 ≤ o ∧ o < 0x12820 then
    .rom 16 (fun _ => identityRecord ((o - 0x10000) / 16)) (o % 16) false
  else if sub = 16 ∧ 0x20000 ≤ o ∧ o < 0x21000 then
    .rom 16 (fun s => s.recordPage (s.setting fMGT_RECORD_SEL_KIND 0) (s.setting fMGT_RECORD_SEL_PAGE 0)) (o - 0x20000) true
  else if logBase sub ≤ o ∧ o < logBase sub + 512 then .rom sub (fun s => s.logBytes sub) (o - logBase sub)
      (let b := (o - logBase sub) % 32; b / 8 = 0 || b / 8 = 2)
  else .empty

/-- The dword at offset `o` of the region of a subsystem. -/
def placeInRegion (sub o : Nat) : Place4 :=
  match findReg (inRegion sub) o with
  | some (d, k) => .reg d sub (if d.sub = 0 then sub else k) false (d.dwOf o k)
  | none =>
    if 0x800 ≤ o ∧ o < 0x1000 then
      match findReg (fun d => inRegion sub d && d.ovr.isSome) (o - 0x800) with
      | some (d, k) => .reg d sub k true (d.dwOf (o - 0x800) k)
      | none => placeInStores sub o
    else placeInStores sub o

/-- The dword at offset `o` of the window of a function; the doorbells are handled before. -/
def placeInWindow (fn o : Nat) : Place4 :=
  if 0x4000 ≤ o ∧ o < 0x8000 then
    (if o % 0x400 < 0x200 then .slot fn ((o - 0x4000) / 0x400) (o % 0x400) else .empty)
  else
    match findReg (fun d => d.win) o with
    | some (d, k) => .reg d d.sub (fn * d.count + k) false (d.dwOf o k)
    | none =>
      if fn ≠ 0 ∧ 0x1000 ≤ o ∧ o < 0x1400 then .msix fn ((o - 0x1000) / 16) (o % 16 / 4)
      else if fn ≠ 0 ∧ 0x1800 ≤ o ∧ o < 0x1808 then .pba fn ((o - 0x1800) / 4)
      else .empty

/-- The dword at an offset of the space that an access names. -/
def placeAt (fn : Nat) (space : Sys2Proof.Space) (o : Nat) : Place4 :=
  match space with
  | .bar2 => .empty
  | .window => placeInWindow fn o
  | .bar0 =>
    if o < 0x20000 then placeInWindow 0 o
    else if 0x40000 ≤ o ∧ o < 0x440000 then placeInRegion (o / 0x40000) (o % 0x40000)
    else .empty

/-- The slot of a digest register that has been assigned (R402). -/
def slotAssigned (o : Nat) : Bool :=
  decide (o < 0x1C) || (decide (0x40 ≤ o) && decide (o < 0xC0)) || (decide (0x100 ≤ o) && decide (o < 0x200))

/-- Something lies there. -/
def Place4.assigned : Place4 → Bool
  | .empty => false
  | .slot _ _ o => slotAssigned o
  | .reg .. | .rom .. | .msix .. | .pba .. => true

/-- A doorbell block: its queue ID and the offset in it; a doorbell of PF0's window is nobody's (R102). -/
def doorbellAt (fn : Nat) (space : Sys2Proof.Space) (o : Nat) : Option (Option Nat × Nat) :=
  match space with
  | .bar2 => if o % 0x1000 < 16 then some (some (o / 0x1000), o % 0x1000) else none
  | .window => if 0x8000 ≤ o ∧ o < 0x20000 then some (some ((o - 0x8000) / 16), o % 16) else none
  | .bar0 => if fn = 0 ∧ 0x8000 ≤ o ∧ o < 0x20000 then some (none, o % 16) else none

/-! ### The access (R101, R104) -/

/-- The space code of `HIF_DENIED_ADDR`. -/
def spaceCode : Sys2Proof.Space → Nat
  | .bar0 => 0 | .window => 1 | .bar2 => 2

/-- An access lies in a base address register of its function, and is one TLP of up to the largest payload (R113). -/
def accessOk (a : Access) : Bool :=
  decide (1 ≤ a.size) && decide (a.size ≤ 512) && match a.space with
    | .bar0 => decide (a.fn = 0) && decide (a.off + a.size ≤ 0x800000)
    | .bar2 => decide (a.fn = 0) && decide (a.off + a.size ≤ 0x1000000)
    | .window => decide (1 ≤ a.fn) && decide (a.fn ≤ 1024) && decide (a.off + a.size ≤ 0x20000)

/-- The shapes of R104: a qword, something within one dword, or neither. -/
inductive Shape where
  | qword | dword | odd
  deriving DecidableEq, Repr

def shapeOf (a : Access) : Shape :=
  if a.size = 8 ∧ a.off % 8 = 0 then .qword else if a.off % 4 + a.size ≤ 4 then .dword else .odd

/-- The dwords that an access touches. -/
def dwordsOf (a : Access) : List Nat := (List.range ((a.off % 4 + a.size + 3) / 4)).map (fun i => a.off / 4 * 4 + 4 * i)

/-- Something assigned lies under an access. -/
def touches (a : Access) : Bool := (dwordsOf a).any (fun o => (placeAt a.fn a.space o).assigned)

/-- The doorbell blocks that an access runs into. -/
def bellsUnder (a : Access) : List (Option Nat) := (dwordsOf a).filterMap (fun o => (doorbellAt a.fn a.space o).map Prod.fst)

/-- The kind of an access that is not of the width or alignment of R104 and touches something: a doorbell block that the
function does not own comes before the width. -/
def State.oddKind (s : State) (a : Access) : Option Nat :=
  if (bellsUnder a).any (fun q => !q.any (s.ownsQueue a.fn)) then some 0
  else if touches a || !(bellsUnder a).isEmpty then some 2
  else none

/-- A denied access of this kind (R102). -/
def State.deny (s : State) (a : Access) (write : Bool) (kind : Nat) : State :=
  s.denied a.fn write kind a.off (spaceCode a.space)

/-- The page of an access for R105. -/
def pageKey (a : Access) : Nat := pageOf a.fn (spaceCode a.space) a.off

/-- The latch of a page is gone once the function accesses the page again (R105). -/
def State.takeLatch (s : State) (a : Access) : State := s.atPage a.fn (spaceCode a.space) a.off

/-- A dword of a 64-bit value that a 4-byte read of its low dword latches: a 64-bit register, TS or ADDR of an error log
entry, or an aligned qword of the record window (R105, R472, R484). -/
def Place4.wideRead : Place4 → Bool
  | .reg d _ _ _ _ => d.bytes = 8
  | .slot _ _ o => decide (8 ≤ o) && decide (o < 0x18)
  | .rom _ _ _ w => w
  | .empty | .msix .. | .pba .. => false

/-- A 64-bit register or digest register at a place. -/
def Place4.wide : Place4 → Bool
  | .reg d _ _ _ _ => d.bytes = 8
  | .slot _ _ o => decide (8 ≤ o) && decide (o < 0x18)
  | .empty | .rom .. | .msix .. | .pba .. => false

/-! ### Reads -/

/-- The four dwords of an MSI-X table entry (R117). -/
def Msix.part (e : Msix) (p : Nat) : Nat :=
  if p = 0 then lowBits 32 e.addr else if p = 1 then e.addr / 2 ^ 32 else if p = 2 then e.data else bit e.masked

/-- A dword of a digest slot (R402, R409): the write-only registers read 0. -/
def State.slotDword (s : State) (fn sl o : Nat) : Nat :=
  let d := s.dslot fn sl
  if o = 4 then s.word [fDGE_SLOT_STATUS_STATE, fDGE_SLOT_STATUS_BUSY, fDGE_SLOT_STATUS_KEYED, fDGE_SLOT_STATUS_ALG,
      fDGE_SLOT_STATUS_LAST_STATUS, fDGE_SLOT_STATUS_LAST_SUB, fDGE_SLOT_STATUS_QWORDS] (slotKey fn sl)
  else if o = 0x10 then lowBits 32 d.blocks
  else if o = 0x14 then d.blocks / 2 ^ 32
  else if o = 0x18 then d.cmp false
  else if 0x40 ≤ o ∧ o < 0x80 then (if d.st = 2 then dwordOf d.digest ((o - 0x40) / 4) else 0)
  else if 0x100 ≤ o ∧ o < 0x200 then dwordOf d.record ((o - 0x100) / 4)
  else 0

/-- The value of a register or of its override register. -/
def State.regValue (s : State) (d : RegDesc) (i : Nat) (ovr : Bool) : Nat :=
  if ovr then s.overrideWord d i else s.word d.fields i

/-- A page that is not ready shows only `ID`, `VERSION`, `CAPS` and `STATUS` (R85). -/
def shownUnready (d : RegDesc) : Bool := [fID_SUB_ID.id, fVERSION_MINOR.id, fCAPS_SOFT_RESET.id, fSTATUS_READY.id].contains d.head

/-- The value of the dword at a place. -/
def State.dwordAt (s : State) (p : Place4) : Nat :=
  match p with
  | .empty => 0
  | .reg d sub i ovr dw => if s.ready sub || shownUnready d then bitField (s.regValue d i ovr) (32 * dw) 32 else 0
  | .rom sub f o _ => if s.ready sub then fieldAt (f s) o 4 else 0
  | .msix fn v part => (s.msixEntry fn v).part part
  | .pba fn dw => bitMap 32 (fun b => s.msixPending fn (32 * dw + b))
  | .slot fn sl o => if s.ready 12 then s.slotDword fn sl o else 0

/-- The effect of a read on the RC fields that bytes [lo, hi) of a register cover whole (R7, R106): what the read returned
of a field, in the dword `v`, leaves it; an event that came after a latch stays (R8, R105). -/
def State.readEffect (s : State) (p : Place4) (lo hi v : Nat) : State :=
  match p with
  | .reg d sub i false dw =>
    if s.ready sub then
      (d.fields.filter (fun f => f.acc = .rc && decide (32 * dw + 8 * lo ≤ f.lo) && decide (f.lo + f.len ≤ 32 * dw + 8 * hi))).foldl
        (fun (s : State) f => s.wr f i (s.rd f i - bitField v (f.lo - 32 * dw) f.len)) s
    else s
  | _ => s

/-- The slot of a place is FREE and the register is closed to the function (R403). -/
def State.slotClosed (s : State) (p : Place4) : Bool :=
  match p with
  | .slot fn sl o => s.ready 12 && decide (8 ≤ o) && slotAssigned o && (s.dslot fn sl).st = 0
  | _ => false

/-- The width of a read is one that the target accepts (R104). A FREE digest slot is looked at first where the read lies
within a dword, so a misaligned read of one is captured with KIND 2 (DESIGN CHOICE, notes/assumptions/72.md). -/
def readWidthOk (p : Place4) (a : Access) : Bool :=
  match p with
  | .empty => true
  | .msix .. | .pba .. => a.size = 4
  | _ => !p.wide || a.size = 4

/-- A read within one dword. A low dword of a 64-bit register latches its high dword; the next access to the page, if
it reads that high dword, gets the latched value (R105). -/
def State.readDword (s : State) (a : Access) (latch : Option (Nat × Nat)) : State :=
  let o := a.off / 4 * 4
  let p := placeAt a.fn a.space o
  if s.slotClosed p then (s.deny a false 1).emit (.readData a.fn 0)
  else if !readWidthOk p a then (s.deny a false 2).emit (.readData a.fn 0)
  else
    let v := match latch with
      | some (off, high) => if off = o ∧ a.size = 4 then high else s.dwordAt p
      | none => s.dwordAt p
    let low := p.wideRead && a.size = 4 && decide (o % 8 = 0)
    let t := if low then
        { s with hif := { s.hif with readLatch := put s.hif.readLatch (pageKey a) (o + 4, s.dwordAt (placeAt a.fn a.space (o + 4))) } }
      else s
    (t.readEffect p (a.off % 4) (a.off % 4 + a.size) v).emit (.readData a.fn (bitField v (8 * (a.off % 4)) (8 * a.size)))

/-- A read of a qword: a 64-bit register, or two dwords in address order. -/
def State.readQword (s : State) (a : Access) : State :=
  let p := placeAt a.fn a.space a.off
  let q := placeAt a.fn a.space (a.off + 4)
  if s.slotClosed p || s.slotClosed q then (s.deny a false 1).emit (.readData a.fn 0)
  else
    let lo := s.dwordAt p
    let t := s.readEffect p 0 4 lo
    let hi := t.dwordAt q
    (t.readEffect q 0 4 hi).emit (.readData a.fn (lo + 2 ^ 32 * hi))

/-- A read of a doorbell block returns 0, where the function owns the queue. -/
def State.readDoorbell (s : State) (a : Access) (q : Option Nat) (b : Nat) : State :=
  let own := match q with
    | some qid => s.ownsQueue a.fn qid
    | none => false
  let fits := (a.size = 4 && b % 4 = 0) || (a.size = 8 && b % 8 = 0)
  (if !own then s.deny a false 0 else if fits then s else s.deny a false 2).emit (.readData a.fn 0)

/-- A read that reaches HIF. -/
def State.busRead (s : State) (a : Access) : State :=
  let latch := find s.hif.readLatch (pageKey a)
  let t := s.takeLatch a
  match doorbellAt a.fn a.space a.off with
  | some (q, b) => t.readDoorbell a q b
  | none =>
    match shapeOf a with
    | .dword => t.readDword a latch
    | .qword => t.readQword a
    | .odd => (match t.oddKind a with | some k => t.deny a false k | none => t).emit (.readData a.fn 0)

/-- REGISTER_READ. -/
def execRegisterRead (a : Access) (s : State) : Res := steady (s.reaches a.fn && accessOk a) (fun s => s.busRead a) s

/-! ### Writes -/

/-- A write to a dword of an MSI-X table entry. -/
def State.writeMsix (s : State) (fn vec part v : Nat) : State :=
  let e := s.msixEntry fn vec
  s.setMsix fn vec
    (if part = 0 then { e with addr := e.addr / 2 ^ 32 * 2 ^ 32 + v / 4 * 4 }
     else if part = 1 then { e with addr := e.addr % 2 ^ 32 + v * 2 ^ 32 }
     else if part = 2 then { e with data := v }
     else { e with masked := v % 2 = 1 })

/-- The action bits of `DGE_SLOT_CTRL` that a write sets. -/
def slotActions (v : Nat) : Nat := countBits 7 v

/-- A write to `DGE_SLOT_CTRL` (R403): one action, no reserved bit. -/
def State.slotCtrl (s : State) (fn sl v : Nat) : State :=
  if v.testBit 7 || decide (v / 2 ^ 11 ≠ 0) || decide (1 < slotActions v) then
    (if (s.dslot fn sl).st = 4 then s else s.setDslot fn sl ((s.dslot fn sl).note 0x10 0xA0))
  else if v.testBit 0 then s.claim fn sl (fDGE_SLOT_CTRL_ALG.of v)
  else if v.testBit 1 then s.releaseSlot fn sl
  else if v.testBit 2 then s.keySlot fn sl
  else if v.testBit 3 then s.lastSlot fn sl
  else if v.testBit 4 then s.exportSlot fn sl
  else if v.testBit 5 then s.importSlot fn sl
  else if v.testBit 6 then s.restartSlot fn sl
  else s

/-- A write to a 32-bit register of a digest slot: EXPECT and RECORD; a LOST slot discards it (R410). -/
def State.slotWrite (s : State) (fn sl o v : Nat) : State :=
  let d := s.dslot fn sl
  if o = 0 then s.slotCtrl fn sl v
  else if d.st = 4 then s
  else if 0x80 ≤ o ∧ o < 0xC0 then
    s.setDslot fn sl { d with expect := patch (d.expect ++ List.replicate (64 - d.expect.length) 0) (o - 0x80) (leBytes 4 v) }
  else if 0x100 ≤ o ∧ o < 0x200 then s.setDslot fn sl { d with image := patch d.record (o - 0x100) (leBytes 4 v) }
  else s

/-- An offset of the expert window of a page (R94). -/
def expertPage (a : Access) : Option Nat :=
  if a.space = .bar0 ∧ 0x40000 ≤ a.off ∧ a.off < 0x440000 ∧ 0x800 ≤ a.off % 0x40000 ∧ a.off % 0x40000 < 0x1000 then
    some (a.off / 0x40000)
  else none

/-- A page takes the write: it is ready, or the write is one to CONTROL (R85). -/
def State.takesWrite (s : State) (d : RegDesc) (sub : Nat) : Bool := s.ready sub || d.head = fCONTROL_SOFT_RESET.id

/-- A write of a whole register, or of the one dword of it that a place names. -/
def State.writePlace (s : State) (p : Place4) (v : Nat) : State :=
  match p with
  | .empty | .rom .. | .pba .. => s
  | .reg d sub i ovr _ =>
    if s.takesWrite d sub then (if ovr then s.writeOverride d sub i v else s.writeReg d sub i v) else s
  | .msix fn vec part => s.offClock (fun s => s.writeMsix fn vec part v)
  | .slot fn sl o =>
    s.offClock (fun s => if !s.ready 12 then s else if o = 8 then s.slotData fn sl v else s.slotWrite fn sl o v)

/-- The current low dword of a 64-bit register, for a write of its high dword alone (R105): write-only bits are 0. -/
def State.lowDword (s : State) (p : Place4) : Nat :=
  match p with
  | .reg d _ i ovr _ => lowBits 32 (if ovr then s.overrideWord d i else s.word (d.fields.filter (fun f => f.acc = .rw)) i)
  | _ => 0

/-- A place that only the sideband may write (R101). -/
def sidebandOnly (p : Place4) : Bool :=
  match p with
  | .reg d _ _ _ _ => d.head = fMGT_SNAP_PRESERVE_PRESERVE.id
  | _ => false

/-- Why a write is denied: a digest slot that is FREE, its width, a sideband-only register. Of a write that breaks two of
these, the first that this order names is captured (DESIGN CHOICE, notes/assumptions/72.md). -/
def State.writeDenied (s : State) (a : Access) (ps : List Place4) (widthOk : Bool) : Option Nat :=
  if ps.any s.slotClosed then some 1
  else if !widthOk then s.oddKind a
  else if ps.any sidebandOnly then some 3
  else none

/-- An access touches a field of an array that its chapter marks as expert (R97): the page. -/
def expertField (a : Access) : Option Nat :=
  ((dwordsOf a).findSome? (fun o => match placeAt a.fn a.space o with
    | .reg d sub _ false dw =>
      if d.fields.any (fun f => f.expert && decide (f.lo + 8 * o < 32 * dw + 8 * (a.off + a.size)) && decide (32 * dw + 8 * a.off < f.lo + f.len + 8 * o))
      then some sub else none
    | _ => none))

/-- In a ready page that is locked, a write to the expert window, or one of no accepted width to an expert field of an
array, has no effect but DENIED (R94, R97, R102). -/
def State.lockedWrite (s : State) (a : Access) (widthOk : Bool) : Option Nat :=
  ((expertPage a).orElse (fun _ => if widthOk then none else expertField a)).filter
    (fun sub => s.ready sub && s.rd fEXPERT_UNLOCK_UNLOCKED sub = 0)

/-- A write of one aligned dword: the low dword of a 64-bit register is held until the high one follows. -/
def State.putDword (s : State) (a : Access) (hold : Option (Nat × Nat)) (v : Nat) : State :=
  let p := placeAt a.fn a.space a.off
  if !p.wide then s.writePlace p v
  else if a.off % 8 = 0 then { s with hif := { s.hif with writeHold := put s.hif.writeHold (pageKey a) (a.off, v) } }
  else
    let lowPlace := placeAt a.fn a.space (a.off - 4)
    let low := match hold with
      | some (off, w) => if off + 4 = a.off then w else s.lowDword lowPlace
      | none => s.lowDword lowPlace
    s.writePlace lowPlace (low + 2 ^ 32 * v)

/-- A write within one dword, or of a qword. -/
def State.writeShaped (s : State) (a : Access) (hold : Option (Nat × Nat)) (v : Nat) : State :=
  match shapeOf a with
  | .dword => if a.size = 4 then s.putDword a hold v else s
  | .qword =>
    let p := placeAt a.fn a.space a.off
    if p.wide then s.writePlace p v
    else (s.writePlace p (lowBits 32 v)).writePlace (placeAt a.fn a.space (a.off + 4)) (v / 2 ^ 32)
  | .odd => s

/-- A write to a doorbell block (R100, R104): both doorbells of a block where the access is a qword. -/
def State.writeDoorbell (s : State) (a : Access) (q : Option Nat) (b : Nat) : State :=
  match q with
  | none => s.deny a true 0
  | some qid =>
    if !s.ownsQueue a.fn qid then s.deny a true 0
    else if a.size = 4 ∧ b = 0 then s.sqDoorbell a.fn qid
    else if a.size = 4 ∧ b = 4 then s.cqDoorbell a.fn qid
    else if a.size = 8 ∧ b = 0 then (s.sqDoorbell a.fn qid).cqDoorbell a.fn qid
    else s.deny a true 2

/-- A write that reaches HIF. -/
def State.busWrite (s : State) (a : Access) (v : Nat) : State :=
  let hold := find s.hif.writeHold (pageKey a)
  let t := s.takeLatch a
  match doorbellAt a.fn a.space a.off with
  | some (q, b) => t.offClock (fun t => t.writeDoorbell a q b)
  | none =>
    let ps := (dwordsOf a).map (placeAt a.fn a.space)
    let whole := shapeOf a = .qword || (a.size = 4 && a.off % 4 = 0)
    match t.lockedWrite a whole with
    | some sub => t.wr fEXPERT_UNLOCK_DENIED sub 1
    | none =>
      match t.writeDenied a ps whole with
      | some kind => t.deny a true kind
      | none => t.writeShaped a hold v

/-- A poisoned write is dropped and logged (R132): in the AER status of the function that made it, and as a NOTICE in
HIF's error log (DESIGN CHOICE, notes/assumptions/91.md). -/
def State.poisonedWrite (s : State) (a : Access) : State :=
  (s.aerPoison a.fn).fault 1 { s.entry 1 5 with fn := some a.fn }

/-- REGISTER_WRITE. -/
def execRegisterWrite (a : Access) (v : Nat) (s : State) : Res :=
  enabled (s.reaches a.fn && accessOk a)
    (fun s => if a.poisoned then s.poisonedWrite a else s.busWrite a (lowBits (8 * a.size) v)) s

end Sys2Proof.Machine
end

