-- ==== Sys2Proof/Machine/Scalar.lean ====
section
/-! DEFINITION. The scalar instructions of the operator core (spec/09_operator_core.md R241 to R257). -/

namespace Sys2Proof.Machine

/-! ### Shared shapes -/

/-- rd = `g` of x[rs1] and x[rs2] (REG format). -/
def State.regReg (s : State) (t : Nat) (w : Dword) (e : Enc) (g : Qword → Qword → Qword) : State :=
  s.issue t w e [wB w, wC w] (fun s c => .goes (s.writeBack t (wA w) (g (c.getX (wB w)) (c.getX (wC w)))))

/-- rd = `g` of x[rs1]. -/
def State.regOne (s : State) (t : Nat) (w : Dword) (e : Enc) (g : Qword → Qword) : State :=
  s.issue t w e [wB w] (fun s c => .goes (s.writeBack t (wA w) (g (c.getX (wB w)))))

/-- A predicate written; the pc goes on. -/
def State.predBack (s : State) (t pd : Nat) (b : Bool) : State :=
  (s.onCore t (fun c => c.putP pd b)).nextPc t

/-- A 32-bit result, sign-extended (R244). -/
def sextW (v : Dword) : Qword := v.signExtend 64
def lowW (v : Qword) : Dword := v.truncate 32

def shAmount (b : Qword) : Nat := b.toNat % 64

/-- Number of leading zero bits of an `n`-bit number. -/
def clzNat : Nat → Nat → Nat
  | 0, _ => 0
  | n + 1, v => if v.testBit n then 0 else 1 + clzNat n v

/-- Number of trailing zero bits: `n` where none is set. -/
def ctzNat (n v : Nat) : Nat := ((List.range n).find? (fun i => v.testBit i)).getD n

/-- The eight bytes reversed. -/
def bswap (v : Qword) : Qword := BitVec.ofNat 64 (leNat (leBytes 8 v.toNat).reverse)

/-- Fold the low `n` bytes of `b` into the CRC-32C register `r` (R245). -/
def crcFold (n : Nat) (r : Qword) (b : Qword) : Qword :=
  ((leBytes n b.toNat).foldl crcByte (lowW r)).zeroExtend 64

/-- Signed quotient and remainder of `n`-bit numbers (R245): division by zero, and the overflow that BitVec's wraps. -/
def divS {n : Nat} (a b : BitVec n) : BitVec n := if b = 0 then BitVec.allOnes n else a.sdiv b
def divU {n : Nat} (a b : BitVec n) : BitVec n := if b = 0 then BitVec.allOnes n else a / b
def remS {n : Nat} (a b : BitVec n) : BitVec n := if b = 0 then a else a.srem b
def remU {n : Nat} (a b : BitVec n) : BitVec n := if b = 0 then a else a % b

/-- High 64 bits of products (R244). -/
def mulHigh (a b : Int) : Qword := BitVec.ofInt 64 (a * b / 2 ^ 64)

/-! ### System (R244) -/

def execNop (t : Nat) (w : Dword) (s : State) : Res := coreStep s.running (fun s => s.issue t w encNop [] (fun s _ => .goes (s.nextPc t))) s

/-- END waits for every access and vector instruction; then the task ends normally and its output tokens are taken
from OUT_TOKEN (R182, R257, R283). -/
def outTokenOf (s : State) (c : Core) (x : Task) (r : Run) (p : Nat) : Token :=
  let d := c.lsRead (0x100 + 64 * p) 64
  let cols := bitsAt d 7 0 6
  let rows := bitsAt d 8 0 17
  let empty := rows = 0 || cols = 0
  let colset := bitsAt d 32 0 48
  let sel := bitsAt d 24 0 48
  let col0 := if cols = 0 then 0
    else
      let got := s.engineRead x.fn colset 8
      if got.status = 0 then leNat got.data % 2 ^ 48 else 0
  { seq := x.seq, flow := 0, empty := empty, skipped := false, poison := false, cols := cols, rows := rows, node := x.node,
    subseq := 0, part := 0, srcTs := (x.token.map Token.srcTs).getD s.free, sel := sel, fn := x.fn, colset := colset,
    runTag := r.runTag, col0 := col0, timeLo := fieldAt d 48 8, timeHi := fieldAt d 56 8, bufs := [], stamp := 0 }

/-- The buffers that an output token of a core task refers to (R179): its port's, and with PASS_COLS its input's; an
EMPTY token refers to none. -/
def coreBufs (g : Graph) (x : Task) (p : Nat) (empty : Bool) : List Nat :=
  if empty then []
  else ((x.bufs.filter (fun b => b.1 = p)).map Prod.snd)
    ++ (if (g.node x.node).pass then (x.token.map Token.bufs).getD [] else [])

def State.endCore (s : State) (t : Nat) : State :=
  match s.tileTask t with
  | none => s.nextPc t
  | some (_, x) =>
    match s.run x.run with
    | none => s
    | some r =>
      let g := s.graphOf r
      let outs := (g.dataPorts x.node).map (fun p =>
        let k := outTokenOf s (s.core t) x r p
        (p, { k with bufs := coreBufs g x p k.empty }))
      let u := s.onCore t (fun c => { c with instret := c.instret + 1 })
      (if x.token.isNone then u.drawn else u).endOnTile t 0 0 outs

def execEndTask (t : Nat) (w : Dword) (s : State) : Res :=
  coreStep s.running (fun s => s.issue t w encEnd [] (fun s c =>
    if c.vectorBusy || !c.accs.isEmpty then .wait else .goes (s.endCore t))) s

def execTrap (t : Nat) (w : Dword) (s : State) : Res :=
  coreStep s.running (fun s => s.issue t w encTrap [] (fun _ _ => .raises 0x30 0x07 0 (wBits w 7 10))) s

def execFence (t : Nat) (w : Dword) (s : State) : Res :=
  coreStep s.running (fun s => s.issue t w encFence [] (fun s c =>
    if c.vectorBusy || !c.accs.isEmpty then .wait else .goes (s.nextPc t))) s

/-- The counter that RDCNT reads (R244, R437): CYCLE, INSTRET or TIME. -/
def State.counter (s : State) (c : Core) (sel : Nat) : Nat :=
  match sel with
  | 0 => s.cyclesSince c.cycStart
  | 1 => c.instret
  | _ => s.clk.tsu

def execRdcnt (t : Nat) (w : Dword) (s : State) : Res :=
  coreStep s.running (fun s => s.issue t w encRdcnt [] (fun s c =>
    .goes (s.writeBack t (wA w) (BitVec.ofNat 64 (s.counter c (wB w)))))) s

/-! ### Integer (R244, R245) -/

def execAdd (t : Nat) (w : Dword) (s : State) : Res :=
  coreStep s.running (fun s => s.regReg t w encAdd (fun a b => a + b)) s

def execSub (t : Nat) (w : Dword) (s : State) : Res :=
  coreStep s.running (fun s => s.regReg t w encSub (fun a b => a - b)) s

def execAnd (t : Nat) (w : Dword) (s : State) : Res :=
  coreStep s.running (fun s => s.regReg t w encAnd (fun a b => a &&& b)) s

def execOr (t : Nat) (w : Dword) (s : State) : Res :=
  coreStep s.running (fun s => s.regReg t w encOr (fun a b => a ||| b)) s

def execXor (t : Nat) (w : Dword) (s : State) : Res :=
  coreStep s.running (fun s => s.regReg t w encXor (fun a b => a ^^^ b)) s

def execAndn (t : Nat) (w : Dword) (s : State) : Res :=
  coreStep s.running (fun s => s.regReg t w encAndn (fun a b => a &&& ~~~b)) s

def execOrn (t : Nat) (w : Dword) (s : State) : Res :=
  coreStep s.running (fun s => s.regReg t w encOrn (fun a b => a ||| ~~~b)) s

def execXnor (t : Nat) (w : Dword) (s : State) : Res :=
  coreStep s.running (fun s => s.regReg t w encXnor (fun a b => ~~~(a ^^^ b))) s

def execSll (t : Nat) (w : Dword) (s : State) : Res :=
  coreStep s.running (fun s => s.regReg t w encSll (fun a b => a <<< shAmount b)) s

def execSrl (t : Nat) (w : Dword) (s : State) : Res :=
  coreStep s.running (fun s => s.regReg t w encSrl (fun a b => a >>> shAmount b)) s

def execSra (t : Nat) (w : Dword) (s : State) : Res :=
  coreStep s.running (fun s => s.regReg t w encSra (fun a b => a.sshiftRight (shAmount b))) s

def execRol (t : Nat) (w : Dword) (s : State) : Res :=
  coreStep s.running (fun s => s.regReg t w encRol (fun a b => a.rotateLeft (shAmount b))) s

def execRor (t : Nat) (w : Dword) (s : State) : Res :=
  coreStep s.running (fun s => s.regReg t w encRor (fun a b => a.rotateRight (shAmount b))) s

def execMin (t : Nat) (w : Dword) (s : State) : Res :=
  coreStep s.running (fun s => s.regReg t w encMin (fun a b => if a.slt b then a else b)) s

def execMax (t : Nat) (w : Dword) (s : State) : Res :=
  coreStep s.running (fun s => s.regReg t w encMax (fun a b => if b.slt a then a else b)) s

def execMinu (t : Nat) (w : Dword) (s : State) : Res :=
  coreStep s.running (fun s => s.regReg t w encMinu (fun a b => if a.ult b then a else b)) s

def execMaxu (t : Nat) (w : Dword) (s : State) : Res :=
  coreStep s.running (fun s => s.regReg t w encMaxu (fun a b => if b.ult a then a else b)) s

def execClz (t : Nat) (w : Dword) (s : State) : Res :=
  coreStep s.running (fun s => s.regOne t w encClz (fun a => BitVec.ofNat 64 (clzNat 64 a.toNat))) s

def execCtz (t : Nat) (w : Dword) (s : State) : Res :=
  coreStep s.running (fun s => s.regOne t w encCtz (fun a => BitVec.ofNat 64 (ctzNat 64 a.toNat))) s

def execPopc (t : Nat) (w : Dword) (s : State) : Res :=
  coreStep s.running (fun s => s.regOne t w encPopc (fun a => BitVec.ofNat 64 (countBits 64 a.toNat))) s

def execBswap (t : Nat) (w : Dword) (s : State) : Res :=
  coreStep s.running (fun s => s.regOne t w encBswap (fun a => bswap a)) s

def execSextb (t : Nat) (w : Dword) (s : State) : Res :=
  coreStep s.running (fun s => s.regOne t w encSextb (fun a => (a.truncate 8).signExtend 64)) s

def execSexth (t : Nat) (w : Dword) (s : State) : Res :=
  coreStep s.running (fun s => s.regOne t w encSexth (fun a => (a.truncate 16).signExtend 64)) s

def execSextw (t : Nat) (w : Dword) (s : State) : Res :=
  coreStep s.running (fun s => s.regOne t w encSextw (fun a => (a.truncate 32).signExtend 64)) s

def execZextb (t : Nat) (w : Dword) (s : State) : Res :=
  coreStep s.running (fun s => s.regOne t w encZextb (fun a => (a.truncate 8).zeroExtend 64)) s

def execZexth (t : Nat) (w : Dword) (s : State) : Res :=
  coreStep s.running (fun s => s.regOne t w encZexth (fun a => (a.truncate 16).zeroExtend 64)) s

def execZextw (t : Nat) (w : Dword) (s : State) : Res :=
  coreStep s.running (fun s => s.regOne t w encZextw (fun a => (a.truncate 32).zeroExtend 64)) s

def execAddw (t : Nat) (w : Dword) (s : State) : Res :=
  coreStep s.running (fun s => s.regReg t w encAddw (fun a b => sextW (lowW a + lowW b))) s

def execSubw (t : Nat) (w : Dword) (s : State) : Res :=
  coreStep s.running (fun s => s.regReg t w encSubw (fun a b => sextW (lowW a - lowW b))) s

def execSllw (t : Nat) (w : Dword) (s : State) : Res :=
  coreStep s.running (fun s => s.regReg t w encSllw (fun a b => sextW (lowW a <<< (b.toNat % 32)))) s

def execSrlw (t : Nat) (w : Dword) (s : State) : Res :=
  coreStep s.running (fun s => s.regReg t w encSrlw (fun a b => sextW (lowW a >>> (b.toNat % 32)))) s

def execCrc32cb (t : Nat) (w : Dword) (s : State) : Res :=
  coreStep s.running (fun s => s.regReg t w encCrc32cb (fun a b => crcFold 1 a b)) s

def execCrc32ch (t : Nat) (w : Dword) (s : State) : Res :=
  coreStep s.running (fun s => s.regReg t w encCrc32ch (fun a b => crcFold 2 a b)) s

def execCrc32cw (t : Nat) (w : Dword) (s : State) : Res :=
  coreStep s.running (fun s => s.regReg t w encCrc32cw (fun a b => crcFold 4 a b)) s

def execCrc32cd (t : Nat) (w : Dword) (s : State) : Res :=
  coreStep s.running (fun s => s.regReg t w encCrc32cd (fun a b => crcFold 8 a b)) s

/-! ### Multiply and divide (R244, R245) -/

def execMul (t : Nat) (w : Dword) (s : State) : Res :=
  coreStep s.running (fun s => s.regReg t w encMul (fun a b => a * b)) s

def execMulh (t : Nat) (w : Dword) (s : State) : Res :=
  coreStep s.running (fun s => s.regReg t w encMulh (fun a b => mulHigh a.toInt b.toInt)) s

def execMulhu (t : Nat) (w : Dword) (s : State) : Res :=
  coreStep s.running (fun s => s.regReg t w encMulhu (fun a b => mulHigh a.toNat b.toNat)) s

def execMulhsu (t : Nat) (w : Dword) (s : State) : Res :=
  coreStep s.running (fun s => s.regReg t w encMulhsu (fun a b => mulHigh a.toInt b.toNat)) s

def execMulw (t : Nat) (w : Dword) (s : State) : Res :=
  coreStep s.running (fun s => s.regReg t w encMulw (fun a b => sextW (lowW a * lowW b))) s

def execDiv (t : Nat) (w : Dword) (s : State) : Res :=
  coreStep s.running (fun s => s.regReg t w encDiv (fun a b => divS a b)) s

def execDivu (t : Nat) (w : Dword) (s : State) : Res :=
  coreStep s.running (fun s => s.regReg t w encDivu (fun a b => divU a b)) s

def execRem (t : Nat) (w : Dword) (s : State) : Res :=
  coreStep s.running (fun s => s.regReg t w encRem (fun a b => remS a b)) s

def execRemu (t : Nat) (w : Dword) (s : State) : Res :=
  coreStep s.running (fun s => s.regReg t w encRemu (fun a b => remU a b)) s

def execDivw (t : Nat) (w : Dword) (s : State) : Res :=
  coreStep s.running (fun s => s.regReg t w encDivw (fun a b => sextW (divS (lowW a) (lowW b)))) s

def execDivuw (t : Nat) (w : Dword) (s : State) : Res :=
  coreStep s.running (fun s => s.regReg t w encDivuw (fun a b => sextW (divU (lowW a) (lowW b)))) s

def execRemw (t : Nat) (w : Dword) (s : State) : Res :=
  coreStep s.running (fun s => s.regReg t w encRemw (fun a b => sextW (remS (lowW a) (lowW b)))) s

def execRemuw (t : Nat) (w : Dword) (s : State) : Res :=
  coreStep s.running (fun s => s.regReg t w encRemuw (fun a b => sextW (remU (lowW a) (lowW b)))) s

/-! ### Compares and predicates (R243, R244) -/

/-- CMP: rd[2:0] is the predicate. -/
def execCmp (t : Nat) (w : Dword) (s : State) : Res :=
  coreStep s.running (fun s => s.issue t w encCmp [wB w, wC w] (fun s c =>
    .goes (s.predBack t (wA w) (compare (wBits w 0 3) (c.getX (wB w)) (c.getX (wC w)))))) s

def execCmpi (t : Nat) (w : Dword) (s : State) : Res :=
  coreStep s.running (fun s => s.issue t w encCmpi [wBits w 11 5] (fun s c =>
    .goes (s.predBack t (wBits w 16 3) (compare (wBits w 19 3) (c.getX (wBits w 11 5)) (cmpImm w))))) s

/-- A predicate operation into pd. -/
def State.predPred (s : State) (t : Nat) (w : Dword) (e : Enc) (fn : Nat) : State :=
  s.issue t w e [predWord (wBits w 14 3), predWord (wBits w 11 3)] (fun s c => .goes (s.predBack t (wBits w 17 3)
    (predOp fn (predBit c.p (wBits w 14 3)) (predBit c.p (wBits w 11 3)))))

def execPand (t : Nat) (w : Dword) (s : State) : Res := coreStep s.running (fun s => s.predPred t w encPand 0) s

def execPor (t : Nat) (w : Dword) (s : State) : Res := coreStep s.running (fun s => s.predPred t w encPor 1) s

def execPxor (t : Nat) (w : Dword) (s : State) : Res := coreStep s.running (fun s => s.predPred t w encPxor 2) s

def execPandn (t : Nat) (w : Dword) (s : State) : Res := coreStep s.running (fun s => s.predPred t w encPandn 3) s

/-- PTOX: p7 to p0 in bits [7:0]. -/
def execPtox (t : Nat) (w : Dword) (s : State) : Res :=
  coreStep s.running (fun s => s.issue t w encPtox ((List.range 8).map predWord) (fun s c =>
    .goes (s.writeBack t (wA w) (BitVec.ofNat 64 (withBit (c.p % 256) 0))))) s

/-- XTOP: bit 0 of the source is ignored. -/
def execXtop (t : Nat) (w : Dword) (s : State) : Res :=
  coreStep s.running (fun s => s.issue t w encXtop [wB w] (fun s c =>
    .goes ((s.onCore t (fun d =>
      ({ d with p := withoutBit ((c.getX (wB w)).toNat % 256) 0 } : Core).noteWrite ((List.range 7).map (fun i => predWord (i + 1))))).nextPc t))) s

/-! ### Immediates (R243) -/

def execAddi (t : Nat) (w : Dword) (s : State) : Res :=
  coreStep s.running (fun s => s.regOne t w encAddi (fun a => a + wImm12 w)) s

def execAndi (t : Nat) (w : Dword) (s : State) : Res :=
  coreStep s.running (fun s => s.regOne t w encAndi (fun a => a &&& wUimm12 w)) s

def execOri (t : Nat) (w : Dword) (s : State) : Res :=
  coreStep s.running (fun s => s.regOne t w encOri (fun a => a ||| wUimm12 w)) s

def execXori (t : Nat) (w : Dword) (s : State) : Res :=
  coreStep s.running (fun s => s.regOne t w encXori (fun a => a ^^^ wUimm12 w)) s

def execSlli (t : Nat) (w : Dword) (s : State) : Res :=
  coreStep s.running (fun s => s.regOne t w encSlli (fun a => a <<< wShamt w)) s

def execSrli (t : Nat) (w : Dword) (s : State) : Res :=
  coreStep s.running (fun s => s.regOne t w encSrli (fun a => a >>> wShamt w)) s

def execSrai (t : Nat) (w : Dword) (s : State) : Res :=
  coreStep s.running (fun s => s.regOne t w encSrai (fun a => a.sshiftRight (wShamt w))) s

def execRoli (t : Nat) (w : Dword) (s : State) : Res :=
  coreStep s.running (fun s => s.regOne t w encRoli (fun a => a.rotateLeft (wShamt w))) s

def execRori (t : Nat) (w : Dword) (s : State) : Res :=
  coreStep s.running (fun s => s.regOne t w encRori (fun a => a.rotateRight (wShamt w))) s

def execLui (t : Nat) (w : Dword) (s : State) : Res :=
  coreStep s.running (fun s => s.issue t w encLui [] (fun s _ => .goes (s.writeBack t (wA w) (wImm17 w <<< 12)))) s

def execAddpc (t : Nat) (w : Dword) (s : State) : Res :=
  coreStep s.running (fun s => s.issue t w encAddpc [] (fun s c =>
    .goes (s.writeBack t (wA w) (BitVec.ofNat 64 c.pc + wImm17 w * 4)))) s

/-! ### Branches (R243, R247) -/

/-- Go to a target. -/
def State.jump (s : State) (t : Nat) (target : Qword) : State :=
  (s.onCore t (fun c => c.advance target.toNat true)).checkRange t

def branchTarget (w : Dword) (pc : Nat) : Qword := BitVec.ofNat 64 pc + wOff22 w * 4

def execBr (t : Nat) (w : Dword) (s : State) : Res :=
  coreStep s.running (fun s => s.issue t w encBr [] (fun s c => .goes (s.jump t (branchTarget w c.pc)))) s

def execCall (t : Nat) (w : Dword) (s : State) : Res :=
  coreStep s.running (fun s => s.issue t w encCall [] (fun s c =>
    .goes ((s.onCore t (fun d => d.putX 31 (BitVec.ofNat 64 (c.pc + 4)))).jump t (branchTarget w c.pc)))) s

/-- JR: the target is formed from rs1 before rd is written; one that is no multiple of 4 raises MISALIGNED. -/
def execJr (t : Nat) (w : Dword) (s : State) : Res :=
  coreStep s.running (fun s => s.issue t w encJr [wB w] (fun s c =>
    let target := c.getX (wB w) + wImm12 w
    if target.toNat % 4 ≠ 0 then .raises 0x30 0x04 target.toNat 0
    else .goes ((s.onCore t (fun d => d.putX (wA w) (BitVec.ofNat 64 (c.pc + 4)))).jump t target))) s

/-! ### Loads, stores and atomics (R243, R245, R250 to R256) -/

/-- The effective address of a MEM instruction. -/
def memEa (c : Core) (w : Dword) : Qword := c.getX (wB w) + wImm12 w

/-- The limit on loads and atomics in flight (R237). -/
def State.maxLoads (s : State) : Nat := min 16 (s.setting1 fOCA_MEM_POLICY_MAX_LOADS 0)

def MemAcc.isLoad (a : MemAcc) : Bool :=
  match a.kind with | .load _ _ => true | .atomic _ _ _ _ => true | _ => false

def MemAcc.isStore (a : MemAcc) : Bool := match a.kind with | .store _ => true | _ => false

/-- The store buffer holds 16 lines (R237). -/
def Core.storeRoom (c : Core) (va : Nat) : Bool :=
  let lines := ((c.accs.filter MemAcc.isStore).map (fun a => a.va / 64)).dedup
  lines.contains (va / 64) || decide (lines.length < 16)

/-- Send an access. -/
def State.send (s : State) (t : Nat) (w : Dword) (k : AccKind) (va len rd : Nat) : State :=
  (s.onCore t (fun c =>
    let d := if rd = 0 then c else
      { c with accs := c.accs.map (fun a => if a.rd = rd then { a with rd := 0 } else a),
               vq := c.vq.map (fun e => if e.rd = rd then { e with rd := 0 } else e) }
    { d with accs := d.accs ++ [⟨k, va, len, rd, c.stamp, c.pc, w⟩] })).nextPc t

/-- A read of local store meets an injected error (R263): `none` where a word is uncorrectable. -/
def State.lsGet (s : State) (t off n : Nat) : Option (List Byte × State) :=
  let c := s.core t
  let ws := lsWords off n
  if ws.any (fun k => find c.lsBad k = some true) then none
  else
    let bad := ws.filter (fun k => find c.lsBad k = some false)
    let u := bad.foldl (fun s k => (s.onCore t (fun c => { c with lsBad := del c.lsBad k })).tileCorrected t
      fOCA_CORRECTED_LOCAL_STORE) s
    some (c.lsRead off n, u)

/-- A scalar load of `n` bytes. Local store is read once earlier vector accesses are done (R290). -/
def State.load (s : State) (t : Nat) (w : Dword) (e : Enc) (n : Nat) (signed : Bool) : State :=
  s.issue t w e [wB w] (fun s c =>
    let ea := memEa c w
    match space ea with
    | .bad => .raises 0x30 0x05 ea.toNat 0
    | .ls off =>
      if off % n ≠ 0 then .raises 0x30 0x04 ea.toNat 0
      else if c.vectorBusy then .wait
      else
        match s.lsGet t off n with
        | none => .raises 0x20 0x02 ea.toNat 0
        | some r => .goes (r.2.writeBack t (wA w) (loadValue n signed r.1))
    | .hbm va =>
      if va % n ≠ 0 then .raises 0x30 0x04 ea.toNat 0
      else if s.maxLoads ≤ (c.accs.filter MemAcc.isLoad).length then .wait
      else .goes (s.send t w (.load n signed) va n (wA w)))

/-- A scalar store of `n` bytes. -/
def State.storeX (s : State) (t : Nat) (w : Dword) (e : Enc) (n : Nat) : State :=
  s.issue t w e [wB w, wA w] (fun s c =>
    let ea := memEa c w
    let d := leBytes n (c.getX (wA w)).toNat
    match space ea with
    | .bad => .raises 0x30 0x05 ea.toNat 0
    | .ls off =>
      if off % n ≠ 0 then .raises 0x30 0x04 ea.toNat 0
      else if lsProtected off then .raises 0x30 0x06 ea.toNat 0
      else if c.vectorBusy then .wait
      else .goes ((s.onCore t (fun c => c.lsWrite off d)).nextPc t)
    | .hbm va =>
      if va % n ≠ 0 then .raises 0x30 0x04 ea.toNat 0
      else if !c.storeRoom va then .wait
      else .goes (s.send t w (.store d) va n 0))

def execLb (t : Nat) (w : Dword) (s : State) : Res := coreStep s.running (fun s => s.load t w encLb 1 true) s

def execLh (t : Nat) (w : Dword) (s : State) : Res := coreStep s.running (fun s => s.load t w encLh 2 true) s

def execLw (t : Nat) (w : Dword) (s : State) : Res := coreStep s.running (fun s => s.load t w encLw 4 true) s

def execLd (t : Nat) (w : Dword) (s : State) : Res := coreStep s.running (fun s => s.load t w encLd 8 true) s

def execLbu (t : Nat) (w : Dword) (s : State) : Res := coreStep s.running (fun s => s.load t w encLbu 1 false) s

def execLhu (t : Nat) (w : Dword) (s : State) : Res := coreStep s.running (fun s => s.load t w encLhu 2 false) s

def execLwu (t : Nat) (w : Dword) (s : State) : Res := coreStep s.running (fun s => s.load t w encLwu 4 false) s

/-- PREFETCH asks for a line of HBM that translates; it never faults (R253, R256). -/
def execPrefetch (t : Nat) (w : Dword) (s : State) : Res :=
  coreStep s.running (fun s => s.issue t w encPrefetch [wB w] (fun s c =>
    match space (memEa c w) with
    | .hbm va => match s.translate (s.tileFn t) va .read with
      | .ok _ => .goes (s.send t w .prefetch (64 * (va / 64)) 64 0)
      | .error _ => .goes (s.nextPc t)
    | _ => .goes (s.nextPc t))) s

def execSb (t : Nat) (w : Dword) (s : State) : Res := coreStep s.running (fun s => s.storeX t w encSb 1) s

def execSh (t : Nat) (w : Dword) (s : State) : Res := coreStep s.running (fun s => s.storeX t w encSh 2) s

def execSw (t : Nat) (w : Dword) (s : State) : Res := coreStep s.running (fun s => s.storeX t w encSw 4) s

def execSd (t : Nat) (w : Dword) (s : State) : Res := coreStep s.running (fun s => s.storeX t w encSd 8) s

/-- An atomic at x[rs1] (R245, R254, R255): a FENCE stands before and after it, so it waits for every earlier access. -/
def State.atomicOp (s : State) (t : Nat) (w : Dword) (e : Enc) (op : Nat) : State :=
  s.issue t w e (if op = 9 then [wB w, wC w, wA w] else [wB w, wC w]) (fun s c =>
    let n := if wBits w 0 3 = 2 then 4 else 8
    let ea := c.getX (wB w)
    let b := c.getX (wC w)
    let old := c.getX (wA w)
    match space ea with
    | .bad => .raises 0x30 0x05 ea.toNat 0
    | .ls off =>
      if off % n ≠ 0 then .raises 0x30 0x04 ea.toNat 0
      else if lsProtected off then .raises 0x30 0x06 ea.toNat 0
      else if c.vectorBusy || !c.accs.isEmpty then .wait
      else
        match s.lsGet t off n with
        | none => .raises 0x20 0x02 ea.toNat 0
        | some r =>
          let v := loadValue n true r.1
          .goes ((r.2.onCore t (fun c => c.lsWrite off (leBytes n (atomicResult op n v b old).toNat))).writeBack t (wA w) v)
    | .hbm va =>
      if va % n ≠ 0 then .raises 0x30 0x04 ea.toNat 0
      else if c.vectorBusy || !c.accs.isEmpty then .wait
      else .goes (s.send t w (.atomic op n b old) va n (wA w)))

def execAtomicAdd (t : Nat) (w : Dword) (s : State) : Res := coreStep s.running (fun s => s.atomicOp t w encAtomicAdd 0) s

def execAtomicAnd (t : Nat) (w : Dword) (s : State) : Res := coreStep s.running (fun s => s.atomicOp t w encAtomicAnd 1) s

def execAtomicOr (t : Nat) (w : Dword) (s : State) : Res := coreStep s.running (fun s => s.atomicOp t w encAtomicOr 2) s

def execAtomicXor (t : Nat) (w : Dword) (s : State) : Res := coreStep s.running (fun s => s.atomicOp t w encAtomicXor 3) s

def execAtomicMin (t : Nat) (w : Dword) (s : State) : Res := coreStep s.running (fun s => s.atomicOp t w encAtomicMin 4) s

def execAtomicMax (t : Nat) (w : Dword) (s : State) : Res := coreStep s.running (fun s => s.atomicOp t w encAtomicMax 5) s

def execAtomicMinu (t : Nat) (w : Dword) (s : State) : Res := coreStep s.running (fun s => s.atomicOp t w encAtomicMinu 6) s

def execAtomicMaxu (t : Nat) (w : Dword) (s : State) : Res := coreStep s.running (fun s => s.atomicOp t w encAtomicMaxu 7) s

def execAtomicSwap (t : Nat) (w : Dword) (s : State) : Res := coreStep s.running (fun s => s.atomicOp t w encAtomicSwap 8) s

def execAtomicCas (t : Nat) (w : Dword) (s : State) : Res := coreStep s.running (fun s => s.atomicOp t w encAtomicCas 9) s

/-! ### Maintenance (R266) -/

/-- MAINTENANCE_OP: MAINTENANCE_ONLY in service; in MAINTENANCE it runs, and what it leaves in rd is not stated. -/
def execMaintenanceOp (t : Nat) (w : Dword) (s : State) : Res :=
  coreStep s.running (fun s => s.issue t w encMaintenanceOp [] (fun s _ =>
    if s.rd fOCA_TILE_STATE t = tsMaintenance then .goes (s.drawn.writeBack t (wA w) (BitVec.ofNat 64 s.free))
    else .raises 0x30 0x02 0 0)) s

end Sys2Proof.Machine
end

