-- ==== Sys2Proof/Machine/Time.lean ====
section
/-! DEFINITION. The time and event unit: the event log and the PTM dialogues (spec/17_time_and_events.md). -/

namespace Sys2Proof.Machine

/-- The event order of R439 for two records that one source list holds in the order of its production. -/
def eventBefore (a b : LogRec) : Bool := a.ts < b.ts || (a.ts = b.ts && a.source < b.source)

/-- The first record of a list in event order. -/
def firstRecord : LogRec → List LogRec → LogRec
  | r, [] => r
  | r, x :: rest => firstRecord (if eventBefore x r then x else r) rest

/-- Write the first record in event order to the log ring (R444). -/
def State.logWrite (s : State) : State :=
  match s.tsu.reorder with
  | [] => s
  | r :: rest =>
    let e := firstRecord r rest
    let n := s.rd fTSU_LOG_TOTAL_TOTAL 0
    let t := { s with tsu := { s.tsu with
      reorder := s.tsu.reorder.erase e, log := put s.tsu.log (n % 4096) e } }
    t.wr fTSU_LOG_TOTAL_TOTAL 0 (n + 1)

/-- Some record has been 1,600 ticks in the reorder buffer (R444). -/
def State.logDue (s : State) : Bool := s.tsu.reorder.any (fun r => r.ts + 1600 ≤ s.clk.tsu)

/-- LOG_ENTRY_WRITE (R444). -/
def execLogEntryWrite (s : State) : Res := steady (s.ticking && s.logDue) State.logWrite s

/-- MARK: a write to `TSU_MARK` by PF0 (R442): source 0x00D, FN 0, FN_VALID 1. -/
def execMark (detail : Nat) (s : State) : Res :=
  steady (s.reaches 0 && s.ready 13) (fun s => (s.atRegion 13 0x9C).record 13 6 (some 0) detail) s

/-- The PTM period (R446). -/
def State.ptmPeriod (s : State) : Nat := ticksOfMs (s.setting1 fTSU_PTM_CTRL_PERIOD_MS 0)

/-- PTM_DIALOGUE: the period has passed, PTM Enable and ENABLE are set, and no dialogue is open (R446). -/
def execPtmDialogue (s : State) : Res :=
  steady (s.running && s.ready 13 && s.cfg 0 .ptmEnable = 1 && s.setting fTSU_PTM_CTRL_ENABLE 0 = 1
      && s.tsu.dialogue.isNone && (s.tsu.lastDialogue + s.ptmPeriod ≤ s.clk.tsu))
    (fun s => ({ s with tsu := { s.tsu with
      dialogue := some s.clk.tsu, lastDialogue := s.clk.tsu } }).emit .ptmRequest) s

/-- PTM_RESPONSE: the host's PTM Master Time and TSU's estimate of the rate error set LOCAL, HOST and RATE together,
with VALID and SYNCS (R446, R447). -/
def execPtmResponse (host rate : Nat) (s : State) : Res :=
  steady (s.running && s.tsu.dialogue.isSome && s.clk.tsu < s.tsu.lastDialogue + ticksOfMs 10)
    (fun s =>
      let t := { s with tsu := { s.tsu with dialogue := none, lastSync := some (s.clk.tsu, host) } }
      let u := ((t.wr fTSU_PTM_LOCAL_LOCAL 0 s.clk.tsu).wr fTSU_PTM_HOST_HOST 0 host).wr fTSU_PTM_RATE_RATE 0 rate
      let v := (u.wr fTSU_PTM_STATUS_VALID 0 1).bumpWrap fTSU_PTM_STATUS_SYNCS 0 1
      v.record 13 5 none (v.rd fTSU_PTM_STATUS_SYNCS 0)) s

/-- PTM_TIMEOUT: no response within 10 ms, or the link invalidates the context (R447). -/
def execPtmTimeout (invalidated : Bool) (s : State) : Res :=
  steady (s.running && s.tsu.dialogue.isSome && (invalidated || s.tsu.lastDialogue + ticksOfMs 10 ≤ s.clk.tsu))
    (fun s =>
      let t := { s with tsu := { s.tsu with dialogue := none } }
      ((t.wr fTSU_PTM_STATUS_VALID 0 0).wr fTSU_PTM_STATUS_FAILED 0 1).raise 13 3) s

end Sys2Proof.Machine
end

