-- ==== Sys2Proof/Machine/Float.lean ====
section
/-! DEFINITION. IEEE 754 binary32 and binary64 arithmetic as R277 of spec/10_scavex_vector.md fixes it: round to nearest,
ties to even, subnormals kept, one canonical quiet NaN. Values are computed exactly and rounded once. -/

namespace Sys2Proof.Machine

/-- A format: bits of the exponent and of the fraction. -/
structure Fmt where
  eb : Nat
  mb : Nat

def f32 : Fmt := ⟨8, 23⟩
def f64 : Fmt := ⟨11, 52⟩

/-- The format of an element of `w` bytes. -/
def fmtOf (w : Nat) : Fmt := if w = 4 then f32 else f64

/-- A value: NaN, an infinity, or ± m · 2^e. -/
inductive FVal where
  | nan
  | inf (neg : Bool)
  | fin (neg : Bool) (m : Nat) (e : Int)
  deriving DecidableEq, Repr

/-- The exponent of the least significant bit of a subnormal. -/
def Fmt.emin (f : Fmt) : Int := 2 - (2 ^ (f.eb - 1) : Nat) - (f.mb : Nat)

def Fmt.expOnes (f : Fmt) : Nat := 2 ^ f.eb - 1
def Fmt.signBit (f : Fmt) (neg : Bool) : Nat := if neg then 2 ^ (f.eb + f.mb) else 0
def Fmt.nanBits (f : Fmt) : Nat := f.expOnes * 2 ^ f.mb + 2 ^ (f.mb - 1)
def Fmt.infBits (f : Fmt) (neg : Bool) : Nat := f.signBit neg + f.expOnes * 2 ^ f.mb

/-- The value of a bit pattern. -/
def Fmt.decode (f : Fmt) (b : Nat) : FVal :=
  let neg := b.testBit (f.eb + f.mb)
  let ex := b / 2 ^ f.mb % 2 ^ f.eb
  let fr := b % 2 ^ f.mb
  if ex = f.expOnes then (if fr = 0 then .inf neg else .nan)
  else if ex = 0 then .fin neg fr f.emin
  else .fin neg (fr + 2 ^ f.mb) (f.emin + (ex : Nat) - 1)

/-- `m / 2 ^ k` rounded to nearest, ties to even. -/
def roundShift (m k : Nat) : Nat :=
  let q := m / 2 ^ k
  let r := m % 2 ^ k
  if 2 ^ k < 2 * r ∨ (2 * r = 2 ^ k ∧ q % 2 = 1) then q + 1 else q

/-- Round ± m · 2^e to a bit pattern. -/
def Fmt.round (f : Fmt) (neg : Bool) (m : Nat) (e : Int) : Nat :=
  if m = 0 then f.signBit neg
  else
    let e' := max (e + (Nat.log2 m : Nat) - (f.mb : Nat)) f.emin
    let q := if e' ≤ e then m * 2 ^ (e - e').toNat else roundShift m (e' - e).toNat
    let biased := (e' - f.emin + 1).toNat
    let mag := if q < 2 ^ f.mb then q else biased * 2 ^ f.mb + (q - 2 ^ f.mb)
    if f.expOnes * 2 ^ f.mb ≤ mag then f.infBits neg else f.signBit neg + mag

/-- The bit pattern of a value. -/
def Fmt.encode (f : Fmt) : FVal → Nat
  | .nan => f.nanBits
  | .inf neg => f.infBits neg
  | .fin neg m e => f.round neg m e

def FVal.negate : FVal → FVal
  | .nan => .nan
  | .inf n => .inf (!n)
  | .fin n m e => .fin (!n) m e

/-- The exact sum; a zero sum of unlike signs is +0. -/
def FVal.add : FVal → FVal → FVal
  | .nan, _ => .nan
  | _, .nan => .nan
  | .inf a, .inf b => if a = b then .inf a else .nan
  | .inf a, _ => .inf a
  | _, .inf b => .inf b
  | .fin na ma ea, .fin nb mb eb =>
    let e := min ea eb
    let x : Int := (if na then -1 else 1) * (ma * 2 ^ (ea - e).toNat : Nat)
    let y : Int := (if nb then -1 else 1) * (mb * 2 ^ (eb - e).toNat : Nat)
    let z := x + y
    .fin (if z = 0 then na && nb else decide (z < 0)) z.natAbs e

/-- The exact product. -/
def FVal.mul : FVal → FVal → FVal
  | .nan, _ => .nan
  | _, .nan => .nan
  | .inf a, .inf b => .inf (a != b)
  | .inf a, .fin b m _ => if m = 0 then .nan else .inf (a != b)
  | .fin a m _, .inf b => if m = 0 then .nan else .inf (a != b)
  | .fin a ma ea, .fin b mb eb => .fin (a != b) (ma * mb) (ea + eb)

/-- `a` is less than `b`, neither NaN; with `zeros`, −0 is below +0. -/
def FVal.lt (zeros : Bool) : FVal → FVal → Bool
  | .nan, _ => false
  | _, .nan => false
  | .inf a, .inf b => a && !b
  | .inf a, _ => a
  | _, .inf b => !b
  | .fin na ma ea, .fin nb mb eb =>
    let e := min ea eb
    let x : Int := (if na then -1 else 1) * (ma * 2 ^ (ea - e).toNat : Nat)
    let y : Int := (if nb then -1 else 1) * (mb * 2 ^ (eb - e).toNat : Nat)
    decide (x < y) || (zeros && decide (x = y) && ma = 0 && na && !nb)

def FVal.isNan : FVal → Bool
  | .nan => true
  | _ => false

/-! ### Operations on bit patterns (R277) -/

def fAdd (f : Fmt) (a b : Nat) : Nat := f.encode ((f.decode a).add (f.decode b))
def fSub (f : Fmt) (a b : Nat) : Nat := f.encode ((f.decode a).add (f.decode b).negate)
def fMul (f : Fmt) (a b : Nat) : Nat := f.encode ((f.decode a).mul (f.decode b))
/-- d + a × b with one rounding. -/
def fMadd (f : Fmt) (d a b : Nat) : Nat := f.encode ((f.decode d).add ((f.decode a).mul (f.decode b)))

/-- The non-NaN operand where one is NaN; −0 below +0. -/
def fMin (f : Fmt) (a b : Nat) : Nat :=
  if (f.decode a).isNan ∧ (f.decode b).isNan then f.nanBits
  else if (f.decode a).isNan then b
  else if (f.decode b).isNan then a
  else if (f.decode b).lt true (f.decode a) then b else a

def fMax (f : Fmt) (a b : Nat) : Nat :=
  if (f.decode a).isNan ∧ (f.decode b).isNan then f.nanBits
  else if (f.decode a).isNan then b
  else if (f.decode b).isNan then a
  else if (f.decode a).lt true (f.decode b) then b else a

/-- A signed integer to floating point. -/
def fOfInt (f : Fmt) (i : Int) : Nat := f.round (decide (i < 0)) i.natAbs 0

/-- Floating point to a signed integer of `n` bits: toward zero, saturating, NaN to 0. -/
def fToInt (f : Fmt) (n a : Nat) : Int :=
  let top : Int := 2 ^ (n - 1) - 1
  let bot : Int := -(2 ^ (n - 1))
  match f.decode a with
  | .nan => 0
  | .inf neg => if neg then bot else top
  | .fin neg m e =>
    let q : Nat := if 0 ≤ e then m * 2 ^ e.toNat else m / 2 ^ (-e).toNat
    let v : Int := if neg then -(q : Int) else q
    max bot (min top v)

/-- From one format to another. -/
def fConvert (src dst : Fmt) (a : Nat) : Nat := dst.encode (src.decode a)

/-- VFCMP: 0 EQ, 1 LT, 2 LE, 3 UN. -/
def fCompare (f : Fmt) (op a b : Nat) : Bool :=
  let x := f.decode a
  let y := f.decode b
  let un := x.isNan || y.isNan
  match op with
  | 0 => !un && !x.lt false y && !y.lt false x
  | 1 => x.lt false y
  | 2 => !un && !y.lt false x
  | _ => un

end Sys2Proof.Machine
end

