-- ==== Sys2Proof/Machine/Vector.lean ====
section
/-! DEFINITION. Scavex registers, elements, and what every instruction that accesses no memory computes
(spec/10_scavex_vector.md R268 to R279). -/

namespace Sys2Proof.Machine

/-! ### Registers and elements (R268 to R272) -/

def Core.getV (c : Core) (r : Nat) : VReg := getD 0 c.v r
def Core.putV (c : Core) (r : Nat) (v : VReg) : Core := { c with v := setD 0 c.v r v }
/-- m0 reads as all ones and discards writes. -/
def Core.getM (c : Core) (r : Nat) : MReg := if r = 0 then BitVec.allOnes 512 else getD 0 c.m r
def Core.putM (c : Core) (r : Nat) (v : MReg) : Core := if r = 0 then c else { c with m := setD 0 c.m r v }

/-- Element `i` of `w` bytes. -/
def el (w : Nat) (v : VReg) (i : Nat) : Nat := bitField v.toNat (8 * w * i) (8 * w)

/-- The number that elements of `w` bytes spell, element 0 lowest. -/
def packEls (w : Nat) : List Nat → Nat
  | [] => 0
  | x :: rest => x % 2 ^ (8 * w) + 2 ^ (8 * w) * packEls w rest

/-- The register whose element `i` is `f i`. -/
def buildV (w : Nat) (f : Nat → Nat) : VReg := BitVec.ofNat 4096 (packEls w ((List.range (maxEl w)).map f))

/-- Element `i` is active by a mask at width `w`, among the first `n` (R272). -/
def active (w n : Nat) (vm : MReg) (i : Nat) : Bool := i < n && vm.getLsbD (i * w)

/-- The destination with its active elements replaced. -/
def overlayV (w n : Nat) (vm : MReg) (old : VReg) (f : Nat → Nat) : VReg :=
  buildV w (fun i => if active w n vm i then f i else el w old i)

/-- A mask register with the spans of its active elements written (R272). -/
def overlayM (w n : Nat) (vm : MReg) (old : MReg) (f : Nat → Bool) : MReg :=
  BitVec.ofNat 512 (packBits ((List.range 512).map (fun b => if active w n vm (b / w) then f (b / w) else old.getLsbD b)))
where
  packBits : List Bool → Nat
    | [] => 0
    | b :: rest => bit b + 2 * packBits rest

/-- The signed value of a `w`-byte element. -/
def elInt (w x : Nat) : Int := if x < 2 ^ (8 * w - 1) then x else (x : Int) - 2 ^ (8 * w)

/-- An integer cut to `w` bytes. -/
def wrapEl (w : Nat) (i : Int) : Nat := (i % 2 ^ (8 * w)).toNat

/-! ### Element operations (R276, R277) -/

/-- Integer A: 0 VADD, 1 VSUB, 2 VMIN, 3 VMAX. -/
def vIntA (op w x y : Nat) : Nat :=
  match op with
  | 0 => wrapEl w (x + y)
  | 1 => wrapEl w ((x : Int) - y)
  | 2 => if elInt w x < elInt w y then x else y
  | _ => if elInt w y < elInt w x then x else y

/-- Integer B: 0 VMINU, 1 VMAXU, 2 VSADDU, 3 VSSUBU. -/
def vIntB (op w x y : Nat) : Nat :=
  match op with
  | 0 => min x y
  | 1 => max x y
  | 2 => min (x + y) (2 ^ (8 * w) - 1)
  | _ => x - y

/-- Logic: 0 VAND, 1 VOR, 2 VXOR, 3 VANDN. -/
def vLogic (op x y : Nat) : Nat :=
  match op with
  | 0 => x &&& y
  | 1 => x ||| y
  | 2 => x ^^^ y
  | _ => clearBits x y

/-- Shifts: 0 VSLL, 1 VSRL, 2 VSRA, 3 VROR, by the operand's low bits. -/
def vShift (op w x y : Nat) : Nat :=
  let k := y % (8 * w)
  match op with
  | 0 => x * 2 ^ k % 2 ^ (8 * w)
  | 1 => x / 2 ^ k
  | 2 => wrapEl w (elInt w x / 2 ^ k)
  | _ => x / 2 ^ k + x * 2 ^ (8 * w - k) % 2 ^ (8 * w)

/-- Multiply: 0 VMUL, 1 VMULH, 2 VMULHU, 3 VMADD on destination `d`. -/
def vMulOp (op w d x y : Nat) : Nat :=
  match op with
  | 0 => wrapEl w (x * y)
  | 1 => wrapEl w (elInt w x * elInt w y / 2 ^ (8 * w))
  | 2 => x * y / 2 ^ (8 * w)
  | _ => wrapEl w (d + x * y)

/-- Floating point: 0 VFADD, 1 VFSUB, 2 VFMUL, 3 VFMADD. -/
def vFloat (op w d x y : Nat) : Nat :=
  match op with
  | 0 => fAdd (fmtOf w) x y
  | 1 => fSub (fmtOf w) x y
  | 2 => fMul (fmtOf w) x y
  | _ => fMadd (fmtOf w) d x y

/-- Bit operations: 0 VCRC32C (x the data, y the register), 1 VPOPC, 2 VCLZ, 3 VCTZ. -/
def vBits (op w x y : Nat) : Nat :=
  match op with
  | 0 => (crcFold w (BitVec.ofNat 64 y) (BitVec.ofNat 64 x)).toNat
  | 1 => countBits (8 * w) x
  | 2 => clzNat (8 * w) x
  | _ => ctzNat (8 * w) x

/-- Compares with majors 0x2C and 0x2D: EQ, NE, LT, LTU. -/
def vCmp (op w x y : Nat) : Bool :=
  match op with
  | 0 => x = y
  | 1 => x ≠ y
  | 2 => elInt w x < elInt w y
  | _ => x < y

/-- Compares with major 0x2E: GT, GTU, GE, TST. -/
def vCmpX (op w x y : Nat) : Bool :=
  match op with
  | 0 => elInt w y < elInt w x
  | 1 => y < x
  | 2 => elInt w y ≤ elInt w x
  | _ => (x &&& y) ≠ 0

/-! ### Instructions over whole registers -/

/-- The element width in bytes of a queued instruction. -/
def VEntry.width (e : VEntry) : Nat := ewBytes (wEw e.word)

/-- n where the widest element has the instruction's EW (R271). -/
def VEntry.count (e : VEntry) : Nat := min e.vl (maxEl e.width)

/-- The second operand of element `i`: vs2's, or the low bytes of rs2. -/
def VEntry.operand (e : VEntry) (c : Core) (scalar : Bool) (i : Nat) : Nat :=
  if scalar then e.b.toNat % 2 ^ (8 * e.width) else el e.width (c.getV (wC e.word)) i

/-- vd's active elements from vd, vs1 and the operand. -/
def Core.vMap (c : Core) (e : VEntry) (scalar : Bool) (f : Nat → Nat → Nat → Nat) : Core :=
  let w := e.width
  let d := c.getV (wA e.word)
  let x := c.getV (wB e.word)
  c.putV (wA e.word) (overlayV w e.count (c.getM (wVm e.word)) d (fun i => f (el w d i) (el w x i) (e.operand c scalar i)))

/-- md's active spans from vs1 and the operand. -/
def Core.vTest (c : Core) (e : VEntry) (scalar : Bool) (f : Nat → Nat → Bool) : Core :=
  let w := e.width
  let x := c.getV (wB e.word)
  c.putM (wA e.word) (overlayM w e.count (c.getM (wVm e.word)) (c.getM (wA e.word))
    (fun i => f (el w x i) (e.operand c scalar i)))

/-- vd's active elements of width `dw` from elements of vs1 of width `sw`. -/
def Core.vConvert (c : Core) (e : VEntry) (dw sw : Nat) (f : Nat → Nat) : Core :=
  let x := c.getV (wB e.word)
  c.putV (wA e.word) (overlayV dw e.count (c.getM (wVm e.word)) (c.getV (wA e.word)) (fun i => f (el sw x i)))

/-- The active elements of vs1, in order. -/
def Core.activeEls (c : Core) (e : VEntry) : List Nat :=
  ((List.range e.count).filter (active e.width e.count (c.getM (wVm e.word)))).map (el e.width (c.getV (wB e.word)))

/-- Write the scalar result of a queued instruction, unless a later one has written the register. -/
def Core.vResult (c : Core) (e : VEntry) (v : Nat) : Core := c.putX e.rd (BitVec.ofNat 64 v)

/-- Mask logic over all 512 bits (R279). -/
def Core.maskLogic (c : Core) (e : VEntry) : Core :=
  let a := c.getM (wB e.word)
  let b := c.getM (wC e.word)
  c.putM (wA e.word) (match wOp e.word with
    | 0 => a &&& b
    | 1 => a ||| b
    | 2 => a ^^^ b
    | _ => a &&& ~~~b)

/-- Mask misc: 0 MPOPC, 1 MFIRST, 2 MSETLT, 3 MMOV (R279). -/
def Core.maskMisc (c : Core) (e : VEntry) : Core :=
  let w := e.width
  let vm := c.getM (wVm e.word)
  let m1 := c.getM (wB e.word)
  let hits := (List.range e.count).filter (fun i => active w e.count vm i && m1.getLsbD (i * w))
  match wOp e.word with
  | 0 => c.vResult e hits.length
  | 1 => c.vResult e (hits.head?.getD (2 ^ 64 - 1))
  | 2 => c.putM (wA e.word) (overlayM w (maxEl w) (BitVec.allOnes 512) 0 (fun i => i < e.a.toNat))
  | _ => c.putM (wA e.word) (overlayM w e.count vm (c.getM (wA e.word)) (fun i => m1.getLsbD (i * w)))

/-- Moves: 0 VMV, 1 VBCAST, 2 VEXTRACT, 3 VINSERT (R276). -/
def Core.vMove (c : Core) (e : VEntry) : Core :=
  let w := e.width
  let i := e.b.toNat
  match wOp e.word with
  | 0 => c.vMap e true (fun _ x _ => x)
  | 1 => c.vMap e true (fun _ _ _ => e.a.toNat)
  | 2 => c.vResult e (if i < maxEl w then el w (c.getV (wB e.word)) i else 0)
  | _ =>
    let d := c.getV (wA e.word)
    c.putV (wA e.word) (buildV w (fun j => if j = i then e.a.toNat else el w d j))

/-- Integer conversion: 0 VZEXT, 1 VSEXT, 2 VTRUNC, 3 VSATNU (R276). -/
def Core.vIntConvert (c : Core) (e : VEntry) : Core :=
  let w := e.width
  let h := w / 2
  match wOp e.word with
  | 0 => c.vConvert e w h (fun x => x)
  | 1 => c.vConvert e w h (fun x => wrapEl w (elInt h x))
  | 2 => c.vConvert e h w (fun x => x % 2 ^ (8 * h))
  | _ => c.vConvert e h w (fun x => min x (2 ^ (8 * h) - 1))

/-- vd's active elements by their index. -/
def Core.vMapIx (c : Core) (e : VEntry) (f : Nat → Nat) : Core :=
  c.putV (wA e.word) (overlayV e.width e.count (c.getM (wVm e.word)) (c.getV (wA e.word)) f)

/-- Permutes: 0 VMERGE, 1 VCOMPRESS, 2 VSLIDEDN, 3 VSLIDEUP (R276). -/
def Core.vPermute (c : Core) (e : VEntry) : Core :=
  let w := e.width
  let d := c.getV (wA e.word)
  let x := c.getV (wB e.word)
  let vm := c.getM (wVm e.word)
  let k := e.b.toNat
  match wOp e.word with
  | 0 => c.putV (wA e.word) (buildV w (fun i =>
      if i < e.count then (if vm.getLsbD (i * w) then el w x i else el w (c.getV (wC e.word)) i) else el w d i))
  | 1 =>
    let xs := c.activeEls e
    c.putV (wA e.word) (buildV w (fun i => xs.getD i (el w d i)))
  | 2 => c.vMapIx e (fun i => if i + k < maxEl w then el w x (i + k) else 0)
  | _ => c.vMapIx e (fun i => if k ≤ i then el w x (i - k) else el w d i)

/-- Combine a list from its first element on; `z` is the identity. -/
def foldEls {α : Type} (z : α) (f : α → α → α) : List α → α
  | [] => z
  | x :: rest => rest.foldl f x

/-- Integer reductions (R278). -/
def vReduce (major op w : Nat) (xs : List Nat) : Nat :=
  let s := xs.map (elInt w)
  let ones := 2 ^ (8 * w) - 1
  match major, op with
  | 0x31, 0 => wrapEl 8 (s.foldl (· + ·) 0)
  | 0x31, 1 => wrapEl 8 (foldEls (2 ^ (8 * w - 1) - 1) min s)
  | 0x31, 2 => wrapEl 8 (foldEls (-(2 ^ (8 * w - 1))) max s)
  | 0x31, _ => foldEls ones min xs
  | _, 0 => foldEls 0 max xs
  | _, 1 => foldEls ones (fun a b => a &&& b) xs
  | _, 2 => foldEls 0 (fun a b => a ||| b) xs
  | _, _ => foldEls 0 (fun a b => a ^^^ b) xs

/-- Add two leaves of the tree; a leaf without an active element adds nothing. -/
def sumPair (f : Fmt) : Option Nat → Option Nat → Option Nat
  | none, y => y
  | x, none => x
  | some x, some y => some (fAdd f x y)

/-- Add in a pairwise tree: each step joins two of the remaining values; the spec fixes that the shape depends only on
n, not which shape it is (R278). -/
def sumTree (f : Fmt) (n : Nat) : Nat → List (Option Nat) → Option Nat
  | 0, xs => (xs.head?).getD none
  | k + 1, xs =>
    match xs with
    | [] => none
    | [x] => x
    | _ =>
      let p := Config.sumShape n k
      let i := p.1 % xs.length
      let rest := xs.eraseIdx i
      let j := p.2 % rest.length
      sumTree f n k (rest.set j (sumPair f ((xs[i]?).getD none) ((rest[j]?).getD none)))

/-- VFREDSUM: 0, VFREDMAX: 1. -/
def Core.vFloatReduce (c : Core) (e : VEntry) (op : Nat) : Nat :=
  let w := e.width
  let f := fmtOf w
  if op = 0 then
    let leaves := (List.range e.count).map (fun i =>
      if active w e.count (c.getM (wVm e.word)) i then some (el w (c.getV (wB e.word)) i) else none)
    match sumTree f e.count e.count leaves with
    | none => 0
    | some v => f.encode (f.decode v)
  else foldEls (f.infBits true) (fMax f) ((c.activeEls e).map (fun x => f.encode (f.decode x)))

/-- Floating point conversion: 0 F from I, 1 I from F, 2 widen, 3 narrow (R277). -/
def Core.vFloatConvert (c : Core) (e : VEntry) : Core :=
  let w := e.width
  match wOp e.word with
  | 0 => c.vConvert e w w (fun x => fOfInt (fmtOf w) (elInt w x))
  | 1 => c.vConvert e w w (fun x => wrapEl w (fToInt (fmtOf w) (8 * w) x))
  | 2 => c.vConvert e 8 4 (fun x => fConvert f32 f64 x)
  | _ => c.vConvert e 4 8 (fun x => fConvert f64 f32 x)

/-- Index: 0 VID, 1 VIOTA: the active elements below i whose bit of ms1 is set (R276). -/
def Core.vIndex (c : Core) (e : VEntry) : Core :=
  let w := e.width
  let vm := c.getM (wVm e.word)
  let m1 := c.getM (wB e.word)
  let d := c.getV (wA e.word)
  if wOp e.word = 0 then c.putV (wA e.word) (overlayV w e.count vm d (fun i => i))
  else c.putV (wA e.word) (overlayV w e.count vm d (fun i =>
    ((List.range i).filter (fun j => active w e.count vm j && m1.getLsbD (j * w))).length))

/-- The major opcode of a queued instruction that accesses memory. -/
def VEntry.isMem (e : VEntry) : Bool := 0x38 ≤ wMajor e.word && wMajor e.word ≤ 0x3B

/-- What a queued instruction that accesses no memory does (R274). -/
def Core.vExec (c : Core) (e : VEntry) : Core :=
  let w := e.width
  let op := wOp e.word
  match wMajor e.word with
  | 0x21 => c.maskLogic e
  | 0x22 => c.maskMisc e
  | 0x23 => c.vMove e
  | 0x24 => c.vMap e false (fun _ x y => vIntA op w x y)
  | 0x25 => c.vMap e true (fun _ x y => vIntA op w x y)
  | 0x26 => c.vMap e false (fun _ x y => vIntB op w x y)
  | 0x27 => c.vMap e false (fun _ x y => vLogic op x y)
  | 0x28 => c.vMap e true (fun _ x y => vLogic op x y)
  | 0x29 => c.vMap e false (fun _ x y => vShift op w x y)
  | 0x2A => c.vMap e true (fun _ x y => vShift op w x y)
  | 0x2B => c.vMap e false (fun d x y => vMulOp op w d x y)
  | 0x2C => c.vTest e false (vCmp op w)
  | 0x2D => c.vTest e true (vCmp op w)
  | 0x2E => c.vTest e true (vCmpX op w)
  | 0x2F => c.vIntConvert e
  | 0x30 => c.vPermute e
  | 0x31 => c.vResult e (vReduce 0x31 op w (c.activeEls e))
  | 0x32 => c.vResult e (vReduce 0x32 op w (c.activeEls e))
  | 0x33 => c.vMap e false (fun d x y => vFloat op w d x y)
  | 0x34 =>
    if op = 0 then c.vMap e false (fun _ x y => fMin (fmtOf w) x y)
    else if op = 1 then c.vMap e false (fun _ x y => fMax (fmtOf w) x y)
    else c.vResult e (c.vFloatReduce e (op - 2))
  | 0x35 => c.vFloatConvert e
  | 0x36 => c.vMap e false (fun _ x y => vBits op w x y)
  | 0x37 => c.vIndex e
  | _ => c.vTest e false (fCompare (fmtOf w) op)

end Sys2Proof.Machine
end

