-- ==== Sys2Proof/Machine/VectorMem.lean ====
section
/-! DEFINITION. Scavex memory instructions, the start of queued vector instructions, and the events of a core's accesses
(spec/10_scavex_vector.md R280 to R293; spec/09_operator_core.md R249, R254, R258, R262). -/

namespace Sys2Proof.Machine

/-! ### Which registers an instruction names (R274) -/

/-- The register file of a field: scalar, vector, mask, or none. -/
inductive RegKind where
  | none | scalar | vector | mask
  deriving DecidableEq, Repr

def kindA (major op : Nat) : RegKind :=
  if major = 0x20 ∨ major = 0x31 ∨ major = 0x32 ∨ (major = 0x22 ∧ op < 2) ∨ (major = 0x23 ∧ op = 2) ∨ (major = 0x34 ∧ 2 ≤ op)
  then .scalar
  else if major = 0x21 ∨ major = 0x22 ∨ major = 0x2C ∨ major = 0x2D ∨ major = 0x2E ∨ major = 0x3C ∨ (major = 0x3A ∧ 2 ≤ op)
  then .mask
  else .vector

def kindB (major op : Nat) : RegKind :=
  if major = 0x20 ∨ (major = 0x22 ∧ op = 2) ∨ (major = 0x23 ∧ (op = 1 ∨ op = 3)) ∨ 0x38 ≤ major ∧ major ≤ 0x3B then .scalar
  else if major = 0x21 ∨ major = 0x22 ∨ (major = 0x37 ∧ op = 1) then .mask
  else if major = 0x37 then .none
  else .vector

def kindC (major op : Nat) : RegKind :=
  if major = 0x21 then .mask
  else if major = 0x25 ∨ major = 0x28 ∨ major = 0x2A ∨ major = 0x2D ∨ major = 0x2E ∨ (major = 0x23 ∧ 2 ≤ op)
      ∨ (major = 0x30 ∧ 2 ≤ op) ∨ (major = 0x38 ∧ op = 1) ∨ (major = 0x39 ∧ op = 1) ∨ (major = 0x3A ∧ op = 1) then .scalar
  else if major = 0x24 ∨ major = 0x26 ∨ major = 0x27 ∨ major = 0x29 ∨ major = 0x2B ∨ major = 0x2C ∨ (major = 0x30 ∧ op = 0)
      ∨ major = 0x33 ∨ (major = 0x34 ∧ op < 2) ∨ major = 0x3C ∨ (major = 0x36 ∧ op = 0) ∨ (major = 0x38 ∧ 2 ≤ op)
      ∨ (major = 0x39 ∧ op = 2) then .vector
  else .none

/-- The vector register that a word names in one of its fields. -/
def namesV (w : Dword) (r : Nat) : Bool :=
  let m := wMajor w
  let op := wOp w
  let f := if m = 0x3B then op + 2 else 1
  (kindA m op = .vector && decide (wA w ≤ r) && decide (r < wA w + f)) || (kindB m op = .vector && wB w = r)
    || (kindC m op = .vector && wC w = r)

/-- The mask register that a word names in one of its fields, VM included. -/
def namesM (w : Dword) (r : Nat) : Bool :=
  let m := wMajor w
  let op := wOp w
  (kindA m op = .mask && wA w = r) || (kindB m op = .mask && wB w = r) || (kindC m op = .mask && wC w = r) || wVm w = r

/-- A load in progress still writes a register that the word names. -/
def VMem.blocks (v : VMem) (w : Dword) : Bool :=
  v.load && (if v.mask then namesM w v.dst else (List.range v.fields).any (fun j => namesV w (v.dst + j)))

/-! ### Elements of a memory instruction (R284 to R293) -/

/-- The length in bytes of a mask transfer, and the alignment that it needs (R292). -/
def maskLen (n : Nat) : Nat := (n + 7) / 8
def pow2Up (b : Nat) : Nat := if b ≤ 1 then 1 else 2 ^ (Nat.log2 (b - 1) + 1)

/-- Unit-stride, strided or indexed; fields; first-fault; store; mask. -/
def VEntry.strided (e : VEntry) : Bool := wOp e.word = 1
def VEntry.indexed (e : VEntry) : Bool :=
  (wMajor e.word = 0x38 && 2 ≤ wOp e.word) || (wMajor e.word = 0x39 && wOp e.word = 2)
def VEntry.fields (e : VEntry) : Nat := if wMajor e.word = 0x3B then wOp e.word + 2 else 1
def VEntry.isMask (e : VEntry) : Bool := wMajor e.word = 0x3A && 2 ≤ wOp e.word
def VEntry.isStore (e : VEntry) : Bool := wMajor e.word = 0x39 || (wMajor e.word = 0x3A && wOp e.word = 3)
def VEntry.isFirstFault (e : VEntry) : Bool :=
  (wMajor e.word = 0x38 && wOp e.word = 3) || (wMajor e.word = 0x3A && wOp e.word < 2)

/-- n of a memory instruction: at most 128 where it is indexed (R285). -/
def VEntry.memCount (e : VEntry) : Nat := if e.indexed then min e.count 128 else e.count

/-- The address of field `j` of element `i` (R284, R293). -/
def VEntry.elemAddr (e : VEntry) (c : Core) (i j : Nat) : Nat :=
  let w := e.width
  let off : Qword :=
    if wMajor e.word = 0x3B then BitVec.ofNat 64 ((i * e.fields + j) * w)
    else if e.indexed then BitVec.ofNat 64 (el 4 (c.getV (wC e.word)) i * w)
    else if (wMajor e.word = 0x38 ∨ wMajor e.word = 0x39 ∨ wMajor e.word = 0x3A) ∧ e.strided then BitVec.ofNat 64 i * e.b
    else BitVec.ofNat 64 (i * w)
  (e.a + off).toNat

/-- The bits of a mask that VSTMASK writes (R292). -/
def maskStoreBytes (w n : Nat) (vm m : MReg) : List Byte :=
  leBytes (maskLen n) (overlayM.packBits ((List.range n).map (fun i => active w n vm i && m.getLsbD (i * w))))

/-- The slots of a memory instruction, from element `from_` up. -/
def VEntry.slots (e : VEntry) (c : Core) (from_ : Nat) : List Slot :=
  let w := e.width
  let n := e.memCount
  let vm := c.getM (wVm e.word)
  if e.isMask then
    if maskLen n = 0 then []
    else [⟨0, 0, e.a.toNat, maskLen n, if e.isStore then maskStoreBytes w n vm (c.getM (wA e.word)) else [], false, .waits⟩]
  else
    let is := (List.range n).filter (fun i => from_ ≤ i && active w n vm i)
    let raw := (is.map (fun i => (List.range e.fields).map (fun j => (i, j, e.elemAddr c i j)))).flatten
    let covered (line : Nat) : Bool := (List.range 64).all (fun b => raw.any (fun r =>
      r.2.2 ≤ 64 * line + b && 64 * line + b < r.2.2 + w))
    raw.map (fun r => ⟨r.1, r.2.1, r.2.2, w, if e.isStore then leBytes w (el w (c.getV (wA e.word)) r.1) else [],
      e.isStore && covered (r.2.2 / 64), .waits⟩)

/-- The instruction in progress that a queue entry becomes; `vrs` is 0 from its start, unless it moves a mask (R286, R292). -/
def VEntry.begin (e : VEntry) (c : Core) : VMem :=
  let slots := e.slots c c.vrs
  { word := e.word, pc := e.pc, stamp := e.stamp, load := !e.isStore, firstFault := e.isFirstFault, mask := e.isMask,
    dst := wA e.word, fields := e.fields, width := e.width, n := e.memCount, vm := c.getM (wVm e.word),
    first := (slots.head?.map Slot.elem).getD 0, slots := slots, stop := none }

/-! ### Sending and completing elements -/

def Core.onVMem (c : Core) (stamp : Nat) (f : VMem → VMem) : Core :=
  { c with vmem := c.vmem.map (fun v => if v.stamp = stamp then f v else v) }

/-- Stop an instruction at an element: later fields of a load go, and what a store has not sent, and `vrs` is the element,
but where a mask moves (R287, R292). -/
def Core.vStop (c : Core) (stamp : Nat) (st : VStop) : Core :=
  let d := c.onVMem stamp (fun v => { v with
    stop := some (match v.stop with | some o => if o.elem < st.elem then o else st | none => st)
    slots := v.slots.filter (fun l => l.elem < st.elem || (!v.load && st.elem < l.elem && l.state ≠ .waits)) })
  let k := match d.vmem.find? (fun v => v.stamp = stamp && !v.mask) with
    | some v => (v.stop.map VStop.elem).getD c.vrs
    | none => c.vrs
  { d with vrs := k, accs := d.accs.filter (fun a => a.stamp ≠ stamp || match a.kind with
      | .vec i f => (d.slotOf stamp i f).isSome
      | _ => true) }

/-- The check of one field before it is sent (R286, R294): the stop it causes. -/
def State.slotFault (s : State) (t : Nat) (v : VMem) (l : Slot) : Option VStop :=
  let stop (st sub : Nat) : Option VStop := some ⟨l.elem, st, sub, l.addr⟩
  let align := if v.mask then pow2Up l.len else v.width
  match space (BitVec.ofNat 64 l.addr) with
  | .bad => stop 0x30 0x11
  | .ls off =>
    if off % align ≠ 0 then stop 0x30 0x10
    else if !v.load ∧ (List.range l.len).any (fun b => lsProtected (off + b)) then stop 0x30 0x12
    else if v.load ∧ (s.lsGet t off l.len).isNone then stop 0x20 0x02
    else none
  | .hbm va =>
    if va % align ≠ 0 then stop 0x30 0x10
    else match s.translate (s.tileFn t) va (if v.load then .read else .write) with
      | .error e => stop 0x22 e
      | .ok _ => none

/-- Lines that the tile's vector accesses have outstanding (R281). -/
def Core.vectorLines (c : Core) : Nat :=
  ((c.accs.filter (fun a => match a.kind with | .vec _ _ => true | _ => false)).map (fun a => a.va / 64)).dedup.length

/-- Deal with one waiting field that passed its checks: local store at once, a store only behind every earlier one;
HBM while fewer than 64 lines are outstanding. `none`: it waits. -/
def State.sendSlot (s : State) (t : Nat) (v : VMem) (l : Slot) : Option State :=
  let c := s.core t
  match space (BitVec.ofNat 64 l.addr) with
  | .bad => none
  | .ls off =>
    if v.load then
      match s.lsGet t off l.len with
      | none => none
      | some r => some (r.2.onCore t (fun c => c.slotDone v.stamp l.elem l.field r.1))
    else if c.accs.any (fun a => a.stamp = v.stamp) then none
    else some (s.onCore t (fun c => (c.lsWrite off l.data).slotDone v.stamp l.elem l.field []))
  | .hbm va =>
    if 64 ≤ c.vectorLines then none
    else some (s.onCore t (fun c =>
      { c.onVMem v.stamp (fun v => { v with slots := v.slots.map (fun m =>
          if m.elem = l.elem ∧ m.field = l.field then { m with state := .sent } else m) }) with
        accs := c.accs ++ [⟨.vec l.elem l.field, va, l.len, 0, v.stamp, v.pc, v.word⟩] }))

/-- Send what can be sent of an instruction. -/
def State.vecPump (s : State) (t stamp : Nat) : Nat → State
  | 0 => s
  | fuel + 1 =>
    match (s.core t).vmem.find? (fun v => v.stamp = stamp) with
    | none => s
    | some v =>
      match v.slots.find? (fun l => l.state = .waits) with
      | none => s
      | some l =>
        match s.slotFault t v l with
        | some st =>
          let u := s.onCore t (fun c => c.vStop stamp st)
          if st.status = 0x22 then u.countFault (s.tileFn t) else u
        | none =>
          match s.sendSlot t v l with
          | none => s
          | some u => u.vecPump t stamp fuel

/-- Words of a mask register that hold bits of the first `n` elements. -/
def maskWords (w n r : Nat) : List Nat := (List.range ((n * w + 63) / 64)).map (maskWord r)

/-- Write the first element's data to its destination (R286, R292). -/
def Core.writeSlot (c : Core) (v : VMem) (l : Slot) : Core :=
  match l.state with
  | .done d =>
    if !v.load then c
    else if v.mask then
      let bits := leNat d
      (c.putM v.dst (overlayM v.width v.n v.vm (c.getM v.dst) (fun i => bits.testBit i))).noteWrite
        (if v.dst = 0 then [] else maskWords v.width v.n v.dst)
    else
      let r := v.dst + l.field
      let old := c.getV r
      (c.putV r (buildV v.width (fun i => if i = l.elem then leNat d else el v.width old i))).noteWrite
        [vecWord r (l.elem * v.width / 8)]
  | _ => c

/-- Elements complete in order; an instruction without elements left is complete, unless it stopped at a fault that ends
the task. -/
def Core.retire (c : Core) (stamp : Nat) : Nat → Core
  | 0 => c
  | fuel + 1 =>
    match c.vmem.find? (fun v => v.stamp = stamp) with
    | none => c
    | some v =>
      match v.slots with
      | [] =>
        match v.stop with
        | none => { c with vmem := c.vmem.filter (fun u => u.stamp ≠ stamp) }
        | some st =>
          if v.firstFault ∧ st.elem ≠ v.first then
            { c with vmem := c.vmem.filter (fun u => u.stamp ≠ stamp), vrs := st.elem }
          else c
      | l :: rest =>
        let group := (l :: rest).filter (fun m => m.elem = l.elem)
        if group.all (fun m => match m.state with | .done _ => true | _ => false) then
          let d := group.foldl (fun c m => c.writeSlot v m) c
          (d.onVMem stamp (fun v => { v with slots := v.slots.filter (fun m => m.elem ≠ l.elem) })).retire stamp fuel
        else c

/-- Send and complete what can be, for every instruction in progress, oldest first. -/
def State.vectorSettle (s : State) (t : Nat) : State :=
  ((s.core t).vmem.map VMem.stamp).foldl (fun s k =>
    let fuel := (((s.core t).vmem.find? (fun v => v.stamp = k)).map (fun v => v.slots.length)).getD 0 + 1
    let u := s.vecPump t k fuel
    u.onCore t (fun c => c.retire k fuel)) s

/-! ### VECTOR_START (R280, R281) -/

/-- The tile executes: a running task, or a maintenance program. -/
def State.tileLive (s : State) (t : Nat) : Bool :=
  s.running && ((s.tileTask t).isSome || (s.rd fOCA_TILE_STATE t = tsMaintenance && !(s.core t).halted))

/-- The queue's head can start: its sources are ready, and a memory instruction finds every earlier one sent and no
first-fault load in progress (R281, R288). -/
def Core.vectorReady (c : Core) : Bool :=
  match c.vq with
  | [] => false
  | e :: _ =>
    !c.vmem.any (fun v => v.blocks e.word)
      && (!e.isMem || c.vmem.all (fun v => !v.firstFault && !v.slots.any (fun l => l.state = .waits)))

/-- The lane words of a vector register that an instruction's beats read: all 8 of each beat, and every beat for those
that move elements about (R270, R271). -/
def VEntry.lanes (e : VEntry) (r : Nat) : List Nat :=
  let m := wMajor e.word
  let n := if (m = 0x30 ∧ wOp e.word ≠ 0) ∨ m = 0x23 then 512 else if e.isMem then e.memCount * e.width else e.count * e.width
  (List.range (8 * max 1 ((n + 63) / 64))).map (vecWord r)

/-- The words of the vector and mask registers that a queued instruction reads. -/
def VEntry.reads (e : VEntry) : List Nat :=
  let m := wMajor e.word
  let op := wOp e.word
  let w := e.width
  let masks (r : Nat) : List Nat := if r = 0 then [] else if m = 0x21 then (List.range 8).map (maskWord r) else maskWords w e.count r
  (if m = 0x39 ∨ (m = 0x2B ∧ op = 3) ∨ (m = 0x33 ∧ op = 3) then e.lanes (wA e.word) else [])
    ++ (if m = 0x3A ∧ op = 3 then masks (wA e.word) else [])
    ++ (match kindB m op with | .vector => e.lanes (wB e.word) | .mask => masks (wB e.word) | _ => [])
    ++ (match kindC m op with | .vector => e.lanes (wC e.word) | .mask => masks (wC e.word) | _ => [])
    ++ masks (wVm e.word)

/-- The lowest element that a word of a register file holds bytes or bits of, at a width (R295). -/
def wordElem (w k : Nat) : Nat := if k < 4096 then (k - 256) % 64 * 8 / w else (k - 4096) % 8 * 64 / w

/-- The elements of the destination that a queued instruction writes. -/
def VEntry.writes (e : VEntry) (c : Core) : List Nat :=
  let act := (List.range e.count).filter (active e.width e.count (c.getM (wVm e.word)))
  match wMajor e.word, wOp e.word with
  | 0x23, 3 => if e.b.toNat < maxEl e.width then [e.b.toNat] else []
  | 0x30, 0 => List.range e.count
  | 0x30, 1 => List.range act.length
  | _, _ => act

/-- The words of the register files that a queued instruction without accesses writes. -/
def VEntry.written (e : VEntry) (c : Core) : List Nat :=
  let m := wMajor e.word
  let op := wOp e.word
  let r := wA e.word
  let w := if m = 0x2F ∧ 2 ≤ op then e.width / 2 else if m = 0x35 ∧ op = 3 then 4 else e.width
  match kindA m op with
  | .vector => ((List.range 64).filter (fun k => (e.writes c).any (fun i => i * w / 8 = k))).map (vecWord r)
  | .mask =>
    if r = 0 then []
    else if m = 0x21 ∨ (m = 0x22 ∧ op = 2) then (List.range 8).map (maskWord r)
    else ((List.range 8).filter (fun k => (e.writes c).any (fun i => i * w / 64 = k))).map (maskWord r)
  | _ => []

/-- An instruction that stops at an element before it has done anything. -/
def VEntry.stopped (e : VEntry) (c : Core) (st : VStop) : VMem :=
  { e.begin c with load := false, firstFault := false, mask := false, slots := [], stop := some st }

/-- Start the head of the vector instruction queue. A word of its sources that holds an error is corrected and written
back, or stops it as an element fault would (R295). -/
def State.vectorStart (s : State) (t : Nat) : State :=
  let c := s.core t
  match c.vq with
  | [] => s
  | e :: rest =>
    match (if c.regBad.isEmpty then none else e.reads.find? (fun k => find c.regBad k = some true)) with
    | some k =>
      (s.tileUncorrectable t).onCore t (fun c =>
        { c with vq := rest, vmem := c.vmem ++ [e.stopped c ⟨wordElem e.width k, 0x20, 0x03, 0⟩], vrs := wordElem e.width k })
    | none =>
      let u := if c.regBad.isEmpty then s else s.correctRegs t e.reads
      let c := u.core t
      let d := { c with vq := rest }
      if e.isMem then
        let v := e.begin c
        (u.setCore t { d with vmem := d.vmem ++ [v], vrs := if v.mask then d.vrs else 0 }).vectorSettle t
      else u.setCore t ((d.vExec e).noteWrite (if c.regBad.isEmpty ∧ c.armed.isEmpty then [] else e.written c))

def execVectorStart (t : Nat) (s : State) : Res :=
  coreStep (s.tileLive t && (s.core t).vectorReady) (fun s => (s.vectorStart t).checkRange t) s

/-! ### HBM_ACCESS_PERFORMED (R254, R281, R286) and DEFERRED_FAULT (R258, R287) -/

/-- The physical line of an access. -/
def State.accLine (s : State) (t : Nat) (a : MemAcc) : Option Nat :=
  match s.translate (s.tileFn t) a.va .read with
  | .ok dpa => some (dpa / 64)
  | .error _ => none

/-- An uncorrectable error in a copy of a mast cache: a clean copy goes; a dirty one's line is written with the poison
pattern, and is handled as one that HMC finds (R430). -/
def State.copyLost (s : State) (c : MastLine) : State :=
  let u := { s with mast := s.mast.erase c }
  if c.dirty then u.noteUncorrectable c.line else u

/-- What a tile's read of a line finds beyond what is known of it: 0 nothing, 1 a correctable error, 2 an uncorrectable one,
in the copy of its mast cache, or else in the line in HBM (R422, R430). An error corrected in a copy is counted in the
CORRECTED of the line's stack. -/
def State.lineFound (s : State) (t : Nat) (cached : Bool) (l found : Nat) : State :=
  match (if cached then s.copyOf (mastOf t) (s.tileFn t) l else none) with
  | some c =>
    if found = 1 then (s.sramCorrected (1024 + mastOf t)).bumpSat fHMC_STACK_CORRECTED (stackOf (64 * l)) 1
    else if 2 ≤ found then s.copyLost c
    else s
  | none =>
    let u := s.writeBackCopies (fun c => c.line = l)
    if u.lineClass l ≠ 0 then u
    else if found = 1 then u.noteCorrected l false
    else if 2 ≤ found then u.noteUncorrectable l
    else u

/-- What the access finds in its line. A store that covers its line without fetching it reads nothing (R432); an atomic is
performed at the memory stop (R255). -/
def State.accFinds (s : State) (t : Nat) (a : MemAcc) (found : Nat) : State :=
  match s.accLine t a with
  | none => s
  | some l => if found = 0 ∨ (s.core t).accFull a then s else s.lineFound t (!a.isAtomic) l found

/-- A vector element whose line is bad: the instruction stops there (R287). -/
def State.vecFail (s : State) (t : Nat) (a : MemAcc) (st : Nat × Nat) : State :=
  match a.kind with
  | .vec i _ => (s.onCore t (fun c => c.vStop a.stamp ⟨i, st.1, st.2, a.va⟩)).vectorSettle t
  | _ => s

/-- The mast cache serves the access: it makes no request to HBM. -/
def State.accHits (s : State) (t : Nat) (a : MemAcc) : Bool :=
  !a.isAtomic && (s.accLine t a).any (fun l => (s.copyOf (mastOf t) (s.tileFn t) l).isSome)

/-- Perform the `i`-th outstanding access of a tile. -/
def State.accPerform (s : State) (t i found : Nat) : State :=
  match (s.core t).accs[i]? with
  | none => s
  | some a =>
    if !(s.core t).mayPerform a || !(s.hbmFree (s.tileFn t) || s.accHits t a) then s
    else
      let u := s.accFinds t a found
      match u.accFault t a with
      | some st => (u.accFails t a).vecFail t a st
      | none =>
        let v := u.accApply t a
        (v.onCore t (fun c => { c with accs := c.accs.eraseIdx i })).vectorSettle t

/-- The line of the pc is wanted: it lies in the code blob, or a maintenance program runs, and the instruction cache does
not hold it good. -/
def State.wantsLine (s : State) (t : Nat) : Bool :=
  (s.core t).wordAtPc.isNone && (match s.tileTask t with | some (_, x) => s.inBlob x (s.core t).pc | none => true)

/-- A line with a parity error is invalidated, and counts as corrected (R263). -/
def State.parityDrop (s : State) (t line : Nat) : State :=
  if (s.core t).icBad.contains line then (s.onCore t (fun c => c.dropLine line)).tileCorrected t fOCA_CORRECTED_ICACHE else s

/-- The line of the pc is filled into the instruction cache; a failed translation is a precise fault (R249, R259). -/
def State.fetchLine (s : State) (t found : Nat) : State :=
  if !s.wantsLine t then s
  else
    let pc := (s.core t).pc
    let fn := s.tileFn t
    let line := pc / 64
    let s := s.parityDrop t line
    match s.translate fn (64 * line) .exec with
    | .error e => (s.countFault fn).preciseFault t ⟨0x22, e, false, 0, pc, 64 * line, 0xFFFFFFFF, 0⟩
    | .ok dpa =>
      let u := s.lineFound t true (dpa / 64) found
      if !(u.hbmFree fn || (u.copyOf (mastOf t) fn (dpa / 64)).isSome) ∨ 2 ≤ u.lineClass (dpa / 64) then u
      else
        let v := u.mastRead t fn (dpa / 64)
        v.fillICache t line (v.lineData (dpa / 64))

/-- HBM_ACCESS_PERFORMED: access `i` of the tile, or past the last one the fetch of the pc's line. -/
def execHbmAccessPerformed (t i found : Nat) (s : State) : Res :=
  coreStep (s.tileLive t)
    (fun s => (if i < (s.core t).accs.length then s.accPerform t i found else s.fetchLine t found).checkRange t) s

/-- The deferred fault of a failed scalar access. -/
def MemAcc.deferred (a : MemAcc) (st : Nat × Nat) : CoreFault :=
  ⟨st.1, st.2, true, a.word.toNat, a.pc, a.va, 0xFFFFFFFF, 0⟩

/-- The deferred fault of a vector instruction that stopped (R287). -/
def VMem.deferred (v : VMem) (st : VStop) : CoreFault :=
  ⟨st.status, st.sub, true, v.word.toNat, v.pc, st.addr, if v.mask then 0 else st.elem, 0⟩

/-- The vector instruction whose stop governs: the earliest, once every one in progress has stopped (R296). -/
def Core.vectorStop (c : Core) : Option (VMem × VStop) :=
  if c.vmem.all (fun v => v.slots.isEmpty && v.stop.isSome) then
    match c.vmem with
    | [] => none
    | v :: rest =>
      let first := rest.foldl (fun u x => if x.stamp < u.stamp then x else u) v
      first.stop.map (fun st => (first, st))
  else none

/-- Every vector instruction that could run has run. -/
def Core.vectorSettled (c : Core) : Bool :=
  !c.vectorReady && c.vmem.all (fun v => v.slots.isEmpty && v.stop.isSome) && (c.vq.isEmpty || !c.vmem.isEmpty)

/-- The fault that reaches the core: that of access `i`, or of a vector instruction that is earlier. -/
def State.deferredFault (s : State) (t i : Nat) : Option CoreFault :=
  let c := s.core t
  if !c.vectorSettled then none
  else
    let scalar : Option (Nat × CoreFault) := match c.accs[i]? with
      | none => none
      | some a => (s.accFault t a).map (fun st => (a.stamp, a.deferred st))
    match c.vectorStop, scalar with
    | some (v, st), some (k, f) => if v.stamp < k then some (v.deferred st) else some f
    | some (v, st), none => some (v.deferred st)
    | none, some (_, f) => some f
    | none, none => none

/-- The task ends with a deferred fault. A scalar access that failed translation is counted, and one that failed on its
line has found it bad (R421, R428). -/
def State.takeDeferred (s : State) (t i : Nat) : State :=
  match s.deferredFault t i with
  | none => s
  | some f =>
    let r := match (s.core t).accs[i]? with
      | some a => if f.elem = 0xFFFFFFFF ∧ f.status = 0x21 then s.accFails t a else s
      | none => s
    let u := if f.status = 0x22 ∧ f.elem = 0xFFFFFFFF then r.countFault (r.tileFn t) else r
    u.coreFault t f

def execDeferredFault (t i : Nat) (s : State) : Res :=
  steady (s.tileLive t && (s.deferredFault t i).isSome) (fun s => s.takeDeferred t i) s

/-- A fetch of a line meets an uncorrectable error in HBM, or in a dirty copy; a clean copy is fetched again (R430). -/
def State.fetchExposed (s : State) (t line : Nat) : Bool :=
  (s.copyOf (mastOf t) (s.tileFn t) line).all MastLine.dirty

/-- UNCORRECTABLE_FETCH (R262): the line of the pc is poisoned, or its read finds it uncorrectable. -/
def State.badFetch (s : State) (t : Nat) (found : Bool) : Option (Task × Nat) :=
  match s.tileTask t with
  | none => none
  | some (_, x) =>
    let c := s.core t
    if !s.inBlob x c.pc ∨ (c.wordAtPc).isSome ∨ c.vectorBusy then none
    else
      match s.translate x.fn (64 * (c.pc / 64)) .exec with
      | .error _ => none
      | .ok dpa =>
        if (found && s.fetchExposed t (dpa / 64)) ∨ 2 ≤ s.lineClass (dpa / 64) then some (x, dpa / 64) else none

def State.uncorrectableFetch (s : State) (t : Nat) (found : Bool) : State :=
  match s.badFetch t found with
  | none => s
  | some (_, line) =>
    let pc := (s.core t).pc
    let u := if s.lineClass line = 3 then s
      else match s.copyOf (mastOf t) (s.tileFn t) line with
        | some c => s.copyLost c
        | none => (s.writeBackCopies (fun c => c.line = line)).noteUncorrectable line
    u.coreFault t ⟨0x20, 0x01, false, 0, pc, pc / 64 * 64, 0xFFFFFFFF, 0⟩

def execUncorrectableFetch (t : Nat) (found : Bool) (s : State) : Res :=
  steady (s.running && (s.badFetch t found).isSome) (fun s => s.uncorrectableFetch t found) s

end Sys2Proof.Machine
end

