-- ==== Sys2Proof/Machine/VectorRows.lean ====
section
/-! DEFINITION. The issue of Scavex instructions: configuration in the scalar pipeline, every other one into the vector
instruction queue, from which VECTOR_START takes it to its unit (spec/10_scavex_vector.md R274 to R284). What a queued
instruction computes stands in Vector.lean (Core.vExec) and VectorMem.lean. -/

namespace Sys2Proof.Machine

/-- The scalar registers that a Scavex word reads at issue (R280). -/
def scalarReads (w : Dword) : List Nat :=
  (if kindB (wMajor w) (wOp w) = .scalar then [wB w] else []) ++ (if kindC (wMajor w) (wOp w) = .scalar then [wC w] else [])

/-- The scalar register that a queued word writes. -/
def scalarWrites (w : Dword) : Nat := if kindA (wMajor w) (wOp w) = .scalar then wA w else 0

/-- The queue entry of a word: it takes its scalar operands and `vl` (R280). -/
def Core.entryFor (c : Core) (w : Dword) : VEntry :=
  ⟨w, c.pc, c.stamp, c.getX (wB w), c.getX (wC w), c.vl, scalarWrites w⟩

/-- Put a word into the vector instruction queue. -/
def Core.enqueue (c : Core) (w : Dword) : Core :=
  let r := scalarWrites w
  let d := if r = 0 then c else
    { c with accs := c.accs.map (fun a => if a.rd = r then { a with rd := 0 } else a),
             vq := c.vq.map (fun e => if e.rd = r then { e with rd := 0 } else e) }
  { d with vq := d.vq ++ [c.entryFor w] }

/-- Issue a Scavex instruction into its 8-entry queue (R280). -/
def State.vIssue (s : State) (t : Nat) (w : Dword) (e : Enc) : State :=
  s.issue t w e (scalarReads w) (fun s c =>
    if 8 ≤ c.vq.length then .wait else .goes ((s.onCore t (fun c => c.enqueue w)).nextPc t))

/-! ### Configuration (R279, R280, R288) -/

/-- The vector length that VSETVL gives. -/
def newVl (w : Dword) (v : Qword) : Nat := min v.toNat (maxEl (ewBytes (wEw w)))

def execVsetvl (t : Nat) (w : Dword) (s : State) : Res :=
  coreStep s.running (fun s => s.issue t w encVsetvl [wB w] (fun s c =>
    .goes ((s.onCore t (fun d => { d with vl := newVl w (c.getX (wB w)) })).writeBack t (wA w)
      (BitVec.ofNat 64 (newVl w (c.getX (wB w))))))) s

def execVrdvl (t : Nat) (w : Dword) (s : State) : Res :=
  coreStep s.running (fun s => s.issue t w encVrdvl [] (fun s c =>
    .goes (s.writeBack t (wA w) (BitVec.ofNat 64 c.vl)))) s

/-- A vector memory instruction is queued. -/
def Core.memQueued (c : Core) : Bool := c.vq.any VEntry.isMem

/-- VRDRS waits for every earlier vector memory instruction. -/
def execVrdrs (t : Nat) (w : Dword) (s : State) : Res :=
  coreStep s.running (fun s => s.issue t w encVrdrs [] (fun s c =>
    if c.memQueued || !c.vmem.isEmpty then .wait else .goes (s.writeBack t (wA w) (BitVec.ofNat 64 c.vrs)))) s

/-- VWRRS waits for an outstanding first-fault load (R296), and for queued memory instructions to start: they start at
the `vrs` that precedes it in program order (notes/assumptions/22.md). -/
def execVwrrs (t : Nat) (w : Dword) (s : State) : Res :=
  coreStep s.running (fun s => s.issue t w encVwrrs [wB w] (fun s c =>
    if c.memQueued || c.vmem.any VMem.firstFault then .wait
    else .goes ((s.onCore t (fun d => { d with vrs := min (c.getX (wB w)).toNat 511 })).nextPc t))) s

/-! ### Queued instructions -/

def execMand (t : Nat) (w : Dword) (s : State) : Res := coreStep s.running (fun s => s.vIssue t w encMand) s

def execMor (t : Nat) (w : Dword) (s : State) : Res := coreStep s.running (fun s => s.vIssue t w encMor) s

def execMxor (t : Nat) (w : Dword) (s : State) : Res := coreStep s.running (fun s => s.vIssue t w encMxor) s

def execMandn (t : Nat) (w : Dword) (s : State) : Res := coreStep s.running (fun s => s.vIssue t w encMandn) s

def execMpopc (t : Nat) (w : Dword) (s : State) : Res := coreStep s.running (fun s => s.vIssue t w encMpopc) s

def execMfirst (t : Nat) (w : Dword) (s : State) : Res := coreStep s.running (fun s => s.vIssue t w encMfirst) s

def execMsetlt (t : Nat) (w : Dword) (s : State) : Res := coreStep s.running (fun s => s.vIssue t w encMsetlt) s

def execMmov (t : Nat) (w : Dword) (s : State) : Res := coreStep s.running (fun s => s.vIssue t w encMmov) s

def execVmv (t : Nat) (w : Dword) (s : State) : Res := coreStep s.running (fun s => s.vIssue t w encVmv) s

def execVbcast (t : Nat) (w : Dword) (s : State) : Res := coreStep s.running (fun s => s.vIssue t w encVbcast) s

def execVextract (t : Nat) (w : Dword) (s : State) : Res := coreStep s.running (fun s => s.vIssue t w encVextract) s

def execVinsert (t : Nat) (w : Dword) (s : State) : Res := coreStep s.running (fun s => s.vIssue t w encVinsert) s

def execVadd (t : Nat) (w : Dword) (s : State) : Res := coreStep s.running (fun s => s.vIssue t w encVadd) s

def execVsub (t : Nat) (w : Dword) (s : State) : Res := coreStep s.running (fun s => s.vIssue t w encVsub) s

def execVmin (t : Nat) (w : Dword) (s : State) : Res := coreStep s.running (fun s => s.vIssue t w encVmin) s

def execVmax (t : Nat) (w : Dword) (s : State) : Res := coreStep s.running (fun s => s.vIssue t w encVmax) s

def execVminu (t : Nat) (w : Dword) (s : State) : Res := coreStep s.running (fun s => s.vIssue t w encVminu) s

def execVmaxu (t : Nat) (w : Dword) (s : State) : Res := coreStep s.running (fun s => s.vIssue t w encVmaxu) s

def execVsaddu (t : Nat) (w : Dword) (s : State) : Res := coreStep s.running (fun s => s.vIssue t w encVsaddu) s

def execVssubu (t : Nat) (w : Dword) (s : State) : Res := coreStep s.running (fun s => s.vIssue t w encVssubu) s

def execVand (t : Nat) (w : Dword) (s : State) : Res := coreStep s.running (fun s => s.vIssue t w encVand) s

def execVor (t : Nat) (w : Dword) (s : State) : Res := coreStep s.running (fun s => s.vIssue t w encVor) s

def execVxor (t : Nat) (w : Dword) (s : State) : Res := coreStep s.running (fun s => s.vIssue t w encVxor) s

def execVandn (t : Nat) (w : Dword) (s : State) : Res := coreStep s.running (fun s => s.vIssue t w encVandn) s

def execVsll (t : Nat) (w : Dword) (s : State) : Res := coreStep s.running (fun s => s.vIssue t w encVsll) s

def execVsrl (t : Nat) (w : Dword) (s : State) : Res := coreStep s.running (fun s => s.vIssue t w encVsrl) s

def execVsra (t : Nat) (w : Dword) (s : State) : Res := coreStep s.running (fun s => s.vIssue t w encVsra) s

def execVror (t : Nat) (w : Dword) (s : State) : Res := coreStep s.running (fun s => s.vIssue t w encVror) s

def execVmul (t : Nat) (w : Dword) (s : State) : Res := coreStep s.running (fun s => s.vIssue t w encVmul) s

def execVmulh (t : Nat) (w : Dword) (s : State) : Res := coreStep s.running (fun s => s.vIssue t w encVmulh) s

def execVmulhu (t : Nat) (w : Dword) (s : State) : Res := coreStep s.running (fun s => s.vIssue t w encVmulhu) s

def execVmadd (t : Nat) (w : Dword) (s : State) : Res := coreStep s.running (fun s => s.vIssue t w encVmadd) s

def execVcmp (t : Nat) (w : Dword) (s : State) : Res := coreStep s.running (fun s => s.vIssue t w encVcmp) s

def execVcmpx (t : Nat) (w : Dword) (s : State) : Res := coreStep s.running (fun s => s.vIssue t w encVcmpx) s

def execVzext (t : Nat) (w : Dword) (s : State) : Res := coreStep s.running (fun s => s.vIssue t w encVzext) s

def execVsext (t : Nat) (w : Dword) (s : State) : Res := coreStep s.running (fun s => s.vIssue t w encVsext) s

def execVtrunc (t : Nat) (w : Dword) (s : State) : Res := coreStep s.running (fun s => s.vIssue t w encVtrunc) s

def execVsatnu (t : Nat) (w : Dword) (s : State) : Res := coreStep s.running (fun s => s.vIssue t w encVsatnu) s

def execVmerge (t : Nat) (w : Dword) (s : State) : Res := coreStep s.running (fun s => s.vIssue t w encVmerge) s

def execVcompress (t : Nat) (w : Dword) (s : State) : Res := coreStep s.running (fun s => s.vIssue t w encVcompress) s

def execVslidedn (t : Nat) (w : Dword) (s : State) : Res := coreStep s.running (fun s => s.vIssue t w encVslidedn) s

def execVslideup (t : Nat) (w : Dword) (s : State) : Res := coreStep s.running (fun s => s.vIssue t w encVslideup) s

def execVredsum (t : Nat) (w : Dword) (s : State) : Res := coreStep s.running (fun s => s.vIssue t w encVredsum) s

def execVredmin (t : Nat) (w : Dword) (s : State) : Res := coreStep s.running (fun s => s.vIssue t w encVredmin) s

def execVredmax (t : Nat) (w : Dword) (s : State) : Res := coreStep s.running (fun s => s.vIssue t w encVredmax) s

def execVredminu (t : Nat) (w : Dword) (s : State) : Res := coreStep s.running (fun s => s.vIssue t w encVredminu) s

def execVredmaxu (t : Nat) (w : Dword) (s : State) : Res := coreStep s.running (fun s => s.vIssue t w encVredmaxu) s

def execVredand (t : Nat) (w : Dword) (s : State) : Res := coreStep s.running (fun s => s.vIssue t w encVredand) s

def execVredor (t : Nat) (w : Dword) (s : State) : Res := coreStep s.running (fun s => s.vIssue t w encVredor) s

def execVredxor (t : Nat) (w : Dword) (s : State) : Res := coreStep s.running (fun s => s.vIssue t w encVredxor) s

def execVfadd (t : Nat) (w : Dword) (s : State) : Res := coreStep s.running (fun s => s.vIssue t w encVfadd) s

def execVfsub (t : Nat) (w : Dword) (s : State) : Res := coreStep s.running (fun s => s.vIssue t w encVfsub) s

def execVfmul (t : Nat) (w : Dword) (s : State) : Res := coreStep s.running (fun s => s.vIssue t w encVfmul) s

def execVfmadd (t : Nat) (w : Dword) (s : State) : Res := coreStep s.running (fun s => s.vIssue t w encVfmadd) s

def execVfmin (t : Nat) (w : Dword) (s : State) : Res := coreStep s.running (fun s => s.vIssue t w encVfmin) s

def execVfmax (t : Nat) (w : Dword) (s : State) : Res := coreStep s.running (fun s => s.vIssue t w encVfmax) s

def execVfredsum (t : Nat) (w : Dword) (s : State) : Res := coreStep s.running (fun s => s.vIssue t w encVfredsum) s

def execVfredmax (t : Nat) (w : Dword) (s : State) : Res := coreStep s.running (fun s => s.vIssue t w encVfredmax) s

def execVfcvtFI (t : Nat) (w : Dword) (s : State) : Res := coreStep s.running (fun s => s.vIssue t w encVfcvtFI) s

def execVfcvtIF (t : Nat) (w : Dword) (s : State) : Res := coreStep s.running (fun s => s.vIssue t w encVfcvtIF) s

def execVfwiden (t : Nat) (w : Dword) (s : State) : Res := coreStep s.running (fun s => s.vIssue t w encVfwiden) s

def execVfnarrow (t : Nat) (w : Dword) (s : State) : Res := coreStep s.running (fun s => s.vIssue t w encVfnarrow) s

def execVfcmp (t : Nat) (w : Dword) (s : State) : Res := coreStep s.running (fun s => s.vIssue t w encVfcmp) s

def execVcrc32c (t : Nat) (w : Dword) (s : State) : Res := coreStep s.running (fun s => s.vIssue t w encVcrc32c) s

def execVpopc (t : Nat) (w : Dword) (s : State) : Res := coreStep s.running (fun s => s.vIssue t w encVpopc) s

def execVclz (t : Nat) (w : Dword) (s : State) : Res := coreStep s.running (fun s => s.vIssue t w encVclz) s

def execVctz (t : Nat) (w : Dword) (s : State) : Res := coreStep s.running (fun s => s.vIssue t w encVctz) s

def execVid (t : Nat) (w : Dword) (s : State) : Res := coreStep s.running (fun s => s.vIssue t w encVid) s

def execViota (t : Nat) (w : Dword) (s : State) : Res := coreStep s.running (fun s => s.vIssue t w encViota) s

def execVld (t : Nat) (w : Dword) (s : State) : Res := coreStep s.running (fun s => s.vIssue t w encVld) s

def execVlds (t : Nat) (w : Dword) (s : State) : Res := coreStep s.running (fun s => s.vIssue t w encVlds) s

def execVldx (t : Nat) (w : Dword) (s : State) : Res := coreStep s.running (fun s => s.vIssue t w encVldx) s

def execVldxff (t : Nat) (w : Dword) (s : State) : Res := coreStep s.running (fun s => s.vIssue t w encVldxff) s

def execVst (t : Nat) (w : Dword) (s : State) : Res := coreStep s.running (fun s => s.vIssue t w encVst) s

def execVsts (t : Nat) (w : Dword) (s : State) : Res := coreStep s.running (fun s => s.vIssue t w encVsts) s

def execVstx (t : Nat) (w : Dword) (s : State) : Res := coreStep s.running (fun s => s.vIssue t w encVstx) s

def execVldff (t : Nat) (w : Dword) (s : State) : Res := coreStep s.running (fun s => s.vIssue t w encVldff) s

def execVldsff (t : Nat) (w : Dword) (s : State) : Res := coreStep s.running (fun s => s.vIssue t w encVldsff) s

def execVldmask (t : Nat) (w : Dword) (s : State) : Res := coreStep s.running (fun s => s.vIssue t w encVldmask) s

def execVstmask (t : Nat) (w : Dword) (s : State) : Res := coreStep s.running (fun s => s.vIssue t w encVstmask) s

/-- A structure load: MAINTENANCE_ONLY in service (R266, R293). -/
def State.segIssue (s : State) (t : Nat) (w : Dword) (e : Enc) : State :=
  if s.rd fOCA_TILE_STATE t = tsMaintenance then s.vIssue t w e
  else s.issue t w e (scalarReads w) (fun _ _ => .raises 0x30 0x02 0 0)

def execVlseg2 (t : Nat) (w : Dword) (s : State) : Res := coreStep s.running (fun s => s.segIssue t w encVlseg2) s

def execVlseg3 (t : Nat) (w : Dword) (s : State) : Res := coreStep s.running (fun s => s.segIssue t w encVlseg3) s

def execVlseg4 (t : Nat) (w : Dword) (s : State) : Res := coreStep s.running (fun s => s.segIssue t w encVlseg4) s

end Sys2Proof.Machine
end

