-- ==== Sys2Proof/Machine/Dispatch.lean ====
section
/-! DEFINITION. The command dispatcher: one arm for each constructor of Instr. -/

namespace Sys2Proof.Machine

def exec (i : Instr) (s : State) : Host.Outcome State Fault Refusal :=
  match i with
  | .mainRailsStart auxMs mv lowMs removed => Sys2Proof.Machine.execMainRailsStart auxMs mv lowMs removed s
  | .railsUp => Sys2Proof.Machine.execRailsUp s
  | .holdupCharged mv => Sys2Proof.Machine.execHoldupCharged mv s
  | .thermTrip celsius => Sys2Proof.Machine.execThermTrip celsius s
  | .pwrEnFall => Sys2Proof.Machine.execPwrEnFall s
  | .auxPowerUp mv straps => Sys2Proof.Machine.execAuxPowerUp mv straps s
  | .auxLoss mv => Sys2Proof.Machine.execAuxLoss mv s
  | .supplyLow mv us => Sys2Proof.Machine.execSupplyLow mv us s
  | .supplyHigh mv us => Sys2Proof.Machine.execSupplyHigh mv us s
  | .surge mv us => Sys2Proof.Machine.execSurge mv us s
  | .inputFault mv us => Sys2Proof.Machine.execInputFault mv us s
  | .inputRecovery mv us => Sys2Proof.Machine.execInputRecovery mv us s
  | .brownOut => Sys2Proof.Machine.execBrownOut s
  | .railOutOfLimits rail mv => Sys2Proof.Machine.execRailOutOfLimits rail mv s
  | .droopSample rail mv => Sys2Proof.Machine.execDroopSample rail mv s
  | .droopAlert => Sys2Proof.Machine.execDroopAlert s
  | .throttleNFall lowNs => Sys2Proof.Machine.execThrottleNFall lowNs s
  | .throttleNRise => Sys2Proof.Machine.execThrottleNRise s
  | .throttleHoldEnd => Sys2Proof.Machine.execThrottleHoldEnd s
  | .pllLock => Sys2Proof.Machine.execPllLock s
  | .pllLockLoss => Sys2Proof.Machine.execPllLockLoss s
  | .pllRelock => Sys2Proof.Machine.execPllRelock s
  | .pllRelockTimeout => Sys2Proof.Machine.execPllRelockTimeout s
  | .cclkDividerChange => Sys2Proof.Machine.execCclkDividerChange s
  | .perstNLow => Sys2Proof.Machine.execPerstNLow s
  | .perstNRise => Sys2Proof.Machine.execPerstNRise s
  | .hotReset => Sys2Proof.Machine.execHotReset s
  | .linkDown => Sys2Proof.Machine.execLinkDown s
  | .mgtWarmReset key => Sys2Proof.Machine.execMgtWarmReset key s
  | .resetRelease => Sys2Proof.Machine.execResetRelease s
  | .subsystemReady sub failed => Sys2Proof.Machine.execSubsystemReady sub failed s
  | .mastReady mast failMask => Sys2Proof.Machine.execMastReady mast failMask s
  | .mastTimeout mast => Sys2Proof.Machine.execMastTimeout mast s
  | .stackTrained stack => Sys2Proof.Machine.execStackTrained stack s
  | .stackTimeout stack => Sys2Proof.Machine.execStackTimeout stack s
  | .drivePerstRelease port => Sys2Proof.Machine.execDrivePerstRelease port s
  | .driveEnumerated port info => Sys2Proof.Machine.execDriveEnumerated port info s
  | .driveLate port => Sys2Proof.Machine.execDriveLate port s
  | .driveReadyTimeout port => Sys2Proof.Machine.execDriveReadyTimeout port s
  | .volumeAssembly => Sys2Proof.Machine.execVolumeAssembly s
  | .configRequest fn item wr => Sys2Proof.Machine.execConfigRequest fn item wr s
  | .linkTrained speed width flit cxl reversed => Sys2Proof.Machine.execLinkTrained speed width flit cxl reversed s
  | .laneFailure => Sys2Proof.Machine.execLaneFailure s
  | .d3hotEntry => Sys2Proof.Machine.execD3hotEntry s
  | .d0Return => Sys2Proof.Machine.execD0Return s
  | .vfEnable numVfs => Sys2Proof.Machine.execVfEnable numVfs s
  | .vfDisable => Sys2Proof.Machine.execVfDisable s
  | .flr fn => Sys2Proof.Machine.execFlr fn s
  | .msixUnmask fn vec => Sys2Proof.Machine.execMsixUnmask fn vec s
  | .moderationTimer fn qid => Sys2Proof.Machine.execModerationTimer fn qid s
  | .qosWindowEnd => Sys2Proof.Machine.execQosWindowEnd s
  | .atsInvalidate fn addr len => Sys2Proof.Machine.execAtsInvalidate fn addr len s
  | .doeRequest kind req => Sys2Proof.Machine.execDoeRequest kind req s
  | .cxlSnoop addr => Sys2Proof.Machine.execCxlSnoop addr s
  | .cxlMemRead hpa len => Sys2Proof.Machine.execCxlMemRead hpa len s
  | .cxlMemWrite hpa data => Sys2Proof.Machine.execCxlMemWrite hpa data s
  | .carveOutEnable co => Sys2Proof.Machine.execCarveOutEnable co s
  | .carveOutDisable co => Sys2Proof.Machine.execCarveOutDisable co s
  | .registerWrite acc v => Sys2Proof.Machine.execRegisterWrite acc v s
  | .softReset sub enable => Sys2Proof.Machine.execSoftReset sub enable s
  | .enable sub on => Sys2Proof.Machine.execEnable sub on s
  | .irqSet sub v => Sys2Proof.Machine.execIrqSet sub v s
  | .irqStatusWrite sub v => Sys2Proof.Machine.execIrqStatusWrite sub v s
  | .irqEnableWrite sub v => Sys2Proof.Machine.execIrqEnableWrite sub v s
  | .expertUnlock sub key => Sys2Proof.Machine.execExpertUnlock sub key s
  | .sqDoorbell fn qid tail => Sys2Proof.Machine.execSqDoorbell fn qid tail s
  | .cqDoorbell fn qid index => Sys2Proof.Machine.execCqDoorbell fn qid index s
  | .sqFetch => Sys2Proof.Machine.execSqFetch s
  | .entryHandOn fn qid => Sys2Proof.Machine.execEntryHandOn fn qid s
  | .cqRecheck fn qid => Sys2Proof.Machine.execCqRecheck fn qid s
  | .adminQueueEnable fn => Sys2Proof.Machine.execAdminQueueEnable fn s
  | .adminQueueDisable fn => Sys2Proof.Machine.execAdminQueueDisable fn s
  | .adminDisableEnd fn => Sys2Proof.Machine.execAdminDisableEnd fn s
  | .createQueue fn => Sys2Proof.Machine.execCreateQueue fn s
  | .destroyQueue fn => Sys2Proof.Machine.execDestroyQueue fn s
  | .resetQueue fn => Sys2Proof.Machine.execResetQueue fn s
  | .qmgFnQlimit fn limit => Sys2Proof.Machine.execQmgFnQlimit fn limit s
  | .graphLoad fn => Sys2Proof.Machine.execGraphLoad fn s
  | .graphUnload fn => Sys2Proof.Machine.execGraphUnload fn s
  | .run fn qid => Sys2Proof.Machine.execRun fn qid s
  | .runStart run host => Sys2Proof.Machine.execRunStart run host s
  | .bankHold run => Sys2Proof.Machine.execBankHold run s
  | .sourceMorsel run node host => Sys2Proof.Machine.execSourceMorsel run node host s
  | .taskMake => Sys2Proof.Machine.execTaskMake s
  | .tokenForward run edge => Sys2Proof.Machine.execTokenForward run edge s
  | .pegFill kind unit => Sys2Proof.Machine.execPegFill kind unit s
  | .stagingDone tile peg => Sys2Proof.Machine.execStagingDone tile peg s
  | .taskStart tile => Sys2Proof.Machine.execTaskStart tile s
  | .taskTimeout task => Sys2Proof.Machine.execTaskTimeout task s
  | .tokenPlace task => Sys2Proof.Machine.execTokenPlace task s
  | .slotRelease flow => Sys2Proof.Machine.execSlotRelease flow s
  | .runEnd run => Sys2Proof.Machine.execRunEnd run s
  | .segmentRecheck run => Sys2Proof.Machine.execSegmentRecheck run s
  | .cancelTask fn => Sys2Proof.Machine.execCancelTask fn s
  | .cancelRun fn => Sys2Proof.Machine.execCancelRun fn s
  | .cancelFunction fn => Sys2Proof.Machine.execCancelFunction fn s
  | .lockstepDisagreement stop => Sys2Proof.Machine.execLockstepDisagreement stop s
  | .lockstepHaltEnd stop => Sys2Proof.Machine.execLockstepHaltEnd stop s
  | .injectWest => Sys2Proof.Machine.execInjectWest s
  | .injectEast => Sys2Proof.Machine.execInjectEast s
  | .bsnFnResv fn v => Sys2Proof.Machine.execBsnFnResv fn v s
  | .deferredFault tile n => Sys2Proof.Machine.execDeferredFault tile n s
  | .uncorrectableFetch tile found => Sys2Proof.Machine.execUncorrectableFetch tile found s
  | .maintEnter tile program => Sys2Proof.Machine.execMaintEnter tile program s
  | .coreReset tile => Sys2Proof.Machine.execCoreReset tile s
  | .maintProgramEnd tile pass_ => Sys2Proof.Machine.execMaintProgramEnd tile pass_ s
  | .ocaEccInject tile target double => Sys2Proof.Machine.execOcaEccInject tile target double s
  | .nop tile w => Sys2Proof.Machine.execNop tile w s
  | .endTask tile w => Sys2Proof.Machine.execEndTask tile w s
  | .trap tile w => Sys2Proof.Machine.execTrap tile w s
  | .fence tile w => Sys2Proof.Machine.execFence tile w s
  | .rdcnt tile w => Sys2Proof.Machine.execRdcnt tile w s
  | .add tile w => Sys2Proof.Machine.execAdd tile w s
  | .sub tile w => Sys2Proof.Machine.execSub tile w s
  | .and tile w => Sys2Proof.Machine.execAnd tile w s
  | .or tile w => Sys2Proof.Machine.execOr tile w s
  | .xor tile w => Sys2Proof.Machine.execXor tile w s
  | .andn tile w => Sys2Proof.Machine.execAndn tile w s
  | .orn tile w => Sys2Proof.Machine.execOrn tile w s
  | .xnor tile w => Sys2Proof.Machine.execXnor tile w s
  | .sll tile w => Sys2Proof.Machine.execSll tile w s
  | .srl tile w => Sys2Proof.Machine.execSrl tile w s
  | .sra tile w => Sys2Proof.Machine.execSra tile w s
  | .rol tile w => Sys2Proof.Machine.execRol tile w s
  | .ror tile w => Sys2Proof.Machine.execRor tile w s
  | .min tile w => Sys2Proof.Machine.execMin tile w s
  | .max tile w => Sys2Proof.Machine.execMax tile w s
  | .minu tile w => Sys2Proof.Machine.execMinu tile w s
  | .maxu tile w => Sys2Proof.Machine.execMaxu tile w s
  | .clz tile w => Sys2Proof.Machine.execClz tile w s
  | .ctz tile w => Sys2Proof.Machine.execCtz tile w s
  | .popc tile w => Sys2Proof.Machine.execPopc tile w s
  | .bswap tile w => Sys2Proof.Machine.execBswap tile w s
  | .sextb tile w => Sys2Proof.Machine.execSextb tile w s
  | .sexth tile w => Sys2Proof.Machine.execSexth tile w s
  | .sextw tile w => Sys2Proof.Machine.execSextw tile w s
  | .zextb tile w => Sys2Proof.Machine.execZextb tile w s
  | .zexth tile w => Sys2Proof.Machine.execZexth tile w s
  | .zextw tile w => Sys2Proof.Machine.execZextw tile w s
  | .addw tile w => Sys2Proof.Machine.execAddw tile w s
  | .subw tile w => Sys2Proof.Machine.execSubw tile w s
  | .sllw tile w => Sys2Proof.Machine.execSllw tile w s
  | .srlw tile w => Sys2Proof.Machine.execSrlw tile w s
  | .crc32cb tile w => Sys2Proof.Machine.execCrc32cb tile w s
  | .crc32ch tile w => Sys2Proof.Machine.execCrc32ch tile w s
  | .crc32cw tile w => Sys2Proof.Machine.execCrc32cw tile w s
  | .crc32cd tile w => Sys2Proof.Machine.execCrc32cd tile w s
  | .mul tile w => Sys2Proof.Machine.execMul tile w s
  | .mulh tile w => Sys2Proof.Machine.execMulh tile w s
  | .mulhu tile w => Sys2Proof.Machine.execMulhu tile w s
  | .mulhsu tile w => Sys2Proof.Machine.execMulhsu tile w s
  | .mulw tile w => Sys2Proof.Machine.execMulw tile w s
  | .div tile w => Sys2Proof.Machine.execDiv tile w s
  | .divu tile w => Sys2Proof.Machine.execDivu tile w s
  | .rem tile w => Sys2Proof.Machine.execRem tile w s
  | .remu tile w => Sys2Proof.Machine.execRemu tile w s
  | .divw tile w => Sys2Proof.Machine.execDivw tile w s
  | .divuw tile w => Sys2Proof.Machine.execDivuw tile w s
  | .remw tile w => Sys2Proof.Machine.execRemw tile w s
  | .remuw tile w => Sys2Proof.Machine.execRemuw tile w s
  | .cmp tile w => Sys2Proof.Machine.execCmp tile w s
  | .cmpi tile w => Sys2Proof.Machine.execCmpi tile w s
  | .pand tile w => Sys2Proof.Machine.execPand tile w s
  | .por tile w => Sys2Proof.Machine.execPor tile w s
  | .pxor tile w => Sys2Proof.Machine.execPxor tile w s
  | .pandn tile w => Sys2Proof.Machine.execPandn tile w s
  | .ptox tile w => Sys2Proof.Machine.execPtox tile w s
  | .xtop tile w => Sys2Proof.Machine.execXtop tile w s
  | .addi tile w => Sys2Proof.Machine.execAddi tile w s
  | .andi tile w => Sys2Proof.Machine.execAndi tile w s
  | .ori tile w => Sys2Proof.Machine.execOri tile w s
  | .xori tile w => Sys2Proof.Machine.execXori tile w s
  | .slli tile w => Sys2Proof.Machine.execSlli tile w s
  | .srli tile w => Sys2Proof.Machine.execSrli tile w s
  | .srai tile w => Sys2Proof.Machine.execSrai tile w s
  | .roli tile w => Sys2Proof.Machine.execRoli tile w s
  | .rori tile w => Sys2Proof.Machine.execRori tile w s
  | .lui tile w => Sys2Proof.Machine.execLui tile w s
  | .addpc tile w => Sys2Proof.Machine.execAddpc tile w s
  | .br tile w => Sys2Proof.Machine.execBr tile w s
  | .call tile w => Sys2Proof.Machine.execCall tile w s
  | .jr tile w => Sys2Proof.Machine.execJr tile w s
  | .lb tile w => Sys2Proof.Machine.execLb tile w s
  | .lh tile w => Sys2Proof.Machine.execLh tile w s
  | .lw tile w => Sys2Proof.Machine.execLw tile w s
  | .ld tile w => Sys2Proof.Machine.execLd tile w s
  | .lbu tile w => Sys2Proof.Machine.execLbu tile w s
  | .lhu tile w => Sys2Proof.Machine.execLhu tile w s
  | .lwu tile w => Sys2Proof.Machine.execLwu tile w s
  | .prefetch tile w => Sys2Proof.Machine.execPrefetch tile w s
  | .sb tile w => Sys2Proof.Machine.execSb tile w s
  | .sh tile w => Sys2Proof.Machine.execSh tile w s
  | .sw tile w => Sys2Proof.Machine.execSw tile w s
  | .sd tile w => Sys2Proof.Machine.execSd tile w s
  | .atomicAdd tile w => Sys2Proof.Machine.execAtomicAdd tile w s
  | .atomicAnd tile w => Sys2Proof.Machine.execAtomicAnd tile w s
  | .atomicOr tile w => Sys2Proof.Machine.execAtomicOr tile w s
  | .atomicXor tile w => Sys2Proof.Machine.execAtomicXor tile w s
  | .atomicMin tile w => Sys2Proof.Machine.execAtomicMin tile w s
  | .atomicMax tile w => Sys2Proof.Machine.execAtomicMax tile w s
  | .atomicMinu tile w => Sys2Proof.Machine.execAtomicMinu tile w s
  | .atomicMaxu tile w => Sys2Proof.Machine.execAtomicMaxu tile w s
  | .atomicSwap tile w => Sys2Proof.Machine.execAtomicSwap tile w s
  | .atomicCas tile w => Sys2Proof.Machine.execAtomicCas tile w s
  | .maintenanceOp tile w => Sys2Proof.Machine.execMaintenanceOp tile w s
  | .vectorStart tile => Sys2Proof.Machine.execVectorStart tile s
  | .vsetvl tile w => Sys2Proof.Machine.execVsetvl tile w s
  | .vrdvl tile w => Sys2Proof.Machine.execVrdvl tile w s
  | .vrdrs tile w => Sys2Proof.Machine.execVrdrs tile w s
  | .vwrrs tile w => Sys2Proof.Machine.execVwrrs tile w s
  | .mand tile w => Sys2Proof.Machine.execMand tile w s
  | .mor tile w => Sys2Proof.Machine.execMor tile w s
  | .mxor tile w => Sys2Proof.Machine.execMxor tile w s
  | .mandn tile w => Sys2Proof.Machine.execMandn tile w s
  | .mpopc tile w => Sys2Proof.Machine.execMpopc tile w s
  | .mfirst tile w => Sys2Proof.Machine.execMfirst tile w s
  | .msetlt tile w => Sys2Proof.Machine.execMsetlt tile w s
  | .mmov tile w => Sys2Proof.Machine.execMmov tile w s
  | .vmv tile w => Sys2Proof.Machine.execVmv tile w s
  | .vbcast tile w => Sys2Proof.Machine.execVbcast tile w s
  | .vextract tile w => Sys2Proof.Machine.execVextract tile w s
  | .vinsert tile w => Sys2Proof.Machine.execVinsert tile w s
  | .vadd tile w => Sys2Proof.Machine.execVadd tile w s
  | .vsub tile w => Sys2Proof.Machine.execVsub tile w s
  | .vmin tile w => Sys2Proof.Machine.execVmin tile w s
  | .vmax tile w => Sys2Proof.Machine.execVmax tile w s
  | .vminu tile w => Sys2Proof.Machine.execVminu tile w s
  | .vmaxu tile w => Sys2Proof.Machine.execVmaxu tile w s
  | .vsaddu tile w => Sys2Proof.Machine.execVsaddu tile w s
  | .vssubu tile w => Sys2Proof.Machine.execVssubu tile w s
  | .vand tile w => Sys2Proof.Machine.execVand tile w s
  | .vor tile w => Sys2Proof.Machine.execVor tile w s
  | .vxor tile w => Sys2Proof.Machine.execVxor tile w s
  | .vandn tile w => Sys2Proof.Machine.execVandn tile w s
  | .vsll tile w => Sys2Proof.Machine.execVsll tile w s
  | .vsrl tile w => Sys2Proof.Machine.execVsrl tile w s
  | .vsra tile w => Sys2Proof.Machine.execVsra tile w s
  | .vror tile w => Sys2Proof.Machine.execVror tile w s
  | .vmul tile w => Sys2Proof.Machine.execVmul tile w s
  | .vmulh tile w => Sys2Proof.Machine.execVmulh tile w s
  | .vmulhu tile w => Sys2Proof.Machine.execVmulhu tile w s
  | .vmadd tile w => Sys2Proof.Machine.execVmadd tile w s
  | .vcmp tile w => Sys2Proof.Machine.execVcmp tile w s
  | .vcmpx tile w => Sys2Proof.Machine.execVcmpx tile w s
  | .vzext tile w => Sys2Proof.Machine.execVzext tile w s
  | .vsext tile w => Sys2Proof.Machine.execVsext tile w s
  | .vtrunc tile w => Sys2Proof.Machine.execVtrunc tile w s
  | .vsatnu tile w => Sys2Proof.Machine.execVsatnu tile w s
  | .vmerge tile w => Sys2Proof.Machine.execVmerge tile w s
  | .vcompress tile w => Sys2Proof.Machine.execVcompress tile w s
  | .vslidedn tile w => Sys2Proof.Machine.execVslidedn tile w s
  | .vslideup tile w => Sys2Proof.Machine.execVslideup tile w s
  | .vredsum tile w => Sys2Proof.Machine.execVredsum tile w s
  | .vredmin tile w => Sys2Proof.Machine.execVredmin tile w s
  | .vredmax tile w => Sys2Proof.Machine.execVredmax tile w s
  | .vredminu tile w => Sys2Proof.Machine.execVredminu tile w s
  | .vredmaxu tile w => Sys2Proof.Machine.execVredmaxu tile w s
  | .vredand tile w => Sys2Proof.Machine.execVredand tile w s
  | .vredor tile w => Sys2Proof.Machine.execVredor tile w s
  | .vredxor tile w => Sys2Proof.Machine.execVredxor tile w s
  | .vfadd tile w => Sys2Proof.Machine.execVfadd tile w s
  | .vfsub tile w => Sys2Proof.Machine.execVfsub tile w s
  | .vfmul tile w => Sys2Proof.Machine.execVfmul tile w s
  | .vfmadd tile w => Sys2Proof.Machine.execVfmadd tile w s
  | .vfmin tile w => Sys2Proof.Machine.execVfmin tile w s
  | .vfmax tile w => Sys2Proof.Machine.execVfmax tile w s
  | .vfredsum tile w => Sys2Proof.Machine.execVfredsum tile w s
  | .vfredmax tile w => Sys2Proof.Machine.execVfredmax tile w s
  | .vfcvtFI tile w => Sys2Proof.Machine.execVfcvtFI tile w s
  | .vfcvtIF tile w => Sys2Proof.Machine.execVfcvtIF tile w s
  | .vfwiden tile w => Sys2Proof.Machine.execVfwiden tile w s
  | .vfnarrow tile w => Sys2Proof.Machine.execVfnarrow tile w s
  | .vfcmp tile w => Sys2Proof.Machine.execVfcmp tile w s
  | .vcrc32c tile w => Sys2Proof.Machine.execVcrc32c tile w s
  | .vpopc tile w => Sys2Proof.Machine.execVpopc tile w s
  | .vclz tile w => Sys2Proof.Machine.execVclz tile w s
  | .vctz tile w => Sys2Proof.Machine.execVctz tile w s
  | .vid tile w => Sys2Proof.Machine.execVid tile w s
  | .viota tile w => Sys2Proof.Machine.execViota tile w s
  | .vld tile w => Sys2Proof.Machine.execVld tile w s
  | .vlds tile w => Sys2Proof.Machine.execVlds tile w s
  | .vldx tile w => Sys2Proof.Machine.execVldx tile w s
  | .vldxff tile w => Sys2Proof.Machine.execVldxff tile w s
  | .vst tile w => Sys2Proof.Machine.execVst tile w s
  | .vsts tile w => Sys2Proof.Machine.execVsts tile w s
  | .vstx tile w => Sys2Proof.Machine.execVstx tile w s
  | .vldff tile w => Sys2Proof.Machine.execVldff tile w s
  | .vldsff tile w => Sys2Proof.Machine.execVldsff tile w s
  | .vldmask tile w => Sys2Proof.Machine.execVldmask tile w s
  | .vstmask tile w => Sys2Proof.Machine.execVstmask tile w s
  | .vlseg2 tile w => Sys2Proof.Machine.execVlseg2 tile w s
  | .vlseg3 tile w => Sys2Proof.Machine.execVlseg3 tile w s
  | .vlseg4 tile w => Sys2Proof.Machine.execVlseg4 tile w s
  | .exchangeTask task => Sys2Proof.Machine.execExchangeTask task s
  | .sinkTask task => Sys2Proof.Machine.execSinkTask task s
  | .holdReadTask task => Sys2Proof.Machine.execHoldReadTask task s
  | .matchBuildTask task => Sys2Proof.Machine.execMatchBuildTask task s
  | .matchProbeTask task => Sys2Proof.Machine.execMatchProbeTask task s
  | .decompTask task => Sys2Proof.Machine.execDecompTask task s
  | .compTask task => Sys2Proof.Machine.execCompTask task s
  | .moveTaskIn task host => Sys2Proof.Machine.execMoveTaskIn task host s
  | .moveTaskOut task host => Sys2Proof.Machine.execMoveTaskOut task s host
  | .engineJobEnd kind unit => Sys2Proof.Machine.execEngineJobEnd kind unit s
  | .bankClearDone bank => Sys2Proof.Machine.execBankClearDone bank s
  | .amuScrubEntry bank found => Sys2Proof.Machine.execAmuScrubEntry bank s found
  | .amuInject bank entry copyBits => Sys2Proof.Machine.execAmuInject bank entry copyBits s
  | .engineClearDone engine => Sys2Proof.Machine.execEngineClearDone engine s
  | .decompress engine => Sys2Proof.Machine.execDecompress engine s
  | .compress engine => Sys2Proof.Machine.execCompress engine s
  | .mglInject engine => Sys2Proof.Machine.execMglInject engine s
  | .engineSwap => Sys2Proof.Machine.execEngineSwap s
  | .copy fn qid => Sys2Proof.Machine.execCopy fn qid s
  | .mangleJob fn qid => Sys2Proof.Machine.execMangleJob fn qid s
  | .halChCfg channel v => Sys2Proof.Machine.execHalChCfg channel v s
  | .start channel => Sys2Proof.Machine.execStart channel s
  | .clear channel => Sys2Proof.Machine.execClear channel s
  | .stop channel => Sys2Proof.Machine.execStop channel s
  | .burstStart channel level => Sys2Proof.Machine.execBurstStart channel level s
  | .burstEnd channel => Sys2Proof.Machine.execBurstEnd channel s
  | .channelHalt channel host => Sys2Proof.Machine.execChannelHalt channel host s
  | .stopTimeout channel => Sys2Proof.Machine.execStopTimeout channel s
  | .eventPulse line => Sys2Proof.Machine.execEventPulse line s
  | .read fn qid host => Sys2Proof.Machine.execRead fn qid host s
  | .write fn qid host => Sys2Proof.Machine.execWrite fn qid host s
  | .flush fn qid => Sys2Proof.Machine.execFlush fn qid s
  | .deallocate fn qid => Sys2Proof.Machine.execDeallocate fn qid s
  | .admission => Sys2Proof.Machine.execAdmission s
  | .driveCompletion tag status dword0 data => Sys2Proof.Machine.execDriveCompletion tag status dword0 data s
  | .driveTimeout tag reinit => Sys2Proof.Machine.execDriveTimeout tag reinit s
  | .rebuildStripe => Sys2Proof.Machine.execRebuildStripe s
  | .resyncStripe => Sys2Proof.Machine.execResyncStripe s
  | .create => Sys2Proof.Machine.execCreate s
  | .destroy => Sys2Proof.Machine.execDestroy s
  | .addSpare port => Sys2Proof.Machine.execAddSpare port s
  | .removeSpare => Sys2Proof.Machine.execRemoveSpare s
  | .cvcFnResv fn v => Sys2Proof.Machine.execCvcFnResv fn v s
  | .cmdResv fn v => Sys2Proof.Machine.execCmdResv fn v s
  | .driveRemoval port => Sys2Proof.Machine.execDriveRemoval port s
  | .driveInsertion port => Sys2Proof.Machine.execDriveInsertion port s
  | .retrain port => Sys2Proof.Machine.execRetrain port s
  | .disable port => Sys2Proof.Machine.execDisable port s
  | .disableClear port => Sys2Proof.Machine.execDisableClear port s
  | .driveAdmin => Sys2Proof.Machine.execDriveAdmin s
  | .fwActivate ok => Sys2Proof.Machine.execFwActivate ok s
  | .psEntry state => Sys2Proof.Machine.execPsEntry state s
  | .psWake => Sys2Proof.Machine.execPsWake s
  | .psExit => Sys2Proof.Machine.execPsExit s
  | .claim fn slot alg => Sys2Proof.Machine.execClaim fn slot alg s
  | .release fn slot => Sys2Proof.Machine.execRelease fn slot s
  | .keyed fn slot => Sys2Proof.Machine.execKeyed fn slot s
  | .last fn slot => Sys2Proof.Machine.execLast fn slot s
  | .exportContext fn slot => Sys2Proof.Machine.execExportContext fn slot s
  | .importContext fn slot => Sys2Proof.Machine.execImportContext fn slot s
  | .restart fn slot => Sys2Proof.Machine.execRestart fn slot s
  | .recordTransferDone fn slot => Sys2Proof.Machine.execRecordTransferDone fn slot s
  | .dgeSlotData fn slot v => Sys2Proof.Machine.execDgeSlotData fn slot v s
  | .blockAbsorbed fn slot => Sys2Proof.Machine.execBlockAbsorbed fn slot s
  | .dgeSlotCmp fn slot disagree => Sys2Proof.Machine.execDgeSlotCmp fn slot disagree s
  | .contextZeroed => Sys2Proof.Machine.execContextZeroed s
  | .contextClear cause => Sys2Proof.Machine.execContextClear cause s
  | .dgeAlarmTest => Sys2Proof.Machine.execDgeAlarmTest s
  | .map => Sys2Proof.Machine.execMap s
  | .unmap => Sys2Proof.Machine.execUnmap s
  | .protect => Sys2Proof.Machine.execProtect s
  | .query => Sys2Proof.Machine.execQuery s
  | .mapDone => Sys2Proof.Machine.execMapDone s
  | .scrubRead stack cells => Sys2Proof.Machine.execScrubRead stack cells s
  | .rowRepairDone stack => Sys2Proof.Machine.execRowRepairDone stack s
  | .bucketWindow => Sys2Proof.Machine.execBucketWindow s
  | .writeRaw => Sys2Proof.Machine.execWriteRaw s
  | .readRaw => Sys2Proof.Machine.execReadRaw s
  | .poisonMarking line => Sys2Proof.Machine.execPoisonMarking line s
  | .logEntryWrite => Sys2Proof.Machine.execLogEntryWrite s
  | .mark detail => Sys2Proof.Machine.execMark detail s
  | .ptmDialogue => Sys2Proof.Machine.execPtmDialogue s
  | .ptmResponse host rate => Sys2Proof.Machine.execPtmResponse host rate s
  | .ptmTimeout invalidated => Sys2Proof.Machine.execPtmTimeout invalidated s
  | .controllerWindowEnd dw mv uj => Sys2Proof.Machine.execControllerWindowEnd dw mv uj s
  | .thermalSample die hbm => Sys2Proof.Machine.execThermalSample die hbm s
  | .stepDown => Sys2Proof.Machine.execStepDown s
  | .pwrLimit watts hyst => Sys2Proof.Machine.execPwrLimit watts hyst s
  | .pwrReefFloor level => Sys2Proof.Machine.execPwrReefFloor level s
  | .wearWindow => Sys2Proof.Machine.execWearWindow s
  | .tileSwap => Sys2Proof.Machine.execTileSwap s
  | .drainTimeout => Sys2Proof.Machine.execDrainTimeout s
  | .drnSwapCtrl kind unit => Sys2Proof.Machine.execDrnSwapCtrl kind unit s
  | .linkCrcError link group => Sys2Proof.Machine.execLinkCrcError link group s
  | .snapCtrlClear => Sys2Proof.Machine.execSnapCtrlClear s
  | .clearRecords => Sys2Proof.Machine.execClearRecords s
  | .getHealth => Sys2Proof.Machine.execGetHealth s
  | .readLog sub => Sys2Proof.Machine.execReadLog sub s
  | .readRecord kind page => Sys2Proof.Machine.execReadRecord kind page s
  | .clearSnapshot => Sys2Proof.Machine.execClearSnapshot s
  | .warmReset => Sys2Proof.Machine.execWarmReset s
  | .readIdentity first => Sys2Proof.Machine.execReadIdentity first s
  | .setPreserve on => Sys2Proof.Machine.execSetPreserve on s
  | .mctpControlMessage req => Sys2Proof.Machine.execMctpControlMessage req s
  | .pldmMessage req => Sys2Proof.Machine.execPldmMessage req s
  | .sensorRefresh => Sys2Proof.Machine.execSensorRefresh s
  | .auxSupplyRemoved => Sys2Proof.Machine.execAuxSupplyRemoved s
  | .registerRead acc => Sys2Proof.Machine.execRegisterRead acc s
  | .hbmAccessPerformed tile n found => Sys2Proof.Machine.execHbmAccessPerformed tile n found s
  | .spdmMessage req => Sys2Proof.Machine.execSpdmMessage req s

end Sys2Proof.Machine
end

