-- ==== Sys2Proof/Machine/Tick.lean ====
section
/-! DEFINITION. What passes with one tick of TCLK: the counters that run with time, the power-state timers and the
invalidations that wait (R66, R132, R398, R436). A block with an empty queue makes one tick in a step. -/

namespace Sys2Proof.Machine

/-- CCLK half-cycles in one TCLK tick: TCLK is the root clock divided by 6, CCLK the root divided by 3, 4 or 6. -/
def halfCycles (div : Nat) : Nat := 12 / div

/-- Invalidations whose requests have all completed answer (R132). -/
def State.settleAts (s : State) : State :=
  let free := s.hif.atsWait.filter (fun (w : Nat × Nat × Nat) => !s.hostBusy w.1 w.2.1 w.2.2)
  let rest := s.hif.atsWait.filter (fun (w : Nat × Nat × Nat) => s.hostBusy w.1 w.2.1 w.2.2)
  free.foldl (fun (s : State) (w : Nat × Nat × Nat) => s.atsComplete w.1 w.2.1 w.2.2) { s with hif := { s.hif with atsWait := rest } }

/-- The counters of a tick: TSU and the CCLK half-cycles. A divider that waits for the boundary at which the tick begins
is in force from there on (R68). -/
def Clocks.counted (c : Clocks) : Clocks :=
  let d := if c.atBoundary then c.divided else c
  { d with tsu := (d.tsu + 1) % 2 ^ 64, now := d.now + 1, cyc := d.cyc + halfCycles d.div }

def State.countTick (s : State) : State := { s with clk := s.clk.counted }

/-- Time passes without TCLK. -/
def State.wait (s : State) : State := { s with clk := { s.clk with now := s.clk.now + 1 } }

/-- One tick while the derived clocks run, or the same time without them; a warm reset leaves only TSU counting (R71). -/
def State.tick (s : State) : State :=
  if s.running then ((s.countTick.bumpWrap fPWR_REEF_TIME_TICKS s.level 1).psTouch).settleAts
  else if s.clocked then s.countTick
  else s.wait

end Sys2Proof.Machine
end

