-- ==== Sys2Proof/WellFormed.lean ====
section
/-! DEFINITION. Well-formed commands: every operand that names a part of the device names one that exists, and every
value written fits the register (spec/00_scope.md R8 to R11; spec/01_architecture.md; spec/04_register_pages_and_address_map.md
R88, R104). -/

namespace Sys2Proof

/-- A function: PF0 or one of 1,024 VFs (R113). -/
def fnOk (fn : Nat) : Bool := decide (fn ≤ 1024)
/-- A physical tile: 32 masts of 17. -/
def tileOk (t : Nat) : Bool := decide (t < 544)
/-- A mast. -/
def mastOk (m : Nat) : Bool := decide (m < 32)
/-- An HBM stack. -/
def stackOk (s : Nat) : Bool := decide (s < 8)
/-- A drive port. -/
def portOk (p : Nat) : Bool := decide (p < 8)
/-- A carve-out. -/
def coOk (c : Nat) : Bool := decide (c < 64)
/-- A Halyard channel. -/
def channelOk (c : Nat) : Bool := decide (c < 64)
/-- A digest slot. -/
def slotOk (s : Nat) : Bool := decide (s < 16)
/-- A main rail. -/
def railOk (r : Nat) : Bool := decide (r < 6)
/-- A queue number (R138): a VF has 6,144, PF0 4,096. -/
def qidOk (q : Nat) : Bool := decide (q < 6144)
/-- An ordered flow of the device. -/
def flowOk (f : Nat) : Bool := decide (f < 1024)
/-- A physical bank of the Associative Match Unit, spares included. -/
def bankOk (b : Nat) : Bool := decide (b < 68)
/-- A logical Mangle engine. -/
def engineOk (e : Nat) : Bool := decide (e < 16)
/-- A physical Mangle engine, spares included. -/
def physEngineOk (e : Nat) : Bool := decide (e < 18)
/-- One of two: a BSN stop, a peg. -/
def stopOk (n : Nat) : Bool := decide (n < 2)
/-- A link of the fabric. -/
def linkOk (l : Nat) : Bool := decide (l < 224)
/-- A group of lanes of a link, its spare included. -/
def groupOk (g : Nat) : Bool := decide (g < 33)
/-- An event line of Halyard. -/
def lineOk (l : Nat) : Bool := decide (l < 16)
/-- A subsystem (R11). -/
def subOk (s : Nat) : Bool := decide (1 ≤ s) && decide (s ≤ 16)
/-- One of four: a cause of a context clear, a kind of record. -/
def causeOk (n : Nat) : Bool := decide (n < 4)
/-- A data object exchange mailbox. -/
def doeOk (n : Nat) : Bool := decide (n < 3)
/-- A power state that CVC enters. -/
def psOk (n : Nat) : Bool := decide (1 ≤ n) && decide (n ≤ 4)
def halfOk (v : Nat) : Bool := decide (v < 2 ^ 16)
def dwordOk (v : Nat) : Bool := decide (v < 2 ^ 32)
def qwordOk (v : Nat) : Bool := decide (v < 2 ^ 64)
/-- The bytes of one CXL.mem access lie in one line. -/
def cxlLenOk (a n : Nat) : Bool := decide (1 ≤ n) && decide (a % 64 + n ≤ 64)
/-- A line of HBM: eight stacks of 36 GiB. -/
def hbmLineOk (l : Nat) : Bool := decide (l < 288 * 2 ^ 24)
/-- A vector of a function's MSI-X table (R118). -/
def vecOk (fn vec : Nat) : Bool := decide (vec < (if fn = 0 then 2048 else 64))

/-- The size of a space (R88, R89). -/
def Space.bytes : Space → Nat
  | .bar0 => 2 ^ 23
  | .window => 2 ^ 17
  | .bar2 => 2 ^ 24

/-- An access of 1 to 64 bytes, a power of two, within its space. -/
def Access.wf (a : Access) : Bool :=
  fnOk a.fn && [1, 2, 4, 8, 16, 32, 64].contains a.size && decide (a.off + a.size ≤ a.space.bytes)

/-- What a drive tells fits its registers (R367, R391). -/
def DriveInfo.wf (i : DriveInfo) : Bool :=
  qwordOk i.blocks && halfOk i.mtfa && [1, 2, 4].contains i.width && decide (i.speed ≤ 5) && decide (i.label.length = 48)

/-- The command is well formed. -/
def Instr.wf : Instr → Bool
  | .mainRailsStart _ _ _ _ => true
  | .railsUp => true
  | .holdupCharged _ => true
  | .thermTrip _ => true
  | .pwrEnFall => true
  | .auxPowerUp _ _ => true
  | .auxLoss _ => true
  | .supplyLow _ _ => true
  | .supplyHigh _ _ => true
  | .surge _ _ => true
  | .inputFault _ _ => true
  | .inputRecovery _ _ => true
  | .brownOut => true
  | .railOutOfLimits rail _ => railOk rail
  | .droopSample rail _ => railOk rail
  | .droopAlert => true
  | .throttleNFall _ => true
  | .throttleNRise => true
  | .throttleHoldEnd => true
  | .pllLock => true
  | .pllLockLoss => true
  | .pllRelock => true
  | .pllRelockTimeout => true
  | .cclkDividerChange => true
  | .perstNLow => true
  | .perstNRise => true
  | .hotReset => true
  | .linkDown => true
  | .mgtWarmReset key => dwordOk key
  | .resetRelease => true
  | .subsystemReady sub_ _ => subOk sub_
  | .mastReady mast _ => mastOk mast
  | .mastTimeout mast => mastOk mast
  | .stackTrained stack => stackOk stack
  | .stackTimeout stack => stackOk stack
  | .drivePerstRelease port => portOk port
  | .driveEnumerated port info => portOk port && DriveInfo.wf info
  | .driveLate port => portOk port
  | .driveReadyTimeout port => portOk port
  | .volumeAssembly => true
  | .configRequest _ _ _ => true
  | .linkTrained _ _ _ _ _ => true
  | .laneFailure => true
  | .d3hotEntry => true
  | .d0Return => true
  | .vfEnable numVfs => halfOk numVfs
  | .vfDisable => true
  | .flr fn => fnOk fn
  | .msixUnmask fn vec => fnOk fn && vecOk fn vec
  | .moderationTimer fn qid => fnOk fn && qidOk qid
  | .qosWindowEnd => true
  | .atsInvalidate fn _ _ => fnOk fn
  | .doeRequest kind _ => doeOk kind
  | .cxlSnoop _ => true
  | .cxlMemRead hpa len => cxlLenOk hpa len
  | .cxlMemWrite hpa data => cxlLenOk hpa data.length
  | .carveOutEnable co => coOk co
  | .carveOutDisable co => coOk co
  | .registerWrite acc _ => Access.wf acc
  | .softReset sub_ _ => subOk sub_
  | .enable sub_ _ => subOk sub_
  | .irqSet sub_ v => subOk sub_ && dwordOk v
  | .irqStatusWrite sub_ v => subOk sub_ && dwordOk v
  | .irqEnableWrite sub_ v => subOk sub_ && dwordOk v
  | .expertUnlock sub_ key => subOk sub_ && dwordOk key
  | .sqDoorbell fn qid tail => fnOk fn && qidOk qid && dwordOk tail
  | .cqDoorbell fn qid index => fnOk fn && qidOk qid && dwordOk index
  | .sqFetch => true
  | .entryHandOn fn qid => fnOk fn && qidOk qid
  | .cqRecheck fn qid => fnOk fn && qidOk qid
  | .adminQueueEnable fn => fnOk fn
  | .adminQueueDisable fn => fnOk fn
  | .adminDisableEnd fn => fnOk fn
  | .createQueue fn => fnOk fn
  | .destroyQueue fn => fnOk fn
  | .resetQueue fn => fnOk fn
  | .qmgFnQlimit fn limit => fnOk fn && dwordOk limit
  | .graphLoad fn => fnOk fn
  | .graphUnload fn => fnOk fn
  | .run fn qid => fnOk fn && qidOk qid
  | .runStart _ _ => true
  | .bankHold _ => true
  | .sourceMorsel _ _ _ => true
  | .taskMake => true
  | .tokenForward _ _ => true
  | .pegFill _ _ => true
  | .stagingDone tile peg => tileOk tile && stopOk peg
  | .taskStart tile => tileOk tile
  | .taskTimeout _ => true
  | .tokenPlace _ => true
  | .slotRelease flow => flowOk flow
  | .runEnd _ => true
  | .segmentRecheck _ => true
  | .cancelTask fn => fnOk fn
  | .cancelRun fn => fnOk fn
  | .cancelFunction fn => fnOk fn
  | .lockstepDisagreement stop_ => stopOk stop_
  | .lockstepHaltEnd stop_ => stopOk stop_
  | .injectWest => true
  | .injectEast => true
  | .bsnFnResv fn v => fnOk fn && dwordOk v
  | .deferredFault tile _ => tileOk tile
  | .uncorrectableFetch tile _ => tileOk tile
  | .maintEnter tile _ => tileOk tile
  | .coreReset tile => tileOk tile
  | .maintProgramEnd tile _ => tileOk tile
  | .ocaEccInject tile _ _ => tileOk tile
  | .nop tile _ => tileOk tile
  | .endTask tile _ => tileOk tile
  | .trap tile _ => tileOk tile
  | .fence tile _ => tileOk tile
  | .rdcnt tile _ => tileOk tile
  | .add tile _ => tileOk tile
  | .sub tile _ => tileOk tile
  | .and tile _ => tileOk tile
  | .or tile _ => tileOk tile
  | .xor tile _ => tileOk tile
  | .andn tile _ => tileOk tile
  | .orn tile _ => tileOk tile
  | .xnor tile _ => tileOk tile
  | .sll tile _ => tileOk tile
  | .srl tile _ => tileOk tile
  | .sra tile _ => tileOk tile
  | .rol tile _ => tileOk tile
  | .ror tile _ => tileOk tile
  | .min tile _ => tileOk tile
  | .max tile _ => tileOk tile
  | .minu tile _ => tileOk tile
  | .maxu tile _ => tileOk tile
  | .clz tile _ => tileOk tile
  | .ctz tile _ => tileOk tile
  | .popc tile _ => tileOk tile
  | .bswap tile _ => tileOk tile
  | .sextb tile _ => tileOk tile
  | .sexth tile _ => tileOk tile
  | .sextw tile _ => tileOk tile
  | .zextb tile _ => tileOk tile
  | .zexth tile _ => tileOk tile
  | .zextw tile _ => tileOk tile
  | .addw tile _ => tileOk tile
  | .subw tile _ => tileOk tile
  | .sllw tile _ => tileOk tile
  | .srlw tile _ => tileOk tile
  | .crc32cb tile _ => tileOk tile
  | .crc32ch tile _ => tileOk tile
  | .crc32cw tile _ => tileOk tile
  | .crc32cd tile _ => tileOk tile
  | .mul tile _ => tileOk tile
  | .mulh tile _ => tileOk tile
  | .mulhu tile _ => tileOk tile
  | .mulhsu tile _ => tileOk tile
  | .mulw tile _ => tileOk tile
  | .div tile _ => tileOk tile
  | .divu tile _ => tileOk tile
  | .rem tile _ => tileOk tile
  | .remu tile _ => tileOk tile
  | .divw tile _ => tileOk tile
  | .divuw tile _ => tileOk tile
  | .remw tile _ => tileOk tile
  | .remuw tile _ => tileOk tile
  | .cmp tile _ => tileOk tile
  | .cmpi tile _ => tileOk tile
  | .pand tile _ => tileOk tile
  | .por tile _ => tileOk tile
  | .pxor tile _ => tileOk tile
  | .pandn tile _ => tileOk tile
  | .ptox tile _ => tileOk tile
  | .xtop tile _ => tileOk tile
  | .addi tile _ => tileOk tile
  | .andi tile _ => tileOk tile
  | .ori tile _ => tileOk tile
  | .xori tile _ => tileOk tile
  | .slli tile _ => tileOk tile
  | .srli tile _ => tileOk tile
  | .srai tile _ => tileOk tile
  | .roli tile _ => tileOk tile
  | .rori tile _ => tileOk tile
  | .lui tile _ => tileOk tile
  | .addpc tile _ => tileOk tile
  | .br tile _ => tileOk tile
  | .call tile _ => tileOk tile
  | .jr tile _ => tileOk tile
  | .lb tile _ => tileOk tile
  | .lh tile _ => tileOk tile
  | .lw tile _ => tileOk tile
  | .ld tile _ => tileOk tile
  | .lbu tile _ => tileOk tile
  | .lhu tile _ => tileOk tile
  | .lwu tile _ => tileOk tile
  | .prefetch tile _ => tileOk tile
  | .sb tile _ => tileOk tile
  | .sh tile _ => tileOk tile
  | .sw tile _ => tileOk tile
  | .sd tile _ => tileOk tile
  | .atomicAdd tile _ => tileOk tile
  | .atomicAnd tile _ => tileOk tile
  | .atomicOr tile _ => tileOk tile
  | .atomicXor tile _ => tileOk tile
  | .atomicMin tile _ => tileOk tile
  | .atomicMax tile _ => tileOk tile
  | .atomicMinu tile _ => tileOk tile
  | .atomicMaxu tile _ => tileOk tile
  | .atomicSwap tile _ => tileOk tile
  | .atomicCas tile _ => tileOk tile
  | .maintenanceOp tile _ => tileOk tile
  | .vectorStart tile => tileOk tile
  | .vsetvl tile _ => tileOk tile
  | .vrdvl tile _ => tileOk tile
  | .vrdrs tile _ => tileOk tile
  | .vwrrs tile _ => tileOk tile
  | .mand tile _ => tileOk tile
  | .mor tile _ => tileOk tile
  | .mxor tile _ => tileOk tile
  | .mandn tile _ => tileOk tile
  | .mpopc tile _ => tileOk tile
  | .mfirst tile _ => tileOk tile
  | .msetlt tile _ => tileOk tile
  | .mmov tile _ => tileOk tile
  | .vmv tile _ => tileOk tile
  | .vbcast tile _ => tileOk tile
  | .vextract tile _ => tileOk tile
  | .vinsert tile _ => tileOk tile
  | .vadd tile _ => tileOk tile
  | .vsub tile _ => tileOk tile
  | .vmin tile _ => tileOk tile
  | .vmax tile _ => tileOk tile
  | .vminu tile _ => tileOk tile
  | .vmaxu tile _ => tileOk tile
  | .vsaddu tile _ => tileOk tile
  | .vssubu tile _ => tileOk tile
  | .vand tile _ => tileOk tile
  | .vor tile _ => tileOk tile
  | .vxor tile _ => tileOk tile
  | .vandn tile _ => tileOk tile
  | .vsll tile _ => tileOk tile
  | .vsrl tile _ => tileOk tile
  | .vsra tile _ => tileOk tile
  | .vror tile _ => tileOk tile
  | .vmul tile _ => tileOk tile
  | .vmulh tile _ => tileOk tile
  | .vmulhu tile _ => tileOk tile
  | .vmadd tile _ => tileOk tile
  | .vcmp tile _ => tileOk tile
  | .vcmpx tile _ => tileOk tile
  | .vzext tile _ => tileOk tile
  | .vsext tile _ => tileOk tile
  | .vtrunc tile _ => tileOk tile
  | .vsatnu tile _ => tileOk tile
  | .vmerge tile _ => tileOk tile
  | .vcompress tile _ => tileOk tile
  | .vslidedn tile _ => tileOk tile
  | .vslideup tile _ => tileOk tile
  | .vredsum tile _ => tileOk tile
  | .vredmin tile _ => tileOk tile
  | .vredmax tile _ => tileOk tile
  | .vredminu tile _ => tileOk tile
  | .vredmaxu tile _ => tileOk tile
  | .vredand tile _ => tileOk tile
  | .vredor tile _ => tileOk tile
  | .vredxor tile _ => tileOk tile
  | .vfadd tile _ => tileOk tile
  | .vfsub tile _ => tileOk tile
  | .vfmul tile _ => tileOk tile
  | .vfmadd tile _ => tileOk tile
  | .vfmin tile _ => tileOk tile
  | .vfmax tile _ => tileOk tile
  | .vfredsum tile _ => tileOk tile
  | .vfredmax tile _ => tileOk tile
  | .vfcvtFI tile _ => tileOk tile
  | .vfcvtIF tile _ => tileOk tile
  | .vfwiden tile _ => tileOk tile
  | .vfnarrow tile _ => tileOk tile
  | .vfcmp tile _ => tileOk tile
  | .vcrc32c tile _ => tileOk tile
  | .vpopc tile _ => tileOk tile
  | .vclz tile _ => tileOk tile
  | .vctz tile _ => tileOk tile
  | .vid tile _ => tileOk tile
  | .viota tile _ => tileOk tile
  | .vld tile _ => tileOk tile
  | .vlds tile _ => tileOk tile
  | .vldx tile _ => tileOk tile
  | .vldxff tile _ => tileOk tile
  | .vst tile _ => tileOk tile
  | .vsts tile _ => tileOk tile
  | .vstx tile _ => tileOk tile
  | .vldff tile _ => tileOk tile
  | .vldsff tile _ => tileOk tile
  | .vldmask tile _ => tileOk tile
  | .vstmask tile _ => tileOk tile
  | .vlseg2 tile _ => tileOk tile
  | .vlseg3 tile _ => tileOk tile
  | .vlseg4 tile _ => tileOk tile
  | .exchangeTask _ => true
  | .sinkTask _ => true
  | .holdReadTask _ => true
  | .matchBuildTask _ => true
  | .matchProbeTask _ => true
  | .decompTask _ => true
  | .compTask _ => true
  | .moveTaskIn _ _ => true
  | .moveTaskOut _ _ => true
  | .engineJobEnd _ _ => true
  | .bankClearDone bank => bankOk bank
  | .amuScrubEntry bank found => bankOk bank && decide (found ≤ 3)
  | .amuInject bank _ _ => bankOk bank
  | .engineClearDone engine => engineOk engine
  | .decompress engine => engineOk engine
  | .compress engine => engineOk engine
  | .mglInject engine => physEngineOk engine
  | .engineSwap => true
  | .copy fn qid => fnOk fn && qidOk qid
  | .mangleJob fn qid => fnOk fn && qidOk qid
  | .halChCfg channel v => channelOk channel && dwordOk v
  | .start channel => channelOk channel
  | .clear channel => channelOk channel
  | .stop channel => channelOk channel
  | .burstStart channel _ => channelOk channel
  | .burstEnd channel => channelOk channel
  | .channelHalt channel _ => channelOk channel
  | .stopTimeout channel => channelOk channel
  | .eventPulse line => lineOk line
  | .read fn qid _ => fnOk fn && qidOk qid
  | .write fn qid _ => fnOk fn && qidOk qid
  | .flush fn qid => fnOk fn && qidOk qid
  | .deallocate fn qid => fnOk fn && qidOk qid
  | .admission => true
  | .driveCompletion _ _ _ _ => true
  | .driveTimeout _ _ => true
  | .rebuildStripe => true
  | .resyncStripe => true
  | .create => true
  | .destroy => true
  | .addSpare port => portOk port
  | .removeSpare => true
  | .cvcFnResv fn v => fnOk fn && dwordOk v
  | .cmdResv fn v => fnOk fn && dwordOk v
  | .driveRemoval port => portOk port
  | .driveInsertion port => portOk port
  | .retrain port => portOk port
  | .disable port => portOk port
  | .disableClear port => portOk port
  | .driveAdmin => true
  | .fwActivate _ => true
  | .psEntry state => psOk state
  | .psWake => true
  | .psExit => true
  | .claim fn slot _ => fnOk fn && slotOk slot
  | .release fn slot => fnOk fn && slotOk slot
  | .keyed fn slot => fnOk fn && slotOk slot
  | .last fn slot => fnOk fn && slotOk slot
  | .exportContext fn slot => fnOk fn && slotOk slot
  | .importContext fn slot => fnOk fn && slotOk slot
  | .restart fn slot => fnOk fn && slotOk slot
  | .recordTransferDone fn slot => fnOk fn && slotOk slot
  | .dgeSlotData fn slot v => fnOk fn && slotOk slot && qwordOk v
  | .blockAbsorbed fn slot => fnOk fn && slotOk slot
  | .dgeSlotCmp fn slot _ => fnOk fn && slotOk slot
  | .contextZeroed => true
  | .contextClear cause => causeOk cause
  | .dgeAlarmTest => true
  | .map => true
  | .unmap => true
  | .protect => true
  | .query => true
  | .mapDone => true
  | .scrubRead stack _ => stackOk stack
  | .rowRepairDone stack => stackOk stack
  | .bucketWindow => true
  | .writeRaw => true
  | .readRaw => true
  | .poisonMarking line => hbmLineOk line
  | .logEntryWrite => true
  | .mark detail => dwordOk detail
  | .ptmDialogue => true
  | .ptmResponse _ _ => true
  | .ptmTimeout _ => true
  | .controllerWindowEnd _ _ _ => true
  | .thermalSample _ _ => true
  | .stepDown => true
  | .pwrLimit watts hyst => dwordOk watts && dwordOk hyst
  | .pwrReefFloor level => dwordOk level
  | .wearWindow => true
  | .tileSwap => true
  | .drainTimeout => true
  | .drnSwapCtrl _ _ => true
  | .linkCrcError link group => linkOk link && groupOk group
  | .snapCtrlClear => true
  | .clearRecords => true
  | .getHealth => true
  | .readLog sub_ => subOk sub_
  | .readRecord kind _ => causeOk kind
  | .clearSnapshot => true
  | .warmReset => true
  | .readIdentity _ => true
  | .setPreserve _ => true
  | .mctpControlMessage _ => true
  | .pldmMessage _ => true
  | .sensorRefresh => true
  | .auxSupplyRemoved => true
  | .registerRead acc => Access.wf acc
  | .hbmAccessPerformed tile _ _ => tileOk tile
  | .spdmMessage _ => true

end Sys2Proof
end

