-- ==== Sys2Proof/Safety.lean ====
section
/-! DEFINITION. What claims speak of: a command that completes, the state that a command of a family may not reach, the
conditions in which an operator core issues an instruction, and the invariant of the clock root. -/

namespace Sys2Proof.Machine

/-! ### Completion -/

/-- The command answers a next state with property `P`. -/
def Completes (c : Instr) (s : State) (P : State → Prop) : Prop := ∃ t, exec c s = .next t ∧ P t

/-- The command leads from `s` to `u`. -/
def Leads (c : Instr) (s u : State) : Prop := exec c s = .next u

/-- `new` with the waiting commands and the clock root of `old`: what every command but those of power, reset, bring-up
and reef leaves alone (R66 to R70). -/
def State.kept (old new : State) : State := { new with pending := old.pending, clk := old.clk }

/-- `new` with the waiting commands of `old`. -/
def State.queued (old new : State) : State := { new with pending := old.pending }

/-- `new` with the waiting commands, the CCLK divider and the counters of the clock root of `old`: bring-up. -/
def State.timed (old new : State) : State :=
  { new with
    pending := old.pending,
    clk := { new.clk with
      div := old.clk.div, divReq := old.clk.divReq, divAt := old.clk.divAt, tsu := old.clk.tsu, now := old.clk.now,
      cyc := old.clk.cyc } }

/-! ### Operator cores (R236, R246, R249, R259) -/

/-- The tile issues `w`, one of the words of encoding `e`, which reads registers `reads`: the word is the next one of
its task, or the tile runs a maintenance program; it is legal; no register that it reads awaits a value or is
uncorrectable; its predicate is true. -/
structure Issues (s : State) (t : Nat) (w : Dword) (e : Enc) (reads : List Nat) : Prop where
  next : s.canIssue t w = true
  legal : legal w = true
  has : e.has w = true
  arrived : reads.any (s.core t).awaits = false
  predicate : predTest (s.core t).p w = true
  good : (s.core t).badRead (predWord (wPsel w) :: reads) = false

/-- The state once the instruction has read its guard and its registers: their correctable errors are corrected (R263). -/
def State.readRegs (s : State) (t : Nat) (w : Dword) (reads : List Nat) : State :=
  s.correctRegs t (predWord (wPsel w) :: reads)

/-- The instruction at `t` writes `v` to rd, counts, and the pc goes on (R238, R244, R247). -/
def State.writes (s : State) (t : Nat) (w : Dword) (reads : List Nat) (v : Qword) : State :=
  s.outsideCores ((s.readRegs t w reads).writeBack t (wA w) v)

/-- The address `pc` lies in the code of the tile's task, or the tile has no task. -/
def State.stays (s : State) (t pc : Nat) : Prop := ∀ kx, s.tileTask t = some kx → s.inBlob kx.2 pc = true

/-! ### Kinds of commands -/

/-- The tile, the word and the encoding of a command of an operator core that carries an instruction word (R243, R244,
R274). -/
def coreWord : Instr → Option (Nat × Dword × Enc)
  | .nop t w => some (t, w, encNop)
  | .endTask t w => some (t, w, encEnd)
  | .trap t w => some (t, w, encTrap)
  | .fence t w => some (t, w, encFence)
  | .rdcnt t w => some (t, w, encRdcnt)
  | .add t w => some (t, w, encAdd)
  | .sub t w => some (t, w, encSub)
  | .and t w => some (t, w, encAnd)
  | .or t w => some (t, w, encOr)
  | .xor t w => some (t, w, encXor)
  | .andn t w => some (t, w, encAndn)
  | .orn t w => some (t, w, encOrn)
  | .xnor t w => some (t, w, encXnor)
  | .sll t w => some (t, w, encSll)
  | .srl t w => some (t, w, encSrl)
  | .sra t w => some (t, w, encSra)
  | .rol t w => some (t, w, encRol)
  | .ror t w => some (t, w, encRor)
  | .min t w => some (t, w, encMin)
  | .max t w => some (t, w, encMax)
  | .minu t w => some (t, w, encMinu)
  | .maxu t w => some (t, w, encMaxu)
  | .clz t w => some (t, w, encClz)
  | .ctz t w => some (t, w, encCtz)
  | .popc t w => some (t, w, encPopc)
  | .bswap t w => some (t, w, encBswap)
  | .sextb t w => some (t, w, encSextb)
  | .sexth t w => some (t, w, encSexth)
  | .sextw t w => some (t, w, encSextw)
  | .zextb t w => some (t, w, encZextb)
  | .zexth t w => some (t, w, encZexth)
  | .zextw t w => some (t, w, encZextw)
  | .addw t w => some (t, w, encAddw)
  | .subw t w => some (t, w, encSubw)
  | .sllw t w => some (t, w, encSllw)
  | .srlw t w => some (t, w, encSrlw)
  | .crc32cb t w => some (t, w, encCrc32cb)
  | .crc32ch t w => some (t, w, encCrc32ch)
  | .crc32cw t w => some (t, w, encCrc32cw)
  | .crc32cd t w => some (t, w, encCrc32cd)
  | .mul t w => some (t, w, encMul)
  | .mulh t w => some (t, w, encMulh)
  | .mulhu t w => some (t, w, encMulhu)
  | .mulhsu t w => some (t, w, encMulhsu)
  | .mulw t w => some (t, w, encMulw)
  | .div t w => some (t, w, encDiv)
  | .divu t w => some (t, w, encDivu)
  | .rem t w => some (t, w, encRem)
  | .remu t w => some (t, w, encRemu)
  | .divw t w => some (t, w, encDivw)
  | .divuw t w => some (t, w, encDivuw)
  | .remw t w => some (t, w, encRemw)
  | .remuw t w => some (t, w, encRemuw)
  | .cmp t w => some (t, w, encCmp)
  | .cmpi t w => some (t, w, encCmpi)
  | .pand t w => some (t, w, encPand)
  | .por t w => some (t, w, encPor)
  | .pxor t w => some (t, w, encPxor)
  | .pandn t w => some (t, w, encPandn)
  | .ptox t w => some (t, w, encPtox)
  | .xtop t w => some (t, w, encXtop)
  | .addi t w => some (t, w, encAddi)
  | .andi t w => some (t, w, encAndi)
  | .ori t w => some (t, w, encOri)
  | .xori t w => some (t, w, encXori)
  | .slli t w => some (t, w, encSlli)
  | .srli t w => some (t, w, encSrli)
  | .srai t w => some (t, w, encSrai)
  | .roli t w => some (t, w, encRoli)
  | .rori t w => some (t, w, encRori)
  | .lui t w => some (t, w, encLui)
  | .addpc t w => some (t, w, encAddpc)
  | .br t w => some (t, w, encBr)
  | .call t w => some (t, w, encCall)
  | .jr t w => some (t, w, encJr)
  | .lb t w => some (t, w, encLb)
  | .lh t w => some (t, w, encLh)
  | .lw t w => some (t, w, encLw)
  | .ld t w => some (t, w, encLd)
  | .lbu t w => some (t, w, encLbu)
  | .lhu t w => some (t, w, encLhu)
  | .lwu t w => some (t, w, encLwu)
  | .prefetch t w => some (t, w, encPrefetch)
  | .sb t w => some (t, w, encSb)
  | .sh t w => some (t, w, encSh)
  | .sw t w => some (t, w, encSw)
  | .sd t w => some (t, w, encSd)
  | .atomicAdd t w => some (t, w, encAtomicAdd)
  | .atomicAnd t w => some (t, w, encAtomicAnd)
  | .atomicOr t w => some (t, w, encAtomicOr)
  | .atomicXor t w => some (t, w, encAtomicXor)
  | .atomicMin t w => some (t, w, encAtomicMin)
  | .atomicMax t w => some (t, w, encAtomicMax)
  | .atomicMinu t w => some (t, w, encAtomicMinu)
  | .atomicMaxu t w => some (t, w, encAtomicMaxu)
  | .atomicSwap t w => some (t, w, encAtomicSwap)
  | .atomicCas t w => some (t, w, encAtomicCas)
  | .maintenanceOp t w => some (t, w, encMaintenanceOp)
  | .vsetvl t w => some (t, w, encVsetvl)
  | .vrdvl t w => some (t, w, encVrdvl)
  | .vrdrs t w => some (t, w, encVrdrs)
  | .vwrrs t w => some (t, w, encVwrrs)
  | .mand t w => some (t, w, encMand)
  | .mor t w => some (t, w, encMor)
  | .mxor t w => some (t, w, encMxor)
  | .mandn t w => some (t, w, encMandn)
  | .mpopc t w => some (t, w, encMpopc)
  | .mfirst t w => some (t, w, encMfirst)
  | .msetlt t w => some (t, w, encMsetlt)
  | .mmov t w => some (t, w, encMmov)
  | .vmv t w => some (t, w, encVmv)
  | .vbcast t w => some (t, w, encVbcast)
  | .vextract t w => some (t, w, encVextract)
  | .vinsert t w => some (t, w, encVinsert)
  | .vadd t w => some (t, w, encVadd)
  | .vsub t w => some (t, w, encVsub)
  | .vmin t w => some (t, w, encVmin)
  | .vmax t w => some (t, w, encVmax)
  | .vminu t w => some (t, w, encVminu)
  | .vmaxu t w => some (t, w, encVmaxu)
  | .vsaddu t w => some (t, w, encVsaddu)
  | .vssubu t w => some (t, w, encVssubu)
  | .vand t w => some (t, w, encVand)
  | .vor t w => some (t, w, encVor)
  | .vxor t w => some (t, w, encVxor)
  | .vandn t w => some (t, w, encVandn)
  | .vsll t w => some (t, w, encVsll)
  | .vsrl t w => some (t, w, encVsrl)
  | .vsra t w => some (t, w, encVsra)
  | .vror t w => some (t, w, encVror)
  | .vmul t w => some (t, w, encVmul)
  | .vmulh t w => some (t, w, encVmulh)
  | .vmulhu t w => some (t, w, encVmulhu)
  | .vmadd t w => some (t, w, encVmadd)
  | .vcmp t w => some (t, w, encVcmp)
  | .vcmpx t w => some (t, w, encVcmpx)
  | .vzext t w => some (t, w, encVzext)
  | .vsext t w => some (t, w, encVsext)
  | .vtrunc t w => some (t, w, encVtrunc)
  | .vsatnu t w => some (t, w, encVsatnu)
  | .vmerge t w => some (t, w, encVmerge)
  | .vcompress t w => some (t, w, encVcompress)
  | .vslidedn t w => some (t, w, encVslidedn)
  | .vslideup t w => some (t, w, encVslideup)
  | .vredsum t w => some (t, w, encVredsum)
  | .vredmin t w => some (t, w, encVredmin)
  | .vredmax t w => some (t, w, encVredmax)
  | .vredminu t w => some (t, w, encVredminu)
  | .vredmaxu t w => some (t, w, encVredmaxu)
  | .vredand t w => some (t, w, encVredand)
  | .vredor t w => some (t, w, encVredor)
  | .vredxor t w => some (t, w, encVredxor)
  | .vfadd t w => some (t, w, encVfadd)
  | .vfsub t w => some (t, w, encVfsub)
  | .vfmul t w => some (t, w, encVfmul)
  | .vfmadd t w => some (t, w, encVfmadd)
  | .vfmin t w => some (t, w, encVfmin)
  | .vfmax t w => some (t, w, encVfmax)
  | .vfredsum t w => some (t, w, encVfredsum)
  | .vfredmax t w => some (t, w, encVfredmax)
  | .vfcvtFI t w => some (t, w, encVfcvtFI)
  | .vfcvtIF t w => some (t, w, encVfcvtIF)
  | .vfwiden t w => some (t, w, encVfwiden)
  | .vfnarrow t w => some (t, w, encVfnarrow)
  | .vfcmp t w => some (t, w, encVfcmp)
  | .vcrc32c t w => some (t, w, encVcrc32c)
  | .vpopc t w => some (t, w, encVpopc)
  | .vclz t w => some (t, w, encVclz)
  | .vctz t w => some (t, w, encVctz)
  | .vid t w => some (t, w, encVid)
  | .viota t w => some (t, w, encViota)
  | .vld t w => some (t, w, encVld)
  | .vlds t w => some (t, w, encVlds)
  | .vldx t w => some (t, w, encVldx)
  | .vldxff t w => some (t, w, encVldxff)
  | .vst t w => some (t, w, encVst)
  | .vsts t w => some (t, w, encVsts)
  | .vstx t w => some (t, w, encVstx)
  | .vldff t w => some (t, w, encVldff)
  | .vldsff t w => some (t, w, encVldsff)
  | .vldmask t w => some (t, w, encVldmask)
  | .vstmask t w => some (t, w, encVstmask)
  | .vlseg2 t w => some (t, w, encVlseg2)
  | .vlseg3 t w => some (t, w, encVlseg3)
  | .vlseg4 t w => some (t, w, encVlseg4)
  | _ => none

/-- The commands of the digest slots (chapter 15). -/
def digestCommand : Instr → Bool
  | .claim _ _ _ | .release _ _ | .keyed _ _ | .last _ _ | .exportContext _ _ | .importContext _ _
  | .restart _ _ | .recordTransferDone _ _ | .dgeSlotData _ _ _ | .blockAbsorbed _ _ | .contextZeroed
  | .contextClear _ | .dgeAlarmTest => true
  | _ => false

/-- The commands that the clock root sees: supply, resets, bring-up, reef levels, and register writes, which can be any
of them (R66 to R84, R449 to R458). -/
def clockCommand : Instr → Bool
  | .railsUp | .thermTrip _ | .pwrEnFall | .surge _ _ | .inputFault _ _ | .inputRecovery _ _ | .brownOut
  | .droopSample _ _ | .throttleNFall _ | .throttleHoldEnd | .pllLock | .pllLockLoss | .pllRelock | .cclkDividerChange
  | .perstNLow | .perstNRise | .hotReset | .linkDown | .mgtWarmReset _ | .resetRelease | .mastReady _ _
  | .mastTimeout _ | .stackTrained _ | .stackTimeout _ | .driveEnumerated _ _ | .driveReadyTimeout _
  | .volumeAssembly | .registerWrite _ _ | .controllerWindowEnd _ _ _ | .thermalSample _ _ | .stepDown
  | .pwrReefFloor _ | .warmReset => true
  | _ => false

/-- The commands that meet INPUT above 80 V, the absolute maximum (R45). -/
def overvoltage : Instr → Bool
  | .supplyHigh mv _ => decide (80000 < mv)
  | .surge mv _ => decide (80000 < mv)
  | .inputFault mv _ => decide (80000 < mv)
  | _ => false

/-! ### The clock root (R66, R68, R436, R449) -/

/-- A CCLK divider that a reef level asks for. -/
def legalDivider (d : Nat) : Prop := d = 3 ∨ d = 4 ∨ d = 6

/-- The clock root is legal: the divider in force and one that is requested are those of a reef level, and the TSU
counter fits its 64 bits. -/
structure Clocks.Legal (c : Clocks) : Prop where
  div : legalDivider c.div
  req : ∀ d, c.divReq = some d → legalDivider d
  tsu : c.tsu < 2 ^ 64

end Sys2Proof.Machine
end

