-- ==== Sys2Proof/Certificates/Slice0/Obligations.lean ====
section
/-! DEFINITION. The statements for the provers (OBLIGATIONS.json): what each command does where it completes, what it leaves
alone, and what every step keeps. A clause `Leads c s u` gives the whole next state, so that its frame is in it; a clause
`Completes c s P` says that c answers a next state, and what that state holds. -/

open Sys2Proof Sys2Proof.Machine

/-- Each command about the supply pins and the rails, in the conditions in which the spec has it act, answers a next
state with the phases, pins, latches and alert causes named in the clauses. A clause Leads gives the whole next
state; a clause Completes the fields named. (R33, R39, R41, R43, R44, R45, R55, R56, R57, R62, R70, R72) -/
def Obligations.SupplyCommandsComplete : Prop :=
  (∀ (s : State) (auxMs : Nat) (mv : Nat) (lowMs : Nat) (removed : Bool),
     s.board.phase = .off →
     s.board.auxOk = true →
     50 ≤ auxMs →
     40000 ≤ mv →
     (s.board.stopLatch = 0 ∨ 10 ≤ lowMs ∨ removed = true) →
     Leads (.mainRailsStart auxMs mv lowMs removed) s ({ s with
         board := { s.board with
             phase := .starting,
             pwrEn := true,
             stopLatch := 0,
             thermTrip := false,
             inputMv := mv,
             inputSwitch := true,
             holdupSwitch := false } })) ∧
  (∀ (s : State),
     s.board.phase = .starting →
     Completes .railsUp s (fun t => t.board.phase = .unlocked ∧ t.board.pwrGood = true ∧ t.board.perstN = false ∧
       t.board.drvPerstN = 0 ∧ t.clk = { Clocks.reset with now := s.clk.now, releaseAt := s.clk.now } ∧ t.bsn =
         Bosun.reset ∧ t.qmg = Qmg.reset)) ∧
  (∀ (s : State) (mv : Nat),
     s.board.phase ≠ .off →
     s.board.faultAt = none →
     57000 ≤ mv →
     Leads (.holdupCharged mv) s ({ s with board := { s.board with holdupOk := true } })) ∧
  (∀ (s : State) (celsius : Nat),
     s.board.phase ≠ .off →
     115 ≤ celsius →
     Completes (.thermTrip celsius) s (fun t => t.board.phase = .off ∧ t.board.pwrGood = false ∧ t.board.thermTrip =
       true ∧ t.board.stopLatch = 3 ∧ t.store.lastStop = 3 ∧ t.store.powerLoss = s.store.powerLoss)) ∧
  (∀ (s : State),
     s.board.phase ∈ [.run, .warm, .unlocked] →
     s.board.pwrEn = true →
     Completes .pwrEnFall s (fun t => t.board.phase = .off ∧ t.board.pwrGood = false ∧ t.board.pwrEn = false ∧
       t.board.stopLatch = 1 ∧ t.store.powerLoss.isSome = true ∧ t.store.lastStop = 1)) ∧
  (∀ (s : State),
     s.board.phase ∈ [.pllLost, .pllFailed] →
     s.board.pwrEn = true →
     Completes .pwrEnFall s (fun t => t.board.phase = .off ∧ t.board.pwrGood = false ∧ t.board.pwrEn = false ∧
       t.board.stopLatch = 1 ∧ t.store.powerLoss = s.store.powerLoss ∧ t.store.lastStop = 1)) ∧
  (∀ (s : State) (mv : Nat) (straps : Nat),
     s.board.auxOk = false →
     3135 ≤ mv →
     mv ≤ 3465 →
     Leads (.auxPowerUp mv straps) s ({ s with
         board := { s.board with auxOk := true, smbusAddr := some (0x58 + straps % 8) } })) ∧
  (∀ (s : State) (mv : Nat),
     s.board.auxOk = true →
     s.board.pwrGood = true →
     (mv < 3135 ∨ 3465 < mv) →
     Leads (.auxLoss mv) s (s.kept (({ s with board := { s.board with auxOk := false } }).alert
       fPWR_ALERT_STATUS_AUX_LOSS))) ∧
  (∀ (s : State) (mv : Nat) (us : Nat),
     s.board.phase ≠ .off →
     38000 ≤ mv →
     mv < 40000 →
     100 ≤ us →
     Leads (.supplyLow mv us) s (s.kept (({ s with board := { s.board with inputMv := mv } }).alert
       fPWR_ALERT_STATUS_SUPPLY_LOW))) ∧
  (∀ (s : State) (mv : Nat) (us : Nat),
     s.board.phase ≠ .off →
     60000 < mv →
     mv ≤ 80000 →
     100 ≤ us →
     Leads (.supplyHigh mv us) s (s.kept (({ s with board := { s.board with inputMv := mv } }).alert
       fPWR_ALERT_STATUS_SUPPLY_HIGH))) ∧
  (∀ (s : State) (rail : Nat) (mv : Nat),
     s.railsUp = true →
     s.board.pwrGood = true →
     rail < 6 →
     Leads (.railOutOfLimits rail mv) s ({ s.wr fPWR_RAIL_MILLIVOLTS rail mv with
         board := { s.board with pwrGood := false } })) ∧
  (∀ (s : State),
     s.railsUp = false →
     s.board.auxOk = true →
     Completes .auxSupplyRemoved s (fun t => t.board.auxOk = false ∧ t.board.phase = .off ∧ t.board.smbusAddr = none
       ∧ t.store.sensors = [] ∧ t.store.powerLoss = s.store.powerLoss))

/-- INPUT above 63 V and at most 80 V for at most 100 us is ridden through where no such surge began less than 100 ms
before, and is an input fault where one did or where it lasts longer. An input fault, from any phase with the input
switch in use, opens the input switch, closes the hold-up switch, latches SUPPLY_LOSS and puts the demand of
SUPPLY_LOSS at CLOSE. A recovery before 1 ms has passed closes the input switch again; whether HOLDUP_OK is still
met then is left open. A brown-out with HOLDUP_OK 1 at the fault comes 1 ms after it and leaves the record of five
steps; with HOLDUP_OK 0 it needs no wait and no step of the stop is guaranteed. In both the rails are off. (R45,
R46, R47, R48, R49, R50, R51, R52) -/
def Obligations.InputFaultCommandsComplete : Prop :=
  (∀ (s : State) (mv : Nat) (us : Nat),
     s.board.phase ≠ .off →
     s.board.faultAt = none →
     63000 < mv →
     mv ≤ 80000 →
     us ≤ 100 →
     (∀ t ∈ s.board.surgeAt, t + ticksOfMs 100 ≤ s.clk.now) →
     Leads (.surge mv us) s ({ s with board := { s.board with surgeAt := some s.clk.now } })) ∧
  (∀ (s : State) (mv : Nat) (us : Nat) (t0 : Nat),
     s.board.phase ≠ .off →
     s.board.faultAt = none →
     63000 < mv →
     mv ≤ 80000 →
     (100 < us ∨ (s.board.surgeAt = some t0 ∧ s.clk.now < t0 + ticksOfMs 100)) →
     Completes (.surge mv us) s (fun t => t.board.inputMv = mv ∧ t.board.inputSwitch = false ∧ t.board.holdupSwitch =
       true ∧ t.board.faultAt = some s.clk.now ∧ t.board.faultHoldup = s.board.holdupOk ∧ t.board.surgeAt =
         s.board.surgeAt ∧ t.rd fPWR_ALERT_STATUS_SUPPLY_LOSS 0 = 1 ∧ t.demandSupply = 3)) ∧
  (∀ (s : State) (mv : Nat) (us : Nat),
     s.board.phase ≠ .off →
     s.board.faultAt = none →
     (mv < 38000 ∨ (63000 < mv ∧ 100 < us ∧ mv ≤ 80000)) →
     Completes (.inputFault mv us) s (fun t => t.board.inputMv = mv ∧ t.board.inputSwitch = false ∧
       t.board.holdupSwitch = true ∧ t.board.faultAt = some s.clk.now ∧ t.board.faultHoldup = s.board.holdupOk ∧ t.rd
         fPWR_ALERT_STATUS_SUPPLY_LOSS 0 = 1 ∧ t.demandSupply = 3)) ∧
  (∀ (s : State) (mv : Nat) (us : Nat) (t0 : Nat),
     s.board.phase ≠ .off →
     39000 ≤ mv →
     mv ≤ 60000 →
     100 ≤ us →
     s.board.faultHoldup = true →
     s.board.faultAt = some t0 →
     s.clk.now < t0 + ticksOfMs 1 →
     Completes (.inputRecovery mv us) s (fun t => t.board.inputSwitch = true ∧ t.board.holdupSwitch = false ∧
       t.board.faultAt = none ∧ t.board.inputMv = mv ∧ (t.board.holdupOk = true → s.board.holdupOk = true))) ∧
  (∀ (s : State) (t0 : Nat),
     s.board.phase ≠ .off →
     s.board.faultHoldup = true →
     s.board.faultAt = some t0 →
     t0 + ticksOfMs 1 ≤ s.clk.now →
     Completes .brownOut s (fun t => t.board.phase = .off ∧ t.board.pwrGood = false ∧ t.board.stopLatch = 2 ∧
       t.store.lastStop = 2 ∧ t.store.powerLoss = some (s.stopRecord 1 2 5 s.board.faultTs s.clk.tsu))) ∧
  (∀ (s : State) (t0 : Nat),
     s.board.phase ≠ .off →
     s.board.faultHoldup = false →
     s.board.faultAt = some t0 →
     Completes .brownOut s (fun t => t.board.phase = .off ∧ t.board.pwrGood = false))

/-- While the derived clocks run, a sample of a rail below its droop threshold starts that rail's part of the DROOP
demand, and a new one counts; a sample that is not below leaves a rail without such a part alone; otherwise good
readings for 10 us end the part, the last of them the demand, and a reading between the thresholds starts the 10 us
again. DROOP is raised after more than 1 ms. A pulse of THROTTLE_N of 100 ns or more makes the THROTTLE demand, one
below 50 ns nothing, and one between the two one of both (the spec leaves it open). The rise of the pin starts the
hold, whose end lifts the demand. A requested CCLK divider takes effect at the boundary of 12 root cycles that it
waits for. (R53, R54, R55, R68, R450, R451, R452, R457) -/
def Obligations.ReefCommandsComplete : Prop :=
  (∀ (s : State) (rail : Nat) (mv : Nat),
     s.clocked = true →
     rail < 6 →
     mv * 100 < s.railDroop rail →
     Leads (.droopSample rail mv) s (s.queued
       ((({ (s.wr fPWR_RAIL_MILLIVOLTS rail mv).bumpSat fPWR_RAIL_DROOPS rail (bit (find s.board.droopRails rail).isNone) with
         board := { s.board with
             droopRails := put s.board.droopRails rail 0,
             droopAt := some (s.board.droopAt.getD s.clk.now),
             droopAlerted := s.board.droopAt.isSome && s.board.droopAlerted } }) : State).reefAgain))) ∧
  (∀ (s : State) (rail : Nat) (mv : Nat),
     s.clocked = true →
     rail < 6 →
     s.railDroop rail ≤ mv * 100 →
     find s.board.droopRails rail = none →
     Leads (.droopSample rail mv) s (s.queued (s.wr fPWR_RAIL_MILLIVOLTS rail mv))) ∧
  (∀ (s : State) (rail : Nat) (mv : Nat) (since : Nat),
     s.clocked = true →
     rail < 6 →
     s.railDroop rail ≤ mv * 100 →
     find s.board.droopRails rail = some since →
     s.railGood rail mv = false →
     Leads (.droopSample rail mv) s (s.queued ({ s.wr fPWR_RAIL_MILLIVOLTS rail mv with
         board := { s.board with droopRails := put s.board.droopRails rail 0 } }))) ∧
  (∀ (s : State) (rail : Nat) (mv : Nat),
     s.clocked = true →
     rail < 6 →
     s.railDroop rail ≤ mv * 100 →
     find s.board.droopRails rail = some 0 →
     s.railGood rail mv = true →
     Leads (.droopSample rail mv) s (s.queued ({ s.wr fPWR_RAIL_MILLIVOLTS rail mv with
         board := { s.board with droopRails := put s.board.droopRails rail (s.clk.now + 1) } }))) ∧
  (∀ (s : State) (rail : Nat) (mv : Nat) (since : Nat),
     s.clocked = true →
     rail < 6 →
     s.railDroop rail ≤ mv * 100 →
     find s.board.droopRails rail = some since →
     0 < since →
     s.railGood rail mv = true →
     s.clk.now < since - 1 + ticksOfUs 10 →
     Leads (.droopSample rail mv) s (s.queued (s.wr fPWR_RAIL_MILLIVOLTS rail mv))) ∧
  (∀ (s : State) (rail : Nat) (mv : Nat) (since : Nat),
     s.clocked = true →
     rail < 6 →
     s.railDroop rail ≤ mv * 100 →
     find s.board.droopRails rail = some since →
     0 < since →
     s.railGood rail mv = true →
     since - 1 + ticksOfUs 10 ≤ s.clk.now →
     Leads (.droopSample rail mv) s (s.queued (({ s.wr fPWR_RAIL_MILLIVOLTS rail mv with
         board := { s.board with
             droopRails := del s.board.droopRails rail,
             droopAt := if del s.board.droopRails rail = [] then none else s.board.droopAt } } : State).reefAgain))) ∧
  (∀ (s : State) (t0 : Nat),
     s.clocked = true →
     s.board.droopAlerted = false →
     s.board.droopAt = some t0 →
     t0 + ticksOfMs 1 < s.clk.now →
     Leads .droopAlert s (s.kept (({ s with board := { s.board with droopAlerted := true } } : State).alert
       fPWR_ALERT_STATUS_DROOP))) ∧
  (∀ (s : State) (lowNs : Nat),
     s.auheundOn = true →
     100 ≤ lowNs →
     Leads (.throttleNFall lowNs) s (s.queued (({ s with
         board := { s.board with throttleLow := true, throttleRise := none } } : State).reefNow))) ∧
  (∀ (s : State) (lowNs : Nat),
     s.auheundOn = true →
     lowNs < 50 →
     Leads (.throttleNFall lowNs) s (s)) ∧
  (∀ (s : State) (lowNs : Nat),
     s.auheundOn = true →
     50 ≤ lowNs →
     lowNs < 100 →
     Completes (.throttleNFall lowNs) s (fun t => t.board =
       { s.board with throttleLow := true, throttleRise := none } ∨ t.board = s.board)) ∧
  (∀ (s : State),
     s.auheundOn = true →
     s.board.throttleLow = true →
     Leads .throttleNRise s ({ s with board := { s.board with throttleLow := false, throttleRise := some s.clk.now } })) ∧
  (∀ (s : State) (t0 : Nat),
     s.auheundOn = true →
     s.board.throttleRise = some t0 →
     t0 + ticksOfUs (s.setting fPWR_THROTTLE_CFG_HOLD_US 0) ≤ s.clk.now →
     Leads .throttleHoldEnd s (s.queued (({ s with board := { s.board with throttleRise := none } } :
       State).reefNow))) ∧
  (∀ (s : State) (d : Nat),
     s.clocked = true →
     s.clk.divReq = some d →
     s.clk.divAt = s.clk.tsu →
     Leads .cclkDividerChange s ({ s with clk := { s.clk with div := d, divReq := none } }))

/-- The first lock of the PLL starts the derived clocks. A loss of lock stops them, with FATAL_AUTO and the alert cause
DEVICE_FAULT set and without a snapshot; a relock within 10 ms starts a warm reset; after 10 ms without one the
module stays stopped with DEVICE_FAULT. PERST_N low, a hot reset, a link down and the key of MGT_WARM_RESET each
start a warm reset with its cause bit while the clocks run, or merge with the one in progress; another key is
ignored. The release, when the drives are quiet or 100 ms have passed, leaves every DRV_PERST_N low, a reset record,
the TSU count and the main domain reset. A PERST_N that rises during a merged reset moves the restart of bring-up to
its rise. (R55, R67, R69, R70, R71, R73, R74, R77, R78) -/
def Obligations.ResetCommandsComplete : Prop :=
  (∀ (s : State),
     s.board.phase = .unlocked →
     Leads .pllLock s (s.queued ((({ s with board := { s.board with phase := .run } } :
       State).reefAgain).releaseEvent))) ∧
  (∀ (s : State),
     s.clocked = true →
     Completes .pllLockLoss s (fun t => t.board.phase = .pllLost ∧ t.store.snapshot = s.store.snapshot ∧ t.rd
       fMGT_RESET_CAUSE_FATAL_AUTO 0 = 1 ∧ t.rd fPWR_ALERT_STATUS_DEVICE_FAULT 0 = 1 ∧ t.clk = { s.clk with
           lostAt := s.clk.now })) ∧
  (∀ (s : State),
     s.board.phase = .pllLost →
     s.clk.now < s.clk.lostAt + ticksOfMs 10 →
     Leads .pllRelock s (s.queued ({ s.quiesced with
         board := { s.board with phase := .warm },
         clk := { s.clk with warmAt := s.clk.tsu } }))) ∧
  (∀ (s : State),
     s.board.phase = .pllLost →
     s.clk.lostAt + ticksOfMs 10 ≤ s.clk.now →
     Leads .pllRelockTimeout s (s.kept (({ s.wr fPWR_ALERT_STATUS_DEVICE_FAULT 0 1 with
         board := { s.board with phase := .pllFailed } })))) ∧
  (∀ (s : State),
     s.railsUp = true →
     s.board.perstN = true →
     s.clocked = true →
     Completes .perstNLow s (fun t => t.board.perstN = false ∧ t.board.drvPerstN = 0 ∧ t.hif.linkUp = false ∧
       t.board.phase = .warm ∧ t.rd fMGT_RESET_CAUSE_PERST 0 = 1)) ∧
  (∀ (s : State),
     s.railsUp = true →
     s.board.perstN = true →
     s.clocked = false →
     Completes .perstNLow s (fun t => t.board = { s.board with perstN := false, drvPerstN := 0 } ∧ t.hif.linkUp =
       false)) ∧
  (∀ (s : State),
     s.railsUp = true →
     s.board.pwrGood = true →
     s.board.perstN = false →
     s.clk.held = false →
     Leads .perstNRise s ({ s with board := { s.board with perstN := true } })) ∧
  (∀ (s : State),
     s.running = true →
     s.board.pwrGood = true →
     s.board.perstN = false →
     s.clk.held = true →
     Leads .perstNRise s ({ s with
         board := { s.board with perstN := true },
         clk := { s.clk with held := false, releaseAt := s.clk.now } })) ∧
  (∀ (s : State),
     s.railsUp = true →
     s.running = false →
     s.board.pwrGood = true →
     s.board.perstN = false →
     s.clk.held = true →
     Leads .perstNRise s ({ s with board := { s.board with perstN := true }, clk := { s.clk with held := false } })) ∧
  (∀ (s : State),
     s.running = true →
     s.board.pwrGood = true →
     s.hif.linkUp = true →
     Completes .hotReset s (fun t => t.board.phase = .warm ∧ t.hif.linkUp = false ∧ t.rd fMGT_RESET_CAUSE_HOT_RESET 0
       = 1 ∧ t.clk.warmAt = s.clk.tsu ∧ t.clk.held = false)) ∧
  (∀ (s : State),
     s.board.phase = .warm →
     s.board.pwrGood = true →
     s.hif.linkUp = true →
     Completes .hotReset s (fun t => t.board.phase = .warm ∧ t.hif.linkUp = false ∧ t.rd fMGT_RESET_CAUSE_HOT_RESET 0
       = 1 ∧ t.clk = { s.clk with held := true })) ∧
  (∀ (s : State),
     s.running = true →
     s.hif.linkUp = true →
     Completes .linkDown s (fun t => t.board.phase = .warm ∧ t.hif.linkUp = false ∧ t.rd fMGT_RESET_CAUSE_HOT_RESET 0
       = 1 ∧ t.clk.warmAt = s.clk.tsu ∧ t.clk.held = false)) ∧
  (∀ (s : State),
     s.board.phase = .warm →
     s.hif.linkUp = true →
     Completes .linkDown s (fun t => t.board.phase = .warm ∧ t.hif.linkUp = false ∧ t.rd fMGT_RESET_CAUSE_HOT_RESET 0
       = 1 ∧ t.clk = { s.clk with held := true })) ∧
  (∀ (s : State) (key : Nat),
     s.reaches 0 = true →
     s.ready 16 = true →
     lowBits 16 key = 0xA5C3 →
     Completes (.mgtWarmReset key) s (fun t => t.board.phase = .warm ∧ t.rd fMGT_RESET_CAUSE_WARM_REG 0 = 1)) ∧
  (∀ (s : State) (key : Nat),
     s.reaches 0 = true →
     s.ready 16 = true →
     lowBits 16 key ≠ 0xA5C3 →
     Leads (.mgtWarmReset key) s (s.queued (s.atRegion 16 0xA8))) ∧
  (∀ (s : State),
     s.board.phase = .warm →
     s.drivesQuiet = true →
     Completes .resetRelease s (fun t => t.board.phase = .run ∧ t.board.drvPerstN = 0 ∧ t.clk.assembled = false ∧
       t.clk.releaseAt = s.clk.now ∧ t.clk.tsu = s.clk.tsu ∧ t.store.resetRec.isSome = true ∧ t.bsn = Bosun.reset ∧
         t.qmg = Qmg.reset))

/-- In bring-up a subsystem whose condition holds becomes ready. Not before 150 ms after reset release a mast ends its
self-test: with at most one failed tile its ready bit is set, with more its fail bit; at 600 ms a mast whose outcome
is open fails. The stack that trains is ready not before 200 ms, or fails at its own time, and the next stack
trains. A port whose presence pin is low is released at its time, enumerated not before 1 s (ready, or unsupported),
late at 3 s, or failed by its timeout. The volume is assembled, and CVC ready with it, not before 1 s, when every
port has settled or at 3 s. None of these moves the divider or the counters of the clock root. (R78, R79, R80, R81,
R82, R83, R84, R361, R388, R391, R392) -/
def Obligations.BringupCommandsComplete : Prop :=
  (∀ (s : State) (sub : Nat) (failed : Nat),
     s.bringing = true →
     1 ≤ sub →
     sub ≤ 16 →
     s.ready sub = false →
     s.readyCond sub = true →
     Completes (.subsystemReady sub failed) s (fun t => t.ready sub = true ∧ t = s.kept (s.becomeReady sub failed))) ∧
  (∀ (s : State) (mast : Nat) (failMask : Nat),
     s.mastOpen mast = true →
     s.elapsed 150 = true →
     Completes (.mastReady mast failMask) s (fun t => (((mastTiles mast).filter (s.tileBad mast failMask)).length ≤ 1
       → t.mastReady mast = true) ∧ (1 < ((mastTiles mast).filter (s.tileBad mast failMask)).length → t.mastFailed
         mast = true) ∧ t = s.timed (s.mastTested mast failMask))) ∧
  (∀ (s : State) (mast : Nat),
     s.mastOpen mast = true →
     s.elapsed 600 = true →
     Completes (.mastTimeout mast) s (fun t => t.mastFailed mast = true ∧ t = s.timed ((s.failMast mast).checkDone)))
       ∧
  (∀ (s : State) (stack : Nat),
     s.stackTrains stack = true →
     s.elapsed 200 = true →
     Completes (.stackTrained stack) s (fun t => t.stackReady stack = true ∧ t.clk.stackNext = stack + 1 ∧ t =
       s.timed (s.stackUp stack))) ∧
  (∀ (s : State) (stack : Nat),
     s.stackTrains stack = true →
     s.stackLate stack = true →
     Completes (.stackTimeout stack) s (fun t => t.stackFailed stack = true ∧ t.clk.stackNext = stack + 1 ∧ t =
       s.timed (s.stackDown stack))) ∧
  (∀ (s : State) (port : Nat),
     s.bringing = true →
     s.ready 11 = true →
     port < 8 →
     s.drvHere port = true →
     s.rd fDSP_PORT_STATE port = 0 →
     s.rd fDSP_PORT_DISABLE port = 0 →
     s.board.perstN = true →
     s.drvReleaseAt port ≤ s.clk.now →
     Leads (.drivePerstRelease port) s (s.kept (s.trainArrived port))) ∧
  (∀ (s : State) (port : Nat) (info : DriveInfo),
     s.bringing = true →
     s.board.pwrGood = true →
     s.ready 11 = true →
     port < 8 →
     s.drvHere port = true →
     s.rd fDSP_PORT_STATE port ∈ [1, 2, 4] →
     s.elapsed 1000 = true →
     info.supported = true →
     Leads (.driveEnumerated port info) s (s.timed ((((s.lateRole port info).showDrive port info).setPort port
       3).checkDone))) ∧
  (∀ (s : State) (port : Nat) (info : DriveInfo),
     s.bringing = true →
     s.board.pwrGood = true →
     s.ready 11 = true →
     port < 8 →
     s.drvHere port = true →
     s.rd fDSP_PORT_STATE port ∈ [1, 2, 4] →
     s.elapsed 1000 = true →
     info.supported = false →
     Leads (.driveEnumerated port info) s (s.timed ((s.setPort port 6).checkDone))) ∧
  (∀ (s : State) (port : Nat),
     s.bringing = true →
     s.ready 11 = true →
     port < 8 →
     s.drvHere port = true →
     s.rd fDSP_PORT_STATE port ∈ [0, 1, 2] →
     s.elapsed 3000 = true →
     Leads (.driveLate port) s (s.kept (s.setPort port 4))) ∧
  (∀ (s : State) (port : Nat),
     s.bringing = true →
     s.ready 11 = true →
     port < 8 →
     s.rd fDSP_PORT_STATE port = 4 →
     Leads (.driveReadyTimeout port) s (s.timed (s.driveFails port))) ∧
  (∀ (s : State),
     s.bringing = true →
     s.ready 11 = true →
     s.clk.assembled = false →
     s.elapsed 1000 = true →
     ((List.range 8).all s.portSettled = true ∨ s.elapsed 3000 = true) →
     Completes .volumeAssembly s (fun t => t.ready 10 = true ∧ t.clk.assembled = true ∧ t = s.timed s.assemble))

/-- A configuration request that reaches the device is answered with Request Retry Status until HIF is ready, and then
with the value read, or after the write; one to an absent function changes nothing. The link trains at a width of
R109 and the highest rate that both ports allow, or raises DEVICE_FAULT; a lane failure at x16 or x8 halves the
width and is a contained fault with a record of the swap history. PF0 enters D3hot and leaves it; VFs appear with VF
Enable and are reset as they disappear; an FLR of PF0 takes the enabled VFs with it. An unmasked MSI-X vector sends
the message that it owes. An ATS invalidation is complete at once, or waits for the requests that use the entry. DOE
objects, snoops and CXL.mem accesses are answered, an access outside every carve-out or decoder with poison. A
carve-out is enabled, waits for the exit from PS3, or is refused with a notice. (R85, R109, R110, R111, R112, R116,
R118, R125, R131, R132, R134, R399) -/
def Obligations.HostCommandsComplete : Prop :=
  (∀ (s : State) (fn : Nat) (item : CfgItem),
     s.running = true →
     s.board.pwrGood = true →
     s.board.perstN = true →
     s.ready 1 = true →
     s.present fn = true →
     fn ≤ 1024 →
     Leads (.configRequest fn item none) s (s.emit (.cfgDone fn (s.cfg fn item)))) ∧
  (∀ (s : State) (fn : Nat) (v : Nat),
     s.running = true →
     s.board.pwrGood = true →
     s.board.perstN = true →
     s.ready 1 = true →
     s.present fn = true →
     fn ≤ 1024 →
     Leads (.configRequest fn .memorySpace (some v)) s ((s.setCfg fn .memorySpace (v % 2)).emit (.cfgDone fn 0))) ∧
  (∀ (s : State) (fn : Nat) (item : CfgItem) (v : Nat),
     s.running = true →
     s.board.pwrGood = true →
     s.board.perstN = true →
     s.ready 1 = true →
     s.present fn = true →
     fn ≤ 1024 →
     Leads (.configRequest fn item (some v)) s (s.kept ((s.cfgWrite fn item v).emit (.cfgDone fn 0)))) ∧
  (∀ (s : State) (fn : Nat) (item : CfgItem) (wr : Option Nat),
     s.running = true →
     s.board.pwrGood = true →
     s.board.perstN = true →
     s.ready 1 = true →
     s.present fn = false →
     fn ≤ 1024 →
     Leads (.configRequest fn item wr) s (s)) ∧
  (∀ (s : State) (fn : Nat) (item : CfgItem) (wr : Option Nat),
     (s.clocked = true ∨ s.board.phase = .unlocked) →
     s.board.pwrGood = true →
     s.board.perstN = true →
     (s.running = false ∨ s.ready 1 = false) →
     fn ≤ 1024 →
     Leads (.configRequest fn item wr) s (s.emit (.requestRetry fn))) ∧
  (∀ (s : State) (speed : Nat) (width : Nat) (flit : Bool) (cxl : Bool) (reversed : Bool) (t : State),
     s.running = true →
     s.board.pwrGood = true →
     s.board.perstN = true →
     s.clk.held = false →
     s.hif.linkUp = false →
     linkWidthOk width = true →
     1 ≤ s.linkSpeed speed flit →
     s.linkSpeed speed flit ≤ 4 →
     t = (((((s.wr fHIF_LINK_STATUS_SPEED 0 (s.linkSpeed speed flit)).wr fHIF_LINK_STATUS_WIDTH 0 width).wr
       fHIF_LINK_STATUS_FLIT 0 (bit flit)).wr fHIF_LINK_STATUS_CXL 0 (bit (flit && cxl))).wr
         fHIF_LINK_STATUS_REVERSED 0 (bit reversed)).wr fHIF_LINK_STATUS_DEGRADED 0 0 →
     Leads (.linkTrained speed width flit cxl reversed) s (s.kept ({ t with hif := { t.hif with linkUp := true } })))
       ∧
  (∀ (s : State) (speed : Nat) (width : Nat) (flit : Bool) (cxl : Bool) (reversed : Bool),
     s.running = true →
     s.board.pwrGood = true →
     s.board.perstN = true →
     s.clk.held = false →
     s.hif.linkUp = false →
     (linkWidthOk width = false ∨ s.linkSpeed speed flit = 0 ∨ 4 < s.linkSpeed speed flit) →
     Leads (.linkTrained speed width flit cxl reversed) s (s.kept (s.alert fPWR_ALERT_STATUS_DEVICE_FAULT))) ∧
  (∀ (s : State) (w : Nat) (t : State),
     s.running = true →
     s.board.pwrGood = true →
     s.hif.linkUp = true →
     w = s.rd fHIF_LINK_STATUS_WIDTH 0 →
     8 ≤ w →
     t = (s.wr fHIF_LINK_STATUS_WIDTH 0 (w / 2)).wr fHIF_LINK_STATUS_DEGRADED 0 1 →
     Leads .laneFailure s (s.kept (((t.fault 1 { t.entry 1 2 with cause := 3 }).history 0xA ((t.fault 1
       { t.entry 1 2 with
         cause := 3 }).free % 256) 0xFFFF ((t.fault 1 { t.entry 1 2 with cause := 3 }).drawn.free % 65536) 0xFFFF
       0).drawn.drawn))) ∧
  (∀ (s : State),
     s.live 0 = true →
     Leads .d3hotEntry s (s.setCfg 0 .powerState 3)) ∧
  (∀ (s : State),
     s.live 0 = true →
     Leads .d0Return s (s.setCfg 0 .powerState 0)) ∧
  (∀ (s : State) (n : Nat),
     s.live 0 = true →
     s.cfg 0 .vfEnable = 0 →
     n ≤ 1024 →
     Leads (.vfEnable n) s ((s.setCfg 0 .numVfs n).setCfg 0 .vfEnable 1)) ∧
  (∀ (s : State),
     s.live 0 = true →
     s.cfg 0 .vfEnable = 1 →
     Leads .vfDisable s (s.kept ((s.enabledVfs.foldl State.flrOne s).setCfg 0 .vfEnable 0))) ∧
  (∀ (s : State) (fn : Nat),
     s.live fn = true →
     fn ≠ 0 →
     Leads (.flr fn) s (s.kept (s.flrOne fn))) ∧
  (∀ (s : State),
     s.live 0 = true →
     Leads (.flr 0) s (s.kept ((s.enabledVfs.foldl State.flrOne s).flrOne 0))) ∧
  (∀ (s : State) (fn : Nat) (vec : Nat) (d : State),
     s.reaches fn = true →
     vec < vectorsOf fn →
     d = (if fn = 0 then s.atRegion 1 (0x10000 + 16 * vec) else s.atWindow fn (0x1000 + 16 * vec)) →
     s.msixPending fn vec = false →
     Leads (.msixUnmask fn vec) s (s.kept ({ d with
         hif := { d.hif with
             msix := setD Msix.blank d.hif.msix (fn * 2048 + vec) { s.msixEntry fn vec with masked := false } } }))) ∧
  (∀ (s : State) (fn : Nat) (vec : Nat) (d : State) (u : State),
     s.reaches fn = true →
     vec < vectorsOf fn →
     d = (if fn = 0 then s.atRegion 1 (0x10000 + 16 * vec) else s.atWindow fn (0x1000 + 16 * vec)) →
     u = { d with
         hif := { d.hif with
             msix := setD Msix.blank d.hif.msix (fn * 2048 + vec) { s.msixEntry fn vec with masked := false } } } →
     u.msixPending fn vec = true →
     u.vecMasked fn vec = false →
     u.cfg fn .msixEnable = 1 →
     u.running = true →
     u.board.pwrGood = true →
     u.ready 1 = true →
     Leads (.msixUnmask fn vec) s (s.kept ((u.setPending fn vec false).message fn vec))) ∧
  (∀ (s : State) (fn : Nat) (addr : Nat) (len : Nat),
     s.live fn = true →
     s.hif.linkUp = true →
     (s.hif.atsWait.filter (fun w => w.1 = fn)).length < 32 →
     s.hostBusy fn addr len = false →
     Leads (.atsInvalidate fn addr len) s (s.kept (s.atsComplete fn addr len))) ∧
  (∀ (s : State) (fn : Nat) (addr : Nat) (len : Nat),
     s.live fn = true →
     s.hif.linkUp = true →
     (s.hif.atsWait.filter (fun w => w.1 = fn)).length < 32 →
     s.hostBusy fn addr len = true →
     Leads (.atsInvalidate fn addr len) s ({ s with
         hif := { s.hif with atsWait := s.hif.atsWait ++ [(fn, addr, len)] } })) ∧
  (∀ (s : State) (kind : Nat) (req : List Byte),
     s.live 0 = true →
     s.hif.linkUp = true →
     kind < 3 →
     req.length ≤ 4096 →
     Leads (.doeRequest kind req) s (s.kept (((s.ideProgram kind req).drawn).emit (.doe (s.doeAnswer kind req))))) ∧
  (∀ (s : State) (addr : Nat),
     s.cxlUp = true →
     Leads (.cxlSnoop addr) s (s.emit (.snoopMiss addr))) ∧
  (∀ (s : State) (hpa : Nat) (len : Nat) (dpa : Nat),
     s.cxlUp = true →
     s.cxlTurn true = true →
     s.hdmDpa hpa = some dpa →
     s.cxlReaches dpa len = true →
     Leads (.cxlMemRead hpa len) s (s.kept (((dpaLines dpa len).foldl State.readLine (s.cxlUse true len)).emit
       (.cxlData ((((((dpaLines dpa len).foldl State.readLine (s.cxlUse true len))).linesBytes (dpaLines dpa
         len)).drop (dpa % 64)).take len) ((dpaLines dpa len).any (fun l => (((dpaLines dpa len).foldl State.readLine
           (s.cxlUse true len))).lineClass l = 3)))))) ∧
  (∀ (s : State) (hpa : Nat) (len : Nat),
     s.cxlUp = true →
     s.cxlTurn true = true →
     s.cxlAddr hpa len = none →
     Leads (.cxlMemRead hpa len) s (s.kept ((((s.cxlUse true len).drawn).cxlOutside hpa).emit (.cxlData ((s.cxlUse
       true len).freeBytes len) true)))) ∧
  (∀ (s : State) (hpa : Nat) (data : List Byte) (dpa : Nat),
     s.cxlUp = true →
     s.cxlTurn false = true →
     s.hdmDpa hpa = some dpa →
     s.cxlReaches dpa data.length = true →
     Leads (.cxlMemWrite hpa data) s (s.kept ((linePieces dpa data (data.length + 1)).foldl (fun (u : State) (p : Nat
       × List Byte) => (u.writeWithinLine p.1 p.2).1) (s.cxlUse false data.length)))) ∧
  (∀ (s : State) (hpa : Nat) (data : List Byte),
     s.cxlUp = true →
     s.cxlTurn false = true →
     s.cxlAddr hpa data.length = none →
     Leads (.cxlMemWrite hpa data) s (s.kept ((s.cxlUse false data.length).cxlOutside hpa))) ∧
  (∀ (s : State) (co : Nat),
     s.reaches 0 = true →
     co < 64 →
     s.coOn co = false →
     s.coAllowed co = true →
     s.psState < 3 →
     Leads (.carveOutEnable co) s (s.kept ((s.atRegion 1 (0x30000 + 16 * co)).wr fHIF_CO_ENABLE co 1))) ∧
  (∀ (s : State) (co : Nat) (d : State),
     s.reaches 0 = true →
     co < 64 →
     s.coOn co = false →
     s.coAllowed co = true →
     3 ≤ s.psState →
     d = s.atRegion 1 (0x30000 + 16 * co) →
     Leads (.carveOutEnable co) s (s.kept ({ d with hif := { d.hif with coWait := d.hif.coWait ++ [co] } }))) ∧
  (∀ (s : State) (co : Nat),
     s.reaches 0 = true →
     co < 64 →
     s.coOn co = false →
     s.coAllowed co = false →
     Leads (.carveOutEnable co) s (s.kept ((s.atRegion 1 (0x30000 + 16 * co)).notice 1 0xFFFF))) ∧
  (∀ (s : State) (co : Nat) (d : State),
     s.reaches 0 = true →
     co < 64 →
     d = s.atRegion 1 (0x30000 + 16 * co) →
     Leads (.carveOutDisable co) s (s.kept (({ d with hif := { d.hif with coWait := d.hif.coWait.erase co } } :
       State).wr fHIF_CO_ENABLE co 0)))

/-- A register write that reaches HIF is carried out by its address; a poisoned one is dropped and logged. A soft reset
takes READY and ENABLE at once: the work of OCA, HAL, AMU, MGL and DGE ends with it, that of CVC, DSP and DRN is
waited for, and the other pages ignore it. ENABLE is written in a page with a soft reset and ignored elsewhere.
IRQ_SET, IRQ_STATUS and IRQ_ENABLE take the 32 bits written, and a message follows while an enabled cause is left.
EXPERT_UNLOCK takes the key 0x5EA5 alone. Each write ends what was latched or held of its page. (R76, R91, R92, R93,
R94, R102, R104, R105) -/
def Obligations.RegisterCommandsComplete : Prop :=
  (∀ (s : State) (a : Access) (v : Nat),
     s.reaches a.fn = true →
     accessOk a = true →
     a.poisoned = false →
     Leads (.registerWrite a v) s (s.queued (s.busWrite a (lowBits (8 * a.size) v)))) ∧
  (∀ (s : State) (a : Access) (v : Nat),
     s.reaches a.fn = true →
     accessOk a = true →
     a.poisoned = true →
     Leads (.registerWrite a v) s (s.queued (s.poisonedWrite a))) ∧
  (∀ (s : State) (sub : Nat) (e : Bool) (d : State),
     s.reaches 0 = true →
     sub ∈ [4, 7, 8, 9] →
     d = s.atRegion sub 0x10 →
     Leads (.softReset sub e) s (s.kept ((((d.wr fSTATUS_READY sub 0).wr fCONTROL_ENABLE sub 0).softWork
       sub).softRegs sub))) ∧
  (∀ (s : State) (e : Bool),
     s.reaches 0 = true →
     Leads (.softReset 12 e) s (s.kept (((((s.atRegion 12 0x10).wr fSTATUS_READY 12 0).wr fCONTROL_ENABLE 12
       0).softRegs 12).softWork 12))) ∧
  (∀ (s : State) (sub : Nat) (e : Bool) (d : State),
     s.reaches 0 = true →
     sub ∈ [10, 11, 15] →
     sub ∉ s.softPending →
     d = s.atRegion sub 0x10 →
     Leads (.softReset sub e) s (s.kept ({ (d.wr fSTATUS_READY sub 0).wr fCONTROL_ENABLE sub 0 with
         softPending := s.softPending ++ [sub] }))) ∧
  (∀ (s : State) (sub : Nat) (e : Bool),
     s.reaches 0 = true →
     1 ≤ sub →
     sub ≤ 16 →
     softResets sub = false →
     Leads (.softReset sub e) s (s.kept (s.atRegion sub 0x10))) ∧
  (∀ (s : State) (sub : Nat) (on : Bool),
     s.reaches 0 = true →
     1 ≤ sub →
     sub ≤ 16 →
     sub ≠ 12 →
     softResets sub = true →
     Leads (.enable sub on) s (s.kept ((s.atRegion sub 0x10).wr fCONTROL_ENABLE sub (bit on)))) ∧
  (∀ (s : State) (on : Bool),
     s.reaches 0 = true →
     Completes (.enable 12 on) s (fun t => t.rd fCONTROL_ENABLE 12 = bit on ∧ t.dge.slots = s.dge.slots ∧ t.dge.ready
       = s.dge.ready)) ∧
  (∀ (s : State) (sub : Nat) (on : Bool),
     s.reaches 0 = true →
     1 ≤ sub →
     sub ≤ 16 →
     softResets sub = false →
     Leads (.enable sub on) s (s.kept (s.atRegion sub 0x10))) ∧
  (∀ (s : State) (sub : Nat) (v : Nat),
     s.pageReaches sub = true →
     Leads (.irqSet sub v) s (s.kept ((s.atRegion sub 0x28).writeIrqSet sub (lowBits 32 v)))) ∧
  (∀ (s : State) (sub : Nat) (v : Nat),
     s.pageReaches sub = true →
     Leads (.irqStatusWrite sub v) s (s.kept (((s.atRegion sub 0x20).setIrqStatus sub (clearBits (s.irqStatus sub)
       (lowBits 32 v))).irqAfter sub))) ∧
  (∀ (s : State) (sub : Nat) (v : Nat),
     s.pageReaches sub = true →
     Leads (.irqEnableWrite sub v) s (s.kept (((s.atRegion sub 0x24).setIrqEnable sub (lowBits 32 v)).irqAfter sub)))
       ∧
  (∀ (s : State) (sub : Nat) (key : Nat),
     s.pageReaches sub = true →
     Leads (.expertUnlock sub key) s (s.kept ((s.atRegion sub 0x40).wr fEXPERT_UNLOCK_UNLOCKED sub (bit (lowBits 16
       key = 0x5EA5)))))

/-- An SQ doorbell of a queue that the function owns makes QMG look at the queue again and a CQ doorbell makes it read
OWN and write what it can; one of another queue is denied and counted. QMG fetches by its arbiters while HIF and QMG
are ready and PF0 is not in D3hot. The first entry that may go is handed on where its subsystem takes it, stays
where not, or is completed with its failure. The re-read interval and the moderation delay have their effect when
they have passed. The admin queue is enabled by its check, disabled, and drained when no admin command is in
progress. A limit above the number of queue IDs is refused with a notice. A window of the budgets is closed for
every function that used or waits for one, and the next one opens. (R102, R119, R120, R124, R139, R142, R146, R147,
R150, R152, R158, R162) -/
def Obligations.QueueCommandsComplete : Prop :=
  (∀ (s : State) (fn : Nat) (qid : Nat) (tail : Nat),
     s.reaches fn = true →
     s.ownsQueue fn qid = true →
     Leads (.sqDoorbell fn qid tail) s (s.kept (s.onQueue fn qid (fun (q : Queue) => { q with
         poll := q.poll || !q.disabling })))) ∧
  (∀ (s : State) (fn : Nat) (qid : Nat) (tail : Nat),
     s.reaches fn = true →
     s.ownsQueue fn qid = false →
     Leads (.sqDoorbell fn qid tail) s (s.kept (s.denied fn true 0 (doorbellPlace fn qid 0).1 (doorbellPlace fn qid
       0).2))) ∧
  (∀ (s : State) (fn : Nat) (qid : Nat) (i : Nat) (q : Queue),
     s.reaches fn = true →
     s.ownsQueue fn qid = true →
     s.queue fn qid = some q →
     Leads (.cqDoorbell fn qid i) s (s.kept (s.drain fn qid (q.pend.length + q.waiting.length + 1)))) ∧
  (∀ (s : State) (fn : Nat) (qid : Nat) (i : Nat),
     s.reaches fn = true →
     s.ownsQueue fn qid = false →
     Leads (.cqDoorbell fn qid i) s (s.kept (s.denied fn true 0 (doorbellPlace fn qid 4).1 (doorbellPlace fn qid
       4).2))) ∧
  (∀ (s : State),
     s.fetches = true →
     Leads .sqFetch s (s.kept ((s.cappedFns.foldl State.heldBack s).sqFetch))) ∧
  (∀ (s : State) (fn : Nat) (qid : Nat) (q : Queue) (e : Entry),
     s.running = true →
     s.ready 2 = true →
     s.queue fn qid = some q →
     q.disabling = false →
     q.cls ≠ 0 →
     q.nextHandOn = some e →
     handOnError q.cls e.line = none →
     s.takes fn q.cls e.line = true →
     Leads (.entryHandOn fn qid) s (s.kept (s.setStage ⟨fn, qid, e.tag⟩ .handed))) ∧
  (∀ (s : State) (fn : Nat) (q : Queue) (e : Entry),
     s.running = true →
     s.ready 2 = true →
     s.queue fn 0 = some q →
     q.disabling = false →
     q.cls = 0 →
     q.nextHandOn = some e →
     handOnError q.cls e.line = none →
     pf0Only fn e.line = none →
     s.takes fn q.cls e.line = true →
     Leads (.entryHandOn fn 0) s (s.kept (s.setStage ⟨fn, 0, e.tag⟩ .handed))) ∧
  (∀ (s : State) (fn : Nat) (q : Queue) (e : Entry) (x : Nat × Nat),
     s.running = true →
     s.ready 2 = true →
     s.queue fn 0 = some q →
     q.disabling = false →
     q.cls = 0 →
     q.nextHandOn = some e →
     handOnError q.cls e.line = none →
     pf0Only fn e.line = some x →
     Leads (.entryHandOn fn 0) s (s.kept (s.complete ⟨fn, 0, e.tag⟩ x.1 x.2 0 0))) ∧
  (∀ (s : State) (fn : Nat) (qid : Nat) (q : Queue) (e : Entry) (x : Nat × Nat),
     s.running = true →
     s.ready 2 = true →
     s.queue fn qid = some q →
     q.disabling = false →
     q.nextHandOn = some e →
     handOnError q.cls e.line = some x →
     Leads (.entryHandOn fn qid) s (s.kept (s.complete ⟨fn, qid, e.tag⟩ x.1 x.2 0 0))) ∧
  (∀ (s : State) (fn : Nat) (qid : Nat) (q : Queue),
     s.running = true →
     s.queue fn qid = some q →
     (q.pend ≠ [] ∨ q.waiting ≠ []) →
     q.readAt + ticksOfUs (max 1 (s.rd fQMG_CQ_RECHECK_INTERVAL_US 0)) ≤ s.clk.tsu →
     Leads (.cqRecheck fn qid) s (s.kept (s.drain fn qid (q.pend.length + q.waiting.length + 1)))) ∧
  (∀ (s : State) (fn : Nat) (qid : Nat) (q : Queue),
     s.running = true →
     s.queue fn qid = some q →
     q.irqEn = true →
     q.unsignalled ≠ 0 →
     q.oldest + ticksOfUs (s.rd fHIF_FN_MOD_DELAY_US (fn * 16 + q.mod)) ≤ s.clk.tsu →
     Leads (.moderationTimer fn qid) s (s.kept ((s.setQueue fn qid { q with unsignalled := 0 }).message fn
       q.vector))) ∧
  (∀ (s : State) (fn : Nat) (qid : Nat) (q : Queue),
     s.running = true →
     s.queue fn qid = some q →
     q.irqEn = false →
     q.unsignalled ≠ 0 →
     q.oldest + ticksOfUs (s.rd fHIF_FN_MOD_DELAY_US (fn * 16 + q.mod)) ≤ s.clk.tsu →
     Leads (.moderationTimer fn qid) s (s.kept (s.setQueue fn qid { q with unsignalled := 0 }))) ∧
  (∀ (s : State) (fn : Nat),
     s.reaches fn = true →
     s.ready 2 = true →
     s.queue fn 0 = none →
     Leads (.adminQueueEnable fn) s (s.kept ((((s.atWindow fn 0x118).wr fQMG_ADM_CONTROL_ENABLE fn 1).wr
       fQMG_ADM_STATUS_ERROR fn 0).adminCheck fn))) ∧
  (∀ (s : State) (fn : Nat) (q : Queue),
     s.reaches fn = true →
     s.ready 2 = true →
     s.queue fn 0 = some q →
     Leads (.adminQueueEnable fn) s (s.kept (((s.atWindow fn 0x118).wr fQMG_ADM_CONTROL_ENABLE fn 1).wr
       fQMG_ADM_STATUS_ERROR fn 0))) ∧
  (∀ (s : State) (fn : Nat),
     s.reaches fn = true →
     s.ready 2 = true →
     Leads (.adminQueueDisable fn) s (s.kept ((((s.atWindow fn 0x118).wr fQMG_ADM_CONTROL_ENABLE fn 0).onQueue fn 0
       (fun (q : Queue) => { q with disabling := true, poll := false })).recheck fn 0))) ∧
  (∀ (s : State) (fn : Nat) (q : Queue),
     s.running = true →
     s.queue fn 0 = some q →
     q.disabling = true →
     (∀ e ∈ q.fetched, e.stage ≠ .started) →
     Leads (.adminDisableEnd fn) s (s.kept (s.adminDisableEnd fn))) ∧
  (∀ (s : State) (fn : Nat) (limit : Nat),
     s.reaches 0 = true →
     s.ready 2 = true →
     fn ≤ 1024 →
     lowBits 13 limit ≤ (if fn = 0 then 4087 else 6143) →
     Leads (.qmgFnQlimit fn limit) s (s.kept ((s.atRegion 2 (0x10000 + 4 * fn)).wr fQMG_FN_QLIMIT_LIMIT fn (lowBits
       13 limit)))) ∧
  (∀ (s : State) (fn : Nat) (limit : Nat),
     s.reaches 0 = true →
     s.ready 2 = true →
     fn ≤ 1024 →
     (if fn = 0 then 4087 else 6143) < lowBits 13 limit →
     Leads (.qmgFnQlimit fn limit) s (s.kept ((s.atRegion 2 (0x10000 + 4 * fn)).notice 2 0xFFFF))) ∧
  (∀ (s : State) (t : State) (b : NMap Nat),
     s.running = true →
     s.hif.qosWindow < s.clk.tsu / 8000 →
     t = s.accounted.foldl State.closeAcct s.chargeRunning →
     b = (List.range 1025).foldl (fun m fn => setD qosDefault m fn (t.qosWritten fn)) [] →
     Leads .qosWindowEnd s (s.kept (({ t with
         hif := { t.hif with
             qosWindow := t.hif.qosWindow + 1,
             inForce := b,
             capCore := t.readyCores * 8000,
             capHbm := countBits 8 (t.rd fMGT_READY_MAP_MEM_STACK_READY 0) * 12288000,
             capLink := t.linkCapacity,
             cxlTx := 0,
             cxlRx := 0 } } : State).pump)))

/-- An admin command that its queue has handed on runs while none is in progress: a valid one has its effect and
completes with SUCCESS; one that fails a check completes with the status of that check and changes nothing else, but
that a CREATE_QUEUE beyond the device's pool of queues also raises QMG's cause 3. A CANCEL runs whatever else is in
progress. (R153, R154, R155, R156, R157, R162, R186, R188, R189, R223, R224, R225) -/
def Obligations.AdminCommandsComplete : Prop :=
  (∀ (s : State) (fn : Nat) (e : Entry),
     s.running = true →
     s.ready 2 = true →
     s.adminNext fn 0x1 = some e →
     s.createError fn e.line = none →
     Leads (.createQueue fn) s (s.kept ((s.setQueue fn (entryBytes e.line 4 2) (createdQueue e.line)).complete ⟨fn,
       0, e.tag⟩ 0 0 0 0))) ∧
  (∀ (s : State) (fn : Nat) (e : Entry) (st : Nat) (sub : Nat),
     s.running = true →
     s.ready 2 = true →
     s.adminNext fn 0x1 = some e →
     s.createError fn e.line = some (st, sub) →
     sub ≠ 0x07 →
     Leads (.createQueue fn) s (s.kept (s.complete ⟨fn, 0, e.tag⟩ st sub 0 0))) ∧
  (∀ (s : State) (fn : Nat) (e : Entry) (st : Nat),
     s.running = true →
     s.ready 2 = true →
     s.adminNext fn 0x1 = some e →
     s.createError fn e.line = some (st, 0x07) →
     Leads (.createQueue fn) s (s.kept ((s.raise 2 3).complete ⟨fn, 0, e.tag⟩ st 0x07 0 0))) ∧
  (∀ (s : State) (fn : Nat) (e : Entry),
     s.running = true →
     s.ready 2 = true →
     s.adminNext fn 0x2 = some e →
     s.tearError fn e.line = none →
     Leads (.destroyQueue fn) s (s.kept ((((s.tearSignalled fn (entryBytes e.line 4 2)).1).delQueue fn (entryBytes
       e.line 4 2)).complete ⟨fn, 0, e.tag⟩ 0 0 0 (tornSpecific (s.tearSignalled fn (entryBytes e.line 4 2)).2.1
         (s.tearSignalled fn (entryBytes e.line 4 2)).2.2)))) ∧
  (∀ (s : State) (fn : Nat) (e : Entry) (x : Nat × Nat),
     s.running = true →
     s.ready 2 = true →
     s.adminNext fn 0x2 = some e →
     s.tearError fn e.line = some x →
     Leads (.destroyQueue fn) s (s.kept (s.complete ⟨fn, 0, e.tag⟩ x.1 x.2 0 0))) ∧
  (∀ (s : State) (fn : Nat) (e : Entry),
     s.running = true →
     s.ready 2 = true →
     s.adminNext fn 0x3 = some e →
     s.tearError fn e.line = none →
     Leads (.resetQueue fn) s (s.kept ((((s.tearSignalled fn (entryBytes e.line 4 2)).1).onQueue fn (entryBytes
       e.line 4 2) Queue.emptied).complete ⟨fn, 0, e.tag⟩ 0 0 0 (tornSpecific (s.tearSignalled fn (entryBytes e.line
         4 2)).2.1 (s.tearSignalled fn (entryBytes e.line 4 2)).2.2)))) ∧
  (∀ (s : State) (fn : Nat) (e : Entry) (x : Nat × Nat),
     s.running = true →
     s.ready 2 = true →
     s.adminNext fn 0x3 = some e →
     s.tearError fn e.line = some x →
     Leads (.resetQueue fn) s (s.kept (s.complete ⟨fn, 0, e.tag⟩ x.1 x.2 0 0))) ∧
  (∀ (s : State) (fn : Nat) (e : Entry),
     s.running = true →
     s.ready 2 = true →
     s.adminNext fn 0x10 = some e →
     Leads (.graphLoad fn) s (s.kept (((s.graphLoad fn e.line).2.2.2.2).complete ⟨fn, 0, e.tag⟩ (s.graphLoad fn
       e.line).1 (s.graphLoad fn e.line).2.1 (s.graphLoad fn e.line).2.2.1 (s.graphLoad fn e.line).2.2.2.1))) ∧
  (∀ (s : State) (fn : Nat) (e : Entry),
     s.running = true →
     s.ready 2 = true →
     s.adminNext fn 0x11 = some e →
     entryBits e.line 4 6 2 = 0 →
     entryNonzero e.line 5 60 = false →
     (s.graph fn (entryBits e.line 4 0 6)).isSome = true →
     s.graphBusy fn (entryBits e.line 4 0 6) = false →
     Leads (.graphUnload fn) s (s.kept (({ s with
         bsn := { s.bsn with graphs := del s.bsn.graphs (fn * 64 + entryBits e.line 4 0 6) } } : State).complete ⟨fn,
       0, e.tag⟩ 0 0 0 0))) ∧
  (∀ (s : State) (fn : Nat) (e : Entry),
     s.running = true →
     s.ready 2 = true →
     s.adminNext fn 0x11 = some e →
     entryBits e.line 4 6 2 = 0 →
     entryNonzero e.line 5 60 = false →
     s.graph fn (entryBits e.line 4 0 6) = none →
     Leads (.graphUnload fn) s (s.kept (s.complete ⟨fn, 0, e.tag⟩ 0x10 0x2F 0 0))) ∧
  (∀ (s : State) (fn : Nat) (e : Entry),
     s.running = true →
     s.ready 2 = true →
     s.adminNext fn 0x11 = some e →
     entryBits e.line 4 6 2 = 0 →
     entryNonzero e.line 5 60 = false →
     (s.graph fn (entryBits e.line 4 0 6)).isSome = true →
     s.graphBusy fn (entryBits e.line 4 0 6) = true →
     Leads (.graphUnload fn) s (s.kept (s.complete ⟨fn, 0, e.tag⟩ 0x10 0x2E 0 0))) ∧
  (∀ (s : State) (fn : Nat) (e : Entry),
     s.running = true →
     s.ready 2 = true →
     s.adminNext fn 0x11 = some e →
     (entryBits e.line 4 6 2 ≠ 0 ∨ entryNonzero e.line 5 60 = true) →
     Leads (.graphUnload fn) s (s.kept (s.complete ⟨fn, 0, e.tag⟩ 0x10 0x01 0 0))) ∧
  (∀ (s : State) (fn : Nat) (e : Entry) (x : Nat × Nat),
     s.running = true →
     s.ready 2 = true →
     s.cancelNext fn (fun (c : Nat) => c = 0) = some e →
     s.cancelError fn e.line = some x →
     Leads (.cancelTask fn) s (s.kept (s.complete ⟨fn, 0, e.tag⟩ x.1 x.2 0 0))) ∧
  (∀ (s : State) (fn : Nat) (e : Entry) (x : Nat × Nat),
     s.running = true →
     s.ready 2 = true →
     s.cancelNext fn (fun (c : Nat) => c = 1) = some e →
     s.cancelError fn e.line = some x →
     Leads (.cancelRun fn) s (s.kept (s.complete ⟨fn, 0, e.tag⟩ x.1 x.2 0 0))) ∧
  (∀ (s : State) (fn : Nat) (e : Entry) (x : Nat × Nat),
     s.running = true →
     s.ready 2 = true →
     s.cancelNext fn (fun (c : Nat) => 2 ≤ c) = some e →
     s.cancelError fn e.line = some x →
     Leads (.cancelFunction fn) s (s.kept (s.complete ⟨fn, 0, e.tag⟩ x.1 x.2 0 0))) ∧
  (∀ (s : State) (fn : Nat) (e : Entry),
     s.running = true →
     s.ready 2 = true →
     s.cancelNext fn (fun (c : Nat) => c = 0) = some e →
     s.cancelError fn e.line = none →
     Leads (.cancelTask fn) s (s.kept (((s.cancelTask fn e.line).2.1).complete ⟨fn, 0, e.tag⟩ (s.cancelTask fn
       e.line).1.1 (s.cancelTask fn e.line).1.2.1 0 (s.cancelTask fn e.line).1.2.2))) ∧
  (∀ (s : State) (fn : Nat) (e : Entry),
     s.running = true →
     s.ready 2 = true →
     s.cancelNext fn (fun (c : Nat) => c = 1) = some e →
     s.cancelError fn e.line = none →
     Leads (.cancelRun fn) s (s.kept ((s.cancelRuns 0x01 (s.namedRuns e.line)).2.2 (((s.cancelRuns 0x01 (s.namedRuns
       e.line)).2.1).complete ⟨fn, 0, e.tag⟩ (s.cancelRuns 0x01 (s.namedRuns e.line)).1.1 (s.cancelRuns 0x01
         (s.namedRuns e.line)).1.2.1 0 (s.cancelRuns 0x01 (s.namedRuns e.line)).1.2.2)))) ∧
  (∀ (s : State) (fn : Nat) (e : Entry),
     s.running = true →
     s.ready 2 = true →
     s.cancelNext fn (fun (c : Nat) => 2 ≤ c) = some e →
     s.cancelError fn e.line = none →
     Leads (.cancelFunction fn) s (s.kept ((s.cancelRuns 0x02 (s.activeRuns (cancelFn e.line) (fun _ _ => true))).2.2
       (((s.cancelRuns 0x02 (s.activeRuns (cancelFn e.line) (fun _ _ => true))).2.1).complete ⟨fn, 0, e.tag⟩
         (s.cancelRuns 0x02 (s.activeRuns (cancelFn e.line) (fun _ _ => true))).1.1 (s.cancelRuns 0x02 (s.activeRuns
           (cancelFn e.line) (fun _ _ => true))).1.2.1 0 (s.cancelRuns 0x02 (s.activeRuns (cancelFn e.line) (fun _ _
             => true))).1.2.2))))

/-- A RUN that its queue has handed on completes with the status of its check, or is held and becomes a run; it starts
when it may. The RUN that has waited longest for match-engine banks holds the others back once it has waited 1 ms. A
source that is ready makes its next morsel. A run that stops, or that has finished, ends with its first failure or,
without one, with SUCCESS. A SINK that waits for its segment, or has a part of a block left, streams on. An EXCHANGE
task runs when it is ready, a SINK task when it is ready and its turn has come, and a HOLD_READ task when CVC has
it, no update runs and no VOLUME entry is at hand. (R175, R183, R191, R192, R193, R194, R195, R203, R303, R488,
R490) -/
def Obligations.RunCommandsComplete : Prop :=
  (∀ (s : State) (fn : Nat) (qid : Nat) (e : Entry) (x : Nat × Nat),
     s.running = true →
     s.ready 3 = true →
     s.handedEntry fn qid 1 = some e →
     s.runError fn e.line = some x →
     Leads (.run fn qid) s (s.kept (s.complete ⟨fn, qid, e.tag⟩ x.1 x.2 0 0))) ∧
  (∀ (s : State) (fn : Nat) (qid : Nat) (e : Entry),
     s.running = true →
     s.ready 3 = true →
     s.handedEntry fn qid 1 = some e →
     s.runError fn e.line = none →
     Leads (.run fn qid) s (s.kept ({ s.setStage ⟨fn, qid, e.tag⟩ .held with
         bsn := { (s.setStage ⟨fn, qid, e.tag⟩ .held).bsn with
             runs := put (s.setStage ⟨fn, qid, e.tag⟩ .held).bsn.runs e.tag (s.newRun fn qid e.line) } }))) ∧
  (∀ (s : State) (r : Nat) (host : Nat),
     s.starts 3 = true →
     s.psState < 3 →
     s.mayStart r = true →
     Leads (.runStart r host) s (s.kept (s.runStart r host))) ∧
  (∀ (s : State) (r : Nat) (x : Run),
     s.running = true →
     s.ready 3 = true →
     s.amu.hold = none →
     oldestRun s.bankWaiters = some (r, x) →
     x.waitAt + ticksOfMs 1 ≤ s.clk.tsu →
     Leads (.bankHold r) s (s.kept ((({ s with amu := { s.amu with hold := some r } } : State).onRun r (fun (y : Run)
       => { y with holding := true })).raise 8 4))) ∧
  (∀ (s : State) (r : Nat) (n : Nat) (host : Nat),
     s.starts 3 = true →
     s.sourceReady r n = true →
     Leads (.sourceMorsel r n host) s (s.kept (s.sourceMorsel r n host))) ∧
  (∀ (s : State) (r : Nat) (x : Run) (f : Nat × Nat × Nat × Nat),
     s.running = true →
     s.ready 3 = true →
     s.run r = some x →
     ((x.started = true ∧ x.stopping = true) ∨ s.runDone r x = true) →
     x.first = some f →
     Leads (.runEnd r) s (s.kept (s.finishRun r f.2.2.1 f.2.2.2))) ∧
  (∀ (s : State) (r : Nat) (x : Run),
     s.running = true →
     s.ready 3 = true →
     s.run r = some x →
     ((x.started = true ∧ x.stopping = true) ∨ s.runDone r x = true) →
     x.first = none →
     Leads (.runEnd r) s (s.kept (s.finishRun r 0 0))) ∧
  (∀ (s : State) (r : Nat) (x : Run),
     s.running = true →
     s.run r = some x →
     (x.sink ≠ none ∨ x.segRest ≠ []) →
     x.stopping = false →
     Leads (.segmentRecheck r) s (s.kept (s.pushSink r))) ∧
  (∀ (s : State) (k : Nat),
     s.readyOf k 8 = true →
     Leads (.exchangeTask k) s (s.kept (s.exchangeTask k))) ∧
  (∀ (s : State) (k : Nat),
     s.readyOf k 9 = true →
     s.sinkTurn k = true →
     Leads (.sinkTask k) s (s.kept (s.sinkTask k))) ∧
  (∀ (s : State) (k : Nat) (x : Task),
     s.cvcAwake = true →
     s.starts 10 = true →
     s.cvc.fw = none →
     s.volAtHand = false →
     s.task k = some x →
     x.state = .pegged →
     x.place = .cvc →
     s.runStopping x = false →
     Leads (.holdReadTask k) s (s.kept (s.holdTask k)))

/-- While a token or a FINAL task waits for an entry, TASK_MAKE grants one or notes that the table is full. An EMPTY or
SKIPPED token passes its node, and at a SINK is taken without a task. A slot is filled while its stop is not halted;
an injected disagreement strikes on the first fill that dispatches. A pegged task is staged unless it is, or waits
for a scrub; it starts on an idle open tile, after a scrub and its staging where the function changes. A task over
its limit ends with 0x31, unless in the very tick a CANCEL that covers it is at hand. An ENDING task places its
outputs and frees its entry with the last. A slot is released in order. A lockstep disagreement is handled and its
halt ends after 1 us. INJECT arms a stop and RESV is written in an unlocked page, within the sum of 4,096; else
DENIED is set, or the write is refused and logged. Only a SPARE tile that is not in a reset enters MAINTENANCE, with
a listed program; an ending program leaves it SPARE, a failed self-test FAILED with cause 3. A core reset ends the
program of a tile in MAINTENANCE, ends, unpegs, resets and scrubs one in service or a spare, and (log entry 89, the
model's choice) does nothing to a FAILED or DOWN one. An ECC error is armed in a tile in MAINTENANCE and noticed for
another. A deferred fault, an instruction line found bad, a queued vector instruction, an outstanding access and a
fetch of the pc's line have their effect. (R75, R202, R204, R210, R211, R218, R220, R228, R233, R263, R265, R267) -/
def Obligations.TaskCommandsComplete : Prop :=
  (∀ (s : State),
     s.starts 3 = true →
     s.cands ≠ [] →
     Leads .taskMake s (s.kept (s.taskMake))) ∧
  (∀ (s : State) (r : Nat) (e : Nat) (x : Run) (t : Token),
     s.running = true →
     s.canForward r e = true →
     s.run r = some x →
     x.forwardable e = some t →
     ((s.graphOf x).node ((s.graphOf x).edge e).dst).kind ≠ 9 →
     Leads (.tokenForward r e) s (s.kept (s.forward r e t))) ∧
  (∀ (s : State) (r : Nat) (e : Nat) (x : Run) (t : Token),
     s.running = true →
     s.canForward r e = true →
     s.run r = some x →
     x.forwardable e = some t →
     ((s.graphOf x).node ((s.graphOf x).edge e).dst).kind = 9 →
     Leads (.tokenForward r e) s (s.kept (s.sinkForward r e t))) ∧
  (∀ (s : State) (kind : Nat) (unit : Nat),
     s.starts 3 = true →
     s.unitTakes kind = true →
     find s.bsn.halts (s.fillStop kind unit) = none →
     s.fillStop kind unit ∉ s.bsn.inject →
     Leads (.pegFill kind unit) s (s.kept (s.fillSlot kind unit))) ∧
  (∀ (s : State) (kind : Nat) (unit : Nat),
     s.starts 3 = true →
     s.unitTakes kind = true →
     find s.bsn.halts (s.fillStop kind unit) = none →
     (s.fillSlot kind unit).bsn.dispatches ≤ s.bsn.dispatches →
     Leads (.pegFill kind unit) s (s.kept (s.fillSlot kind unit))) ∧
  (∀ (s : State) (kind : Nat) (unit : Nat),
     s.starts 3 = true →
     s.unitTakes kind = true →
     find s.bsn.halts (s.fillStop kind unit) = none →
     s.fillStop kind unit ∈ s.bsn.inject →
     s.bsn.dispatches < (s.fillSlot kind unit).bsn.dispatches →
     Leads (.pegFill kind unit) s (s.kept (s.disagree (s.fillStop kind unit)))) ∧
  (∀ (s : State) (t : Nat) (peg : Nat) (k : Nat) (x : Task),
     s.running = true →
     s.pegTask (pegPlace t peg) = some (k, x) →
     x.staged = false →
     s.noScrub t peg x = true →
     Leads (.stagingDone t peg) s (s.kept (s.stage t peg k x))) ∧
  (∀ (s : State) (t : Nat) (peg : Nat) (k : Nat) (x : Task),
     s.starts 4 = true →
     s.psState < 2 →
     s.tileOpen t = true →
     (s.core t).task = none →
     s.nextPeg t = some (peg, k, x) →
     s.runStopping x = false →
     (∀ f ∈ s.tileHolds t, f = x.fn) →
     x.staged = true →
     Leads (.taskStart t) s (s.kept (s.startTask t peg k x))) ∧
  (∀ (s : State) (t : Nat) (peg : Nat) (k : Nat) (x : Task) (f : Nat) (y : Task),
     s.starts 4 = true →
     s.psState < 2 →
     s.tileOpen t = true →
     (s.core t).task = none →
     s.nextPeg t = some (peg, k, x) →
     s.runStopping x = false →
     s.tileHolds t = some f →
     f ≠ x.fn →
     (((s.scrub t).chargeCore x.fn s.scrubTicks).stage t peg k x).task k = some y →
     Leads (.taskStart t) s (s.kept ((((s.scrub t).chargeCore x.fn s.scrubTicks).stage t peg k x).startTask t peg k
       y))) ∧
  (∀ (s : State) (k : Nat) (x : Task),
     s.running = true →
     s.task k = some x →
     x.state = .running →
     x.start + s.limitOf x ≤ s.clk.tsu →
     (x.start + s.limitOf x < s.clk.tsu ∨ s.cancelCovers x = false) →
     Leads (.taskTimeout k) s (s.kept ((s.workFault 3 x.fn 0x31 0 0xFFFF 0 5).killTask k 0x31 0))) ∧
  (∀ (s : State) (t : Nat) (x : Task),
     s.running = true →
     s.task t = some x →
     x.state = .ending →
     (s.placeOuts x.run x.node x.outs).2 = [] →
     Leads (.tokenPlace t) s (s.kept ((s.placeOuts x.run x.node x.outs).1.delTask t))) ∧
  (∀ (s : State) (t : Nat) (x : Task),
     s.running = true →
     s.task t = some x →
     x.state = .ending →
     (s.placeOuts x.run x.node x.outs).2 ≠ [] →
     Leads (.tokenPlace t) s (s.kept ((s.placeOuts x.run x.node x.outs).1.setTask t { x with
         outs := (s.placeOuts x.run x.node x.outs).2 }))) ∧
  (∀ (s : State) (fl : Nat),
     s.running = true →
     2 ∉ s.failedSubs →
     s.canRelease fl = true →
     Leads (.slotRelease fl) s (s.kept (s.slotRelease fl))) ∧
  (∀ (s : State) (stop : Nat),
     s.running = true →
     s.ready 3 = true →
     stop < 2 →
     3 ∉ s.failedSubs →
     Leads (.lockstepDisagreement stop) s (s.kept (s.disagree stop))) ∧
  (∀ (s : State) (stop : Nat) (t0 : Nat),
     s.running = true →
     find s.bsn.halts stop = some t0 →
     t0 + ticksOfUs 1 ≤ s.clk.tsu →
     Leads (.lockstepHaltEnd stop) s (s.kept ({ s with bsn := { s.bsn with halts := del s.bsn.halts stop } }))) ∧
  (∀ (s : State) (u : State),
     s.reaches 0 = true →
     s.ready 3 = true →
     u = s.atRegion 3 0x900 →
     u.rd fEXPERT_UNLOCK_UNLOCKED 3 = 1 →
     0 ∉ s.bsn.inject →
     Leads .injectWest s (s.kept ({ u with bsn := { u.bsn with inject := u.bsn.inject ++ [0] } }))) ∧
  (∀ (s : State) (u : State),
     s.reaches 0 = true →
     s.ready 3 = true →
     u = s.atRegion 3 0x900 →
     u.rd fEXPERT_UNLOCK_UNLOCKED 3 = 1 →
     0 ∈ s.bsn.inject →
     Leads .injectWest s (s.kept (u))) ∧
  (∀ (s : State) (u : State),
     s.reaches 0 = true →
     s.ready 3 = true →
     u = s.atRegion 3 0x900 →
     u.rd fEXPERT_UNLOCK_UNLOCKED 3 ≠ 1 →
     Leads .injectWest s (s.kept (u.wr fEXPERT_UNLOCK_DENIED 3 1))) ∧
  (∀ (s : State) (u : State),
     s.reaches 0 = true →
     s.ready 3 = true →
     u = s.atRegion 3 0x900 →
     u.rd fEXPERT_UNLOCK_UNLOCKED 3 = 1 →
     1 ∉ s.bsn.inject →
     Leads .injectEast s (s.kept ({ u with bsn := { u.bsn with inject := u.bsn.inject ++ [1] } }))) ∧
  (∀ (s : State) (u : State),
     s.reaches 0 = true →
     s.ready 3 = true →
     u = s.atRegion 3 0x900 →
     u.rd fEXPERT_UNLOCK_UNLOCKED 3 = 1 →
     1 ∈ s.bsn.inject →
     Leads .injectEast s (s.kept (u))) ∧
  (∀ (s : State) (u : State),
     s.reaches 0 = true →
     s.ready 3 = true →
     u = s.atRegion 3 0x900 →
     u.rd fEXPERT_UNLOCK_UNLOCKED 3 ≠ 1 →
     Leads .injectEast s (s.kept (u.wr fEXPERT_UNLOCK_DENIED 3 1))) ∧
  (∀ (s : State) (fn : Nat) (v : Nat) (u : State),
     s.reaches 0 = true →
     s.ready 3 = true →
     fn ≤ 1024 →
     u = s.atRegion 3 (0x10000 + 16 * fn) →
     u.rd fEXPERT_UNLOCK_UNLOCKED 3 = 1 →
     u.resvSum - u.rd fBSN_FN_RESV fn + lowBits 12 v ≤ 4096 →
     Leads (.bsnFnResv fn v) s (s.kept (({ u with
         bsn := { u.bsn with tableFull := u.bsn.tableFull && !u.sharedFree } } : State).wr fBSN_FN_RESV fn (lowBits
       12 v)))) ∧
  (∀ (s : State) (fn : Nat) (v : Nat) (u : State),
     s.reaches 0 = true →
     s.ready 3 = true →
     fn ≤ 1024 →
     u = s.atRegion 3 (0x10000 + 16 * fn) →
     u.rd fEXPERT_UNLOCK_UNLOCKED 3 = 1 →
     4096 < u.resvSum - u.rd fBSN_FN_RESV fn + lowBits 12 v →
     Leads (.bsnFnResv fn v) s (s.kept (u.fault 3 { u.entry 3 5 with fn := some fn, cause := 4 }))) ∧
  (∀ (s : State) (fn : Nat) (v : Nat) (u : State),
     s.reaches 0 = true →
     s.ready 3 = true →
     fn ≤ 1024 →
     u = s.atRegion 3 (0x10000 + 16 * fn) →
     u.rd fEXPERT_UNLOCK_UNLOCKED 3 ≠ 1 →
     Leads (.bsnFnResv fn v) s (s.kept (u.wr fEXPERT_UNLOCK_DENIED 3 1))) ∧
  (∀ (s : State) (t : Nat) (program : Nat) (u : State),
     s.reaches 0 = true →
     s.ready 4 = true →
     t < 544 →
     u = s.atRegion 4 (0x10004 + 32 * t) →
     u.tileState t = tsSpare →
     1 ≤ program →
     program ≤ 3 →
     Leads (.maintEnter t program) s (s.kept ((((((u.setCore t Core.zero).wr fOCA_TILE_STATE t tsMaintenance).wr
       fOCA_TILE_MAINT_PROGRAM t program).wr fOCA_TILE_MAINT_DONE t 0).wr fOCA_TILE_MAINT_PASS t 0)))) ∧
  (∀ (s : State) (t : Nat) (program : Nat) (u : State),
     s.reaches 0 = true →
     s.ready 4 = true →
     t < 544 →
     u = s.atRegion 4 (0x10004 + 32 * t) →
     (u.tileState t ≠ tsSpare ∨ program = 0 ∨ 3 < program) →
     Leads (.maintEnter t program) s (s.kept (u.notice 4 t))) ∧
  (∀ (s : State) (t : Nat) (u : State),
     s.reaches 0 = true →
     s.ready 4 = true →
     t < 544 →
     u = s.atRegion 4 (0x10004 + 32 * t) →
     u.rd fOCA_TILE_STATE t = tsMaintenance →
     Leads (.coreReset t) s (s.kept ((u.maintEnd t false).wr fOCA_TILE_STATE t tsSpare))) ∧
  (∀ (s : State) (t : Nat) (u : State),
     s.reaches 0 = true →
     s.ready 4 = true →
     t < 544 →
     u = s.atRegion 4 (0x10004 + 32 * t) →
     u.rd fOCA_TILE_STATE t ≠ tsMaintenance →
     u.rd fOCA_TILE_STATE t ≠ 0 →
     u.rd fOCA_TILE_STATE t ≠ tsFailed →
     Leads (.coreReset t) s (s.kept (((((u.endOnTile t 0x32 0x04 []).unpeg (.pegA t)).unpeg (.pegB t)).onCore t (fun
       (c : Core) => { c with resetEnd := u.clk.tsu + u.cyclesToTicks 64 })).scrub t))) ∧
  (∀ (s : State) (t : Nat) (u : State),
     s.reaches 0 = true →
     s.ready 4 = true →
     t < 544 →
     u = s.atRegion 4 (0x10004 + 32 * t) →
     (u.rd fOCA_TILE_STATE t = 0 ∨ u.rd fOCA_TILE_STATE t = tsFailed) →
     Leads (.coreReset t) s (s.kept (u))) ∧
  (∀ (s : State) (t : Nat) (pass : Bool),
     s.running = true →
     s.rd fOCA_TILE_STATE t = tsMaintenance →
     ((pass && !(s.core t).halted) = true ∨ s.rd fOCA_TILE_MAINT_PROGRAM t ≠ 1) →
     Leads (.maintProgramEnd t pass) s (s.kept ((s.maintEnd t (pass && !(s.core t).halted)).wr fOCA_TILE_STATE t
       tsSpare))) ∧
  (∀ (s : State) (t : Nat) (pass : Bool),
     s.running = true →
     s.rd fOCA_TILE_STATE t = tsMaintenance →
     (pass && !(s.core t).halted) = false →
     s.rd fOCA_TILE_MAINT_PROGRAM t = 1 →
     Leads (.maintProgramEnd t pass) s (s.kept (((s.maintEnd t false).wr fOCA_TILE_STATE t tsFailed).raise 4 3))) ∧
  (∀ (s : State) (t : Nat) (target : Nat) (double : Bool) (u : State),
     s.reaches 0 = true →
     s.ready 4 = true →
     u = s.atRegion 4 0x900 →
     u.rd fEXPERT_UNLOCK_UNLOCKED 4 = 1 →
     u.rd fOCA_TILE_STATE t = tsMaintenance →
     target < 3 →
     Leads (.ocaEccInject t target double) s (s.kept (u.onCore t (fun (c : Core) => { c with
         armed := c.armed.filter (fun a => a.1 ≠ target) ++ [(target, double)] })))) ∧
  (∀ (s : State) (t : Nat) (target : Nat) (double : Bool) (u : State),
     s.reaches 0 = true →
     s.ready 4 = true →
     u = s.atRegion 4 0x900 →
     u.rd fEXPERT_UNLOCK_UNLOCKED 4 = 1 →
     (u.rd fOCA_TILE_STATE t ≠ tsMaintenance ∨ 3 ≤ target) →
     Leads (.ocaEccInject t target double) s (s.kept (u.notice 4 t))) ∧
  (∀ (s : State) (t : Nat) (target : Nat) (double : Bool) (u : State),
     s.reaches 0 = true →
     s.ready 4 = true →
     u = s.atRegion 4 0x900 →
     u.rd fEXPERT_UNLOCK_UNLOCKED 4 ≠ 1 →
     Leads (.ocaEccInject t target double) s (s.kept (u.wr fEXPERT_UNLOCK_DENIED 4 1))) ∧
  (∀ (s : State) (t : Nat) (i : Nat),
     s.tileLive t = true →
     (s.deferredFault t i).isSome = true →
     Leads (.deferredFault t i) s (s.kept (s.takeDeferred t i))) ∧
  (∀ (s : State) (t : Nat) (found : Bool),
     s.running = true →
     (s.badFetch t found).isSome = true →
     Leads (.uncorrectableFetch t found) s (s.kept (s.uncorrectableFetch t found))) ∧
  (∀ (s : State) (t : Nat),
     s.tileLive t = true →
     (s.core t).vectorReady = true →
     Leads (.vectorStart t) s (s.outsideCores ((s.vectorStart t).checkRange t))) ∧
  (∀ (s : State) (t : Nat) (i : Nat) (found : Nat),
     s.tileLive t = true →
     i < (s.core t).accs.length →
     Leads (.hbmAccessPerformed t i found) s (s.outsideCores ((s.accPerform t i found).checkRange t))) ∧
  (∀ (s : State) (t : Nat) (i : Nat) (found : Nat),
     s.tileLive t = true →
     (s.core t).accs.length ≤ i →
     Leads (.hbmAccessPerformed t i found) s (s.outsideCores ((s.fetchLine t found).checkRange t)))

/-- A pegged task of a match or Mangle node runs on its engine where its run goes on, its function may use HBM and the
engine's subsystem takes work, and one of a MOVE node where the side of the link it uses is also free and its
channel is not stalled: the work of its kind is done and its result kept. A task whose work is done ends with that
result, and frees its channel or engine. A descriptor job at the head of an engine that is clear for its function
runs, and when it has run its state record and result record are written and it ends. A bank whose 4,096 cycles have
passed is free again, or is replaced where it leaves service. A scrub pass compares the next entry of a bank. An
injected error changes an entry, is ignored where there is none, and is noticed where the bank holds no table; a
locked page sets DENIED. An engine's clear ends 4,096 ticks after it became idle or the staged job came, whichever
is later. An injected error is armed for an engine, or noticed where there is none. A marked engine is swapped while
no other swap runs. (R299, R304, R306, R314, R316, R319, R320, R321, R328, R345, R349, R464) -/
def Obligations.EngineCommandsComplete : Prop :=
  (∀ (s : State) (k : Nat),
     s.engineReady k [4] = true →
     s.starts 8 = true →
     Leads (.matchBuildTask k) s (s.kept (s.engineTask k 8 buildJob))) ∧
  (∀ (s : State) (k : Nat),
     s.engineReady k [5] = true →
     s.starts 8 = true →
     Leads (.matchProbeTask k) s (s.kept (s.engineTask k 8 probeJob))) ∧
  (∀ (s : State) (k : Nat) (e : Nat) (x : Task) (u : State),
     s.engineReady k [2] = true →
     s.starts 9 = true →
     s.engineOfTask k = some e →
     s.task k = some x →
     u = s.engineTakes e x.fn →
     Leads (.decompTask k) s (s.kept ((u.engineTask k 9 (decompJob e)).checkFail ((((u.engineTask k 9 (decompJob
       e)).task k).bind Task.result).getD (0, 0, [])).1))) ∧
  (∀ (s : State) (k : Nat) (e : Nat) (x : Task) (u : State),
     s.engineReady k [3] = true →
     s.starts 9 = true →
     s.engineOfTask k = some e →
     s.task k = some x →
     u = s.engineTakes e x.fn →
     Leads (.compTask k) s (s.kept ((u.engineTask k 9 (compJob e)).checkFail ((((u.engineTask k 9 (compJob e)).task
       k).bind Task.result).getD (0, 0, [])).1))) ∧
  (∀ (s : State) (k : Nat) (host : Nat) (c : Nat) (x : Task),
     s.engineReady k [6] = true →
     s.starts 7 = true →
     s.task k = some x →
     s.moveDir x = 0 →
     s.rxFree x.fn = true →
     s.channelOfTask k = some c →
     s.chStalled c = false →
     Leads (.moveTaskIn k host) s (s.kept (s.engineTask k 0 (fun (x : Task) (r : Run) (g : Graph) => moveInJob c host
       x r g)))) ∧
  (∀ (s : State) (k : Nat) (host : Nat) (c : Nat) (x : Task),
     s.engineReady k [6] = true →
     s.starts 7 = true →
     s.task k = some x →
     s.moveDir x = 1 →
     s.txFree x.fn = true →
     s.channelOfTask k = some c →
     s.chStalled c = false →
     Leads (.moveTaskOut k host) s (s.kept (s.engineTask k 0 (fun (x : Task) (r : Run) (g : Graph) => moveOutJob c
       host x r g)))) ∧
  (∀ (s : State) (k : Nat) (tb : Nat) (x : Task) (r : Nat × Nat × List (Nat × Token)),
     s.running = true →
     s.task k = some x →
     x.result = some r →
     x.place = .amu tb →
     Leads (.engineJobEnd 0 k) s (s.kept (s.endTask k r.1 r.2.1 8 r.2.2))) ∧
  (∀ (s : State) (k : Nat) (c : Nat) (x : Task) (r : Nat × Nat × List (Nat × Token)),
     s.running = true →
     s.task k = some x →
     x.result = some r →
     x.place = .halyard c →
     Leads (.engineJobEnd 0 k) s (s.kept (((s.lastStatus c r.1 r.2.1).nextJob c).endTask k r.1 r.2.1 7 r.2.2))) ∧
  (∀ (s : State) (k : Nat) (e : Nat) (x : Task) (r : Nat × Nat × List (Nat × Token)),
     s.running = true →
     s.task k = some x →
     x.result = some r →
     x.place = .mangle e →
     Leads (.engineJobEnd 0 k) s (s.kept ((s.engineIdle e).endTask k r.1 r.2.1 9 r.2.2))) ∧
  (∀ (s : State) (e : Nat) (j : MglJob) (r : MglResult) (p : MglResult × State),
     s.running = true →
     (s.engineJobs e).head? = some j →
     j.result = some r →
     p = (s.engineIdle e).saveState j.fn r →
     Leads (.engineJobEnd 1 e) s (s.kept (p.2.endDesc j p.1))) ∧
  (∀ (s : State) (b : Nat) (t0 : Nat),
     s.running = true →
     s.rd fAMU_BANK_STATE b = 1 →
     find s.amu.clearAt b = some t0 →
     t0 + 4096 ≤ s.clk.tsu →
     s.bankGoes b = false →
     Leads (.bankClearDone b) s (s.kept (({ s with amu := { s.amu with clearAt := del s.amu.clearAt b } } : State).wr
       fAMU_BANK_STATE b 0))) ∧
  (∀ (s : State) (b : Nat) (t0 : Nat),
     s.running = true →
     s.rd fAMU_BANK_STATE b = 1 →
     find s.amu.clearAt b = some t0 →
     t0 + 4096 ≤ s.clk.tsu →
     s.bankGoes b = true →
     s.starts 15 = true →
     Leads (.bankClearDone b) s (s.kept (({ s with amu := { s.amu with clearAt := del s.amu.clearAt b } } :
       State).replaceBank b))) ∧
  (∀ (s : State) (b : Nat) (found : Nat) (kt : Nat × AmuTable),
     s.running = true →
     s.ready 8 = true →
     s.tableOf b = some kt →
     Leads (.amuScrubEntry b found) s (s.kept (s.scrubEntry b found))) ∧
  (∀ (s : State) (b : Nat) (e : Nat) (x : AmuEntry) (u : State),
     s.reaches 0 = true →
     s.ready 8 = true →
     u = s.atRegion 8 0x904 →
     u.rd fEXPERT_UNLOCK_UNLOCKED 8 = 1 →
     (u.tableOf b).isSome = true →
     u.amuEntry b e = some x →
     Leads (.amuInject b e true) s (s.kept (u.putEntry b e { x with bad := true }))) ∧
  (∀ (s : State) (b : Nat) (e : Nat) (x : AmuEntry) (u : State),
     s.reaches 0 = true →
     s.ready 8 = true →
     u = s.atRegion 8 0x904 →
     u.rd fEXPERT_UNLOCK_UNLOCKED 8 = 1 →
     (u.tableOf b).isSome = true →
     u.amuEntry b e = some x →
     Leads (.amuInject b e false) s (s.kept ((u.putEntry b e
       { x with cells := x.cells ^^^ 2 ^ (u.free % 64) }).drawn))) ∧
  (∀ (s : State) (b : Nat) (e : Nat) (copyBits : Bool) (u : State),
     s.reaches 0 = true →
     s.ready 8 = true →
     u = s.atRegion 8 0x904 →
     u.rd fEXPERT_UNLOCK_UNLOCKED 8 = 1 →
     (u.tableOf b).isSome = true →
     u.amuEntry b e = none →
     Leads (.amuInject b e copyBits) s (s.kept (u))) ∧
  (∀ (s : State) (b : Nat) (e : Nat) (copyBits : Bool) (u : State),
     s.reaches 0 = true →
     s.ready 8 = true →
     u = s.atRegion 8 0x904 →
     u.rd fEXPERT_UNLOCK_UNLOCKED 8 = 1 →
     u.tableOf b = none →
     Leads (.amuInject b e copyBits) s (s.kept (u.notice 8 b))) ∧
  (∀ (s : State) (b : Nat) (e : Nat) (copyBits : Bool) (u : State),
     s.reaches 0 = true →
     s.ready 8 = true →
     u = s.atRegion 8 0x904 →
     u.rd fEXPERT_UNLOCK_UNLOCKED 8 ≠ 1 →
     Leads (.amuInject b e copyBits) s (s.kept (u.wr fEXPERT_UNLOCK_DENIED 8 1))) ∧
  (∀ (s : State) (e : Nat) (p : Nat) (j : MglJob),
     s.running = true →
     (s.engineJobs e).head? = some j →
     s.engineClear e j.fn = false →
     getD 0 s.mgl.idleAt e + 4096 ≤ s.clk.tsu →
     j.since + 4096 ≤ s.clk.tsu →
     s.physEngine e = some p →
     Leads (.engineClearDone e) s (s.kept (s.clearEngine p))) ∧
  (∀ (s : State) (e : Nat) (p : Nat),
     s.running = true →
     s.engineJobs e = [] →
     s.physEngine e = some p →
     s.rd fMGL_ENGINE_FN_VALID p = 1 →
     getD 0 s.mgl.idleAt e + 4096 ≤ s.clk.tsu →
     Leads (.engineClearDone e) s (s.kept (s.clearEngine p))) ∧
  (∀ (s : State) (e : Nat) (j : MglJob),
     s.descReady e = true →
     (s.engineJobs e).head? = some j →
     fieldAt j.bytes 0 1 ≠ 2 →
     Leads (.decompress e) s (s.kept (s.descRun e))) ∧
  (∀ (s : State) (e : Nat) (j : MglJob),
     s.descReady e = true →
     (s.engineJobs e).head? = some j →
     fieldAt j.bytes 0 1 = 2 →
     Leads (.compress e) s (s.kept (s.descRun e))) ∧
  (∀ (s : State) (p : Nat) (u : State),
     s.reaches 0 = true →
     s.ready 9 = true →
     u = s.atRegion 9 0x904 →
     u.rd fEXPERT_UNLOCK_UNLOCKED 9 = 1 →
     p < 18 →
     Leads (.mglInject p) s (s.kept ({ u with
         mgl := { u.mgl with inject := if u.mgl.inject.contains p then u.mgl.inject else u.mgl.inject ++ [p] } }))) ∧
  (∀ (s : State) (p : Nat) (u : State),
     s.reaches 0 = true →
     s.ready 9 = true →
     u = s.atRegion 9 0x904 →
     u.rd fEXPERT_UNLOCK_UNLOCKED 9 = 1 →
     18 ≤ p →
     Leads (.mglInject p) s (s.kept (u.notice 9 p))) ∧
  (∀ (s : State) (p : Nat) (u : State),
     s.reaches 0 = true →
     s.ready 9 = true →
     u = s.atRegion 9 0x904 →
     u.rd fEXPERT_UNLOCK_UNLOCKED 9 ≠ 1 →
     Leads (.mglInject p) s (s.kept (u.wr fEXPERT_UNLOCK_DENIED 9 1))) ∧
  (∀ (s : State) (p : Nat),
     s.ready 9 = true →
     s.starts 15 = true →
     s.darn.current = none →
     s.engineMarked = some p →
     Leads .engineSwap s (s.kept (s.engineSwap p)))

/-- A COPY entry at hand completes with the status of its checks, takes a free slot of its channel, or waits; so does a
MANGLE_JOB, and a descriptor job at the head of its queue's channel is handed to an engine. A channel is configured,
or the write is noticed. START of a channel that is not in register mode, or not IDLE, is noticed; it else leaves
the status of its checks or begins the transfer. CLEAR takes a HALTED channel of register mode to IDLE, and does
nothing else. STOP is noticed of a queue-mode channel, stops an ARMED or ACTIVE one, and does nothing to another. A
burst starts when it may. The oldest burst moves its bytes and the channel settles, unless its HBM side fails; then
the channel halts, as it does where its host side fails. 10 us after a stop the bursts that are open are dropped. An
event pulse adds a request to each channel that selects its line, or is lost with cause 4 where 15 wait. (R342,
R343, R345, R348, R349, R353, R355, R357, R358, R360, R363, R364) -/
def Obligations.HalyardCommandsComplete : Prop :=
  (∀ (s : State) (fn : Nat) (qid : Nat) (e : Entry) (x : Nat × Nat),
     s.halStarts = true →
     s.moveEntry fn qid false = some e →
     s.moveError fn e.line = some x →
     Leads (.copy fn qid) s (s.kept (s.complete ⟨fn, qid, e.tag⟩ x.1 x.2 0 0))) ∧
  (∀ (s : State) (fn : Nat) (qid : Nat) (e : Entry) (c : Nat),
     s.halStarts = true →
     s.moveEntry fn qid false = some e →
     s.moveError fn e.line = none →
     s.moveChannel fn e.line = some c →
     Leads (.copy fn qid) s (s.kept ((s.addJob c ⟨fn, .copy qid e.tag, copyXfer e.line, 0, 0, [], none,
       false⟩).setStage ⟨fn, qid, e.tag⟩ .started))) ∧
  (∀ (s : State) (fn : Nat) (qid : Nat) (e : Entry),
     s.halStarts = true →
     s.moveEntry fn qid false = some e →
     s.moveError fn e.line = none →
     s.moveChannel fn e.line = none →
     Leads (.copy fn qid) s (s.kept (s))) ∧
  (∀ (s : State) (fn : Nat) (qid : Nat),
     s.halStarts = true →
     Leads (.mangleJob fn qid) s (s.kept (s.mangleJob fn qid))) ∧
  (∀ (s : State) (c : Nat) (v : Nat) (u : State),
     s.reaches 0 = true →
     s.ready 7 = true →
     c < 64 →
     u = s.atRegion 7 (0x10000 + 64 * c) →
     u.cfgRefused c v = false →
     Leads (.halChCfg c v) s (s.kept ((((((u.wr fHAL_CH_CFG_ASSIGNED c (bitField v 0 1)).wr fHAL_CH_CFG_MODE c
       (bitField v 1 1)).wr fHAL_CH_CFG_COMPAT c (bitField v 2 1)).wr fHAL_CH_CFG_IRQ_EN c (bitField v 3 1)).wr
         fHAL_CH_CFG_FN c (bitField v 4 11)).wr fHAL_CH_CFG_VECTOR c (bitField v 16 11)))) ∧
  (∀ (s : State) (c : Nat) (v : Nat) (u : State),
     s.reaches 0 = true →
     s.ready 7 = true →
     c < 64 →
     u = s.atRegion 7 (0x10000 + 64 * c) →
     u.cfgRefused c v = true →
     Leads (.halChCfg c v) s (s.kept (u.notice 7 c))) ∧
  (∀ (s : State) (c : Nat) (u : State),
     s.reaches 0 = true →
     s.ready 7 = true →
     c < 64 →
     u = s.atRegion 7 (0x1000C + 64 * c) →
     u.rd fHAL_CH_CFG_MODE c ≠ 0 →
     u.chState c = chIdle →
     codesBad (u.rd fHAL_CH_FORMAT_SW c) (u.rd fHAL_CH_FORMAT_DW c) (u.rd fHAL_CH_FORMAT_SRC_SPACE c) (u.rd
       fHAL_CH_FORMAT_DST_SPACE c) = false →
     u.xferError (u.regXfer c) = none →
     Leads (.start c) s (s.kept (u.addJob c ⟨0, .register, u.regXfer c, 0, 0, [], none, false⟩))) ∧
  (∀ (s : State) (c : Nat) (u : State),
     s.reaches 0 = true →
     s.ready 7 = true →
     c < 64 →
     u = s.atRegion 7 (0x1000C + 64 * c) →
     (u.rd fHAL_CH_CFG_MODE c = 0 ∨ u.chState c ≠ chIdle) →
     Leads (.start c) s (s.kept (u.notice 7 c))) ∧
  (∀ (s : State) (c : Nat) (u : State),
     s.reaches 0 = true →
     s.ready 7 = true →
     c < 64 →
     u = s.atRegion 7 (0x1000C + 64 * c) →
     u.rd fHAL_CH_CFG_MODE c ≠ 0 →
     u.chState c = chIdle →
     codesBad (u.rd fHAL_CH_FORMAT_SW c) (u.rd fHAL_CH_FORMAT_DW c) (u.rd fHAL_CH_FORMAT_SRC_SPACE c) (u.rd
       fHAL_CH_FORMAT_DST_SPACE c) = true →
     Leads (.start c) s (s.kept (u.lastStatus c 0x10 0x70))) ∧
  (∀ (s : State) (c : Nat) (x : Nat × Nat) (u : State),
     s.reaches 0 = true →
     s.ready 7 = true →
     c < 64 →
     u = s.atRegion 7 (0x1000C + 64 * c) →
     u.rd fHAL_CH_CFG_MODE c ≠ 0 →
     u.chState c = chIdle →
     codesBad (u.rd fHAL_CH_FORMAT_SW c) (u.rd fHAL_CH_FORMAT_DW c) (u.rd fHAL_CH_FORMAT_SRC_SPACE c) (u.rd
       fHAL_CH_FORMAT_DST_SPACE c) = false →
     u.xferError (u.regXfer c) = some x →
     Leads (.start c) s (s.kept (u.lastStatus c x.1 x.2))) ∧
  (∀ (s : State) (c : Nat) (u : State),
     s.reaches 0 = true →
     s.ready 7 = true →
     c < 64 →
     u = s.atRegion 7 (0x1000C + 64 * c) →
     u.chState c = chHalted →
     u.rd fHAL_CH_CFG_MODE c = 1 →
     Leads (.clear c) s (s.kept (u.setChState c chIdle))) ∧
  (∀ (s : State) (c : Nat) (u : State),
     s.reaches 0 = true →
     s.ready 7 = true →
     c < 64 →
     u = s.atRegion 7 (0x1000C + 64 * c) →
     (u.chState c ≠ chHalted ∨ u.rd fHAL_CH_CFG_MODE c ≠ 1) →
     Leads (.clear c) s (s.kept (u))) ∧
  (∀ (s : State) (c : Nat) (u : State),
     s.reaches 0 = true →
     s.ready 7 = true →
     c < 64 →
     u = s.atRegion 7 (0x1000C + 64 * c) →
     u.rd fHAL_CH_CFG_MODE c ≠ 0 →
     (u.chState c = chArmed ∨ u.chState c = chActive) →
     Leads (.stop c) s (s.kept (u.drawn.stopJob c (u.free % 256) (u.free / 256 % 256)))) ∧
  (∀ (s : State) (c : Nat) (u : State),
     s.reaches 0 = true →
     s.ready 7 = true →
     c < 64 →
     u = s.atRegion 7 (0x1000C + 64 * c) →
     u.rd fHAL_CH_CFG_MODE c = 0 →
     Leads (.stop c) s (s.kept (u.notice 7 c))) ∧
  (∀ (s : State) (c : Nat) (u : State),
     s.reaches 0 = true →
     s.ready 7 = true →
     c < 64 →
     u = s.atRegion 7 (0x1000C + 64 * c) →
     u.rd fHAL_CH_CFG_MODE c ≠ 0 →
     u.chState c ≠ chArmed →
     u.chState c ≠ chActive →
     Leads (.stop c) s (s.kept (u))) ∧
  (∀ (s : State) (c : Nat) (level : Bool),
     s.burstReady c level = true →
     Leads (.burstStart c level) s (s.kept (s.burstStart c))) ∧
  (∀ (s : State) (c : Nat) (j : HalJob) (rest : List HalJob) (b : Burst),
     s.running = true →
     s.chJobs c = j :: rest →
     j.bursts.head? = some b →
     s.burstBad j b = none →
     Leads (.burstEnd c) s (s.kept ((s.burstMoved c rest j b.len).settle c))) ∧
  (∀ (s : State) (c : Nat) (j : HalJob) (rest : List HalJob) (b : Burst),
     s.running = true →
     s.chJobs c = j :: rest →
     j.bursts.head? = some b →
     s.burstBad j b ≠ none →
     Leads (.burstEnd c) s (s.kept (s))) ∧
  (∀ (s : State) (c : Nat) (host : Nat) (j : HalJob) (rest : List HalJob) (b : Burst) (e : Nat × Nat × Nat × Nat),
     s.running = true →
     s.chJobs c = j :: rest →
     j.bursts.head? = some b →
     s.burstBad j b = some e →
     Leads (.channelHalt c host) s (s.kept (s.chHalt c rest j e.1 e.2.1 e.2.2.1 e.2.2.2 false))) ∧
  (∀ (s : State) (c : Nat) (host : Nat) (j : HalJob) (rest : List HalJob) (b : Burst) (e : Nat × Nat) (es : List Nat)
    (i : Nat),
     s.running = true →
     s.chJobs c = j :: rest →
     j.bursts.head? = some b →
     s.burstBad j b = none →
     hostFailure host = some e →
     j.x.srcHost = true →
     es = j.x.srcElems b.off b.len →
     i = s.free % max 1 es.length →
     Leads (.channelHalt c host) s (s.kept (s.drawn.chHalt c rest j (i * j.x.sw) (es.getD i 0) e.1 e.2 true))) ∧
  (∀ (s : State) (c : Nat) (host : Nat) (j : HalJob) (rest : List HalJob) (b : Burst) (e : Nat × Nat) (es : List Nat)
    (i : Nat),
     s.running = true →
     s.chJobs c = j :: rest →
     j.bursts.head? = some b →
     s.burstBad j b = none →
     hostFailure host = some e →
     j.x.srcHost = false →
     j.x.dstHost = true →
     e.1 = 0x22 →
     es = j.x.dstElems b.off b.len →
     i = s.free % max 1 es.length →
     Leads (.channelHalt c host) s (s.kept (s.drawn.chHalt c rest j (i * j.x.dw) (es.getD i 0) e.1 e.2 true))) ∧
  (∀ (s : State) (c : Nat) (j : HalJob) (rest : List HalJob) (t0 : Nat),
     s.running = true →
     s.chState c = chStopping →
     find s.hal.stopAt c = some t0 →
     t0 + ticksOfUs 10 ≤ s.clk.tsu →
     s.chJobs c = j :: rest →
     Leads (.stopTimeout c) s (s.kept (({ s.setChJobs c ({ j with bursts := [] } :: rest) with
         hal := { (s.setChJobs c ({ j with bursts := [] } :: rest)).hal with stopAt := del s.hal.stopAt c } } :
       State).settle c))) ∧
  (∀ (s : State) (line : Nat),
     s.running = true →
     s.ready 7 = true →
     line < 16 →
     Leads (.eventPulse line) s (s.kept (s.eventPulse line)))

/-- A handed VOLUME entry is checked and accepted. The FIFO admits its next command, whose pages are translated now, and
starts what may start. A drive's answer ends the command it names, for a volume command or a DRIVE_ADMIN, unless a
read brings another number of bytes; in the shutdown of a warm reset nothing of it is used. A volume command past
the drive limit is counted and logged, and its member is lost where it was issued again or the controller does not
come back; else the port's commands are issued again. Rebuild works stripe by stripe at its spacing, resync where no
member is missing. CREATE, DESTROY, ADD_SPARE and REMOVE_SPARE act where their conditions hold and are refused
otherwise. A reservation of locks or commands is written within its sum, refused and logged above it, and DENIED is
set in a locked page. (R371, R372, R375, R376, R380, R381, R384, R386, R387, R388, R389, R73) -/
def Obligations.VolumeCommandsComplete : Prop :=
  (∀ (s : State) (fn : Nat) (qid : Nat) (host : Nat) (e : Entry),
     s.cvcAwake = true →
     s.handedEntry fn qid 2 = some e →
     entryOpcode e.line = 1 →
     Leads (.read fn qid host) s (s.kept (s.acceptVol fn qid 1 host e))) ∧
  (∀ (s : State) (fn : Nat) (qid : Nat) (host : Nat) (e : Entry),
     s.cvcAwake = true →
     s.handedEntry fn qid 2 = some e →
     entryOpcode e.line = 2 →
     Leads (.write fn qid host) s (s.kept (s.acceptVol fn qid 2 host e))) ∧
  (∀ (s : State) (fn : Nat) (qid : Nat) (e : Entry),
     s.cvcAwake = true →
     s.handedEntry fn qid 2 = some e →
     entryOpcode e.line = 3 →
     Leads (.flush fn qid) s (s.kept (s.acceptVol fn qid 3 0 e))) ∧
  (∀ (s : State) (fn : Nat) (qid : Nat) (e : Entry),
     s.cvcAwake = true →
     s.handedEntry fn qid 2 = some e →
     entryOpcode e.line = 4 →
     Leads (.deallocate fn qid) s (s.kept (s.acceptVol fn qid 4 0 e))) ∧
  (∀ (s : State),
     s.cvcAwake = true →
     s.admitNext = none →
     Leads .admission s (s.kept (s.pump))) ∧
  (∀ (s : State) (n : Nat) (c : VolCmd),
     s.cvcAwake = true →
     s.admitNext = some (n, c) →
     c.host = true →
     Leads .admission s (s.kept ((s.setVcmd n { c with stage := .admitted }).pump))) ∧
  (∀ (s : State) (n : Nat) (c : VolCmd) (p : List (Nat × Nat)),
     s.cvcAwake = true →
     s.admitNext = some (n, c) →
     c.host = false →
     s.physSegs c.fn (if c.kind = .write then .read else .write) (pagedSegs c.segs) = .ok p →
     Leads .admission s (s.kept ((s.setVcmd n { c with stage := .admitted, segs := p }).pump))) ∧
  (∀ (s : State) (n : Nat) (c : VolCmd) (e : Nat),
     s.cvcAwake = true →
     s.admitNext = some (n, c) →
     c.host = false →
     s.physSegs c.fn (if c.kind = .write then .read else .write) (pagedSegs c.segs) = .error e →
     Leads .admission s (s.kept ((((s.countFault c.fn).setVcmd n (c.failed 0x22 e)).finishVol n).pump))) ∧
  (∀ (s : State) (tag : Nat) (status : Nat) (dword0 : Nat) (data : List Byte) (d : DriveCmd),
     s.dspActs = true →
     s.board.pwrGood = true →
     s.cvc.drv.find? (fun (d : DriveCmd) => decide (d.tag = tag)) = some d →
     ¬ (status = 0 ∧ d.op = 2 ∧ data.length ≠ 4096 * d.count) →
     Leads (.driveCompletion tag status dword0 data) s (s.kept (s.driveDone d status data))) ∧
  (∀ (s : State) (tag : Nat) (status : Nat) (dword0 : Nat) (data : List Byte) (d : DriveCmd),
     s.dspActs = true →
     s.board.pwrGood = true →
     s.cvc.drv.find? (fun (d : DriveCmd) => decide (d.tag = tag)) = some d →
     status = 0 →
     d.op = 2 →
     data.length ≠ 4096 * d.count →
     Leads (.driveCompletion tag status dword0 data) s (s.kept (s))) ∧
  (∀ (s : State) (tag : Nat) (status : Nat) (dword0 : Nat) (data : List Byte) (j : AdminJob),
     s.dspActs = true →
     s.board.pwrGood = true →
     s.cvc.drv.find? (fun (d : DriveCmd) => decide (d.tag = tag)) = none →
     s.cvc.admin = some j →
     j.tag = tag →
     Leads (.driveCompletion tag status dword0 data) s (s.kept (s.adminDone j status dword0 data))) ∧
  (∀ (s : State) (tag : Nat) (status : Nat) (dword0 : Nat) (data : List Byte),
     s.board.phase = .warm →
     s.board.pwrGood = true →
     Leads (.driveCompletion tag status dword0 data) s (s.kept ({ s with
         cvc := { s.cvc with
             drv := s.cvc.drv.filter (fun (d : DriveCmd) => decide (d.tag ≠ tag)),
             admin := if s.cvc.admin.any (fun (j : AdminJob) => decide (j.tag = tag)) then none else s.cvc.admin } }))) ∧
  (∀ (s : State) (tag : Nat) (reinit : Bool) (d : DriveCmd) (u : State) (v : State),
     s.dspActs = true →
     s.cvc.drv.find? (fun (d : DriveCmd) => decide (d.tag = tag)) = some d →
     d.since + s.driveLimit ≤ s.clk.tsu →
     u = (s.bumpSat fCVC_MEDIA_TIMEOUTS 0 1).bumpSat fDSP_PORT_TIMEOUTS d.port 1 →
     v = u.fault 11 { u.entry 11 1 with status := 0x40, sub := 0x03, unit := d.port, cause := 3 } →
     d.again = false →
     reinit = true →
     Leads (.driveTimeout tag reinit) s (s.kept (v.reissue d.port))) ∧
  (∀ (s : State) (tag : Nat) (reinit : Bool) (d : DriveCmd) (u : State) (v : State),
     s.dspActs = true →
     s.cvc.drv.find? (fun (d : DriveCmd) => decide (d.tag = tag)) = some d →
     d.since + s.driveLimit ≤ s.clk.tsu →
     u = (s.bumpSat fCVC_MEDIA_TIMEOUTS 0 1).bumpSat fDSP_PORT_TIMEOUTS d.port 1 →
     v = u.fault 11 { u.entry 11 1 with status := 0x40, sub := 0x03, unit := d.port, cause := 3 } →
     d.again = false →
     reinit = false →
     Leads (.driveTimeout tag reinit) s (s.kept (v.memberLost d.port 0x02))) ∧
  (∀ (s : State) (tag : Nat) (reinit : Bool) (d : DriveCmd) (u : State) (v : State),
     s.dspActs = true →
     s.cvc.drv.find? (fun (d : DriveCmd) => decide (d.tag = tag)) = some d →
     d.since + s.driveLimit ≤ s.clk.tsu →
     u = (s.bumpSat fCVC_MEDIA_TIMEOUTS 0 1).bumpSat fDSP_PORT_TIMEOUTS d.port 1 →
     v = u.fault 11 { u.entry 11 1 with status := 0x40, sub := 0x03, unit := d.port, cause := 3 } →
     d.again = true →
     Leads (.driveTimeout tag reinit) s (s.kept (v.memberLost d.port 0x03))) ∧
  (∀ (s : State) (tag : Nat) (reinit : Bool) (d : DriveCmd),
     s.dspActs = true →
     s.cvc.drv.find? (fun (d : DriveCmd) => decide (d.tag = tag)) = some d →
     s.clk.tsu < d.since + s.driveLimit →
     Leads (.driveTimeout tag reinit) s (s.kept (s))) ∧
  (∀ (s : State) (tag : Nat) (reinit : Bool) (j : AdminJob),
     s.dspActs = true →
     s.cvc.drv.find? (fun (d : DriveCmd) => decide (d.tag = tag)) = none →
     s.cvc.admin = some j →
     j.tag = tag →
     j.since + s.driveLimit ≤ s.clk.tsu →
     Leads (.driveTimeout tag reinit) s (s.kept ((((s.bumpSat fCVC_MEDIA_TIMEOUTS 0 1).bumpSat fDSP_PORT_TIMEOUTS
       j.port 1).raise 11 3).driveAdminEnd j 0x40 0x03 0 0))) ∧
  (∀ (s : State) (v : Volume),
     s.cvcAwake = true →
     s.ready 10 = true →
     s.volState = 3 →
     s.internalBusy .rebuild = false →
     s.cvc.vol = some v →
     s.cvc.rebuildAt + s.rebuildSpacing v ≤ s.clk.tsu →
     Leads .rebuildStripe s (s.kept ((({ s with cvc := { s.cvc with rebuildAt := s.clk.tsu } } : State).accept
       (internalCmd v .rebuild s.rebuildPos)).pump))) ∧
  (∀ (s : State) (v : Volume) (st : Nat) (n : Nat) (rest : List (Nat × Nat)),
     s.cvcAwake = true →
     s.ready 10 = true →
     s.internalBusy .resync = false →
     s.cvc.vol = some v →
     v.resync = (st, n) :: rest →
     v.missing = [] →
     Leads .resyncStripe s (s.kept ((s.accept (internalCmd v .resync st)).pump))) ∧
  (∀ (s : State) (d : State),
     s.reaches 0 = true →
     s.ready 10 = true →
     d = s.atRegion 10 0x88 →
     d.createBad d.cfgVolume = true →
     Leads .create s (s.kept (d.opRefused))) ∧
  (∀ (s : State) (d : State),
     s.reaches 0 = true →
     s.ready 10 = true →
     d = s.atRegion 10 0x88 →
     d.createBad d.cfgVolume = false →
     Leads .create s (s.kept ((d.volumeCreated d.cfgVolume).opDone))) ∧
  (∀ (s : State) (d : State),
     s.reaches 0 = true →
     s.ready 10 = true →
     d = s.atRegion 10 0x88 →
     d.anyGrant = false →
     (∀ nc ∈ d.cvc.cmds, nc.2.internal = true) →
     d.cvc.vol = none →
     Leads .destroy s (s.kept (d.opDone))) ∧
  (∀ (s : State) (d : State),
     s.reaches 0 = true →
     s.ready 10 = true →
     d = s.atRegion 10 0x88 →
     d.anyGrant = true →
     Leads .destroy s (s.kept (d.opRefused))) ∧
  (∀ (s : State) (d : State),
     s.reaches 0 = true →
     s.ready 10 = true →
     d = s.atRegion 10 0x88 →
     (d.cvc.cmds.any (fun (nc : Nat × VolCmd) => !nc.2.internal)) = true →
     Leads .destroy s (s.kept (d.opRefused))) ∧
  (∀ (s : State) (v : Volume) (d : State),
     s.reaches 0 = true →
     s.ready 10 = true →
     d = s.atRegion 10 0x88 →
     d.anyGrant = false →
     (∀ nc ∈ d.cvc.cmds, nc.2.internal = true) →
     d.cvc.vol = some v →
     Leads .destroy s (s.kept ((d.volumeDestroyed v).opDone))) ∧
  (∀ (s : State) (p : Nat) (d : State),
     s.reaches 0 = true →
     s.ready 10 = true →
     d = s.atRegion 10 0x88 →
     d.cvc.vol = none →
     Leads (.addSpare p) s (s.kept (d.opRefused))) ∧
  (∀ (s : State) (p : Nat) (v : Volume) (d : State),
     s.reaches 0 = true →
     s.ready 10 = true →
     d = s.atRegion 10 0x88 →
     d.cvc.vol = some v →
     (v.spare ≠ none ∨ d.portReady p = false ∨ d.rd fDSP_PORT_ROLE p = 1 ∨ d.rd fDSP_PORT_ROLE p = 2 ∨ v.spareFits
       (d.drive p).blocks = false ∨ 8 ≤ v.members) →
     Leads (.addSpare p) s (s.kept (d.opRefused))) ∧
  (∀ (s : State) (p : Nat) (v : Volume) (u : State) (d : State),
     s.reaches 0 = true →
     s.ready 10 = true →
     d = s.atRegion 10 0x88 →
     d.cvc.vol = some v →
     v.spare = none →
     d.portReady p = true →
     d.rd fDSP_PORT_ROLE p ≠ 1 →
     d.rd fDSP_PORT_ROLE p ≠ 2 →
     v.spareFits (d.drive p).blocks = true →
     v.members < 8 →
     u = (((d.sendPlain p 1 0 256 (List.replicate (4096 * 256) 0)).membership { v with spare := some p }).setRole p 2
       0).opDone →
     Leads (.addSpare p) s (s.kept (if u.volState = 2 then u.startRebuild { v with spare := some p } else u))) ∧
  (∀ (s : State) (d : State),
     s.reaches 0 = true →
     s.ready 10 = true →
     d = s.atRegion 10 0x88 →
     d.cvc.vol = none →
     Leads .removeSpare s (s.kept (d.opRefused))) ∧
  (∀ (s : State) (v : Volume) (d : State),
     s.reaches 0 = true →
     s.ready 10 = true →
     d = s.atRegion 10 0x88 →
     d.cvc.vol = some v →
     v.spare = none →
     Leads .removeSpare s (s.kept (d.opRefused))) ∧
  (∀ (s : State) (v : Volume) (p : Nat) (d : State),
     s.reaches 0 = true →
     s.ready 10 = true →
     d = s.atRegion 10 0x88 →
     d.cvc.vol = some v →
     v.spare = some p →
     d.volState = 3 →
     Leads .removeSpare s (s.kept (d.opRefused))) ∧
  (∀ (s : State) (v : Volume) (p : Nat) (d : State),
     s.reaches 0 = true →
     s.ready 10 = true →
     d = s.atRegion 10 0x88 →
     d.cvc.vol = some v →
     v.spare = some p →
     d.volState ≠ 3 →
     Leads .removeSpare s (s.kept ((((d.sendPlain p 1 0 1 (List.replicate 4096 0)).membership
       { v with spare := none }).setRole p 0 0).opDone))) ∧
  (∀ (s : State) (fn : Nat) (v : Nat) (d : State),
     s.reaches 0 = true →
     s.ready 10 = true →
     fn ≤ 1024 →
     d = s.atRegion 10 (0x10010 + 32 * fn) →
     d.rd fEXPERT_UNLOCK_UNLOCKED 10 = 1 →
     d.lockResvSum - d.rd fCVC_FN_RESV fn + lowBits 10 v ≤ 512 →
     Leads (.cvcFnResv fn v) s (s.kept (d.wr fCVC_FN_RESV fn (lowBits 10 v)))) ∧
  (∀ (s : State) (fn : Nat) (v : Nat) (d : State),
     s.reaches 0 = true →
     s.ready 10 = true →
     fn ≤ 1024 →
     d = s.atRegion 10 (0x10010 + 32 * fn) →
     d.rd fEXPERT_UNLOCK_UNLOCKED 10 = 1 →
     512 < d.lockResvSum - d.rd fCVC_FN_RESV fn + lowBits 10 v →
     Leads (.cvcFnResv fn v) s (s.kept (d.fault 10 { d.entry 10 5 with fn := some fn, cause := 4 }))) ∧
  (∀ (s : State) (fn : Nat) (v : Nat) (d : State),
     s.reaches 0 = true →
     s.ready 10 = true →
     fn ≤ 1024 →
     d = s.atRegion 10 (0x10010 + 32 * fn) →
     d.rd fEXPERT_UNLOCK_UNLOCKED 10 ≠ 1 →
     Leads (.cvcFnResv fn v) s (s.kept (d.wr fEXPERT_UNLOCK_DENIED 10 1))) ∧
  (∀ (s : State) (fn : Nat) (v : Nat) (d : State),
     s.reaches 0 = true →
     s.ready 10 = true →
     fn ≤ 1024 →
     d = s.atRegion 10 (0x10018 + 32 * fn) →
     d.rd fEXPERT_UNLOCK_UNLOCKED 10 = 1 →
     d.cmdResvSum - d.rd fCVC_FN_CMD_RESV fn + lowBits 12 v ≤ 2048 →
     Leads (.cmdResv fn v) s (s.kept (d.wr fCVC_FN_CMD_RESV fn (lowBits 12 v)))) ∧
  (∀ (s : State) (fn : Nat) (v : Nat) (d : State),
     s.reaches 0 = true →
     s.ready 10 = true →
     fn ≤ 1024 →
     d = s.atRegion 10 (0x10018 + 32 * fn) →
     d.rd fEXPERT_UNLOCK_UNLOCKED 10 = 1 →
     2048 < d.cmdResvSum - d.rd fCVC_FN_CMD_RESV fn + lowBits 12 v →
     Leads (.cmdResv fn v) s (s.kept (d.fault 10 { d.entry 10 5 with fn := some fn, cause := 4 }))) ∧
  (∀ (s : State) (fn : Nat) (v : Nat) (d : State),
     s.reaches 0 = true →
     s.ready 10 = true →
     fn ≤ 1024 →
     d = s.atRegion 10 (0x10018 + 32 * fn) →
     d.rd fEXPERT_UNLOCK_UNLOCKED 10 ≠ 1 →
     Leads (.cmdResv fn v) s (s.kept (d.wr fEXPERT_UNLOCK_DENIED 10 1)))

/-- A drive that is removed loses its port, its member and its registers, and bring-up may be done; while the derived
clocks do not run only its pin and its reset change. One that arrives trains where its port may; while PERST_N is
low a drive that could train waits. RETRAIN trains a ready port, DISABLE closes a port that is enabled,
DISABLE_CLEAR opens one that is disabled; each else does nothing. A DRIVE_ADMIN completes with the status of its
check or is sent. A FW_ACTIVATE begins, and goes on when the commands it ends have left CVC. The module enters a
power state where its conditions have held for their timers, and in PS4 tells the drives; it wakes when a condition
breaks; PS_EXIT returns to PS0, counts, opens the carve-outs that waited, and from PS4 wakes the drives. (R58, R63,
R83, R390, R391, R394, R395, R396, R397, R398, R399) -/
def Obligations.DriveCommandsComplete : Prop :=
  (∀ (s : State) (p : Nat),
     p < 8 →
     s.drvHere p = true →
     s.running = true →
     Leads (.driveRemoval p) s (s.kept ((({ s with
         board := { s.board with drvPresent := withoutBit s.board.drvPresent p } } : State).shutPort p (if s.rd
       fDSP_PORT_DISABLE p = 1 then 7 else 0)).checkDone))) ∧
  (∀ (s : State) (p : Nat),
     p < 8 →
     s.drvHere p = true →
     s.running = false →
     Leads (.driveRemoval p) s (s.kept (({ s with
         board := { s.board with drvPresent := withoutBit s.board.drvPresent p } } : State).drvPerst p false))) ∧
  (∀ (s : State) (p : Nat),
     p < 8 →
     s.drvHere p = false →
     s.running = true →
     s.ready 11 = true →
     s.rd fDSP_PORT_DISABLE p = 0 →
     s.drvReleaseAt p ≤ s.clk.now →
     s.board.perstN = true →
     Leads (.driveInsertion p) s (s.kept ((({ s with
         board := { s.board with drvPresent := withBit s.board.drvPresent p } } : State).drvPerst p true).setPort p
       1))) ∧
  (∀ (s : State) (p : Nat),
     p < 8 →
     s.drvHere p = false →
     ¬ (s.running = true ∧ s.ready 11 = true ∧ s.rd fDSP_PORT_DISABLE p = 0 ∧ s.drvReleaseAt p ≤ s.clk.now ∧
       s.board.perstN = true) →
     Leads (.driveInsertion p) s (s.kept (({ s with
         board := { s.board with drvPresent := withBit s.board.drvPresent p } } : State)))) ∧
  (∀ (s : State) (p : Nat) (d : State),
     s.reaches 0 = true →
     s.ready 11 = true →
     p < 8 →
     d = s.atRegion 11 (0x10020 + 64 * p) →
     d.portReady p = true →
     Leads (.retrain p) s (s.kept (d.setPort p 1))) ∧
  (∀ (s : State) (p : Nat) (d : State),
     s.reaches 0 = true →
     s.ready 11 = true →
     p < 8 →
     d = s.atRegion 11 (0x10020 + 64 * p) →
     d.portReady p = false →
     Leads (.retrain p) s (s.kept (d))) ∧
  (∀ (s : State) (p : Nat) (d : State),
     s.reaches 0 = true →
     s.ready 11 = true →
     p < 8 →
     d = s.atRegion 11 (0x10020 + 64 * p) →
     d.rd fDSP_PORT_DISABLE p ≠ 1 →
     Leads (.disable p) s (s.kept (((d.wr fDSP_PORT_DISABLE p 1).shutPort p 7).checkDone))) ∧
  (∀ (s : State) (p : Nat) (d : State),
     s.reaches 0 = true →
     s.ready 11 = true →
     p < 8 →
     d = s.atRegion 11 (0x10020 + 64 * p) →
     d.rd fDSP_PORT_DISABLE p = 1 →
     Leads (.disable p) s (s.kept (d))) ∧
  (∀ (s : State) (p : Nat) (d : State),
     s.reaches 0 = true →
     s.ready 11 = true →
     p < 8 →
     d = s.atRegion 11 (0x10020 + 64 * p) →
     d.rd fDSP_PORT_DISABLE p ≠ 0 →
     d.drvHere p = true →
     Leads (.disableClear p) s (s.kept (((d.wr fDSP_PORT_DISABLE p 0).setPort p 0).trainArrived p))) ∧
  (∀ (s : State) (p : Nat) (d : State),
     s.reaches 0 = true →
     s.ready 11 = true →
     p < 8 →
     d = s.atRegion 11 (0x10020 + 64 * p) →
     d.rd fDSP_PORT_DISABLE p ≠ 0 →
     d.drvHere p = false →
     Leads (.disableClear p) s (s.kept ((d.wr fDSP_PORT_DISABLE p 0).setPort p 0))) ∧
  (∀ (s : State) (p : Nat) (d : State),
     s.reaches 0 = true →
     s.ready 11 = true →
     p < 8 →
     d = s.atRegion 11 (0x10020 + 64 * p) →
     d.rd fDSP_PORT_DISABLE p = 0 →
     Leads (.disableClear p) s (s.kept (d))) ∧
  (∀ (s : State) (e : Entry) (x : Nat × Nat),
     s.running = true →
     s.ready 2 = true →
     s.ready 10 = true →
     s.cvc.admin = none →
     s.adminNext 0 0x20 = some e →
     s.driveAdminError e.line = some x →
     Leads .driveAdmin s (s.kept (s.complete ⟨0, 0, e.tag⟩ x.1 x.2 0 0))) ∧
  (∀ (s : State) (e : Entry),
     s.running = true →
     s.ready 2 = true →
     s.ready 10 = true →
     s.cvc.admin = none →
     s.adminNext 0 0x20 = some e →
     s.driveAdminError e.line = none →
     Leads .driveAdmin s (s.kept (s.driveAdminSend e))) ∧
  (∀ (s : State) (ok : Nat) (e : Entry),
     s.running = true →
     s.ready 2 = true →
     s.ready 10 = true →
     s.cvc.fw = none →
     s.adminNext 0 0x21 = some e →
     Leads (.fwActivate ok) s (s.kept (s.fwBegin e ok))) ∧
  (∀ (s : State) (ok : Nat) (j : FwJob),
     s.running = true →
     s.ready 2 = true →
     s.ready 10 = true →
     s.cvc.fw = some j →
     s.fwWaits = false →
     Leads (.fwActivate ok) s (s.kept (s.fwRun j ok))) ∧
  (∀ (s : State) (ok : Nat),
     s.running = true →
     s.ready 2 = true →
     s.ready 10 = true →
     s.cvc.fw ≠ none →
     s.fwWaits = true →
     Leads (.fwActivate ok) s (s.kept (s))) ∧
  (∀ (s : State) (n : Nat),
     s.running = true →
     s.ready 10 = true →
     s.mayEnterPs n = true →
     n ≠ 4 →
     Leads (.psEntry n) s (s.kept (s.wr fCVC_PS_STATUS_STATE 0 n))) ∧
  (∀ (s : State),
     s.running = true →
     s.ready 10 = true →
     s.mayEnterPs 4 = true →
     Leads (.psEntry 4) s (s.kept ((List.range 8).foldl (fun (u : State) (p : Nat) => u.drivePs p (u.drive
       p).deepState) (s.wr fCVC_PS_STATUS_STATE 0 4)))) ∧
  (∀ (s : State),
     s.running = true →
     s.psWoken = true →
     Leads .psWake s (s.kept (s.wr fCVC_PS_STATUS_WAKING 0 1))) ∧
  (∀ (s : State) (t : State) (u : State),
     s.running = true →
     s.rd fCVC_PS_STATUS_WAKING 0 = 1 →
     s.psState ≠ 4 →
     t = s.hif.coWait.foldl (fun (u : State) (co : Nat) => u.wr fHIF_CO_ENABLE co 1) (((s.wr fCVC_PS_STATUS_STATE 0
       0).wr fCVC_PS_STATUS_WAKING 0 0).bumpSat fCVC_PS_STATUS_WAKES 0 1) →
     u = { t with hif := { t.hif with coWait := [] } } →
     Leads .psExit s (s.kept (u))) ∧
  (∀ (s : State) (t : State) (u : State),
     s.running = true →
     s.rd fCVC_PS_STATUS_WAKING 0 = 1 →
     s.psState = 4 →
     t = s.hif.coWait.foldl (fun (u : State) (co : Nat) => u.wr fHIF_CO_ENABLE co 1) (((s.wr fCVC_PS_STATUS_STATE 0
       0).wr fCVC_PS_STATUS_WAKING 0 0).bumpSat fCVC_PS_STATUS_WAKES 0 1) →
     u = { t with hif := { t.hif with coWait := [] } } →
     Leads .psExit s (s.kept ((List.range 8).foldl (fun (v : State) (p : Nat) => v.drivePs p 0) u)))

/-- CLAIM gives a FREE slot to an algorithm where one of 0x01 to 0x04 is named, a context is free and the limit allows,
and else leaves its failure; a slot that is held fails with 0xA1. RELEASE frees a slot and puts its context to
zeroing. KEYED, LAST, EXPORT, IMPORT and RESTART act on a slot whose state allows them; else they leave their
failure, put the slot in error, or do nothing, and on a LOST slot nothing. DATA fills the block, passes a full one
to a pipeline, is denied on a FREE slot, ignored on one in error or LOST, and an error on one that is busy or DONE.
A record transfer and a block that a pipeline works on end with their results, the last block with the digest.
COMPARE answers its code; a disagreement is logged, a read of a FREE slot denied. A context is back in the pool when
it is zeroed. A clear, by its causes or the expert test, frees every context and leaves each slot in use LOST.
(R402, R403, R404, R405, R406, R407, R408, R409, R410, R411, R412, R91) -/
def Obligations.DigestCommandsComplete : Prop :=
  (∀ (s : State) (fn : Nat) (sl : Nat) (alg : Nat) (u : State) (d : DgeSlot),
     s.dgeReaches fn = true →
     sl < 16 →
     u = s.atSlot fn sl →
     d = u.dslot fn sl →
     d.st = 0 →
     1 ≤ lowBits 3 alg →
     lowBits 3 alg ≤ 4 →
     u.ctxFree ≠ 0 →
     u.slotsHeld fn < min 16 (u.rd fDGE_FN_LIMIT fn) →
     Leads (.claim fn sl alg) s (s.outsideDigest (u.setDslot fn sl { DgeSlot.blank with
         st := 1,
         alg := lowBits 3 alg,
         chain := algInit (lowBits 3 alg) }))) ∧
  (∀ (s : State) (fn : Nat) (sl : Nat) (alg : Nat) (u : State) (d : DgeSlot),
     s.dgeReaches fn = true →
     sl < 16 →
     u = s.atSlot fn sl →
     d = u.dslot fn sl →
     1 ≤ d.st →
     d.st ≤ 3 →
     Leads (.claim fn sl alg) s (s.outsideDigest (u.setDslot fn sl (d.note 0x10 0xA1)))) ∧
  (∀ (s : State) (fn : Nat) (sl : Nat) (alg : Nat) (u : State) (d : DgeSlot),
     s.dgeReaches fn = true →
     sl < 16 →
     u = s.atSlot fn sl →
     d = u.dslot fn sl →
     d.st = 4 →
     Leads (.claim fn sl alg) s (s.outsideDigest (u))) ∧
  (∀ (s : State) (fn : Nat) (sl : Nat) (alg : Nat) (u : State) (d : DgeSlot),
     s.dgeReaches fn = true →
     sl < 16 →
     u = s.atSlot fn sl →
     d = u.dslot fn sl →
     d.st = 0 →
     (lowBits 3 alg = 0 ∨ 4 < lowBits 3 alg) →
     Leads (.claim fn sl alg) s (s.outsideDigest (u.setDslot fn sl (d.note 0x10 0xA2)))) ∧
  (∀ (s : State) (fn : Nat) (sl : Nat) (alg : Nat) (u : State) (d : DgeSlot),
     s.dgeReaches fn = true →
     sl < 16 →
     u = s.atSlot fn sl →
     d = u.dslot fn sl →
     d.st = 0 →
     1 ≤ lowBits 3 alg →
     lowBits 3 alg ≤ 4 →
     u.ctxFree = 0 →
     Leads (.claim fn sl alg) s (s.outsideDigest ((u.setDslot fn sl (d.note 0x17 0x01)).raise 12 4))) ∧
  (∀ (s : State) (fn : Nat) (sl : Nat) (alg : Nat) (u : State) (d : DgeSlot),
     s.dgeReaches fn = true →
     sl < 16 →
     u = s.atSlot fn sl →
     d = u.dslot fn sl →
     d.st = 0 →
     1 ≤ lowBits 3 alg →
     lowBits 3 alg ≤ 4 →
     u.ctxFree ≠ 0 →
     min 16 (u.rd fDGE_FN_LIMIT fn) ≤ u.slotsHeld fn →
     Leads (.claim fn sl alg) s (s.outsideDigest (u.setDslot fn sl (d.note 0x17 0x02)))) ∧
  (∀ (s : State) (fn : Nat) (sl : Nat) (u : State) (d : DgeSlot),
     s.dgeReaches fn = true →
     sl < 16 →
     u = s.atSlot fn sl →
     d = u.dslot fn sl →
     1 ≤ d.st →
     d.st ≤ 3 →
     Leads (.release fn sl) s (s.outsideDigest ({ u with
         dge := { u.dge with
             slots := setD DgeSlot.blank u.dge.slots (slotKey fn sl) DgeSlot.blank,
             ready := u.dge.ready.filter (fun (r : Nat × List Byte × Bool) => decide (r.1 ≠ slotKey fn sl)),
             zeroing := u.dge.zeroing ++ [u.clk.tsu] } }))) ∧
  (∀ (s : State) (fn : Nat) (sl : Nat) (u : State) (d : DgeSlot),
     s.dgeReaches fn = true →
     sl < 16 →
     u = s.atSlot fn sl →
     d = u.dslot fn sl →
     (d.st = 0 ∨ 4 ≤ d.st) →
     Leads (.release fn sl) s (s.outsideDigest ({ u with
         dge := { u.dge with
             slots := setD DgeSlot.blank u.dge.slots (slotKey fn sl) DgeSlot.blank,
             ready := u.dge.ready.filter (fun (r : Nat × List Byte × Bool) => decide (r.1 ≠ slotKey fn sl)) } }))) ∧
  (∀ (s : State) (fn : Nat) (sl : Nat) (u : State) (d : DgeSlot),
     s.dgeReaches fn = true →
     sl < 16 →
     u = s.atSlot fn sl →
     d = u.dslot fn sl →
     d.st = 1 →
     d.busy = 0 →
     d.buf = [] →
     Leads (.keyed fn sl) s (s.outsideDigest (u.setDslot fn sl { d.note 0 0 with keyed := true }))) ∧
  (∀ (s : State) (fn : Nat) (sl : Nat) (u : State) (d : DgeSlot),
     s.dgeReaches fn = true →
     sl < 16 →
     u = s.atSlot fn sl →
     d = u.dslot fn sl →
     d.st ≠ 4 →
     ¬ (d.st = 1 ∧ d.busy = 0 ∧ d.buf = []) →
     Leads (.keyed fn sl) s (s.outsideDigest (u.setDslot fn sl (d.note 0x10 0xA6)))) ∧
  (∀ (s : State) (fn : Nat) (sl : Nat) (u : State) (d : DgeSlot),
     s.dgeReaches fn = true →
     sl < 16 →
     u = s.atSlot fn sl →
     d = u.dslot fn sl →
     d.st = 4 →
     Leads (.keyed fn sl) s (s.outsideDigest (u))) ∧
  (∀ (s : State) (fn : Nat) (sl : Nat) (u : State) (d : DgeSlot),
     s.dgeReaches fn = true →
     sl < 16 →
     u = s.atSlot fn sl →
     d = u.dslot fn sl →
     (d.st = 1 ∨ d.st = 2) →
     ¬ (d.buf = [] ∧ d.wasLast = true) →
     Leads (.last fn sl) s (s.outsideDigest (u.setDslot fn sl { d.note 0 0 with last := true }))) ∧
  (∀ (s : State) (fn : Nat) (sl : Nat) (u : State) (d : DgeSlot),
     s.dgeReaches fn = true →
     sl < 16 →
     u = s.atSlot fn sl →
     d = u.dslot fn sl →
     (d.st = 1 ∨ d.st = 2) →
     d.buf = [] →
     d.wasLast = true →
     Leads (.last fn sl) s (s.outsideDigest (u.slotError fn sl 0xA4))) ∧
  (∀ (s : State) (fn : Nat) (sl : Nat) (u : State) (d : DgeSlot),
     s.dgeReaches fn = true →
     sl < 16 →
     u = s.atSlot fn sl →
     d = u.dslot fn sl →
     (d.st = 0 ∨ d.st = 3 ∨ d.st = 4) →
     Leads (.last fn sl) s (s.outsideDigest (u))) ∧
  (∀ (s : State) (fn : Nat) (sl : Nat) (u : State) (d : DgeSlot),
     s.dgeReaches fn = true →
     sl < 16 →
     u = s.atSlot fn sl →
     d = u.dslot fn sl →
     (d.st = 1 ∨ d.st = 2) →
     d.busy = 0 →
     Leads (.exportContext fn sl) s (s.outsideDigest (u.setDslot fn sl { d with busy := 2 }))) ∧
  (∀ (s : State) (fn : Nat) (sl : Nat) (u : State) (d : DgeSlot),
     s.dgeReaches fn = true →
     sl < 16 →
     u = s.atSlot fn sl →
     d = u.dslot fn sl →
     (d.st = 0 ∨ d.st = 3 ∨ d.st = 4 ∨ d.busy ≠ 0) →
     Leads (.exportContext fn sl) s (s.outsideDigest (u))) ∧
  (∀ (s : State) (fn : Nat) (sl : Nat) (u : State) (d : DgeSlot),
     s.dgeReaches fn = true →
     sl < 16 →
     u = s.atSlot fn sl →
     d = u.dslot fn sl →
     d.st = 1 →
     d.keyed = false →
     d.busy = 0 →
     d.buf = [] →
     Leads (.importContext fn sl) s (s.outsideDigest (u.setDslot fn sl { d with busy := 3 }))) ∧
  (∀ (s : State) (fn : Nat) (sl : Nat) (u : State) (d : DgeSlot),
     s.dgeReaches fn = true →
     sl < 16 →
     u = s.atSlot fn sl →
     d = u.dslot fn sl →
     d.st = 0 →
     Leads (.importContext fn sl) s (s.outsideDigest (u.setDslot fn sl (d.note 0x10 0xA7)))) ∧
  (∀ (s : State) (fn : Nat) (sl : Nat) (u : State) (d : DgeSlot),
     s.dgeReaches fn = true →
     sl < 16 →
     u = s.atSlot fn sl →
     d = u.dslot fn sl →
     d.st ≠ 0 →
     d.st ≠ 4 →
     ¬ (d.st = 1 ∧ d.keyed = false ∧ d.busy = 0 ∧ d.buf = []) →
     Leads (.importContext fn sl) s (s.outsideDigest (u.slotError fn sl 0xA7))) ∧
  (∀ (s : State) (fn : Nat) (sl : Nat) (u : State) (d : DgeSlot),
     s.dgeReaches fn = true →
     sl < 16 →
     u = s.atSlot fn sl →
     d = u.dslot fn sl →
     d.st = 4 →
     Leads (.importContext fn sl) s (s.outsideDigest (u))) ∧
  (∀ (s : State) (fn : Nat) (sl : Nat) (u : State) (d : DgeSlot),
     s.dgeReaches fn = true →
     sl < 16 →
     u = s.atSlot fn sl →
     d = u.dslot fn sl →
     d.st ≠ 0 →
     d.st ≠ 4 →
     Leads (.restart fn sl) s (s.outsideDigest (({ u with
         dge := { u.dge with
             ready := u.dge.ready.filter (fun (r : Nat × List Byte × Bool) => decide (r.1 ≠ slotKey fn sl)) } } :
           State).setDslot fn sl { DgeSlot.blank with
               st := 1,
               alg := d.alg,
               chain := algInit d.alg,
               image := d.image }))) ∧
  (∀ (s : State) (fn : Nat) (sl : Nat) (u : State) (d : DgeSlot),
     s.dgeReaches fn = true →
     sl < 16 →
     u = s.atSlot fn sl →
     d = u.dslot fn sl →
     (d.st = 0 ∨ d.st = 4) →
     Leads (.restart fn sl) s (s.outsideDigest (u))) ∧
  (∀ (s : State) (fn : Nat) (sl : Nat),
     s.running = true →
     s.ready 12 = true →
     sl < 16 →
     (s.dslot fn sl).busy = 2 →
     Leads (.recordTransferDone fn sl) s (s.outsideDigest ((s.exportRecord fn (s.dslot fn sl)).2.setDslot fn sl
       { (s.dslot fn sl).note 0 0 with
         busy := 0,
         image := (s.exportRecord fn (s.dslot fn sl)).1 }))) ∧
  (∀ (s : State) (fn : Nat) (sl : Nat) (d : DgeSlot) (e : Nat × Nat),
     s.running = true →
     s.ready 12 = true →
     sl < 16 →
     d = s.dslot fn sl →
     d.busy = 3 →
     s.importError fn d d.record = some e →
     Leads (.recordTransferDone fn sl) s (s.outsideDigest (s.setDslot fn sl
       { d.note e.1 e.2 with st := 3, busy := 0 }))) ∧
  (∀ (s : State) (fn : Nat) (sl : Nat) (d : DgeSlot),
     s.running = true →
     s.ready 12 = true →
     sl < 16 →
     d = s.dslot fn sl →
     d.busy = 3 →
     s.importError fn d d.record = none →
     Leads (.recordTransferDone fn sl) s (s.outsideDigest (s.setDslot fn sl (s.imported d d.record)))) ∧
  (∀ (s : State) (fn : Nat) (sl : Nat) (v : Nat) (u : State) (d : DgeSlot),
     s.dgeReaches fn = true →
     sl < 16 →
     u = s.atSlot fn sl →
     d = u.dslot fn sl →
     d.st = 1 →
     d.busy = 0 →
     d.buf.length + 8 < algBlock d.alg →
     Leads (.dgeSlotData fn sl v) s (s.outsideDigest (u.setDslot fn sl { d with buf := d.buf ++ leBytes 8 v }))) ∧
  (∀ (s : State) (fn : Nat) (sl : Nat) (v : Nat) (w : State) (u : State) (d : DgeSlot),
     s.dgeReaches fn = true →
     sl < 16 →
     u = s.atSlot fn sl →
     d = u.dslot fn sl →
     d.st = 1 →
     d.busy = 0 →
     algBlock d.alg ≤ d.buf.length + 8 →
     w = u.setDslot fn sl { d with buf := [], busy := 1, last := false, wasLast := d.last } →
     Leads (.dgeSlotData fn sl v) s (s.outsideDigest ({ w with
         dge := { w.dge with ready := w.dge.ready ++ [(slotKey fn sl, d.buf ++ leBytes 8 v, d.last)] } }))) ∧
  (∀ (s : State) (fn : Nat) (sl : Nat) (v : Nat) (u : State) (d : DgeSlot),
     s.dgeReaches fn = true →
     sl < 16 →
     u = s.atSlot fn sl →
     d = u.dslot fn sl →
     d.st = 0 →
     Leads (.dgeSlotData fn sl v) s (s.outsideDigest (u.denied fn true 1 (slotOffset sl 8) (windowSpace fn)))) ∧
  (∀ (s : State) (fn : Nat) (sl : Nat) (v : Nat) (u : State) (d : DgeSlot),
     s.dgeReaches fn = true →
     sl < 16 →
     u = s.atSlot fn sl →
     d = u.dslot fn sl →
     (d.st = 3 ∨ d.st = 4) →
     Leads (.dgeSlotData fn sl v) s (s.outsideDigest (u))) ∧
  (∀ (s : State) (fn : Nat) (sl : Nat) (v : Nat) (u : State) (d : DgeSlot),
     s.dgeReaches fn = true →
     sl < 16 →
     u = s.atSlot fn sl →
     d = u.dslot fn sl →
     (d.st = 2 ∨ (d.st = 1 ∧ d.busy ≠ 0)) →
     Leads (.dgeSlotData fn sl v) s (s.outsideDigest (u.slotError fn sl 0xA3))) ∧
  (∀ (s : State) (fn : Nat) (sl : Nat) (b : List Byte) (y : Nat) (d : DgeSlot) (c : List Byte) (u : State),
     s.digests fn sl = true →
     s.psState = 0 →
     s.pipelined fn sl = some (y, b, false) →
     d = s.dslot fn sl →
     c = algAbsorb d.alg d.chain b →
     u = (s.setDslot fn sl { d with chain := c, blocks := (d.blocks + 1) % 2 ^ 64, busy := 0 }).bumpWrap
       fDGE_BLOCKS_COUNT 0 1 →
     Leads (.blockAbsorbed fn sl) s (s.outsideDigest ({ u with
         dge := { u.dge with
             ready := u.dge.ready.filter (fun (r : Nat × List Byte × Bool) => decide (r.1 ≠ slotKey fn sl)) } }))) ∧
  (∀ (s : State) (fn : Nat) (sl : Nat) (b : List Byte) (y : Nat) (d : DgeSlot) (c : List Byte) (u : State),
     s.digests fn sl = true →
     s.psState = 0 →
     s.pipelined fn sl = some (y, b, true) →
     d = s.dslot fn sl →
     c = algAbsorb d.alg d.chain b →
     u = (s.setDslot fn sl { d with
         chain := c,
         blocks := (d.blocks + 1) % 2 ^ 64,
         busy := 0,
         st := 2,
         digest := c.take (algDigest d.alg) }).bumpWrap fDGE_BLOCKS_COUNT 0 1 →
     Leads (.blockAbsorbed fn sl) s (s.outsideDigest ({ u with
         dge := { u.dge with
             ready := u.dge.ready.filter (fun (r : Nat × List Byte × Bool) => decide (r.1 ≠ slotKey fn sl)) } }))) ∧
  (∀ (s : State) (fn : Nat) (sl : Nat) (d : Bool),
     s.dgeReaches fn = true →
     sl < 16 →
     (s.dslot fn sl).st ≠ 0 →
     (s.dslot fn sl).cmp d ≠ 3 →
     Leads (.dgeSlotCmp fn sl d) s (s.kept ((s.atSlot fn sl).emit (.readData fn ((s.dslot fn sl).cmp d))))) ∧
  (∀ (s : State) (fn : Nat) (sl : Nat) (d : Bool),
     s.dgeReaches fn = true →
     sl < 16 →
     (s.dslot fn sl).st ≠ 0 →
     (s.dslot fn sl).cmp d = 3 →
     Leads (.dgeSlotCmp fn sl d) s (s.kept (((s.atSlot fn sl).fault 12 { (s.atSlot fn sl).entry 12 1 with
         fn := some fn,
         cause := 3 }).emit (.readData fn 3)))) ∧
  (∀ (s : State) (fn : Nat) (sl : Nat) (d : Bool),
     s.dgeReaches fn = true →
     sl < 16 →
     (s.dslot fn sl).st = 0 →
     Leads (.dgeSlotCmp fn sl d) s (s.kept (((s.atSlot fn sl).denied fn false 1 (slotOffset sl 0x18) (windowSpace
       fn)).emit (.readData fn 0)))) ∧
  (∀ (s : State) (a : Nat) (rest : List Nat),
     s.running = true →
     s.dge.zeroing = a :: rest →
     Leads .contextZeroed s (s.outsideDigest ({ s with dge := { s.dge with zeroing := rest } }))) ∧
  (∀ (s : State) (cause : Nat),
     s.railsUp = true →
     s.ready 12 = true →
     cause < 4 →
     Leads (.contextClear cause) s (s.outsideDigest (s.clearContexts cause))) ∧
  (∀ (s : State) (u : State),
     s.reaches 0 = true →
     s.ready 12 = true →
     u = s.atRegion 12 0x900 →
     u.rd fEXPERT_UNLOCK_UNLOCKED 12 = 1 →
     Leads .dgeAlarmTest s (s.outsideDigest (u.clearContexts 3))) ∧
  (∀ (s : State) (u : State),
     s.reaches 0 = true →
     s.ready 12 = true →
     u = s.atRegion 12 0x900 →
     u.rd fEXPERT_UNLOCK_UNLOCKED 12 ≠ 1 →
     Leads .dgeAlarmTest s (s.outsideDigest (u.wr fEXPERT_UNLOCK_DENIED 12 1))) ∧
  (∀ (s : State) (cause : Nat),
     s.railsUp = true →
     s.ready 12 = true →
     cause < 4 →
     Completes (.contextClear cause) s (fun t => t.dge.zeroing = [] ∧ t.dge.ready = [] ∧ (∀ ks ∈ t.dge.slots, ks.2.st
       = 4)))

/-- A map command starts while none is in progress, and is else noticed; with no command of CVC that holds a page it
changes it completes, with its failure or page by page. Scrub reads the next line of a stack: a clean one loses its
mark of an earlier error, one with an error in one symbol is corrected, counted and marked, one with two is noted as
uncorrectable, and a poisoned one is left, and the walk goes on or begins anew and counts a pass. A row repair that
has a spare row uses it. A bucket window leaks the levels and empties the filters. The test window, in an unlocked
page and on a line that it may reach, writes a raw line or shows one without changing memory, and is else refused;
in a locked page it sets DENIED. Bosun marks the buffers that a poisoned line touches. (R376, R415, R418, R419,
R420, R424, R426, R427, R430, R431, R433, R465) -/
def Obligations.MemoryCommandsComplete : Prop :=
  (∀ (s : State) (u : State),
     s.reaches 0 = true →
     s.ready 6 = true →
     u = s.atRegion 6 0x94 →
     u.hmc.map = none →
     Leads .map s (s.kept (({ u with hmc := { u.hmc with map := some (u.mapArgs 1) } } : State).wr
       fHMC_MAP_STATUS_BUSY 0 1))) ∧
  (∀ (s : State) (u : State),
     s.reaches 0 = true →
     s.ready 6 = true →
     u = s.atRegion 6 0x94 →
     u.hmc.map = none →
     Leads .unmap s (s.kept (({ u with hmc := { u.hmc with map := some (u.mapArgs 2) } } : State).wr
       fHMC_MAP_STATUS_BUSY 0 1))) ∧
  (∀ (s : State) (u : State),
     s.reaches 0 = true →
     s.ready 6 = true →
     u = s.atRegion 6 0x94 →
     u.hmc.map = none →
     Leads .protect s (s.kept (({ u with hmc := { u.hmc with map := some (u.mapArgs 3) } } : State).wr
       fHMC_MAP_STATUS_BUSY 0 1))) ∧
  (∀ (s : State) (u : State),
     s.reaches 0 = true →
     s.ready 6 = true →
     u = s.atRegion 6 0x94 →
     u.hmc.map = none →
     Leads .query s (s.kept (({ u with hmc := { u.hmc with map := some (u.mapArgs 4) } } : State).wr
       fHMC_MAP_STATUS_BUSY 0 1))) ∧
  (∀ (s : State) (u : State),
     s.reaches 0 = true →
     s.ready 6 = true →
     u = s.atRegion 6 0x94 →
     u.hmc.map ≠ none →
     Leads .map s (s.kept (u.notice 6 0xFFFF))) ∧
  (∀ (s : State) (u : State),
     s.reaches 0 = true →
     s.ready 6 = true →
     u = s.atRegion 6 0x94 →
     u.hmc.map ≠ none →
     Leads .unmap s (s.kept (u.notice 6 0xFFFF))) ∧
  (∀ (s : State) (u : State),
     s.reaches 0 = true →
     s.ready 6 = true →
     u = s.atRegion 6 0x94 →
     u.hmc.map ≠ none →
     Leads .protect s (s.kept (u.notice 6 0xFFFF))) ∧
  (∀ (s : State) (u : State),
     s.reaches 0 = true →
     s.ready 6 = true →
     u = s.atRegion 6 0x94 →
     u.hmc.map ≠ none →
     Leads .query s (s.kept (u.notice 6 0xFFFF))) ∧
  (∀ (s : State) (c : MapCmd),
     s.running = true →
     s.psState < 3 →
     s.hmc.map = some c →
     s.mapPinned c = false →
     c.bad = true →
     Leads .mapDone s (s.kept ((((({ s with hmc := { s.hmc with map := none } } : State).wr fHMC_MAP_STATUS_BUSY 0
       0).wr fHMC_MAP_STATUS_RESULT 0 1).wr fHMC_MAP_STATUS_DONE_PAGES 0 0).raise 6 4))) ∧
  (∀ (s : State) (c : MapCmd) (r : Nat × Nat × State),
     s.running = true →
     s.psState < 3 →
     s.hmc.map = some c →
     s.mapPinned c = false →
     c.bad = false →
     r = s.doPages c 0 c.count →
     Leads .mapDone s (s.kept ((((({ r.2.2 with hmc := { r.2.2.hmc with map := none } } : State).wr
       fHMC_MAP_STATUS_BUSY 0 0).wr fHMC_MAP_STATUS_RESULT 0 r.1).wr fHMC_MAP_STATUS_DONE_PAGES 0 r.2.1).raise 6 4)))
         ∧
  (∀ (s : State) (st : Nat) (cells : Nat) (line : Nat),
     s.running = true →
     s.ready 6 = true →
     st < 8 →
     s.scrubOn st = true →
     line = (st * stackBytes + s.rd fHMC_STACK_SCRUB_POS st) / 64 →
     s.scrubClass line cells = 0 →
     s.rd fHMC_STACK_SCRUB_POS st + 64 < stackBytes →
     Leads (.scrubRead st cells) s (s.kept ((s.stickyDrop st line).wr fHMC_STACK_SCRUB_POS st (s.rd
       fHMC_STACK_SCRUB_POS st + 64)))) ∧
  (∀ (s : State) (st : Nat) (cells : Nat) (line : Nat),
     s.running = true →
     s.ready 6 = true →
     st < 8 →
     s.scrubOn st = true →
     line = (st * stackBytes + s.rd fHMC_STACK_SCRUB_POS st) / 64 →
     s.scrubClass line cells = 1 →
     s.checkOf line = .good →
     s.rd fHMC_STACK_SCRUB_POS st + 64 < stackBytes →
     Leads (.scrubRead st cells) s (s.kept (((s.noteCorrected line true).stickyAdd st line).wr fHMC_STACK_SCRUB_POS
       st (s.rd fHMC_STACK_SCRUB_POS st + 64)))) ∧
  (∀ (s : State) (st : Nat) (cells : Nat) (line : Nat),
     s.running = true →
     s.ready 6 = true →
     st < 8 →
     s.scrubOn st = true →
     line = (st * stackBytes + s.rd fHMC_STACK_SCRUB_POS st) / 64 →
     s.scrubClass line cells = 2 →
     s.rd fHMC_STACK_SCRUB_POS st + 64 < stackBytes →
     Leads (.scrubRead st cells) s (s.kept ((s.noteUncorrectable line).wr fHMC_STACK_SCRUB_POS st (s.rd
       fHMC_STACK_SCRUB_POS st + 64)))) ∧
  (∀ (s : State) (st : Nat) (cells : Nat) (line : Nat),
     s.running = true →
     s.ready 6 = true →
     st < 8 →
     s.scrubOn st = true →
     line = (st * stackBytes + s.rd fHMC_STACK_SCRUB_POS st) / 64 →
     s.scrubClass line cells = 3 →
     s.rd fHMC_STACK_SCRUB_POS st + 64 < stackBytes →
     Leads (.scrubRead st cells) s (s.kept (s.wr fHMC_STACK_SCRUB_POS st (s.rd fHMC_STACK_SCRUB_POS st + 64)))) ∧
  (∀ (s : State) (st : Nat) (cells : Nat) (line : Nat),
     s.running = true →
     s.ready 6 = true →
     st < 8 →
     s.scrubOn st = true →
     line = (st * stackBytes + s.rd fHMC_STACK_SCRUB_POS st) / 64 →
     s.scrubClass line cells = 0 →
     stackBytes ≤ s.rd fHMC_STACK_SCRUB_POS st + 64 →
     Leads (.scrubRead st cells) s (s.kept (((s.stickyDrop st line).wr fHMC_STACK_SCRUB_POS st 0).bumpSat
       fHMC_STACK_PASSES st 1))) ∧
  (∀ (s : State) (st : Nat) (r : Nat × Nat × Nat × Nat),
     s.starts 15 = true →
     s.board.holdupOk = true →
     s.darn.repairs.find? (fun (x : Nat × Nat × Nat × Nat) => decide (x.1 = st)) = some r →
     Leads (.rowRepairDone st) s (s.kept ((({ s with
         darn := { s.darn with
             repairs := s.darn.repairs.erase r,
             pprBank := put s.darn.pprBank (bankKey r) (getD 0 s.darn.pprBank (bankKey r) + 1) } } : State).bumpSat
           fDRN_STACK_PPR_USED st 1).history 5 5 0xFFFF st 0xFFFF (rowDetail r)))) ∧
  (∀ (s : State) (w : Nat) (u : State),
     s.running = true →
     s.ready 6 = true →
     s.bucketDue ≤ s.clk.tsu →
     u = (List.range 8).foldl (fun s st => s.wr fHMC_STACK_BUCKET st (s.rd fHMC_STACK_BUCKET st - s.setting
       fHMC_BUCKET_CFG_LEAK 0)) s →
     w = s.bucketTicks →
     Leads .bucketWindow s (s.kept ({ u with
         hmc := { u.hmc with filter := [], bucketEnd := some ((s.clk.tsu / w + 1) * w) } }))) ∧
  (∀ (s : State) (u : State) (w : State),
     s.reaches 0 = true →
     s.ready 6 = true →
     u = s.atRegion 6 0x908 →
     u.rd fEXPERT_UNLOCK_UNLOCKED 6 = 1 →
     u.testAllowed = true →
     w = ((u.dropLine u.testLine).putLine u.testLine u.testData (.raw (BitVec.ofNat 32 (u.rd fHMC_TEST_CHECK_CHECK
       0)))).wr fHMC_TEST_RESULT_REFUSED 0 0 →
     Leads .writeRaw s (s.kept ({ w with
         hmc := { w.hmc with lastOwner := put w.hmc.lastOwner (64 * u.testLine / pageBytes) 1 } }))) ∧
  (∀ (s : State) (u : State),
     s.reaches 0 = true →
     s.ready 6 = true →
     u = s.atRegion 6 0x908 →
     u.rd fEXPERT_UNLOCK_UNLOCKED 6 = 1 →
     u.testAllowed = false →
     Leads .writeRaw s (s.kept (u.wr fHMC_TEST_RESULT_REFUSED 0 1))) ∧
  (∀ (s : State) (u : State),
     s.reaches 0 = true →
     s.ready 6 = true →
     u = s.atRegion 6 0x908 →
     u.rd fEXPERT_UNLOCK_UNLOCKED 6 ≠ 1 →
     Leads .writeRaw s (s.kept (u.wr fEXPERT_UNLOCK_DENIED 6 1))) ∧
  (∀ (s : State) (u : State),
     s.reaches 0 = true →
     s.ready 6 = true →
     u = s.atRegion 6 0x908 →
     u.rd fEXPERT_UNLOCK_UNLOCKED 6 = 1 →
     u.testAllowed = true →
     Leads .readRaw s (s.kept (u.readRaw))) ∧
  (∀ (s : State),
     s.reaches 0 = true →
     s.ready 6 = true →
     s.rd fEXPERT_UNLOCK_UNLOCKED 6 = 1 →
     s.testAllowed = true →
     Completes .readRaw s (fun t => t.rd fHMC_TEST_RESULT_REFUSED 0 = 0 ∧ t.hbm = s.hbm ∧ t.hmc = s.hmc)) ∧
  (∀ (s : State) (u : State),
     s.reaches 0 = true →
     s.ready 6 = true →
     u = s.atRegion 6 0x908 →
     u.rd fEXPERT_UNLOCK_UNLOCKED 6 = 1 →
     u.testAllowed = false →
     Leads .readRaw s (s.kept (u.wr fHMC_TEST_RESULT_REFUSED 0 1))) ∧
  (∀ (s : State) (u : State),
     s.reaches 0 = true →
     s.ready 6 = true →
     u = s.atRegion 6 0x908 →
     u.rd fEXPERT_UNLOCK_UNLOCKED 6 ≠ 1 →
     Leads .readRaw s (s.kept (u.wr fEXPERT_UNLOCK_DENIED 6 1))) ∧
  (∀ (s : State) (line : Nat),
     s.running = true →
     s.ready 3 = true →
     s.lineClass line = 3 →
     Leads (.poisonMarking line) s (s.kept (s.poisonMarking line)))

/-- Once some record has been 1,600 ticks in the reorder buffer, the first one in event order is written to the log and
counted. MARK records an event of PF0. A PTM dialogue starts where PTM is enabled and a period has passed; its
answer within 10 ms gives LOCAL, HOST and RATE, with VALID, and is counted and recorded; without one, or where the
context is invalidated, VALID falls, FAILED rises and cause 3 is raised. (R105, R442, R443, R444, R446, R447) -/
def Obligations.TimeCommandsComplete : Prop :=
  (∀ (s : State) (e : LogRec) (rest : List LogRec),
     s.ticking = true →
     s.logDue = true →
     s.tsu.reorder = e :: rest →
     Leads .logEntryWrite s (s.kept (({ s with
         tsu := { s.tsu with
             reorder := s.tsu.reorder.erase (firstRecord e rest),
             log := put s.tsu.log (s.rd fTSU_LOG_TOTAL_TOTAL 0 % 4096) (firstRecord e rest) } } : State).wr
           fTSU_LOG_TOTAL_TOTAL 0 (s.rd fTSU_LOG_TOTAL_TOTAL 0 + 1)))) ∧
  (∀ (s : State) (detail : Nat),
     s.reaches 0 = true →
     s.ready 13 = true →
     Leads (.mark detail) s (s.kept ((s.atRegion 13 0x9C).record 13 6 (some 0) detail))) ∧
  (∀ (s : State),
     s.running = true →
     s.ready 13 = true →
     s.cfg 0 .ptmEnable = 1 →
     s.setting fTSU_PTM_CTRL_ENABLE 0 = 1 →
     s.tsu.dialogue = none →
     s.tsu.lastDialogue + s.ptmPeriod ≤ s.clk.tsu →
     Leads .ptmDialogue s (s.kept (({ s with
         tsu := { s.tsu with dialogue := some s.clk.tsu, lastDialogue := s.clk.tsu } } : State).emit .ptmRequest))) ∧
  (∀ (s : State) (host : Nat) (rate : Nat) (v : State),
     s.running = true →
     s.tsu.dialogue ≠ none →
     s.clk.tsu < s.tsu.lastDialogue + ticksOfMs 10 →
     v = ((((({ s with tsu := { s.tsu with dialogue := none, lastSync := some (s.clk.tsu, host) } } : State).wr
       fTSU_PTM_LOCAL_LOCAL 0 s.clk.tsu).wr fTSU_PTM_HOST_HOST 0 host).wr fTSU_PTM_RATE_RATE 0 rate).wr
         fTSU_PTM_STATUS_VALID 0 1).bumpWrap fTSU_PTM_STATUS_SYNCS 0 1 →
     Leads (.ptmResponse host rate) s (s.kept (v.record 13 5 none (v.rd fTSU_PTM_STATUS_SYNCS 0)))) ∧
  (∀ (s : State) (inv : Bool),
     s.running = true →
     s.tsu.dialogue ≠ none →
     (inv = true ∨ s.tsu.lastDialogue + ticksOfMs 10 ≤ s.clk.tsu) →
     Leads (.ptmTimeout inv) s (s.kept (((({ s with tsu := { s.tsu with dialogue := none } } : State).wr
       fTSU_PTM_STATUS_VALID 0 0).wr fTSU_PTM_STATUS_FAILED 0 1).raise 13 3)))

/-- A limit of 300 W to 800 W is kept with its hysteresis and any other is noticed; a floor is written and the reef
decides again; a fall of the reef goes one level at a time. A sample at the warning or above starts the thermal
demand and the alert; while the demand lasts, a cool one begins its 1 ms or, once that has passed, ends it, and one
between them begins it anew. A controller window is kept, decides the demand, and shows input voltage, power, mean
and energy, with cause 3 where 10 ms at the last level were over the limit. A wear window closes. A swap ends once
its tile's task has ended and one of a marked tile begins while Darning is enabled; a drain over its time ends the
task. A request to swap is refused for a unit that cannot be, and else marks it. A CRC error of a used wire group is
counted, and at the threshold the group is repaired. (R450, R451, R452, R454, R455, R456, R461, R462, R464, R466,
R467) -/
def Obligations.PowerCommandsComplete : Prop :=
  (∀ (s : State) (watts : Nat) (hyst : Nat) (d : State),
     s.reaches 0 = true →
     s.ready 14 = true →
     d = s.atRegion 14 0x80 →
     300 ≤ lowBits 10 watts →
     lowBits 10 watts ≤ 800 →
     Leads (.pwrLimit watts hyst) s (s.kept ((d.wr fPWR_LIMIT_LIMIT_W 0 (lowBits 10 watts)).wr fPWR_LIMIT_HYST_W 0
       (lowBits 8 hyst)))) ∧
  (∀ (s : State) (watts : Nat) (hyst : Nat) (d : State),
     s.reaches 0 = true →
     s.ready 14 = true →
     d = s.atRegion 14 0x80 →
     (lowBits 10 watts < 300 ∨ 800 < lowBits 10 watts) →
     Leads (.pwrLimit watts hyst) s (s.kept (d.notice 14 0xFFFF))) ∧
  (∀ (s : State) (level : Nat) (d : State),
     s.reaches 0 = true →
     s.ready 14 = true →
     d = s.atRegion 14 0x88 →
     Leads (.pwrReefFloor level) s (s.queued ((d.wr fPWR_REEF_FLOOR_LEVEL 0 level).reefAgain))) ∧
  (∀ (s : State),
     s.clocked = true →
     s.rd fPWR_REEF_STATUS_STEPPING 0 = 1 →
     s.reef.changedAt + ticksOfUs (max 20 (s.rd fPWR_STEP_DOWN_STEP_US 0)) ≤ s.clk.tsu →
     Leads .stepDown s (s.queued ((s.setLevel (s.level - 1)).reefAgain))) ∧
  (∀ (s : State) (die : Nat) (hbm : Nat) (t : State),
     s.clocked = true →
     t = (s.wr fPWR_TEMP_DIE_MAX_C 0 die).wr fPWR_TEMP_HBM_MAX_C 0 hbm →
     s.warnC ≤ max die hbm →
     Leads (.thermalSample die hbm) s (s.queued (({ t with
         reef := { t.reef with thermal := true, coolSince := none } } : State).reefAgain.alert
       fPWR_ALERT_STATUS_THERMAL_WARN))) ∧
  (∀ (s : State) (die : Nat) (hbm : Nat) (t : State),
     s.clocked = true →
     t = (s.wr fPWR_TEMP_DIE_MAX_C 0 die).wr fPWR_TEMP_HBM_MAX_C 0 hbm →
     max die hbm < s.warnC →
     s.reef.thermal = false →
     Leads (.thermalSample die hbm) s (s.queued (t))) ∧
  (∀ (s : State) (die : Nat) (hbm : Nat) (t : State) (since : Nat),
     s.clocked = true →
     t = (s.wr fPWR_TEMP_DIE_MAX_C 0 die).wr fPWR_TEMP_HBM_MAX_C 0 hbm →
     max die hbm < s.warnC →
     s.reef.thermal = true →
     max die hbm + t.setting fPWR_THERMAL_CFG_RELEASE_C 0 < s.warnC →
     since = t.reef.coolSince.getD t.clk.tsu →
     since + ticksOfMs 1 ≤ t.clk.tsu →
     Leads (.thermalSample die hbm) s (s.queued (({ t with
         reef := { t.reef with thermal := false, coolSince := none } } : State).reefAgain))) ∧
  (∀ (s : State) (die : Nat) (hbm : Nat) (t : State) (since : Nat),
     s.clocked = true →
     t = (s.wr fPWR_TEMP_DIE_MAX_C 0 die).wr fPWR_TEMP_HBM_MAX_C 0 hbm →
     max die hbm < s.warnC →
     s.reef.thermal = true →
     max die hbm + t.setting fPWR_THERMAL_CFG_RELEASE_C 0 < s.warnC →
     since = t.reef.coolSince.getD t.clk.tsu →
     t.clk.tsu < since + ticksOfMs 1 →
     Leads (.thermalSample die hbm) s (s.queued ({ t with reef := { t.reef with coolSince := some since } }))) ∧
  (∀ (s : State) (die : Nat) (hbm : Nat) (t : State),
     s.clocked = true →
     t = (s.wr fPWR_TEMP_DIE_MAX_C 0 die).wr fPWR_TEMP_HBM_MAX_C 0 hbm →
     max die hbm < s.warnC →
     s.reef.thermal = true →
     s.warnC ≤ max die hbm + t.setting fPWR_THERMAL_CFG_RELEASE_C 0 →
     Leads (.thermalSample die hbm) s (s.queued ({ t with reef := { t.reef with coolSince := none } }))) ∧
  (∀ (s : State) (dw : Nat) (mv : Nat) (uj : Nat) (ws : List Nat) (lim : Nat) (r : Nat × Nat) (u : State) (w : State),
     s.clocked = true →
     s.reef.lastWindow < s.clk.tsu / 8000 →
     ws = (dw :: s.reef.windows).take 1000 →
     lim = s.setting fPWR_LIMIT_LIMIT_W 0 →
     r = controllerStep lim (s.setting fPWR_LIMIT_HYST_W 0) ws s.demandController s.reef.sinceRise →
     u = (({ s with
         reef := { s.reef with windows := ws, sinceRise := r.2, lastWindow := s.reef.lastWindow + 1 },
         board := { s.board with inputMv := mv } } : State).wr fPWR_REEF_STATUS_CONTROLLER 0 r.1).reefAgain →
     w = ((((u.wr fPWR_INPUT_MILLIVOLTS 0 mv).wr fPWR_INPUT_WATTS_X10 0 dw).wr fPWR_INPUT_MEAN_10MS_X10 0 (windowSum
       1000 ws / ws.length)).bumpWrap fPWR_ENERGY_MICROJOULES 0 uj).railPowers →
     ¬ (ws.length = 1000 ∧ windowSum 1000 ws > lim * 10 * 1000 ∧ r.1 = 3) →
     Leads (.controllerWindowEnd dw mv uj) s (s.queued (w))) ∧
  (∀ (s : State) (dw : Nat) (mv : Nat) (uj : Nat) (ws : List Nat) (lim : Nat) (r : Nat × Nat) (u : State) (w : State),
     s.clocked = true →
     s.reef.lastWindow < s.clk.tsu / 8000 →
     ws = (dw :: s.reef.windows).take 1000 →
     lim = s.setting fPWR_LIMIT_LIMIT_W 0 →
     r = controllerStep lim (s.setting fPWR_LIMIT_HYST_W 0) ws s.demandController s.reef.sinceRise →
     u = (({ s with
         reef := { s.reef with windows := ws, sinceRise := r.2, lastWindow := s.reef.lastWindow + 1 },
         board := { s.board with inputMv := mv } } : State).wr fPWR_REEF_STATUS_CONTROLLER 0 r.1).reefAgain →
     w = ((((u.wr fPWR_INPUT_MILLIVOLTS 0 mv).wr fPWR_INPUT_WATTS_X10 0 dw).wr fPWR_INPUT_MEAN_10MS_X10 0 (windowSum
       1000 ws / ws.length)).bumpWrap fPWR_ENERGY_MICROJOULES 0 uj).railPowers →
     (ws.length = 1000 ∧ windowSum 1000 ws > lim * 10 * 1000 ∧ r.1 = 3) →
     Leads (.controllerWindowEnd dw mv uj) s (s.queued (w.raise 14 3))) ∧
  (∀ (s : State) (u : State),
     s.running = true →
     s.darn.wearWindow < s.clk.tsu / wearTicks →
     u = (List.range 544).foldl (fun s t => s.wr fDRN_TILE_WEAR_WINDOW_CORR t 0) s →
     Leads .wearWindow s (s.kept ({ u with
         darn := { u.darn with wearWindow := s.clk.tsu / wearTicks, rowCorr := [], groupErr := [] } }))) ∧
  (∀ (s : State) (m : Swap),
     s.running = true →
     (s.ready 15 = true ∨ (15 ∈ s.softPending ∧ s.darn.current ≠ none)) →
     s.ready 4 = true →
     s.darn.current = some m →
     s.tileTask m.unit = none →
     Leads .tileSwap s (s.kept (s.swapFinish m))) ∧
  (∀ (s : State) (m : Swap),
     s.running = true →
     (s.ready 15 = true ∨ (15 ∈ s.softPending ∧ s.darn.current ≠ none)) →
     s.ready 4 = true →
     s.starts 15 = true →
     s.darn.current = none →
     s.tileMarked = some m →
     Leads .tileSwap s (s.kept (s.swapBegin m))) ∧
  (∀ (s : State) (m : Swap) (kx : Nat × Task),
     s.running = true →
     (s.ready 15 = true ∨ (15 ∈ s.softPending ∧ s.darn.current ≠ none)) →
     s.darn.current = some m →
     s.tileTask m.unit = some kx →
     m.since + ticksOfUs (s.setting1 fDRN_POLICY_DRAIN_US 0) ≤ s.clk.tsu →
     Leads .drainTimeout s (s.kept ((s.endOnTile m.unit 0x32 0x04 []).scrub m.unit))) ∧
  (∀ (s : State) (kind : Nat) (unit : Nat) (d : State),
     s.reaches 0 = true →
     s.ready 15 = true →
     d = s.atRegion 15 0x84 →
     d.swappable kind unit = false →
     Leads (.drnSwapCtrl kind unit) s (s.kept ((d.wr fDRN_SWAP_STATUS_LAST_RESULT 0 2).notice 15 unit))) ∧
  (∀ (s : State) (unit : Nat) (d : State),
     s.reaches 0 = true →
     s.ready 15 = true →
     d = s.atRegion 15 0x84 →
     d.swappable 2 unit = true →
     Leads (.drnSwapCtrl 2 unit) s (s.kept ((d.mark 2 unit 3).wr fMGL_ENGINE_RETIRE_MARK unit 1))) ∧
  (∀ (s : State) (unit : Nat) (d : State),
     s.reaches 0 = true →
     s.ready 15 = true →
     d = s.atRegion 15 0x84 →
     d.swappable 0 unit = true →
     Leads (.drnSwapCtrl 0 unit) s (s.kept (d.mark 0 unit 3))) ∧
  (∀ (s : State) (unit : Nat) (v : State) (d : State),
     s.reaches 0 = true →
     s.ready 15 = true →
     d = s.atRegion 15 0x84 →
     d.swappable 1 unit = true →
     v = (d.mark 1 unit 3).wr fAMU_BANK_RETIRE_MARK unit 1 →
     v.rd fAMU_BANK_STATE unit = 0 →
     Leads (.drnSwapCtrl 1 unit) s (s.kept (v.clearBank unit))) ∧
  (∀ (s : State) (unit : Nat) (v : State) (d : State),
     s.reaches 0 = true →
     s.ready 15 = true →
     d = s.atRegion 15 0x84 →
     d.swappable 1 unit = true →
     v = (d.mark 1 unit 3).wr fAMU_BANK_RETIRE_MARK unit 1 →
     v.rd fAMU_BANK_STATE unit ≠ 0 →
     Leads (.drnSwapCtrl 1 unit) s (s.kept (v))) ∧
  (∀ (s : State) (l : Nat) (g : Nat) (n : Nat),
     s.running = true →
     s.ready 5 = true →
     l < 224 →
     s.groupUsed l g = true →
     n = getD 0 s.darn.groupErr (l * 64 + g) + 1 →
     ¬ (s.setting1 fDRN_THRESH_LINK_ERR 0 ≤ n ∧ s.setting fDRN_POLICY_LINK_REPAIR 0 = 1) →
     Leads (.linkCrcError l g) s (s.kept (({ s with
         darn := { s.darn with
             groupErr := put s.darn.groupErr (l * 64 + g) (getD 0 s.darn.groupErr (l * 64 + g) + 1) } } :
           State).bumpSat fDRN_LINK_ERRORS l 1))) ∧
  (∀ (s : State) (l : Nat) (g : Nat) (n : Nat),
     s.running = true →
     s.ready 5 = true →
     l < 224 →
     s.groupUsed l g = true →
     n = getD 0 s.darn.groupErr (l * 64 + g) + 1 →
     s.setting1 fDRN_THRESH_LINK_ERR 0 ≤ n →
     s.setting fDRN_POLICY_LINK_REPAIR 0 = 1 →
     Leads (.linkCrcError l g) s (s.kept ((({ s with
         darn := { s.darn with
             groupErr := put s.darn.groupErr (l * 64 + g) (getD 0 s.darn.groupErr (l * 64 + g) + 1) } } :
           State).bumpSat fDRN_LINK_ERRORS l 1).groupWorn l g)))

/-- PF0 clears the snapshot unless it is preserved, which is noticed, and the records. The sideband answers while
Auheund is powered: health, a subsystem's log or NOT_READY while the main rails are down, a page of a record, the
identity, and, by opaque content of their protocols, MCTP control, PLDM and SPDM messages, of which PLDM may clear
alerts and change its event receiver. It clears the snapshot, sets PRESERVE, and starts a warm reset, or answers
NOT_READY while the clocks do not run. The sensors are refreshed, and a change of health is sent where events are
on. A register read that reaches its page has the effect of its access. (R55, R73, R89, R104, R482, R484, R485,
R486) -/
def Obligations.SidebandCommandsComplete : Prop :=
  (∀ (s : State) (d : State),
     s.reaches 0 = true →
     s.ready 16 = true →
     d = s.atRegion 16 0xCC →
     d.rd fMGT_SNAP_PRESERVE_PRESERVE 0 ≠ 1 →
     Leads .snapCtrlClear s (s.kept ({ d with store := { d.store with snapshot := none, overflow := [] } }))) ∧
  (∀ (s : State) (d : State),
     s.reaches 0 = true →
     s.ready 16 = true →
     d = s.atRegion 16 0xCC →
     d.rd fMGT_SNAP_PRESERVE_PRESERVE 0 = 1 →
     Leads .snapCtrlClear s (s.kept (d.notice 16 0xFFFF))) ∧
  (∀ (s : State) (d : State),
     s.reaches 0 = true →
     s.ready 16 = true →
     d = s.atRegion 16 0xCC →
     Leads .clearRecords s (s.kept ({ d with store := { d.store with powerLoss := none, resetRec := none } }))) ∧
  (∀ (s : State),
     s.auheundOn = true →
     Leads .getHealth s (s.kept (s.emit (.sideband 0x01 rcOk s.healthAnswer)))) ∧
  (∀ (s : State) (sub : Nat),
     s.auheundOn = true →
     1 ≤ sub →
     sub ≤ 16 →
     s.railsUp = true →
     Leads (.readLog sub) s (s.kept (s.emit (.sideband 0x02 rcOk (s.logAnswer sub))))) ∧
  (∀ (s : State) (sub : Nat),
     s.auheundOn = true →
     1 ≤ sub →
     sub ≤ 16 →
     s.railsUp = false →
     Leads (.readLog sub) s (s.kept (s.emit (.sideband 0x02 rcNotReady [])))) ∧
  (∀ (s : State) (kind : Nat) (page : Nat),
     s.auheundOn = true →
     kind < 4 →
     Leads (.readRecord kind page) s (s.kept (s.emit (.sideband 0x03 rcOk (s.recordPage kind page))))) ∧
  (∀ (s : State),
     s.auheundOn = true →
     Leads .clearSnapshot s (s.kept (({ s with store := { s.store with snapshot := none, overflow := [] } } :
       State).emit (.sideband 0x04 rcOk [])))) ∧
  (∀ (s : State),
     s.auheundOn = true →
     s.clocked = true →
     Leads .warmReset s (s.queued ((s.emit (.sideband 0x05 rcOk [])).startWarm fMGT_RESET_CAUSE_WARM_SIDEBAND))) ∧
  (∀ (s : State),
     s.auheundOn = true →
     s.clocked = true →
     Completes .warmReset s (fun t => t.board.phase = .warm ∧ t.rd fMGT_RESET_CAUSE_WARM_SIDEBAND 0 = 1)) ∧
  (∀ (s : State),
     s.auheundOn = true →
     s.clocked = false →
     Leads .warmReset s (s.queued (s.emit (.sideband 0x05 rcNotReady [])))) ∧
  (∀ (s : State) (first : Nat),
     s.auheundOn = true →
     first < 642 →
     Leads (.readIdentity first) s (s.kept (s.emit (.sideband 0x06 rcOk (identityAnswer first))))) ∧
  (∀ (s : State) (on : Bool),
     s.auheundOn = true →
     Leads (.setPreserve on) s (s.kept ((s.wr fMGT_SNAP_PRESERVE_PRESERVE 0 (bit on)).emit (.sideband 0x07 rcOk
       [])))) ∧
  (∀ (s : State) (req : List Byte),
     s.auheundOn = true →
     Leads (.mctpControlMessage req) s (s.kept (s.drawn.emit (.sideband 0x100 rcOk (Config.mctpAnswer s.draws
       req))))) ∧
  (∀ (s : State) (req : List Byte) (u : State),
     s.auheundOn = true →
     u = (s.drawn.emit (.sideband 0x101 rcOk (Config.pldmAnswer s.draws req))).clearAlerts (fun (f : Field) =>
       s.railsUp && Config.pldmClears f.lo req) →
     Leads (.pldmMessage req) s (s.kept ({ u with
         store := { u.store with eventsOn := Config.pldmEvents u.store.eventsOn req } }))) ∧
  (∀ (s : State) (req : List Byte),
     s.auheundOn = true →
     Leads (.spdmMessage req) s (s.kept (s.drawn.emit (.sideband 0x105 rcOk (Config.spdmAnswer s.draws req))))) ∧
  (∀ (s : State),
     s.auheundOn = true →
     (s.health = s.store.health ∨ s.store.eventsOn = false) →
     Leads .sensorRefresh s (s.kept (({ s with
         store := { s.store with sensors := s.sensorValues, health := s.health } } : State)))) ∧
  (∀ (s : State),
     s.auheundOn = true →
     s.health ≠ s.store.health →
     s.store.eventsOn = true →
     Leads .sensorRefresh s (s.kept (({ s with
         store := { s.store with sensors := s.sensorValues, health := s.health } } : State).emit (.platformEvent
       s.health)))) ∧
  (∀ (s : State) (a : Access),
     s.reaches a.fn = true →
     accessOk a = true →
     Leads (.registerRead a) s (s.kept (s.busRead a)))

/-- Each of the 38 integer instructions of REG format with two sources, where it issues, writes to rd the value that its
row of R244 and R245 gives for x[rs1] and x[rs2], counts in INSTRET, and the pc goes on; a correctable error in a
register that it reads is corrected, and the next state is that one and nothing else. It waits, and changes nothing,
while rs1 or rs2 awaits a value. (R236, R238, R241, R244, R245, R246, R263) -/
def Obligations.TwoSourceResults : Prop :=
  ∀ (s : State) (t : Nat) (w : Dword), ∀ p ∈ ([(.add, encAdd, fun a b => a + b),
         (.sub, encSub, fun a b => a - b),
         (.and, encAnd, fun a b => a &&& b),
         (.or, encOr, fun a b => a ||| b),
         (.xor, encXor, fun a b => a ^^^ b),
         (.andn, encAndn, fun a b => a &&& ~~~b),
         (.orn, encOrn, fun a b => a ||| ~~~b),
         (.xnor, encXnor, fun a b => ~~~(a ^^^ b)),
         (.sll, encSll, fun a b => a <<< (b.toNat % 64)),
         (.srl, encSrl, fun a b => a >>> (b.toNat % 64)),
         (.sra, encSra, fun a b => a.sshiftRight (b.toNat % 64)),
         (.rol, encRol, fun a b => a.rotateLeft (b.toNat % 64)),
         (.ror, encRor, fun a b => a.rotateRight (b.toNat % 64)),
         (.min, encMin, fun a b => if a.slt b then a else b),
         (.max, encMax, fun a b => if b.slt a then a else b),
         (.minu, encMinu, fun a b => if a.ult b then a else b)] : List ((Nat → Dword → Instr) × Enc × (Qword → Qword
           → Qword))) ++
      ([(.maxu, encMaxu, fun a b => if b.ult a then a else b),
         (.addw, encAddw, fun a b => sextW (lowW a + lowW b)),
         (.subw, encSubw, fun a b => sextW (lowW a - lowW b)),
         (.sllw, encSllw, fun a b => sextW (lowW a <<< (b.toNat % 32))),
         (.srlw, encSrlw, fun a b => sextW (lowW a >>> (b.toNat % 32))),
         (.crc32cb, encCrc32cb, fun a b => crcFold 1 a b),
         (.crc32ch, encCrc32ch, fun a b => crcFold 2 a b),
         (.crc32cw, encCrc32cw, fun a b => crcFold 4 a b),
         (.crc32cd, encCrc32cd, fun a b => crcFold 8 a b),
         (.mul, encMul, fun a b => a * b),
         (.mulh, encMulh, fun a b => BitVec.ofInt 64 (a.toInt * b.toInt / 2 ^ 64)),
         (.mulhu, encMulhu, fun a b => BitVec.ofInt 64 ((a.toNat : Int) * b.toNat / 2 ^ 64)),
         (.mulhsu, encMulhsu, fun a b => BitVec.ofInt 64 (a.toInt * b.toNat / 2 ^ 64)),
         (.mulw, encMulw, fun a b => sextW (lowW a * lowW b)),
         (.div, encDiv, fun a b => if b = 0 then BitVec.allOnes 64 else a.sdiv b),
         (.divu, encDivu, fun a b => if b = 0 then BitVec.allOnes 64 else a / b)] : List ((Nat → Dword → Instr) × Enc
           × (Qword → Qword → Qword))) ++
      ([(.rem, encRem, fun a b => if b = 0 then a else a.srem b),
         (.remu, encRemu, fun a b => if b = 0 then a else a % b),
         (.divw, encDivw, fun a b => (if lowW b = 0 then BitVec.allOnes 32 else (lowW a).sdiv (lowW b)).signExtend
           64),
         (.divuw, encDivuw, fun a b => (if lowW b = 0 then BitVec.allOnes 32 else lowW a / lowW b).signExtend 64),
         (.remw, encRemw, fun a b => (if lowW b = 0 then lowW a else (lowW a).srem (lowW b)).signExtend 64),
         (.remuw, encRemuw, fun a b => (if lowW b = 0 then lowW a else lowW a % lowW b).signExtend 64)] : List ((Nat
           → Dword → Instr) × Enc × (Qword → Qword → Qword))),
    (Issues s t w p.2.1 [wB w, wC w] →
      Leads (p.1 t w) s
        (s.writes t w [wB w, wC w] (p.2.2 ((s.core t).getX (wB w)) ((s.core t).getX (wC w))))) ∧
    (s.canIssue t w = true → legal w = true → [wB w, wC w].any (s.core t).awaits = true →
      Leads (p.1 t w) s (s.outsideCores s))

/-- Each of the 19 integer instructions with one source register, the immediate forms among them, where it issues,
writes to rd the value that R243 to R245 give for x[rs1] and the immediate of the word, after a correctable error in
rs1 is corrected. It waits, and changes nothing, while rs1 awaits a value. (R236, R238, R243, R244, R245, R246,
R263) -/
def Obligations.OneSourceResults : Prop :=
  ∀ (s : State) (t : Nat) (w : Dword), ∀ p ∈ ([(.clz, encClz, fun _ a => BitVec.ofNat 64 (clzNat 64 a.toNat)),
         (.ctz, encCtz, fun _ a => BitVec.ofNat 64 (ctzNat 64 a.toNat)),
         (.popc, encPopc, fun _ a => BitVec.ofNat 64 (countBits 64 a.toNat)),
         (.bswap, encBswap, fun _ a => bswap a),
         (.sextb, encSextb, fun _ a => (a.truncate 8).signExtend 64),
         (.sexth, encSexth, fun _ a => (a.truncate 16).signExtend 64),
         (.sextw, encSextw, fun _ a => (a.truncate 32).signExtend 64),
         (.zextb, encZextb, fun _ a => (a.truncate 8).zeroExtend 64),
         (.zexth, encZexth, fun _ a => (a.truncate 16).zeroExtend 64),
         (.zextw, encZextw, fun _ a => (a.truncate 32).zeroExtend 64),
         (.addi, encAddi, fun w a => a + wImm12 w),
         (.andi, encAndi, fun w a => a &&& wUimm12 w),
         (.ori, encOri, fun w a => a ||| wUimm12 w),
         (.xori, encXori, fun w a => a ^^^ wUimm12 w),
         (.slli, encSlli, fun w a => a <<< wShamt w),
         (.srli, encSrli, fun w a => a >>> wShamt w)] : List ((Nat → Dword → Instr) × Enc × (Dword → Qword → Qword)))
           ++
      ([(.srai, encSrai, fun w a => a.sshiftRight (wShamt w)),
         (.roli, encRoli, fun w a => a.rotateLeft (wShamt w)),
         (.rori, encRori, fun w a => a.rotateRight (wShamt w))] : List ((Nat → Dword → Instr) × Enc × (Dword → Qword
           → Qword))),
    (Issues s t w p.2.1 [wB w] →
      Leads (p.1 t w) s (s.writes t w [wB w] (p.2.2 w ((s.core t).getX (wB w))))) ∧
    (s.canIssue t w = true → legal w = true → [wB w].any (s.core t).awaits = true →
      Leads (p.1 t w) s (s.outsideCores s))

/-- The instructions that read no scalar register write to rd: LUI its immediate shifted by 12, ADDPC the pc plus 4
times its immediate, RDCNT the counter that it selects, PTOX the predicates with p0 as 1, VRDVL the vector length;
MAINTENANCE_OP completes on a tile in MAINTENANCE with a free value in rd, and raises MAINTENANCE_ONLY elsewhere
(the free value is the model's: assumption log). (R239, R243, R244, R266, R279) -/
def Obligations.ImmediateResults : Prop :=
  ∀ (s : State) (t : Nat) (w : Dword),
    (Issues s t w encLui [] → Leads (.lui t w) s (s.writes t w [] (wImm17 w <<< 12))) ∧
    (Issues s t w encAddpc [] →
      Leads (.addpc t w) s (s.writes t w [] (BitVec.ofNat 64 (s.core t).pc + wImm17 w * 4))) ∧
    (Issues s t w encRdcnt [] →
      Leads (.rdcnt t w) s (s.writes t w [] (BitVec.ofNat 64 (s.counter (s.core t) (wB w))))) ∧
    (Issues s t w encPtox ((List.range 8).map predWord) →
      Leads (.ptox t w) s (s.writes t w ((List.range 8).map predWord) (BitVec.ofNat 64 (withBit ((s.core t).p % 256)
        0)))) ∧
    (Issues s t w encVrdvl [] → Leads (.vrdvl t w) s (s.writes t w [] (BitVec.ofNat 64 (s.core t).vl))) ∧
    (∀ u : State, u = s.readRegs t w [] → Issues s t w encMaintenanceOp [] →
      (u.rd fOCA_TILE_STATE t = tsMaintenance →
        Leads (.maintenanceOp t w) s (s.outsideCores (u.drawn.writeBack t (wA w) (BitVec.ofNat 64 u.free)))) ∧
      (u.rd fOCA_TILE_STATE t ≠ tsMaintenance →
        Leads (.maintenanceOp t w) s (s.outsideCores (u.preciseFault t (.precise 0x30 0x02 w (s.core t).pc 0 0)))))

/-- CMP and CMPI write the predicate that bits of the word name with the outcome of the condition on x[rs1] and x[rs2]
or the immediate; PAND, POR, PXOR and PANDN write pd with the function of two predicates; XTOP writes p1 to p7 from
bits 7 to 1 of x[rs1]. A write to p0 is discarded by the predicate file. (R240, R243, R244) -/
def Obligations.PredicateResults : Prop :=
  ∀ (s : State) (t : Nat) (w : Dword),
    (Issues s t w encCmp [wB w, wC w] →
      Leads (.cmp t w) s (s.outsideCores ((s.readRegs t w [wB w, wC w]).predBack t (wA w)
        (compare (wBits w 0 3) ((s.core t).getX (wB w)) ((s.core t).getX (wC w)))))) ∧
    (Issues s t w encCmpi [wBits w 11 5] →
      Leads (.cmpi t w) s (s.outsideCores ((s.readRegs t w [wBits w 11 5]).predBack t (wBits w 16 3)
        (compare (wBits w 19 3) ((s.core t).getX (wBits w 11 5)) (cmpImm w))))) ∧
    (∀ p ∈ ([(.pand, encPand, fun a b => a && b), (.por, encPor, fun a b => a || b), (.pxor, encPxor, fun a b => a !=
      b),
      (.pandn, encPandn, fun a b => a && !b)] : List ((Nat → Dword → Instr) × Enc × (Bool → Bool → Bool))),
      Issues s t w p.2.1 [predWord (wBits w 14 3), predWord (wBits w 11 3)] →
      Leads (p.1 t w) s (s.outsideCores ((s.readRegs t w [predWord (wBits w 14 3), predWord (wBits w 11 3)]).predBack
        t (wBits w 17 3)
        (p.2.2 (predBit (s.core t).p (wBits w 14 3)) (predBit (s.core t).p (wBits w 11 3)))))) ∧
    (Issues s t w encXtop [wB w] →
      Leads (.xtop t w) s (s.outsideCores (((s.readRegs t w [wB w]).onCore t (fun (d : Core) =>
        ({ d with p := withoutBit (((s.core t).getX (wB w)).toNat % 256) 0 } : Core).noteWrite
          ((List.range 7).map (fun i => predWord (i + 1))))).nextPc t)))

/-- NOP only goes on. PREFETCH asks for the line of an address of HBM that translates for the tile's function, and else
only goes on. FENCE and END act once no access and no vector instruction of the task is outstanding, and wait before
that: FENCE goes on, END ends the task. TRAP raises TRAP with its code. BR and CALL go to the pc plus 4 times the
offset, JR to x[rs1] plus the immediate, and CALL and JR write the address of the next instruction; a JR target that
is no multiple of 4 raises MISALIGNED. (R243, R244, R247, R253, R256, R257, R259) -/
def Obligations.ControlCompletes : Prop :=
  ∀ (s : State) (t : Nat) (w : Dword) (n : State), n = s.readRegs t w [] →
    (Issues s t w encNop [] → Leads (.nop t w) s (s.outsideCores (n.nextPc t))) ∧
    (∀ (u : State) (ea : Qword), u = s.readRegs t w [wB w] → ea = (s.core t).getX (wB w) + wImm12 w →
      Issues s t w encPrefetch [wB w] →
      (∀ va dpa, space ea = .hbm va → u.translate (u.tileFn t) va .read = .ok dpa →
        Leads (.prefetch t w) s (s.outsideCores (u.send t w .prefetch (64 * (va / 64)) 64 0))) ∧
      ((∀ va dpa, space ea = .hbm va → u.translate (u.tileFn t) va .read ≠ .ok dpa) →
        Leads (.prefetch t w) s (s.outsideCores (u.nextPc t)))) ∧
    (Issues s t w encFence [] → (s.core t).vectorBusy = false → (s.core t).accs = [] →
      Leads (.fence t w) s (s.outsideCores (n.nextPc t))) ∧
    (Issues s t w encFence [] → ((s.core t).vectorBusy = true ∨ (s.core t).accs ≠ []) →
      Leads (.fence t w) s (s.outsideCores s)) ∧
    (Issues s t w encEnd [] → (s.core t).vectorBusy = false → (s.core t).accs = [] →
      Leads (.endTask t w) s (s.outsideCores (n.endCore t))) ∧
    (Issues s t w encEnd [] → ((s.core t).vectorBusy = true ∨ (s.core t).accs ≠ []) →
      Leads (.endTask t w) s (s.outsideCores s)) ∧
    (Issues s t w encTrap [] →
      Leads (.trap t w) s (s.outsideCores
        (n.preciseFault t (.precise 0x30 0x07 w (s.core t).pc 0 (wBits w 7 10))))) ∧
    (Issues s t w encBr [] →
      Leads (.br t w) s (s.outsideCores (n.jump t (BitVec.ofNat 64 (s.core t).pc + wOff22 w * 4)))) ∧
    (Issues s t w encCall [] →
      Leads (.call t w) s (s.outsideCores ((n.onCore t (fun (d : Core) => d.putX 31 (BitVec.ofNat 64 ((s.core t).pc +
        4)))).jump
        t (BitVec.ofNat 64 (s.core t).pc + wOff22 w * 4)))) ∧
    (∀ v : Qword, v = (s.core t).getX (wB w) + wImm12 w → Issues s t w encJr [wB w] →
      (v.toNat % 4 = 0 → Leads (.jr t w) s (s.outsideCores (((s.readRegs t w [wB w]).onCore t
        (fun (d : Core) => d.putX (wA w) (BitVec.ofNat 64 ((s.core t).pc + 4)))).jump t v))) ∧
      (v.toNat % 4 ≠ 0 → Leads (.jr t w) s (s.outsideCores ((s.readRegs t w [wB w]).preciseFault t
        (.precise 0x30 0x04 w (s.core t).pc v.toNat 0)))))

/-- A scalar load from an aligned offset of local store, with no vector instruction outstanding, writes the value that
it reads, sign- or zero-extended; a word there with a correctable error is corrected first, and one with an
uncorrectable error ends the load with UNCORRECTABLE_DATA. One from an aligned address of HBM with a load slot free
is sent. It waits for a vector instruction or a slot. A misaligned address raises MISALIGNED, and an address that is
neither BAD_ADDRESS. (R237, R250, R251, R253, R259, R263, R290) -/
def Obligations.LoadsComplete : Prop :=
  ∀ (s : State) (t : Nat) (w : Dword) (ea : Qword) (u : State), ea = (s.core t).getX (wB w) + wImm12 w →
    u = s.readRegs t w [wB w] →
    ∀ p ∈ ([(.lb, encLb, 1, true), (.lh, encLh, 2, true), (.lw, encLw, 4, true), (.ld, encLd, 8, true), (.lbu,
      encLbu, 1, false),
       (.lhu, encLhu, 2, false), (.lwu, encLwu, 4, false)] : List ((Nat → Dword → Instr) × Enc × Nat × Bool)), Issues
         s t w p.2.1 [wB w] →
      (∀ off, space ea = .ls off → off % p.2.2.1 = 0 → (s.core t).vectorBusy = false →
        (∀ k ∈ lsWords off p.2.2.1, find (s.core t).lsBad k = none) →
        Leads (p.1 t w) s (s.writes t w [wB w] (loadValue p.2.2.1 p.2.2.2 (Mem.bytes (s.core t).ls off p.2.2.1)))) ∧
      (∀ off r, space ea = .ls off → off % p.2.2.1 = 0 → (s.core t).vectorBusy = false → u.lsGet t off p.2.2.1 = some
        r →
        Leads (p.1 t w) s (s.outsideCores (r.2.writeBack t (wA w) (loadValue p.2.2.1 p.2.2.2 r.1)))) ∧
      (∀ off, space ea = .ls off → off % p.2.2.1 = 0 → (s.core t).vectorBusy = false → u.lsGet t off p.2.2.1 = none →
        Leads (p.1 t w) s (s.outsideCores (u.preciseFault t (.precise 0x20 0x02 w (s.core t).pc ea.toNat 0)))) ∧
      (∀ off, space ea = .ls off → off % p.2.2.1 = 0 → (s.core t).vectorBusy = true →
        Leads (p.1 t w) s (s.outsideCores s)) ∧
      (∀ va, space ea = .hbm va → va % p.2.2.1 = 0 → ((s.core t).accs.filter MemAcc.isLoad).length < u.maxLoads →
        Leads (p.1 t w) s (s.outsideCores (u.send t w (.load p.2.2.1 p.2.2.2) va p.2.2.1 (wA w)))) ∧
      (∀ va, space ea = .hbm va → va % p.2.2.1 = 0 → u.maxLoads ≤ ((s.core t).accs.filter MemAcc.isLoad).length →
        Leads (p.1 t w) s (s.outsideCores s)) ∧
      ((∃ off, (space ea = .ls off ∨ space ea = .hbm off) ∧ off % p.2.2.1 ≠ 0) →
        Leads (p.1 t w) s (s.outsideCores (u.preciseFault t (.precise 0x30 0x04 w (s.core t).pc ea.toNat 0)))) ∧
      (space ea = .bad →
        Leads (p.1 t w) s (s.outsideCores (u.preciseFault t (.precise 0x30 0x05 w (s.core t).pc ea.toNat 0))))

/-- A scalar store to an aligned, unprotected offset of local store writes the low bytes of its data register there; one
to an aligned address of HBM with room in the store buffer is sent. It waits for an outstanding vector instruction,
or for room. A protected offset raises LS_PROTECTED, a misaligned address MISALIGNED, an address that is neither
BAD_ADDRESS. (R237, R250, R251, R253, R259, R290) -/
def Obligations.StoresComplete : Prop :=
  ∀ (s : State) (t : Nat) (w : Dword) (ea : Qword) (u : State), ea = (s.core t).getX (wB w) + wImm12 w →
    u = s.readRegs t w [wB w, wA w] →
    ∀ p ∈ ([(.sb, encSb, 1), (.sh, encSh, 2), (.sw, encSw, 4), (.sd, encSd, 8)] : List ((Nat → Dword → Instr) × Enc ×
      Nat)), Issues s t w p.2.1 [wB w, wA w] →
      (∀ off, space ea = .ls off → off % p.2.2 = 0 → lsProtected off = false → (s.core t).vectorBusy = false →
        Leads (p.1 t w) s (s.outsideCores ((u.onCore t (fun (c : Core) =>
          c.lsWrite off (leBytes p.2.2 ((s.core t).getX (wA w)).toNat))).nextPc t))) ∧
      (∀ off, space ea = .ls off → off % p.2.2 = 0 → lsProtected off = false → (s.core t).vectorBusy = true →
        Leads (p.1 t w) s (s.outsideCores s)) ∧
      (∀ va, space ea = .hbm va → va % p.2.2 = 0 → (s.core t).storeRoom va = true →
        Leads (p.1 t w) s (s.outsideCores (u.send t w (.store (leBytes p.2.2 ((s.core t).getX (wA w)).toNat)) va
          p.2.2 0))) ∧
      (∀ va, space ea = .hbm va → va % p.2.2 = 0 → (s.core t).storeRoom va = false →
        Leads (p.1 t w) s (s.outsideCores s)) ∧
      (∀ off, space ea = .ls off → off % p.2.2 = 0 → lsProtected off = true →
        Leads (p.1 t w) s (s.outsideCores (u.preciseFault t (.precise 0x30 0x06 w (s.core t).pc ea.toNat 0)))) ∧
      ((∃ off, (space ea = .ls off ∨ space ea = .hbm off) ∧ off % p.2.2 ≠ 0) →
        Leads (p.1 t w) s (s.outsideCores (u.preciseFault t (.precise 0x30 0x04 w (s.core t).pc ea.toNat 0)))) ∧
      (space ea = .bad →
        Leads (p.1 t w) s (s.outsideCores (u.preciseFault t (.precise 0x30 0x05 w (s.core t).pc ea.toNat 0))))

/-- An atomic with nothing of its task outstanding reads the 4 or 8 bytes at x[rs1]; in local store it writes the result
of its operation there and the old value, sign-extended, to rd, after a correctable error is corrected, or ends with
UNCORRECTABLE_DATA; to HBM it is sent whole. It waits while something is outstanding. Protected, misaligned and bad
addresses raise their faults. (R245, R250, R251, R254, R255, R259, R263) -/
def Obligations.AtomicsComplete : Prop :=
  ∀ (s : State) (t : Nat) (w : Dword) (n : Nat) (ea : Qword), n = (if wBits w 0 3 = 2 then 4 else 8) →
    ea = (s.core t).getX (wB w) → ∀ p ∈ ([(.atomicAdd, encAtomicAdd, 0), (.atomicAnd, encAtomicAnd, 1), (.atomicOr,
      encAtomicOr, 2), (.atomicXor, encAtomicXor, 3), (.atomicMin, encAtomicMin, 4), 
       (.atomicMax, encAtomicMax, 5), (.atomicMinu, encAtomicMinu, 6), (.atomicMaxu, encAtomicMaxu, 7), (.atomicSwap,
         encAtomicSwap, 8), (.atomicCas, encAtomicCas, 9)] : List ((Nat → Dword → Instr) × Enc × Nat)),
    ∀ (reads : List Nat) (u : State), reads = (if p.2.2 = 9 then [wB w, wC w, wA w] else [wB w, wC w]) →
    u = s.readRegs t w reads → Issues s t w p.2.1 reads →
      (∀ off, space ea = .ls off → off % n = 0 → lsProtected off = false →
        (s.core t).vectorBusy = false → (s.core t).accs = [] → (∀ k ∈ lsWords off n, find (s.core t).lsBad k = none) →
        ∀ v : Qword, v = loadValue n true (Mem.bytes (s.core t).ls off n) →
        Leads (p.1 t w) s (s.outsideCores ((u.onCore t (fun (c : Core) => c.lsWrite off (leBytes n
          (atomicResult p.2.2 n v ((s.core t).getX (wC w)) ((s.core t).getX (wA w))).toNat))).writeBack t (wA w) v)))
            ∧
      (∀ off r, space ea = .ls off → off % n = 0 → lsProtected off = false →
        (s.core t).vectorBusy = false → (s.core t).accs = [] → u.lsGet t off n = some r →
        ∀ v : Qword, v = loadValue n true r.1 →
        Leads (p.1 t w) s (s.outsideCores ((r.2.onCore t (fun (c : Core) => c.lsWrite off (leBytes n
          (atomicResult p.2.2 n v ((s.core t).getX (wC w)) ((s.core t).getX (wA w))).toNat))).writeBack t (wA w) v)))
            ∧
      (∀ off, space ea = .ls off → off % n = 0 → lsProtected off = false →
        (s.core t).vectorBusy = false → (s.core t).accs = [] → u.lsGet t off n = none →
        Leads (p.1 t w) s (s.outsideCores (u.preciseFault t (.precise 0x20 0x02 w (s.core t).pc ea.toNat 0)))) ∧
      (∀ va, space ea = .hbm va → va % n = 0 → (s.core t).vectorBusy = false → (s.core t).accs = [] →
        Leads (p.1 t w) s (s.outsideCores (u.send t w
          (.atomic p.2.2 n ((s.core t).getX (wC w)) ((s.core t).getX (wA w))) va n (wA w)))) ∧
      ((∃ off, ((space ea = .ls off ∧ lsProtected off = false) ∨ space ea = .hbm off) ∧ off % n = 0) →
        ((s.core t).vectorBusy = true ∨ (s.core t).accs ≠ []) → Leads (p.1 t w) s (s.outsideCores s)) ∧
      (∀ off, space ea = .ls off → off % n = 0 → lsProtected off = true →
        Leads (p.1 t w) s (s.outsideCores (u.preciseFault t (.precise 0x30 0x06 w (s.core t).pc ea.toNat 0)))) ∧
      ((∃ off, (space ea = .ls off ∨ space ea = .hbm off) ∧ off % n ≠ 0) →
        Leads (p.1 t w) s (s.outsideCores (u.preciseFault t (.precise 0x30 0x04 w (s.core t).pc ea.toNat 0)))) ∧
      (space ea = .bad →
        Leads (p.1 t w) s (s.outsideCores (u.preciseFault t (.precise 0x30 0x05 w (s.core t).pc ea.toNat 0))))

/-- Each of the 80 queued Scavex instructions, where it issues joins the queue with the scalar operands and the vector
length that it takes now, and waits while the queue holds 8 entries; the structure loads do so on a tile in
MAINTENANCE and raise MAINTENANCE_ONLY elsewhere. (R266, R274, R280, R293) -/
def Obligations.VectorQueued : Prop :=
  (∀ (s : State) (t : Nat) (w : Dword), ∀ p ∈ ([(.mand, encMand),
         (.mor, encMor),
         (.mxor, encMxor),
         (.mandn, encMandn),
         (.mpopc, encMpopc),
         (.mfirst, encMfirst),
         (.msetlt, encMsetlt),
         (.mmov, encMmov),
         (.vmv, encVmv),
         (.vbcast, encVbcast),
         (.vextract, encVextract),
         (.vinsert, encVinsert),
         (.vadd, encVadd),
         (.vsub, encVsub),
         (.vmin, encVmin),
         (.vmax, encVmax)] : List ((Nat → Dword → Instr) × Enc)) ++
      ([(.vminu, encVminu),
         (.vmaxu, encVmaxu),
         (.vsaddu, encVsaddu),
         (.vssubu, encVssubu),
         (.vand, encVand),
         (.vor, encVor),
         (.vxor, encVxor),
         (.vandn, encVandn),
         (.vsll, encVsll),
         (.vsrl, encVsrl),
         (.vsra, encVsra),
         (.vror, encVror),
         (.vmul, encVmul),
         (.vmulh, encVmulh),
         (.vmulhu, encVmulhu),
         (.vmadd, encVmadd)] : List ((Nat → Dword → Instr) × Enc)) ++
      ([(.vcmp, encVcmp),
         (.vcmpx, encVcmpx),
         (.vzext, encVzext),
         (.vsext, encVsext),
         (.vtrunc, encVtrunc),
         (.vsatnu, encVsatnu),
         (.vmerge, encVmerge),
         (.vcompress, encVcompress),
         (.vslidedn, encVslidedn),
         (.vslideup, encVslideup),
         (.vredsum, encVredsum),
         (.vredmin, encVredmin),
         (.vredmax, encVredmax),
         (.vredminu, encVredminu),
         (.vredmaxu, encVredmaxu),
         (.vredand, encVredand)] : List ((Nat → Dword → Instr) × Enc)) ++
      ([(.vredor, encVredor),
         (.vredxor, encVredxor),
         (.vfadd, encVfadd),
         (.vfsub, encVfsub),
         (.vfmul, encVfmul),
         (.vfmadd, encVfmadd),
         (.vfmin, encVfmin),
         (.vfmax, encVfmax),
         (.vfredsum, encVfredsum),
         (.vfredmax, encVfredmax),
         (.vfcvtFI, encVfcvtFI),
         (.vfcvtIF, encVfcvtIF),
         (.vfwiden, encVfwiden),
         (.vfnarrow, encVfnarrow),
         (.vfcmp, encVfcmp),
         (.vcrc32c, encVcrc32c)] : List ((Nat → Dword → Instr) × Enc)) ++
      ([(.vpopc, encVpopc),
         (.vclz, encVclz),
         (.vctz, encVctz),
         (.vid, encVid),
         (.viota, encViota),
         (.vld, encVld),
         (.vlds, encVlds),
         (.vldx, encVldx),
         (.vldxff, encVldxff),
         (.vst, encVst),
         (.vsts, encVsts),
         (.vstx, encVstx),
         (.vldff, encVldff),
         (.vldsff, encVldsff),
         (.vldmask, encVldmask),
         (.vstmask, encVstmask)] : List ((Nat → Dword → Instr) × Enc)),
    Issues s t w p.2 (scalarReads w) →
      ((s.core t).vq.length < 8 → Leads (p.1 t w) s (s.outsideCores
        (((s.readRegs t w (scalarReads w)).onCore t (fun (c : Core) => c.enqueue w)).nextPc t))) ∧
      (8 ≤ (s.core t).vq.length → Leads (p.1 t w) s (s.outsideCores s))) ∧
  (∀ (s : State) (t : Nat) (w : Dword),
    ∀ p ∈ ([(.vlseg2, encVlseg2), (.vlseg3, encVlseg3), (.vlseg4, encVlseg4)] : List ((Nat → Dword → Instr) × Enc)),
    Issues s t w p.2 (scalarReads w) →
      (s.rd fOCA_TILE_STATE t = tsMaintenance → (s.core t).vq.length < 8 →
        Leads (p.1 t w) s (s.outsideCores
          (((s.readRegs t w (scalarReads w)).onCore t (fun (c : Core) => c.enqueue w)).nextPc t))) ∧
      (s.rd fOCA_TILE_STATE t = tsMaintenance → 8 ≤ (s.core t).vq.length →
        Leads (p.1 t w) s (s.outsideCores s)) ∧
      (s.rd fOCA_TILE_STATE t ≠ tsMaintenance →
        Leads (p.1 t w) s (s.outsideCores ((s.readRegs t w (scalarReads w)).preciseFault t
          (.precise 0x30 0x02 w (s.core t).pc 0 0)))))

/-- VSETVL sets vl to the smaller of x[rs1] and the most elements of its width and writes it to rd; VRDRS reads vrs once
no vector memory instruction is outstanding, and VWRRS writes vrs, at most 511, once no first-fault load and no
queued memory instruction is; each waits before that (that a queued one delays it is the model's: assumption log
22). (R270, R279, R280, R288, R296) -/
def Obligations.VectorConfiguration : Prop :=
  ∀ (s : State) (t : Nat) (w : Dword),
    (Issues s t w encVsetvl [wB w] → ∀ v : Nat, v = min ((s.core t).getX (wB w)).toNat (maxEl (ewBytes (wEw w))) →
      Leads (.vsetvl t w) s (s.outsideCores (((s.readRegs t w [wB w]).onCore t (fun (d : Core) =>
        { d with vl := v })).writeBack t
        (wA w) (BitVec.ofNat 64 v)))) ∧
    (Issues s t w encVrdrs [] → (s.core t).memQueued = false → (s.core t).vmem = [] →
      Leads (.vrdrs t w) s (s.writes t w [] (BitVec.ofNat 64 (s.core t).vrs))) ∧
    (Issues s t w encVrdrs [] → ((s.core t).memQueued = true ∨ (s.core t).vmem ≠ []) →
      Leads (.vrdrs t w) s (s.outsideCores s)) ∧
    (Issues s t w encVwrrs [wB w] → ((s.core t).memQueued = true ∨ ∃ v ∈ (s.core t).vmem, v.firstFault = true) →
      Leads (.vwrrs t w) s (s.outsideCores s)) ∧
    (Issues s t w encVwrrs [wB w] → (s.core t).memQueued = false → (∀ v ∈ (s.core t).vmem, v.firstFault = false) →
      Leads (.vwrrs t w) s (s.outsideCores (((s.readRegs t w [wB w]).onCore t (fun (d : Core) =>
        { d with vrs := min ((s.core t).getX (wB w)).toNat 511 })).nextPc t)))

/-- With command c at the front of the queue, a step is what exec does with c on the state with the rest of the queue.
(00_scope.md, 95_what_each_step_holds.md) -/
def Obligations.StepRunsFront : Prop :=
  ∀ (c : Instr) (s : State), step { s with pending := c :: s.pending } = exec c s

/-- With an empty queue a step is a tick, and leaves the queue empty (the model's choice: assumption log 1). While the
derived clocks run, the TSU count goes up by 1 modulo 2^64, the time by 1 and the CCLK half-cycles by those of the
divider in force; where the boundary that a request of the divider waits for begins, the request takes effect first.
Without the derived clocks only the time goes on. (R67, R68, R70, R71, R436) -/
def Obligations.IdleStepIsTick : Prop :=
  ∀ s : State, s.pending = [] →
    ∃ u, step s = .next u ∧ u.pending = [] ∧
      (s.clocked = true → s.clk.atBoundary = false → u.clk = { s.clk with
        tsu := (s.clk.tsu + 1) % 2 ^ 64, now := s.clk.now + 1, cyc := s.clk.cyc + halfCycles s.clk.div }) ∧
      (s.clocked = true → s.clk.atBoundary = true → u.clk = { s.clk with
        div := s.clk.divReq.getD s.clk.div, divReq := none, tsu := (s.clk.tsu + 1) % 2 ^ 64, now := s.clk.now + 1,
        cyc := s.clk.cyc + halfCycles (s.clk.divReq.getD s.clk.div) }) ∧
      (s.clocked = false → u = { s with clk := { s.clk with now := s.clk.now + 1 } })

/-- Whatever command is carried out, a next state has the waiting commands of the state before. (00_scope.md,
95_what_each_step_holds.md) -/
def Obligations.QueueIsTheSenders : Prop :=
  ∀ (c : Instr) (s t : State), exec c s = .next t → t.pending = s.pending

/-- Every command answers a next state, but for SUPPLY_HIGH, SURGE and INPUT_FAULT with INPUT above 80 V, where R45 says
that no behaviour is guaranteed: there the model stops with the fault of the absolute maximum. (R45) -/
def Obligations.OnlyOvervoltageStops : Prop :=
  ∀ (c : Instr) (s : State),
    (overvoltage c = true → exec c s = .fault .beyondAbsoluteMaximum) ∧
    (overvoltage c = false → ∃ t, exec c s = .next t)

/-- A command of any other family leaves all of the clock root: the CCLK divider and its request, the counts of TSU, of
time and of CCLK cycles, and the notes of bring-up. (R66, R68, R436) -/
def Obligations.ClockRootKept : Prop :=
  ∀ (c : Instr) (s t : State), clockCommand c = false → exec c s = .next t → t.clk = s.clk

/-- A command that carries an instruction word leaves host memory, the queues, the Associative Match Unit, Mangle,
Halyard, the volume, the digest contexts, the reef state, the clock root and the board as they are. (R19, R233,
R234) -/
def Obligations.CoresReachOnlyTheirSide : Prop :=
  ∀ (c : Instr) (x : Nat × Dword × Enc) (s t : State), coreWord c = some x → exec c s = .next t →
    t = s.outsideCores t

/-- A command of the digest slots leaves HBM, host memory, the tasks and cores, the queues, the engines, the volume,
Darning's state, the clock root and the board as they are. (R399, R400, R402) -/
def Obligations.DigestReachesOnlyItself : Prop :=
  ∀ (c : Instr) (s t : State), digestCommand c = true → exec c s = .next t → t = s.outsideDigest t

/-- For every command that carries an instruction word which comes next on its tile: a word that no instruction has
raises ILLEGAL whatever its predicate; a legal word of the instruction, none of whose operands awaits a value, whose
predicate is false counts in INSTRET and goes on, and does nothing else, but that a correctable error of the
predicate is corrected; one whose predicate holds an uncorrectable error raises UNCORRECTABLE_DATA for the register
file. A word with the inverted predicate p0 is illegal. (R241, R243, R244, R246, R263, R275, R282) -/
def Obligations.PredicateAndLegality : Prop :=
  (∀ (c : Instr) (s : State) (t : Nat) (w : Dword) (e : Enc), coreWord c = some (t, w, e) → s.canIssue t w = true →
    (legal w = false → Leads c s (s.outsideCores
      (s.preciseFault t (.precise 0x30 0x01 w (s.core t).pc 0 0)))) ∧
    (legal w = true → e.has w = true → (∀ r, (s.core t).awaits r = false) →
      (s.core t).badRead [predWord (wPsel w)] = false → predTest (s.core t).p w = false →
      Leads c s (s.outsideCores ((s.correctRegs t [predWord (wPsel w)]).nextPc t))) ∧
    (legal w = true → e.has w = true → (∀ r, (s.core t).awaits r = false) →
      (s.core t).badRead [predWord (wPsel w)] = true → Leads c s (s.outsideCores (s.badRegister t w)))) ∧
  (∀ w : Dword, wPsel w = 0 → wPinv w = true → legal w = false)

/-- Of the 185 instructions of the operator core, no two have a word in common: whatever word is given, at most one of
them has it. (R241, R243, R244, R274, R275) -/
def Obligations.EncodingsDisjoint : Prop :=
  ∀ (w : Dword) (i j : Nat), i < encodings.length → j < encodings.length →
    (encodings.getD i encNop).has w = true → (encodings.getD j encNop).has w = true → i = j

/-- From every state in which the CCLK divider in force and one that is requested are those of a reef level and the TSU
count fits its 64 bits, a step of whatever command waits at the front, or of none, leads to such a state. (R68,
R436, R449) -/
def Obligations.ClockLegalKept : Prop :=
  ∀ s t : State, s.clk.Legal → step s = .next t → t.clk.Legal

/-- The state right after reset meets the invariant that every step keeps. (R66, R68, R436) -/
def Obligations.ClockLegalAtReset : Prop :=
  State.reset.clk.Legal

/-- After an instruction that writes v to rd and does not leave its code: x[rd] is v, but x0 still reads 0; every other
scalar register, the predicates, masks, vector registers, vl, vrs, local store and the other tiles are as before;
the pc is 4 further and INSTRET one more; HBM, host memory and the queue are as before. (R238, R244, R246) -/
def Obligations.ResultWritten : Prop :=
  ∀ (s : State) (t : Nat) (w : Dword) (reads : List Nat) (v : Qword),
    s.stays t (((s.core t).pc + 4) % 2 ^ 64) →
    ((s.writes t w reads v).core t).getX (wA w) = (if wA w = 0 then 0 else v) ∧
    (∀ r, r ≠ wA w → ((s.writes t w reads v).core t).getX r = (s.core t).getX r) ∧
    ((s.writes t w reads v).core t).pc = ((s.core t).pc + 4) % 2 ^ 64 ∧
    ((s.writes t w reads v).core t).instret = (s.core t).instret + 1 ∧
    ((s.writes t w reads v).core t).p = (s.core t).p ∧ ((s.writes t w reads v).core t).v = (s.core t).v ∧
    ((s.writes t w reads v).core t).m = (s.core t).m ∧ ((s.writes t w reads v).core t).vl = (s.core t).vl ∧
    ((s.writes t w reads v).core t).vrs = (s.core t).vrs ∧ ((s.writes t w reads v).core t).ls = (s.core t).ls ∧
    (∀ u, u ≠ t → (s.writes t w reads v).core u = s.core u) ∧
    (s.writes t w reads v).hbm = s.hbm ∧ (s.writes t w reads v).hostMem = s.hostMem ∧
    (s.writes t w reads v).pending = s.pending

/-- Storing the bytes d at an offset of local store changes those bytes and no other: each of them reads as stored,
every byte outside reads as before, and no register of the core changes. (R250, R251, R263) -/
def Obligations.LocalStoreWritten : Prop :=
  ∀ (c : Core) (off : Nat) (d : List Byte),
    (c.lsWrite off d).lsRead off d.length = d ∧
    (∀ q, q < off ∨ off + d.length ≤ q → Mem.byte (c.lsWrite off d).ls q = Mem.byte c.ls q) ∧
    (∀ r, (c.lsWrite off d).getX r = c.getX r) ∧ (c.lsWrite off d).p = c.p ∧ (c.lsWrite off d).v = c.v ∧
    (c.lsWrite off d).m = c.m ∧ (c.lsWrite off d).pc = c.pc ∧ (c.lsWrite off d).accs = c.accs

/-- Bytes written within a line of HBM that is good read back as written; every other byte of HBM and host memory reads
as before, and the line stays good. (R431, R432) -/
def Obligations.HbmLineWritten : Prop :=
  ∀ (s : State) (dpa : Nat) (d : List Byte), s.checkOf (dpa / 64) = .good →
    Mem.bytes (s.writeWithinLine dpa d).1.hbm dpa d.length = d ∧
    (∀ q, q < dpa ∨ dpa + d.length ≤ q → Mem.byte (s.writeWithinLine dpa d).1.hbm q = Mem.byte s.hbm q) ∧
    (s.writeWithinLine dpa d).1.checkOf (dpa / 64) = .good ∧
    (s.writeWithinLine dpa d).1.hostMem = s.hostMem ∧ (s.writeWithinLine dpa d).1.oca = s.oca ∧
    (s.hbm.wf = true → (s.writeWithinLine dpa d).1.hbm.wf = true)

/-- Bytes that the device writes to host memory read back as written, every other byte of host memory reads as before,
and HBM and the registers are as before. (05_host_link_and_functions.md, R130) -/
def Obligations.HostMemoryWritten : Prop :=
  ∀ (s : State) (a : Nat) (d : List Byte),
    Mem.bytes (s.hostWrite a d).hostMem a d.length = d ∧
    (∀ q, q < a ∨ a + d.length ≤ q → Mem.byte (s.hostWrite a d).hostMem q = Mem.byte s.hostMem q) ∧
    (s.hostWrite a d).hbm = s.hbm ∧ (s.hostWrite a d).regs = s.regs ∧ (s.hostWrite a d).pending = s.pending ∧
    (s.hostMem.wf = true → (s.hostWrite a d).hostMem.wf = true)

/-- A step that starts a task on an idle tile starts the task of peg A, or of peg B where A is empty: the pc is at the
entry of its node, vl, vrs and INSTRET are 0, the masks m1 to m7 and the predicates zero; x1 to x4 hold the start of
local store, the address of the constants, that of the node's own space and its length, and every other scalar
register 0; the vector registers hold what they held, or zero where the tile was scrubbed. (R239, R240, R269) -/
def Obligations.StartedTaskRegisters : Prop :=
  ∀ (s u : State) (t : Nat), exec (.taskStart t) s = .next u → (s.core t).task = none → (u.core t).task ≠ none →
    ∃ peg k x r, s.nextPeg t = some (peg, k, x) ∧ s.run x.run = some r ∧
      (u.core t).task = some k ∧ (u.core t).pc = (s.graphOf r).entry r x.node ∧
      (u.core t).vl = 0 ∧ (u.core t).vrs = 0 ∧ (u.core t).instret = 0 ∧ (u.core t).p = 0 ∧
      (∀ q, q ≠ 0 → (u.core t).getM q = 0) ∧
      (u.core t).getX 1 = 0xFFFF000000000000#64 ∧ (u.core t).getX 2 = 0xFFFF000000000800#64 ∧
      (u.core t).getX 3 = BitVec.ofNat 64 (0xFFFF000000000800 + fieldAt (r.record ((s.graphOf r).node x.node)) 4 4) ∧
      (u.core t).getX 4 = BitVec.ofNat 64 ((s.graphOf r).node x.node).lsBytes ∧
      (∀ q, 5 ≤ q → (u.core t).getX q = 0) ∧
      ((u.core t).v = (s.core t).v ∨ (u.core t).v = [])

/-- PTM_TIMEOUT on a dialogue that is 10 ms old, or whose context the link invalidated, leaves LOCAL, HOST and RATE,
clears VALID, sets FAILED and raises PTM_FAIL; the next period starts a dialogue again, and a response to it sets
VALID. (R447) -/
def Obligations.PtmTimeoutFails : Prop :=
  (∀ (s : State) (inv : Bool), s.running = true → s.tsu.dialogue.isSome = true →
    (inv = true ∨ s.tsu.lastDialogue + ticksOfMs 10 ≤ s.clk.tsu) →
    Completes (.ptmTimeout inv) s (fun t =>
      t.rd fTSU_PTM_LOCAL_LOCAL 0 = s.rd fTSU_PTM_LOCAL_LOCAL 0 ∧ t.rd fTSU_PTM_HOST_HOST 0 = s.rd fTSU_PTM_HOST_HOST
        0 ∧
      t.rd fTSU_PTM_RATE_RATE 0 = s.rd fTSU_PTM_RATE_RATE 0 ∧ t.rd fTSU_PTM_STATUS_VALID 0 = 0 ∧
      t.rd fTSU_PTM_STATUS_FAILED 0 = 1 ∧ (t.irqStatus 13).testBit 3 = true ∧ t.tsu.dialogue = none ∧
      t.tsu.lastDialogue = s.tsu.lastDialogue)) ∧
  (∀ s : State, s.running = true → s.ready 13 = true → s.cfg 0 .ptmEnable = 1 → s.setting fTSU_PTM_CTRL_ENABLE 0 = 1 →
    s.tsu.dialogue = none → s.tsu.lastDialogue + s.ptmPeriod ≤ s.clk.tsu →
    Completes .ptmDialogue s (fun t => t.tsu.dialogue = some s.clk.tsu)) ∧
  (∀ (s : State) (host rate : Nat), s.running = true → s.tsu.dialogue.isSome = true →
    s.clk.tsu < s.tsu.lastDialogue + ticksOfMs 10 →
    Completes (.ptmResponse host rate) s (fun t => t.rd fTSU_PTM_STATUS_VALID 0 = 1))

/-- A write of RESV in the unlocked page of CVC that would bring the sum of the reservations above 512 keeps the
previous value, enters the refusal in CVC's error log at the place of NEXT and raises RESV_REFUSED; it, and a write
within the sum, takes no entry of the lock table from any command. (R382) -/
def Obligations.ReservationSumBounded : Prop :=
  ∀ (s : State) (fn v : Nat), s.reaches 0 = true → s.ready 10 = true → fn ≤ 1024 →
    s.rd fEXPERT_UNLOCK_UNLOCKED 10 = 1 →
    (512 < s.lockResvSum - s.rd fCVC_FN_RESV fn + lowBits 10 v →
      Completes (.cvcFnResv fn v) s (fun t =>
        t.rd fCVC_FN_RESV fn = s.rd fCVC_FN_RESV fn ∧
        (find t.errLog (10 * 16 + s.rd fERR_LOG_PTR_NEXT 10)).map (fun e => (e.cls, e.source, e.fn, e.cause)) =
          some (5, 10, some fn, 4) ∧
        (t.irqStatus 10).testBit 4 = true ∧ t.cvc = s.cvc)) ∧
    (s.lockResvSum - s.rd fCVC_FN_RESV fn + lowBits 10 v ≤ 512 →
      Completes (.cvcFnResv fn v) s (fun t => t.rd fCVC_FN_RESV fn = lowBits 10 v ∧ t.cvc = s.cvc))

/-- A tile of mast m is homed on stack m / 4, and the masts whose home is stack s are 4s to 4s + 3. (R13) -/
def Obligations.MastHomes : Prop :=
  (∀ t : Nat, tileHome t = mastOf t / 4) ∧
  (∀ m s : Nat, m / 4 = s ↔ 4 * s ≤ m ∧ m ≤ 4 * s + 3)

/-- x0 reads 0, p0 reads 1 and m0 reads all ones in every state; a write to one of them changes no register. (R238,
R268) -/
def Obligations.ZeroRegisters : Prop :=
  ∀ (c : Core) (p : Nat) (v : Qword) (b : Bool) (k : MReg),
    c.getX 0 = 0 ∧ predBit p 0 = true ∧ c.getM 0 = BitVec.allOnes 512 ∧
    c.putX 0 v = c ∧ setPred p 0 b = p ∧ c.putM 0 k = c

/-- When a queued instruction of one of the elementwise majors executes, element i of vd is the function of element i of
its sources where i is active and below the element count, and stays as it was where it is not; every other vector
register, the scalar registers, the masks, local store and the pc are as before. (R271, R272, R274, R276) -/
def Obligations.VectorElements : Prop :=
  ∀ (c : Core) (e : VEntry) (i : Nat), i < maxEl e.width →
    ∀ q ∈ ([(0x24, false, fun e w _ x y => vIntA (wOp e.word) w x y), (0x25, true, fun e w _ x y => vIntA (wOp
      e.word) w x y),
      (0x26, false, fun e w _ x y => vIntB (wOp e.word) w x y), (0x27, false, fun e _ _ x y => vLogic (wOp e.word) x
        y),
      (0x28, true, fun e _ _ x y => vLogic (wOp e.word) x y), (0x29, false, fun e w _ x y => vShift (wOp e.word) w x
        y),
      (0x2A, true, fun e w _ x y => vShift (wOp e.word) w x y), (0x2B, false, fun e w d x y => vMulOp (wOp e.word) w
        d x y),
      (0x33, false, fun e w d x y => vFloat (wOp e.word) w d x y), (0x36, false, fun e w _ x y => vBits (wOp e.word)
        w x y)] :
      List (Nat × Bool × (VEntry → Nat → Nat → Nat → Nat → Nat))), wMajor e.word = q.1 →
      el e.width ((c.vExec e).getV (wA e.word)) i =
        (if active e.width e.count (c.getM (wVm e.word)) i = true then
          q.2.2 e e.width (el e.width (c.getV (wA e.word)) i) (el e.width (c.getV (wB e.word)) i)
            (e.operand c q.2.1 i) % 2 ^ (8 * e.width)
        else el e.width (c.getV (wA e.word)) i) ∧
      (∀ r, r ≠ wA e.word → (c.vExec e).getV r = c.getV r) ∧
      (c.vExec e).x = c.x ∧ (c.vExec e).m = c.m ∧ (c.vExec e).ls = c.ls ∧ (c.vExec e).pc = c.pc

/-- CLAIM, RELEASE, KEYED, LAST, EXPORT, IMPORT, RESTART and a write of DATA by one function leave every slot of every
other function as it is. (R402, R403, R404) -/
def Obligations.DigestSlotsIsolated : Prop :=
  ∀ (s t : State) (fn slot x : Nat) (g q : Nat), g ≠ fn → q < 16 →
    (exec (.claim fn slot x) s = .next t ∨ exec (.release fn slot) s = .next t ∨ exec (.keyed fn slot) s = .next t ∨
      exec (.last fn slot) s = .next t ∨ exec (.exportContext fn slot) s = .next t ∨
      exec (.importContext fn slot) s = .next t ∨ exec (.restart fn slot) s = .next t ∨
      exec (.dgeSlotData fn slot x) s = .next t) →
    t.dslot g q = s.dslot g q

/-- A write to element i of a register whose write has no action of its own changes the RW, W1C and W1S fields of that
register in that element, and EXPERT_UNLOCK.DENIED of a locked page: every other field of every register reads as
before, read-only fields of the same register among them. (R7, R94, R97) -/
def Obligations.PlainWriteFrame : Prop :=
  ∀ (s : State) (d : RegDesc) (sub i v : Nat), writers.find? (fun w => w.1.id = d.head) = none →
    sub < 65536 → i < 65536 →
    ∀ (g : Field) (j : Nat), j < 65536 → g.id ≠ fEXPERT_UNLOCK_DENIED.id →
      (j ≠ i ∨ ∀ f ∈ d.fields, f.acc = .rw ∨ f.acc = .w1c ∨ f.acc = .w1s → f.id ≠ g.id) →
      (s.writeReg d sub i v).rd g j = s.rd g j

/-- Neither a cold reset nor the release of a warm reset changes a wear counter: of tiles, of stacks, of links, the
false hits and scrub fixes of Sorting Table banks and the verification failures of Mangle engines. (R9, R72, R468) -/
def Obligations.WearKept : Prop :=
  ∀ (s t : State), exec .railsUp s = .next t ∨ exec .resetRelease s = .next t →
    ∀ f ∈ ([fDRN_TILE_WEAR_CORRECTED, fDRN_TILE_WEAR_UNCORR, fDRN_TILE_WEAR_RETIRED, fDRN_STACK_PPR_USED,
        fDRN_STACK_UNREPAIRABLE, fDRN_LINK_GROUP_SWAPPED, fDRN_LINK_DEGRADED, fAMU_BANK_FALSE_HITS,
        fAMU_BANK_SCRUB_FIXED, fMGL_ENGINE_VERIFY_FAILS] : List Field), ∀ i, i < 65536 →
      t.rd f i = s.rd f i

/-- At reset every register field reads its reset value, no memory holds anything and every memory has its canonical
form, no queue, run, task, job or claimed slot exists, PWR_GOOD is high and the PLL has yet to lock, every
DRV_PERST_N is low, and no command waits. (R9, R41, R67, R71) -/
def Obligations.ResetState : Prop :=
  (∀ (f : Field) (i : Nat), State.reset.rd f i = f.resetAt i) ∧
  State.reset.board.phase = .unlocked ∧ State.reset.board.pwrGood = true ∧ State.reset.board.drvPerstN = 0 ∧
  State.reset.clk.tsu = 0 ∧ State.reset.hif.linkUp = false ∧
  State.reset.hostMem = [] ∧ State.reset.hbm = [] ∧ State.reset.hostMem.wf = true ∧ State.reset.hbm.wf = true ∧
  State.reset.errLog = [] ∧ State.reset.bsn.tasks = [] ∧ State.reset.bsn.runs = [] ∧ State.reset.oca = [] ∧
  (∀ fn qid, State.reset.queue fn qid = none) ∧ (∀ fn sl, (State.reset.dslot fn sl).st = 0) ∧
  State.reset.pending = []
end

