-- ==== Sys2Proof/Laws/Map.lean ====
section
/-! SUPPORT. Laws of the sparse maps: reading after writing, and every operation keeps the canonical form. -/

namespace Sys2Proof.Machine

/-! ### Reading after writing -/

@[simp] theorem find_put_same {α : Type} (m : NMap α) (k : Nat) (v : α) : find (put m k v) k = some v := by
  induction m with
  | nil => simp [put, find]
  | cons x rest ih =>
    obtain ⟨a, b⟩ := x
    simp only [put]
    split
    · simp [find]
    · split
      · simp [find]
      · rename_i h _
        simp_all [find]

theorem find_put_other {α : Type} (m : NMap α) (k q : Nat) (v : α) (h : q ≠ k) : find (put m k v) q = find m q := by
  induction m with
  | nil => simp [put, find, h]
  | cons x rest ih =>
    obtain ⟨a, b⟩ := x
    simp only [put]
    split
    · simp [find, h]
    · split
      · subst_vars; simp [find, h]
      · simp [find, ih]

@[simp] theorem find_del_same {α : Type} (m : NMap α) (k : Nat) : find (del m k) k = none := by
  induction m with
  | nil => simp [del, find]
  | cons x rest ih =>
    obtain ⟨a, b⟩ := x
    simp only [del]
    split
    · exact ih
    · rename_i h; simp [find, h, ih]

theorem find_del_other {α : Type} (m : NMap α) (k q : Nat) (h : q ≠ k) : find (del m k) q = find m q := by
  induction m with
  | nil => simp [del]
  | cons x rest ih =>
    obtain ⟨a, b⟩ := x
    simp only [del]
    split
    · subst_vars; simp [find, h, ih]
    · simp [find, ih]

@[simp] theorem getD_setD_same {α : Type} [DecidableEq α] (d : α) (m : NMap α) (k : Nat) (v : α) :
    getD d (setD d m k v) k = v := by
  unfold getD setD
  split
  · subst_vars; simp
  · simp

theorem getD_setD_other {α : Type} [DecidableEq α] (d e : α) (m : NMap α) (k q : Nat) (v : α) (h : q ≠ k) :
    getD d (setD e m k v) q = getD d m q := by
  unfold getD setD
  split <;> simp [find_put_other, find_del_other, h]

/-! ### The canonical form -/

theorem risingFrom_mono {α : Type} (m : NMap α) (a b : Nat) (h : a ≤ b) : risingFrom b m = true → risingFrom a m = true := by
  cases m with
  | nil => simp [risingFrom]
  | cons x rest =>
    obtain ⟨k, v⟩ := x
    simp only [risingFrom, Bool.and_eq_true, decide_eq_true_eq]
    exact fun x => ⟨by omega, x.2⟩

theorem risingFrom_put {α : Type} (m : NMap α) (b k : Nat) (v : α) (h : risingFrom b m = true) (hk : b ≤ k) :
    risingFrom b (put m k v) = true := by
  induction m generalizing b with
  | nil => simp [put, risingFrom, hk]
  | cons x rest ih =>
    obtain ⟨a, w⟩ := x
    simp only [risingFrom, Bool.and_eq_true, decide_eq_true_eq] at h
    simp only [put]
    split
    · rename_i hlt
      simp only [risingFrom, Bool.and_eq_true, decide_eq_true_eq]
      exact ⟨hk, by omega, h.2⟩
    · split
      · subst_vars; simp [risingFrom, h.1, h.2]
      · simp only [risingFrom, Bool.and_eq_true, decide_eq_true_eq]
        exact ⟨h.1, ih (a + 1) h.2 (by omega)⟩

theorem risingFrom_del {α : Type} (m : NMap α) (b k : Nat) (h : risingFrom b m = true) : risingFrom b (del m k) = true := by
  induction m generalizing b with
  | nil => simp [del, risingFrom]
  | cons x rest ih =>
    obtain ⟨a, w⟩ := x
    simp only [risingFrom, Bool.and_eq_true, decide_eq_true_eq] at h
    simp only [del]
    split
    · exact risingFrom_mono _ b (a + 1) (by omega) (ih (a + 1) h.2)
    · simp [risingFrom, h.1, ih (a + 1) h.2]

theorem all_put {α : Type} (p : Nat × α → Bool) (m : NMap α) (k : Nat) (v : α) (h : m.all p = true) (hv : p (k, v) = true) :
    (put m k v).all p = true := by
  induction m with
  | nil => simp [put, hv]
  | cons x rest ih =>
    obtain ⟨a, w⟩ := x
    simp only [List.all_cons, Bool.and_eq_true] at h
    simp only [put]
    split
    · simp only [List.all_cons, Bool.and_eq_true]; exact ⟨hv, h⟩
    · split
      · simp only [List.all_cons, Bool.and_eq_true]; exact ⟨hv, h.2⟩
      · simp only [List.all_cons, Bool.and_eq_true]; exact ⟨h.1, ih h.2⟩

theorem all_del {α : Type} (p : Nat × α → Bool) (m : NMap α) (k : Nat) (h : m.all p = true) : (del m k).all p = true := by
  induction m with
  | nil => simp [del]
  | cons x rest ih =>
    obtain ⟨a, w⟩ := x
    simp only [List.all_cons, Bool.and_eq_true] at h
    simp only [del]
    split
    · exact ih h.2
    · simp only [List.all_cons, Bool.and_eq_true]; exact ⟨h.1, ih h.2⟩

/-- Writing keeps the canonical form. -/
theorem wfMap_setD {α : Type} [DecidableEq α] (d : α) (m : NMap α) (k : Nat) (v : α) (h : wfMap d m = true) :
    wfMap d (setD d m k v) = true := by
  unfold wfMap at *
  rw [Bool.and_eq_true] at *
  unfold setD
  split
  · exact ⟨risingFrom_del _ _ _ h.1, all_del _ _ _ h.2⟩
  · exact ⟨risingFrom_put _ _ _ _ h.1 (by omega), all_put _ _ _ _ h.2 (by simpa)⟩

/-! ### Byte memories -/

@[simp] theorem Mem.byte_poke_same (m : Mem) (a : Nat) (b : Byte) : Mem.byte (Mem.poke m a b) a = b :=
  getD_setD_same 0 m a b

theorem Mem.byte_poke_other (m : Mem) (a q : Nat) (b : Byte) (h : q ≠ a) : Mem.byte (Mem.poke m a b) q = Mem.byte m q :=
  getD_setD_other 0 0 m a q b h

/-- A byte outside what is stored reads as before. -/
theorem Mem.byte_store_outside (m : Mem) (a q : Nat) (d : List Byte) (h : q < a ∨ a + d.length ≤ q) :
    Mem.byte (Mem.store m a d) q = Mem.byte m q := by
  induction d generalizing m a with
  | nil => rfl
  | cons b rest ih =>
    simp only [List.length_cons] at h
    rw [Mem.store, ih (Mem.poke m a b) (a + 1) (by omega)]
    exact Mem.byte_poke_other m a q b (by omega)

/-- What is stored is read back. -/
theorem Mem.bytes_store (m : Mem) (a : Nat) (d : List Byte) : Mem.bytes (Mem.store m a d) a d.length = d := by
  induction d generalizing m a with
  | nil => rfl
  | cons b rest ih =>
    simp only [Mem.store, List.length_cons, Mem.bytes]
    rw [ih (Mem.poke m a b) (a + 1), Mem.byte_store_outside _ _ _ _ (by omega), Mem.byte_poke_same]

theorem Mem.wf_poke (m : Mem) (a : Nat) (b : Byte) (h : m.wf = true) : (Mem.poke m a b).wf = true := wfMap_setD 0 m a b h

/-- Storing keeps the canonical form. -/
theorem Mem.wf_store (m : Mem) (a : Nat) (d : List Byte) (h : m.wf = true) : (Mem.store m a d).wf = true := by
  induction d generalizing m a with
  | nil => exact h
  | cons b rest ih => exact ih _ _ (Mem.wf_poke m a b h)

@[simp] theorem leBytes_length (n v : Nat) : (leBytes n v).length = n := by
  induction n generalizing v with
  | zero => rfl
  | succ n ih => simp [leBytes, ih]

/-! ### Times that may be absent -/

/-- No time lies less than `n` ticks back. -/
theorem any_recent {o : Option Nat} {now n : Nat} (h : ∀ t ∈ o, t + n ≤ now) :
    o.any (fun t => decide (now < t + n)) = false := by
  cases o with
  | none => rfl
  | some t => exact decide_eq_false (Nat.not_lt.mpr (h t rfl))

theorem any_within {o : Option Nat} {now n t0 : Nat} (h : o = some t0) (g : now < t0 + n) :
    o.any (fun t => decide (now < t + n)) = true := by
  subst h; exact decide_eq_true g

theorem any_past {o : Option Nat} {now n t0 : Nat} (h : o = some t0) (g : t0 + n ≤ now) :
    o.any (fun t => decide (t + n ≤ now)) = true := by
  subst h; exact decide_eq_true g

end Sys2Proof.Machine
end

