-- ==== Sys2Proof/Laws/Gates.lean ====
section
/-! SUPPORT. What the four gates of Machine/Ops.lean say: a command whose condition holds has its effect, within what its
family may reach, and one whose condition does not hold leaves the state. -/

namespace Sys2Proof.Machine

theorem enabled_on {c : Bool} {f : State → State} {s : State} (h : c = true) : enabled c f s = .next (s.queued (f s)) := by
  simp [enabled, h, State.queued]

theorem enabled_off {c : Bool} {f : State → State} {s : State} (h : c = false) : enabled c f s = .next s := by
  simp [enabled, h]

theorem steady_on {c : Bool} {f : State → State} {s : State} (h : c = true) : steady c f s = .next (s.kept (f s)) := by
  simp [steady, h, State.kept]

theorem steady_off {c : Bool} {f : State → State} {s : State} (h : c = false) : steady c f s = .next s := by
  simp [steady, h]

theorem paced_on {c : Bool} {f : State → State} {s : State} (h : c = true) : paced c f s = .next (s.timed (f s)) := by
  simp [paced, h, State.timed]

theorem paced_off {c : Bool} {f : State → State} {s : State} (h : c = false) : paced c f s = .next s := by
  simp [paced, h]

theorem coreStep_on {c : Bool} {f : State → State} {s : State} (h : c = true) :
    coreStep c f s = .next (s.outsideCores (f s)) := by
  simp [coreStep, h]

theorem coreStep_off {c : Bool} {f : State → State} {s : State} (h : c = false) : coreStep c f s = .next s := by
  simp [coreStep, h]

theorem digestStep_on {c : Bool} {f : State → State} {s : State} (h : c = true) :
    digestStep c f s = .next (s.outsideDigest (f s)) := by
  simp [digestStep, h]

theorem digestStep_off {c : Bool} {f : State → State} {s : State} (h : c = false) : digestStep c f s = .next s := by
  simp [digestStep, h]

/-! ### No gate answers anything but a next state -/

theorem enabled_next (c : Bool) (f : State → State) (s : State) :
    ∃ t, enabled c f s = .next t ∧ t.pending = s.pending := by
  cases c
  · exact ⟨s, enabled_off rfl, rfl⟩
  · exact ⟨_, enabled_on rfl, rfl⟩

theorem steady_next (c : Bool) (f : State → State) (s : State) :
    ∃ t, steady c f s = .next t ∧ t.pending = s.pending ∧ t.clk = s.clk := by
  cases c
  · exact ⟨s, steady_off rfl, rfl, rfl⟩
  · exact ⟨_, steady_on rfl, rfl, rfl⟩

theorem paced_next (c : Bool) (f : State → State) (s : State) :
    ∃ t, paced c f s = .next t ∧ t.pending = s.pending ∧ t.clk.div = s.clk.div ∧ t.clk.divReq = s.clk.divReq
      ∧ t.clk.tsu = s.clk.tsu ∧ t.clk.cyc = s.clk.cyc := by
  cases c
  · exact ⟨s, paced_off rfl, rfl, rfl, rfl, rfl, rfl⟩
  · exact ⟨_, paced_on rfl, rfl, rfl, rfl, rfl, rfl⟩

theorem coreStep_next (c : Bool) (f : State → State) (s : State) :
    ∃ t, coreStep c f s = .next t ∧ t = s.outsideCores t := by
  cases c
  · exact ⟨s, coreStep_off rfl, rfl⟩
  · exact ⟨_, coreStep_on rfl, rfl⟩

theorem digestStep_next (c : Bool) (f : State → State) (s : State) :
    ∃ t, digestStep c f s = .next t ∧ t = s.outsideDigest t := by
  cases c
  · exact ⟨s, digestStep_off rfl, rfl⟩
  · exact ⟨_, digestStep_on rfl, rfl⟩

/-! ### From the effect to the next state -/

theorem enabled_leads {c : Bool} {f : State → State} {s u : State} (h : c = true) (e : f s = u) :
    enabled c f s = .next (s.queued u) := by rw [enabled_on h, e]

theorem steady_leads {c : Bool} {f : State → State} {s u : State} (h : c = true) (e : f s = u) :
    steady c f s = .next (s.kept u) := by rw [steady_on h, e]

theorem paced_leads {c : Bool} {f : State → State} {s u : State} (h : c = true) (e : f s = u) :
    paced c f s = .next (s.timed u) := by rw [paced_on h, e]

theorem coreStep_leads {c : Bool} {f : State → State} {s u : State} (h : c = true) (e : f s = u) :
    coreStep c f s = .next (s.outsideCores u) := by rw [coreStep_on h, e]

theorem digestStep_leads {c : Bool} {f : State → State} {s u : State} (h : c = true) (e : f s = u) :
    digestStep c f s = .next (s.outsideDigest u) := by rw [digestStep_on h, e]

/-! ### Frames of the gates -/

@[simp] theorem State.kept_pending (s u : State) : (s.kept u).pending = s.pending := rfl
@[simp] theorem State.kept_clk (s u : State) : (s.kept u).clk = s.clk := rfl
@[simp] theorem State.queued_pending (s u : State) : (s.queued u).pending = s.pending := rfl

end Sys2Proof.Machine
end

