-- ==== Sys2Proof/Laws/State.lean ====
section
/-! SUPPORT. What each shared operation of Machine/Ops.lean can reach, said once (`…_shape`), and one lemma for each field
that it leaves alone, so that no later proof unfolds a record update. -/

namespace Sys2Proof.Machine


/-! #### `wr` -/

@[simp] theorem State.wr_board (s : State) (f : Field) (i : Nat) (v : Nat) : (s.wr f i v).board = s.board := rfl
@[simp] theorem State.wr_clk (s : State) (f : Field) (i : Nat) (v : Nat) : (s.wr f i v).clk = s.clk := rfl
@[simp] theorem State.wr_hif (s : State) (f : Field) (i : Nat) (v : Nat) : (s.wr f i v).hif = s.hif := rfl
@[simp] theorem State.wr_tsu (s : State) (f : Field) (i : Nat) (v : Nat) : (s.wr f i v).tsu = s.tsu := rfl
@[simp] theorem State.wr_reef (s : State) (f : Field) (i : Nat) (v : Nat) : (s.wr f i v).reef = s.reef := rfl
@[simp] theorem State.wr_darn (s : State) (f : Field) (i : Nat) (v : Nat) : (s.wr f i v).darn = s.darn := rfl
@[simp] theorem State.wr_store (s : State) (f : Field) (i : Nat) (v : Nat) : (s.wr f i v).store = s.store := rfl
@[simp] theorem State.wr_errLog (s : State) (f : Field) (i : Nat) (v : Nat) : (s.wr f i v).errLog = s.errLog := rfl
@[simp] theorem State.wr_failedSubs (s : State) (f : Field) (i : Nat) (v : Nat) : (s.wr f i v).failedSubs = s.failedSubs := rfl
@[simp] theorem State.wr_softPending (s : State) (f : Field) (i : Nat) (v : Nat) : (s.wr f i v).softPending = s.softPending := rfl
@[simp] theorem State.wr_qmg (s : State) (f : Field) (i : Nat) (v : Nat) : (s.wr f i v).qmg = s.qmg := rfl
@[simp] theorem State.wr_hmc (s : State) (f : Field) (i : Nat) (v : Nat) : (s.wr f i v).hmc = s.hmc := rfl
@[simp] theorem State.wr_bsn (s : State) (f : Field) (i : Nat) (v : Nat) : (s.wr f i v).bsn = s.bsn := rfl
@[simp] theorem State.wr_oca (s : State) (f : Field) (i : Nat) (v : Nat) : (s.wr f i v).oca = s.oca := rfl
@[simp] theorem State.wr_amu (s : State) (f : Field) (i : Nat) (v : Nat) : (s.wr f i v).amu = s.amu := rfl
@[simp] theorem State.wr_mgl (s : State) (f : Field) (i : Nat) (v : Nat) : (s.wr f i v).mgl = s.mgl := rfl
@[simp] theorem State.wr_hal (s : State) (f : Field) (i : Nat) (v : Nat) : (s.wr f i v).hal = s.hal := rfl
@[simp] theorem State.wr_cvc (s : State) (f : Field) (i : Nat) (v : Nat) : (s.wr f i v).cvc = s.cvc := rfl
@[simp] theorem State.wr_dge (s : State) (f : Field) (i : Nat) (v : Nat) : (s.wr f i v).dge = s.dge := rfl
@[simp] theorem State.wr_hostMem (s : State) (f : Field) (i : Nat) (v : Nat) : (s.wr f i v).hostMem = s.hostMem := rfl
@[simp] theorem State.wr_hbm (s : State) (f : Field) (i : Nat) (v : Nat) : (s.wr f i v).hbm = s.hbm := rfl
@[simp] theorem State.wr_out (s : State) (f : Field) (i : Nat) (v : Nat) : (s.wr f i v).out = s.out := rfl
@[simp] theorem State.wr_draws (s : State) (f : Field) (i : Nat) (v : Nat) : (s.wr f i v).draws = s.draws := rfl
@[simp] theorem State.wr_pending (s : State) (f : Field) (i : Nat) (v : Nat) : (s.wr f i v).pending = s.pending := rfl

/-! #### `bumpSat` -/

@[simp] theorem State.bumpSat_board (s : State) (f : Field) (i : Nat) (k : Nat) : (s.bumpSat f i k).board = s.board := rfl
@[simp] theorem State.bumpSat_clk (s : State) (f : Field) (i : Nat) (k : Nat) : (s.bumpSat f i k).clk = s.clk := rfl
@[simp] theorem State.bumpSat_hif (s : State) (f : Field) (i : Nat) (k : Nat) : (s.bumpSat f i k).hif = s.hif := rfl
@[simp] theorem State.bumpSat_tsu (s : State) (f : Field) (i : Nat) (k : Nat) : (s.bumpSat f i k).tsu = s.tsu := rfl
@[simp] theorem State.bumpSat_reef (s : State) (f : Field) (i : Nat) (k : Nat) : (s.bumpSat f i k).reef = s.reef := rfl
@[simp] theorem State.bumpSat_darn (s : State) (f : Field) (i : Nat) (k : Nat) : (s.bumpSat f i k).darn = s.darn := rfl
@[simp] theorem State.bumpSat_store (s : State) (f : Field) (i : Nat) (k : Nat) : (s.bumpSat f i k).store = s.store := rfl
@[simp] theorem State.bumpSat_errLog (s : State) (f : Field) (i : Nat) (k : Nat) : (s.bumpSat f i k).errLog = s.errLog := rfl
@[simp] theorem State.bumpSat_failedSubs (s : State) (f : Field) (i : Nat) (k : Nat) : (s.bumpSat f i k).failedSubs = s.failedSubs := rfl
@[simp] theorem State.bumpSat_softPending (s : State) (f : Field) (i : Nat) (k : Nat) : (s.bumpSat f i k).softPending = s.softPending := rfl
@[simp] theorem State.bumpSat_qmg (s : State) (f : Field) (i : Nat) (k : Nat) : (s.bumpSat f i k).qmg = s.qmg := rfl
@[simp] theorem State.bumpSat_hmc (s : State) (f : Field) (i : Nat) (k : Nat) : (s.bumpSat f i k).hmc = s.hmc := rfl
@[simp] theorem State.bumpSat_bsn (s : State) (f : Field) (i : Nat) (k : Nat) : (s.bumpSat f i k).bsn = s.bsn := rfl
@[simp] theorem State.bumpSat_oca (s : State) (f : Field) (i : Nat) (k : Nat) : (s.bumpSat f i k).oca = s.oca := rfl
@[simp] theorem State.bumpSat_amu (s : State) (f : Field) (i : Nat) (k : Nat) : (s.bumpSat f i k).amu = s.amu := rfl
@[simp] theorem State.bumpSat_mgl (s : State) (f : Field) (i : Nat) (k : Nat) : (s.bumpSat f i k).mgl = s.mgl := rfl
@[simp] theorem State.bumpSat_hal (s : State) (f : Field) (i : Nat) (k : Nat) : (s.bumpSat f i k).hal = s.hal := rfl
@[simp] theorem State.bumpSat_cvc (s : State) (f : Field) (i : Nat) (k : Nat) : (s.bumpSat f i k).cvc = s.cvc := rfl
@[simp] theorem State.bumpSat_dge (s : State) (f : Field) (i : Nat) (k : Nat) : (s.bumpSat f i k).dge = s.dge := rfl
@[simp] theorem State.bumpSat_hostMem (s : State) (f : Field) (i : Nat) (k : Nat) : (s.bumpSat f i k).hostMem = s.hostMem := rfl
@[simp] theorem State.bumpSat_hbm (s : State) (f : Field) (i : Nat) (k : Nat) : (s.bumpSat f i k).hbm = s.hbm := rfl
@[simp] theorem State.bumpSat_out (s : State) (f : Field) (i : Nat) (k : Nat) : (s.bumpSat f i k).out = s.out := rfl
@[simp] theorem State.bumpSat_draws (s : State) (f : Field) (i : Nat) (k : Nat) : (s.bumpSat f i k).draws = s.draws := rfl
@[simp] theorem State.bumpSat_pending (s : State) (f : Field) (i : Nat) (k : Nat) : (s.bumpSat f i k).pending = s.pending := rfl

/-! #### `bumpWrap` -/

@[simp] theorem State.bumpWrap_board (s : State) (f : Field) (i : Nat) (k : Nat) : (s.bumpWrap f i k).board = s.board := rfl
@[simp] theorem State.bumpWrap_clk (s : State) (f : Field) (i : Nat) (k : Nat) : (s.bumpWrap f i k).clk = s.clk := rfl
@[simp] theorem State.bumpWrap_hif (s : State) (f : Field) (i : Nat) (k : Nat) : (s.bumpWrap f i k).hif = s.hif := rfl
@[simp] theorem State.bumpWrap_tsu (s : State) (f : Field) (i : Nat) (k : Nat) : (s.bumpWrap f i k).tsu = s.tsu := rfl
@[simp] theorem State.bumpWrap_reef (s : State) (f : Field) (i : Nat) (k : Nat) : (s.bumpWrap f i k).reef = s.reef := rfl
@[simp] theorem State.bumpWrap_darn (s : State) (f : Field) (i : Nat) (k : Nat) : (s.bumpWrap f i k).darn = s.darn := rfl
@[simp] theorem State.bumpWrap_store (s : State) (f : Field) (i : Nat) (k : Nat) : (s.bumpWrap f i k).store = s.store := rfl
@[simp] theorem State.bumpWrap_errLog (s : State) (f : Field) (i : Nat) (k : Nat) : (s.bumpWrap f i k).errLog = s.errLog := rfl
@[simp] theorem State.bumpWrap_failedSubs (s : State) (f : Field) (i : Nat) (k : Nat) : (s.bumpWrap f i k).failedSubs = s.failedSubs := rfl
@[simp] theorem State.bumpWrap_softPending (s : State) (f : Field) (i : Nat) (k : Nat) : (s.bumpWrap f i k).softPending = s.softPending := rfl
@[simp] theorem State.bumpWrap_qmg (s : State) (f : Field) (i : Nat) (k : Nat) : (s.bumpWrap f i k).qmg = s.qmg := rfl
@[simp] theorem State.bumpWrap_hmc (s : State) (f : Field) (i : Nat) (k : Nat) : (s.bumpWrap f i k).hmc = s.hmc := rfl
@[simp] theorem State.bumpWrap_bsn (s : State) (f : Field) (i : Nat) (k : Nat) : (s.bumpWrap f i k).bsn = s.bsn := rfl
@[simp] theorem State.bumpWrap_oca (s : State) (f : Field) (i : Nat) (k : Nat) : (s.bumpWrap f i k).oca = s.oca := rfl
@[simp] theorem State.bumpWrap_amu (s : State) (f : Field) (i : Nat) (k : Nat) : (s.bumpWrap f i k).amu = s.amu := rfl
@[simp] theorem State.bumpWrap_mgl (s : State) (f : Field) (i : Nat) (k : Nat) : (s.bumpWrap f i k).mgl = s.mgl := rfl
@[simp] theorem State.bumpWrap_hal (s : State) (f : Field) (i : Nat) (k : Nat) : (s.bumpWrap f i k).hal = s.hal := rfl
@[simp] theorem State.bumpWrap_cvc (s : State) (f : Field) (i : Nat) (k : Nat) : (s.bumpWrap f i k).cvc = s.cvc := rfl
@[simp] theorem State.bumpWrap_dge (s : State) (f : Field) (i : Nat) (k : Nat) : (s.bumpWrap f i k).dge = s.dge := rfl
@[simp] theorem State.bumpWrap_hostMem (s : State) (f : Field) (i : Nat) (k : Nat) : (s.bumpWrap f i k).hostMem = s.hostMem := rfl
@[simp] theorem State.bumpWrap_hbm (s : State) (f : Field) (i : Nat) (k : Nat) : (s.bumpWrap f i k).hbm = s.hbm := rfl
@[simp] theorem State.bumpWrap_out (s : State) (f : Field) (i : Nat) (k : Nat) : (s.bumpWrap f i k).out = s.out := rfl
@[simp] theorem State.bumpWrap_draws (s : State) (f : Field) (i : Nat) (k : Nat) : (s.bumpWrap f i k).draws = s.draws := rfl
@[simp] theorem State.bumpWrap_pending (s : State) (f : Field) (i : Nat) (k : Nat) : (s.bumpWrap f i k).pending = s.pending := rfl

/-! #### `emit` -/

@[simp] theorem State.emit_regs (s : State) (o : Out) : (s.emit o).regs = s.regs := rfl
@[simp] theorem State.emit_board (s : State) (o : Out) : (s.emit o).board = s.board := rfl
@[simp] theorem State.emit_clk (s : State) (o : Out) : (s.emit o).clk = s.clk := rfl
@[simp] theorem State.emit_hif (s : State) (o : Out) : (s.emit o).hif = s.hif := rfl
@[simp] theorem State.emit_tsu (s : State) (o : Out) : (s.emit o).tsu = s.tsu := rfl
@[simp] theorem State.emit_reef (s : State) (o : Out) : (s.emit o).reef = s.reef := rfl
@[simp] theorem State.emit_darn (s : State) (o : Out) : (s.emit o).darn = s.darn := rfl
@[simp] theorem State.emit_store (s : State) (o : Out) : (s.emit o).store = s.store := rfl
@[simp] theorem State.emit_errLog (s : State) (o : Out) : (s.emit o).errLog = s.errLog := rfl
@[simp] theorem State.emit_failedSubs (s : State) (o : Out) : (s.emit o).failedSubs = s.failedSubs := rfl
@[simp] theorem State.emit_softPending (s : State) (o : Out) : (s.emit o).softPending = s.softPending := rfl
@[simp] theorem State.emit_qmg (s : State) (o : Out) : (s.emit o).qmg = s.qmg := rfl
@[simp] theorem State.emit_hmc (s : State) (o : Out) : (s.emit o).hmc = s.hmc := rfl
@[simp] theorem State.emit_bsn (s : State) (o : Out) : (s.emit o).bsn = s.bsn := rfl
@[simp] theorem State.emit_oca (s : State) (o : Out) : (s.emit o).oca = s.oca := rfl
@[simp] theorem State.emit_amu (s : State) (o : Out) : (s.emit o).amu = s.amu := rfl
@[simp] theorem State.emit_mgl (s : State) (o : Out) : (s.emit o).mgl = s.mgl := rfl
@[simp] theorem State.emit_hal (s : State) (o : Out) : (s.emit o).hal = s.hal := rfl
@[simp] theorem State.emit_cvc (s : State) (o : Out) : (s.emit o).cvc = s.cvc := rfl
@[simp] theorem State.emit_dge (s : State) (o : Out) : (s.emit o).dge = s.dge := rfl
@[simp] theorem State.emit_hostMem (s : State) (o : Out) : (s.emit o).hostMem = s.hostMem := rfl
@[simp] theorem State.emit_hbm (s : State) (o : Out) : (s.emit o).hbm = s.hbm := rfl
@[simp] theorem State.emit_draws (s : State) (o : Out) : (s.emit o).draws = s.draws := rfl
@[simp] theorem State.emit_pending (s : State) (o : Out) : (s.emit o).pending = s.pending := rfl

/-! #### `drawn` -/

@[simp] theorem State.drawn_regs (s : State) : (s.drawn).regs = s.regs := rfl
@[simp] theorem State.drawn_board (s : State) : (s.drawn).board = s.board := rfl
@[simp] theorem State.drawn_clk (s : State) : (s.drawn).clk = s.clk := rfl
@[simp] theorem State.drawn_hif (s : State) : (s.drawn).hif = s.hif := rfl
@[simp] theorem State.drawn_tsu (s : State) : (s.drawn).tsu = s.tsu := rfl
@[simp] theorem State.drawn_reef (s : State) : (s.drawn).reef = s.reef := rfl
@[simp] theorem State.drawn_darn (s : State) : (s.drawn).darn = s.darn := rfl
@[simp] theorem State.drawn_store (s : State) : (s.drawn).store = s.store := rfl
@[simp] theorem State.drawn_errLog (s : State) : (s.drawn).errLog = s.errLog := rfl
@[simp] theorem State.drawn_failedSubs (s : State) : (s.drawn).failedSubs = s.failedSubs := rfl
@[simp] theorem State.drawn_softPending (s : State) : (s.drawn).softPending = s.softPending := rfl
@[simp] theorem State.drawn_qmg (s : State) : (s.drawn).qmg = s.qmg := rfl
@[simp] theorem State.drawn_hmc (s : State) : (s.drawn).hmc = s.hmc := rfl
@[simp] theorem State.drawn_bsn (s : State) : (s.drawn).bsn = s.bsn := rfl
@[simp] theorem State.drawn_oca (s : State) : (s.drawn).oca = s.oca := rfl
@[simp] theorem State.drawn_amu (s : State) : (s.drawn).amu = s.amu := rfl
@[simp] theorem State.drawn_mgl (s : State) : (s.drawn).mgl = s.mgl := rfl
@[simp] theorem State.drawn_hal (s : State) : (s.drawn).hal = s.hal := rfl
@[simp] theorem State.drawn_cvc (s : State) : (s.drawn).cvc = s.cvc := rfl
@[simp] theorem State.drawn_dge (s : State) : (s.drawn).dge = s.dge := rfl
@[simp] theorem State.drawn_hostMem (s : State) : (s.drawn).hostMem = s.hostMem := rfl
@[simp] theorem State.drawn_hbm (s : State) : (s.drawn).hbm = s.hbm := rfl
@[simp] theorem State.drawn_out (s : State) : (s.drawn).out = s.out := rfl
@[simp] theorem State.drawn_pending (s : State) : (s.drawn).pending = s.pending := rfl

/-! #### `setCfg` -/

@[simp] theorem State.setCfg_regs (s : State) (fn : Nat) (item : CfgItem) (v : Nat) : (s.setCfg fn item v).regs = s.regs := rfl
@[simp] theorem State.setCfg_board (s : State) (fn : Nat) (item : CfgItem) (v : Nat) : (s.setCfg fn item v).board = s.board := rfl
@[simp] theorem State.setCfg_clk (s : State) (fn : Nat) (item : CfgItem) (v : Nat) : (s.setCfg fn item v).clk = s.clk := rfl
@[simp] theorem State.setCfg_tsu (s : State) (fn : Nat) (item : CfgItem) (v : Nat) : (s.setCfg fn item v).tsu = s.tsu := rfl
@[simp] theorem State.setCfg_reef (s : State) (fn : Nat) (item : CfgItem) (v : Nat) : (s.setCfg fn item v).reef = s.reef := rfl
@[simp] theorem State.setCfg_darn (s : State) (fn : Nat) (item : CfgItem) (v : Nat) : (s.setCfg fn item v).darn = s.darn := rfl
@[simp] theorem State.setCfg_store (s : State) (fn : Nat) (item : CfgItem) (v : Nat) : (s.setCfg fn item v).store = s.store := rfl
@[simp] theorem State.setCfg_errLog (s : State) (fn : Nat) (item : CfgItem) (v : Nat) : (s.setCfg fn item v).errLog = s.errLog := rfl
@[simp] theorem State.setCfg_failedSubs (s : State) (fn : Nat) (item : CfgItem) (v : Nat) : (s.setCfg fn item v).failedSubs = s.failedSubs := rfl
@[simp] theorem State.setCfg_softPending (s : State) (fn : Nat) (item : CfgItem) (v : Nat) : (s.setCfg fn item v).softPending = s.softPending := rfl
@[simp] theorem State.setCfg_qmg (s : State) (fn : Nat) (item : CfgItem) (v : Nat) : (s.setCfg fn item v).qmg = s.qmg := rfl
@[simp] theorem State.setCfg_hmc (s : State) (fn : Nat) (item : CfgItem) (v : Nat) : (s.setCfg fn item v).hmc = s.hmc := rfl
@[simp] theorem State.setCfg_bsn (s : State) (fn : Nat) (item : CfgItem) (v : Nat) : (s.setCfg fn item v).bsn = s.bsn := rfl
@[simp] theorem State.setCfg_oca (s : State) (fn : Nat) (item : CfgItem) (v : Nat) : (s.setCfg fn item v).oca = s.oca := rfl
@[simp] theorem State.setCfg_amu (s : State) (fn : Nat) (item : CfgItem) (v : Nat) : (s.setCfg fn item v).amu = s.amu := rfl
@[simp] theorem State.setCfg_mgl (s : State) (fn : Nat) (item : CfgItem) (v : Nat) : (s.setCfg fn item v).mgl = s.mgl := rfl
@[simp] theorem State.setCfg_hal (s : State) (fn : Nat) (item : CfgItem) (v : Nat) : (s.setCfg fn item v).hal = s.hal := rfl
@[simp] theorem State.setCfg_cvc (s : State) (fn : Nat) (item : CfgItem) (v : Nat) : (s.setCfg fn item v).cvc = s.cvc := rfl
@[simp] theorem State.setCfg_dge (s : State) (fn : Nat) (item : CfgItem) (v : Nat) : (s.setCfg fn item v).dge = s.dge := rfl
@[simp] theorem State.setCfg_hostMem (s : State) (fn : Nat) (item : CfgItem) (v : Nat) : (s.setCfg fn item v).hostMem = s.hostMem := rfl
@[simp] theorem State.setCfg_hbm (s : State) (fn : Nat) (item : CfgItem) (v : Nat) : (s.setCfg fn item v).hbm = s.hbm := rfl
@[simp] theorem State.setCfg_out (s : State) (fn : Nat) (item : CfgItem) (v : Nat) : (s.setCfg fn item v).out = s.out := rfl
@[simp] theorem State.setCfg_draws (s : State) (fn : Nat) (item : CfgItem) (v : Nat) : (s.setCfg fn item v).draws = s.draws := rfl
@[simp] theorem State.setCfg_pending (s : State) (fn : Nat) (item : CfgItem) (v : Nat) : (s.setCfg fn item v).pending = s.pending := rfl

/-! #### `setPending` -/

@[simp] theorem State.setPending_regs (s : State) (fn : Nat) (v : Nat) (b : Bool) : (s.setPending fn v b).regs = s.regs := rfl
@[simp] theorem State.setPending_board (s : State) (fn : Nat) (v : Nat) (b : Bool) : (s.setPending fn v b).board = s.board := rfl
@[simp] theorem State.setPending_clk (s : State) (fn : Nat) (v : Nat) (b : Bool) : (s.setPending fn v b).clk = s.clk := rfl
@[simp] theorem State.setPending_tsu (s : State) (fn : Nat) (v : Nat) (b : Bool) : (s.setPending fn v b).tsu = s.tsu := rfl
@[simp] theorem State.setPending_reef (s : State) (fn : Nat) (v : Nat) (b : Bool) : (s.setPending fn v b).reef = s.reef := rfl
@[simp] theorem State.setPending_darn (s : State) (fn : Nat) (v : Nat) (b : Bool) : (s.setPending fn v b).darn = s.darn := rfl
@[simp] theorem State.setPending_store (s : State) (fn : Nat) (v : Nat) (b : Bool) : (s.setPending fn v b).store = s.store := rfl
@[simp] theorem State.setPending_errLog (s : State) (fn : Nat) (v : Nat) (b : Bool) : (s.setPending fn v b).errLog = s.errLog := rfl
@[simp] theorem State.setPending_failedSubs (s : State) (fn : Nat) (v : Nat) (b : Bool) : (s.setPending fn v b).failedSubs = s.failedSubs := rfl
@[simp] theorem State.setPending_softPending (s : State) (fn : Nat) (v : Nat) (b : Bool) : (s.setPending fn v b).softPending = s.softPending := rfl
@[simp] theorem State.setPending_qmg (s : State) (fn : Nat) (v : Nat) (b : Bool) : (s.setPending fn v b).qmg = s.qmg := rfl
@[simp] theorem State.setPending_hmc (s : State) (fn : Nat) (v : Nat) (b : Bool) : (s.setPending fn v b).hmc = s.hmc := rfl
@[simp] theorem State.setPending_bsn (s : State) (fn : Nat) (v : Nat) (b : Bool) : (s.setPending fn v b).bsn = s.bsn := rfl
@[simp] theorem State.setPending_oca (s : State) (fn : Nat) (v : Nat) (b : Bool) : (s.setPending fn v b).oca = s.oca := rfl
@[simp] theorem State.setPending_amu (s : State) (fn : Nat) (v : Nat) (b : Bool) : (s.setPending fn v b).amu = s.amu := rfl
@[simp] theorem State.setPending_mgl (s : State) (fn : Nat) (v : Nat) (b : Bool) : (s.setPending fn v b).mgl = s.mgl := rfl
@[simp] theorem State.setPending_hal (s : State) (fn : Nat) (v : Nat) (b : Bool) : (s.setPending fn v b).hal = s.hal := rfl
@[simp] theorem State.setPending_cvc (s : State) (fn : Nat) (v : Nat) (b : Bool) : (s.setPending fn v b).cvc = s.cvc := rfl
@[simp] theorem State.setPending_dge (s : State) (fn : Nat) (v : Nat) (b : Bool) : (s.setPending fn v b).dge = s.dge := rfl
@[simp] theorem State.setPending_hostMem (s : State) (fn : Nat) (v : Nat) (b : Bool) : (s.setPending fn v b).hostMem = s.hostMem := rfl
@[simp] theorem State.setPending_hbm (s : State) (fn : Nat) (v : Nat) (b : Bool) : (s.setPending fn v b).hbm = s.hbm := rfl
@[simp] theorem State.setPending_out (s : State) (fn : Nat) (v : Nat) (b : Bool) : (s.setPending fn v b).out = s.out := rfl
@[simp] theorem State.setPending_draws (s : State) (fn : Nat) (v : Nat) (b : Bool) : (s.setPending fn v b).draws = s.draws := rfl
@[simp] theorem State.setPending_pending (s : State) (fn : Nat) (v : Nat) (b : Bool) : (s.setPending fn v b).pending = s.pending := rfl

/-! #### `setIrqStatus` -/

@[simp] theorem State.setIrqStatus_board (s : State) (sub : Nat) (v : Nat) : (s.setIrqStatus sub v).board = s.board := rfl
@[simp] theorem State.setIrqStatus_clk (s : State) (sub : Nat) (v : Nat) : (s.setIrqStatus sub v).clk = s.clk := rfl
@[simp] theorem State.setIrqStatus_hif (s : State) (sub : Nat) (v : Nat) : (s.setIrqStatus sub v).hif = s.hif := rfl
@[simp] theorem State.setIrqStatus_tsu (s : State) (sub : Nat) (v : Nat) : (s.setIrqStatus sub v).tsu = s.tsu := rfl
@[simp] theorem State.setIrqStatus_reef (s : State) (sub : Nat) (v : Nat) : (s.setIrqStatus sub v).reef = s.reef := rfl
@[simp] theorem State.setIrqStatus_darn (s : State) (sub : Nat) (v : Nat) : (s.setIrqStatus sub v).darn = s.darn := rfl
@[simp] theorem State.setIrqStatus_store (s : State) (sub : Nat) (v : Nat) : (s.setIrqStatus sub v).store = s.store := rfl
@[simp] theorem State.setIrqStatus_errLog (s : State) (sub : Nat) (v : Nat) : (s.setIrqStatus sub v).errLog = s.errLog := rfl
@[simp] theorem State.setIrqStatus_failedSubs (s : State) (sub : Nat) (v : Nat) : (s.setIrqStatus sub v).failedSubs = s.failedSubs := rfl
@[simp] theorem State.setIrqStatus_softPending (s : State) (sub : Nat) (v : Nat) : (s.setIrqStatus sub v).softPending = s.softPending := rfl
@[simp] theorem State.setIrqStatus_qmg (s : State) (sub : Nat) (v : Nat) : (s.setIrqStatus sub v).qmg = s.qmg := rfl
@[simp] theorem State.setIrqStatus_hmc (s : State) (sub : Nat) (v : Nat) : (s.setIrqStatus sub v).hmc = s.hmc := rfl
@[simp] theorem State.setIrqStatus_bsn (s : State) (sub : Nat) (v : Nat) : (s.setIrqStatus sub v).bsn = s.bsn := rfl
@[simp] theorem State.setIrqStatus_oca (s : State) (sub : Nat) (v : Nat) : (s.setIrqStatus sub v).oca = s.oca := rfl
@[simp] theorem State.setIrqStatus_amu (s : State) (sub : Nat) (v : Nat) : (s.setIrqStatus sub v).amu = s.amu := rfl
@[simp] theorem State.setIrqStatus_mgl (s : State) (sub : Nat) (v : Nat) : (s.setIrqStatus sub v).mgl = s.mgl := rfl
@[simp] theorem State.setIrqStatus_hal (s : State) (sub : Nat) (v : Nat) : (s.setIrqStatus sub v).hal = s.hal := rfl
@[simp] theorem State.setIrqStatus_cvc (s : State) (sub : Nat) (v : Nat) : (s.setIrqStatus sub v).cvc = s.cvc := rfl
@[simp] theorem State.setIrqStatus_dge (s : State) (sub : Nat) (v : Nat) : (s.setIrqStatus sub v).dge = s.dge := rfl
@[simp] theorem State.setIrqStatus_hostMem (s : State) (sub : Nat) (v : Nat) : (s.setIrqStatus sub v).hostMem = s.hostMem := rfl
@[simp] theorem State.setIrqStatus_hbm (s : State) (sub : Nat) (v : Nat) : (s.setIrqStatus sub v).hbm = s.hbm := rfl
@[simp] theorem State.setIrqStatus_out (s : State) (sub : Nat) (v : Nat) : (s.setIrqStatus sub v).out = s.out := rfl
@[simp] theorem State.setIrqStatus_draws (s : State) (sub : Nat) (v : Nat) : (s.setIrqStatus sub v).draws = s.draws := rfl
@[simp] theorem State.setIrqStatus_pending (s : State) (sub : Nat) (v : Nat) : (s.setIrqStatus sub v).pending = s.pending := rfl

/-! #### `setIrqEnable` -/

@[simp] theorem State.setIrqEnable_board (s : State) (sub : Nat) (v : Nat) : (s.setIrqEnable sub v).board = s.board := rfl
@[simp] theorem State.setIrqEnable_clk (s : State) (sub : Nat) (v : Nat) : (s.setIrqEnable sub v).clk = s.clk := rfl
@[simp] theorem State.setIrqEnable_hif (s : State) (sub : Nat) (v : Nat) : (s.setIrqEnable sub v).hif = s.hif := rfl
@[simp] theorem State.setIrqEnable_tsu (s : State) (sub : Nat) (v : Nat) : (s.setIrqEnable sub v).tsu = s.tsu := rfl
@[simp] theorem State.setIrqEnable_reef (s : State) (sub : Nat) (v : Nat) : (s.setIrqEnable sub v).reef = s.reef := rfl
@[simp] theorem State.setIrqEnable_darn (s : State) (sub : Nat) (v : Nat) : (s.setIrqEnable sub v).darn = s.darn := rfl
@[simp] theorem State.setIrqEnable_store (s : State) (sub : Nat) (v : Nat) : (s.setIrqEnable sub v).store = s.store := rfl
@[simp] theorem State.setIrqEnable_errLog (s : State) (sub : Nat) (v : Nat) : (s.setIrqEnable sub v).errLog = s.errLog := rfl
@[simp] theorem State.setIrqEnable_failedSubs (s : State) (sub : Nat) (v : Nat) : (s.setIrqEnable sub v).failedSubs = s.failedSubs := rfl
@[simp] theorem State.setIrqEnable_softPending (s : State) (sub : Nat) (v : Nat) : (s.setIrqEnable sub v).softPending = s.softPending := rfl
@[simp] theorem State.setIrqEnable_qmg (s : State) (sub : Nat) (v : Nat) : (s.setIrqEnable sub v).qmg = s.qmg := rfl
@[simp] theorem State.setIrqEnable_hmc (s : State) (sub : Nat) (v : Nat) : (s.setIrqEnable sub v).hmc = s.hmc := rfl
@[simp] theorem State.setIrqEnable_bsn (s : State) (sub : Nat) (v : Nat) : (s.setIrqEnable sub v).bsn = s.bsn := rfl
@[simp] theorem State.setIrqEnable_oca (s : State) (sub : Nat) (v : Nat) : (s.setIrqEnable sub v).oca = s.oca := rfl
@[simp] theorem State.setIrqEnable_amu (s : State) (sub : Nat) (v : Nat) : (s.setIrqEnable sub v).amu = s.amu := rfl
@[simp] theorem State.setIrqEnable_mgl (s : State) (sub : Nat) (v : Nat) : (s.setIrqEnable sub v).mgl = s.mgl := rfl
@[simp] theorem State.setIrqEnable_hal (s : State) (sub : Nat) (v : Nat) : (s.setIrqEnable sub v).hal = s.hal := rfl
@[simp] theorem State.setIrqEnable_cvc (s : State) (sub : Nat) (v : Nat) : (s.setIrqEnable sub v).cvc = s.cvc := rfl
@[simp] theorem State.setIrqEnable_dge (s : State) (sub : Nat) (v : Nat) : (s.setIrqEnable sub v).dge = s.dge := rfl
@[simp] theorem State.setIrqEnable_hostMem (s : State) (sub : Nat) (v : Nat) : (s.setIrqEnable sub v).hostMem = s.hostMem := rfl
@[simp] theorem State.setIrqEnable_hbm (s : State) (sub : Nat) (v : Nat) : (s.setIrqEnable sub v).hbm = s.hbm := rfl
@[simp] theorem State.setIrqEnable_out (s : State) (sub : Nat) (v : Nat) : (s.setIrqEnable sub v).out = s.out := rfl
@[simp] theorem State.setIrqEnable_draws (s : State) (sub : Nat) (v : Nat) : (s.setIrqEnable sub v).draws = s.draws := rfl
@[simp] theorem State.setIrqEnable_pending (s : State) (sub : Nat) (v : Nat) : (s.setIrqEnable sub v).pending = s.pending := rfl

/-! #### `setFnIrqStatus` -/

@[simp] theorem State.setFnIrqStatus_board (s : State) (fn : Nat) (v : Nat) : (s.setFnIrqStatus fn v).board = s.board := rfl
@[simp] theorem State.setFnIrqStatus_clk (s : State) (fn : Nat) (v : Nat) : (s.setFnIrqStatus fn v).clk = s.clk := rfl
@[simp] theorem State.setFnIrqStatus_hif (s : State) (fn : Nat) (v : Nat) : (s.setFnIrqStatus fn v).hif = s.hif := rfl
@[simp] theorem State.setFnIrqStatus_tsu (s : State) (fn : Nat) (v : Nat) : (s.setFnIrqStatus fn v).tsu = s.tsu := rfl
@[simp] theorem State.setFnIrqStatus_reef (s : State) (fn : Nat) (v : Nat) : (s.setFnIrqStatus fn v).reef = s.reef := rfl
@[simp] theorem State.setFnIrqStatus_darn (s : State) (fn : Nat) (v : Nat) : (s.setFnIrqStatus fn v).darn = s.darn := rfl
@[simp] theorem State.setFnIrqStatus_store (s : State) (fn : Nat) (v : Nat) : (s.setFnIrqStatus fn v).store = s.store := rfl
@[simp] theorem State.setFnIrqStatus_errLog (s : State) (fn : Nat) (v : Nat) : (s.setFnIrqStatus fn v).errLog = s.errLog := rfl
@[simp] theorem State.setFnIrqStatus_failedSubs (s : State) (fn : Nat) (v : Nat) : (s.setFnIrqStatus fn v).failedSubs = s.failedSubs := rfl
@[simp] theorem State.setFnIrqStatus_softPending (s : State) (fn : Nat) (v : Nat) : (s.setFnIrqStatus fn v).softPending = s.softPending := rfl
@[simp] theorem State.setFnIrqStatus_qmg (s : State) (fn : Nat) (v : Nat) : (s.setFnIrqStatus fn v).qmg = s.qmg := rfl
@[simp] theorem State.setFnIrqStatus_hmc (s : State) (fn : Nat) (v : Nat) : (s.setFnIrqStatus fn v).hmc = s.hmc := rfl
@[simp] theorem State.setFnIrqStatus_bsn (s : State) (fn : Nat) (v : Nat) : (s.setFnIrqStatus fn v).bsn = s.bsn := rfl
@[simp] theorem State.setFnIrqStatus_oca (s : State) (fn : Nat) (v : Nat) : (s.setFnIrqStatus fn v).oca = s.oca := rfl
@[simp] theorem State.setFnIrqStatus_amu (s : State) (fn : Nat) (v : Nat) : (s.setFnIrqStatus fn v).amu = s.amu := rfl
@[simp] theorem State.setFnIrqStatus_mgl (s : State) (fn : Nat) (v : Nat) : (s.setFnIrqStatus fn v).mgl = s.mgl := rfl
@[simp] theorem State.setFnIrqStatus_hal (s : State) (fn : Nat) (v : Nat) : (s.setFnIrqStatus fn v).hal = s.hal := rfl
@[simp] theorem State.setFnIrqStatus_cvc (s : State) (fn : Nat) (v : Nat) : (s.setFnIrqStatus fn v).cvc = s.cvc := rfl
@[simp] theorem State.setFnIrqStatus_dge (s : State) (fn : Nat) (v : Nat) : (s.setFnIrqStatus fn v).dge = s.dge := rfl
@[simp] theorem State.setFnIrqStatus_hostMem (s : State) (fn : Nat) (v : Nat) : (s.setFnIrqStatus fn v).hostMem = s.hostMem := rfl
@[simp] theorem State.setFnIrqStatus_hbm (s : State) (fn : Nat) (v : Nat) : (s.setFnIrqStatus fn v).hbm = s.hbm := rfl
@[simp] theorem State.setFnIrqStatus_out (s : State) (fn : Nat) (v : Nat) : (s.setFnIrqStatus fn v).out = s.out := rfl
@[simp] theorem State.setFnIrqStatus_draws (s : State) (fn : Nat) (v : Nat) : (s.setFnIrqStatus fn v).draws = s.draws := rfl
@[simp] theorem State.setFnIrqStatus_pending (s : State) (fn : Nat) (v : Nat) : (s.setFnIrqStatus fn v).pending = s.pending := rfl

/-! #### `setFnIrqEnable` -/

@[simp] theorem State.setFnIrqEnable_board (s : State) (fn : Nat) (v : Nat) : (s.setFnIrqEnable fn v).board = s.board := rfl
@[simp] theorem State.setFnIrqEnable_clk (s : State) (fn : Nat) (v : Nat) : (s.setFnIrqEnable fn v).clk = s.clk := rfl
@[simp] theorem State.setFnIrqEnable_hif (s : State) (fn : Nat) (v : Nat) : (s.setFnIrqEnable fn v).hif = s.hif := rfl
@[simp] theorem State.setFnIrqEnable_tsu (s : State) (fn : Nat) (v : Nat) : (s.setFnIrqEnable fn v).tsu = s.tsu := rfl
@[simp] theorem State.setFnIrqEnable_reef (s : State) (fn : Nat) (v : Nat) : (s.setFnIrqEnable fn v).reef = s.reef := rfl
@[simp] theorem State.setFnIrqEnable_darn (s : State) (fn : Nat) (v : Nat) : (s.setFnIrqEnable fn v).darn = s.darn := rfl
@[simp] theorem State.setFnIrqEnable_store (s : State) (fn : Nat) (v : Nat) : (s.setFnIrqEnable fn v).store = s.store := rfl
@[simp] theorem State.setFnIrqEnable_errLog (s : State) (fn : Nat) (v : Nat) : (s.setFnIrqEnable fn v).errLog = s.errLog := rfl
@[simp] theorem State.setFnIrqEnable_failedSubs (s : State) (fn : Nat) (v : Nat) : (s.setFnIrqEnable fn v).failedSubs = s.failedSubs := rfl
@[simp] theorem State.setFnIrqEnable_softPending (s : State) (fn : Nat) (v : Nat) : (s.setFnIrqEnable fn v).softPending = s.softPending := rfl
@[simp] theorem State.setFnIrqEnable_qmg (s : State) (fn : Nat) (v : Nat) : (s.setFnIrqEnable fn v).qmg = s.qmg := rfl
@[simp] theorem State.setFnIrqEnable_hmc (s : State) (fn : Nat) (v : Nat) : (s.setFnIrqEnable fn v).hmc = s.hmc := rfl
@[simp] theorem State.setFnIrqEnable_bsn (s : State) (fn : Nat) (v : Nat) : (s.setFnIrqEnable fn v).bsn = s.bsn := rfl
@[simp] theorem State.setFnIrqEnable_oca (s : State) (fn : Nat) (v : Nat) : (s.setFnIrqEnable fn v).oca = s.oca := rfl
@[simp] theorem State.setFnIrqEnable_amu (s : State) (fn : Nat) (v : Nat) : (s.setFnIrqEnable fn v).amu = s.amu := rfl
@[simp] theorem State.setFnIrqEnable_mgl (s : State) (fn : Nat) (v : Nat) : (s.setFnIrqEnable fn v).mgl = s.mgl := rfl
@[simp] theorem State.setFnIrqEnable_hal (s : State) (fn : Nat) (v : Nat) : (s.setFnIrqEnable fn v).hal = s.hal := rfl
@[simp] theorem State.setFnIrqEnable_cvc (s : State) (fn : Nat) (v : Nat) : (s.setFnIrqEnable fn v).cvc = s.cvc := rfl
@[simp] theorem State.setFnIrqEnable_dge (s : State) (fn : Nat) (v : Nat) : (s.setFnIrqEnable fn v).dge = s.dge := rfl
@[simp] theorem State.setFnIrqEnable_hostMem (s : State) (fn : Nat) (v : Nat) : (s.setFnIrqEnable fn v).hostMem = s.hostMem := rfl
@[simp] theorem State.setFnIrqEnable_hbm (s : State) (fn : Nat) (v : Nat) : (s.setFnIrqEnable fn v).hbm = s.hbm := rfl
@[simp] theorem State.setFnIrqEnable_out (s : State) (fn : Nat) (v : Nat) : (s.setFnIrqEnable fn v).out = s.out := rfl
@[simp] theorem State.setFnIrqEnable_draws (s : State) (fn : Nat) (v : Nat) : (s.setFnIrqEnable fn v).draws = s.draws := rfl
@[simp] theorem State.setFnIrqEnable_pending (s : State) (fn : Nat) (v : Nat) : (s.setFnIrqEnable fn v).pending = s.pending := rfl

/-! #### `hostWrite` -/

@[simp] theorem State.hostWrite_regs (s : State) (a : Nat) (d : List Byte) : (s.hostWrite a d).regs = s.regs := rfl
@[simp] theorem State.hostWrite_board (s : State) (a : Nat) (d : List Byte) : (s.hostWrite a d).board = s.board := rfl
@[simp] theorem State.hostWrite_clk (s : State) (a : Nat) (d : List Byte) : (s.hostWrite a d).clk = s.clk := rfl
@[simp] theorem State.hostWrite_hif (s : State) (a : Nat) (d : List Byte) : (s.hostWrite a d).hif = s.hif := rfl
@[simp] theorem State.hostWrite_tsu (s : State) (a : Nat) (d : List Byte) : (s.hostWrite a d).tsu = s.tsu := rfl
@[simp] theorem State.hostWrite_reef (s : State) (a : Nat) (d : List Byte) : (s.hostWrite a d).reef = s.reef := rfl
@[simp] theorem State.hostWrite_darn (s : State) (a : Nat) (d : List Byte) : (s.hostWrite a d).darn = s.darn := rfl
@[simp] theorem State.hostWrite_store (s : State) (a : Nat) (d : List Byte) : (s.hostWrite a d).store = s.store := rfl
@[simp] theorem State.hostWrite_errLog (s : State) (a : Nat) (d : List Byte) : (s.hostWrite a d).errLog = s.errLog := rfl
@[simp] theorem State.hostWrite_failedSubs (s : State) (a : Nat) (d : List Byte) : (s.hostWrite a d).failedSubs = s.failedSubs := rfl
@[simp] theorem State.hostWrite_softPending (s : State) (a : Nat) (d : List Byte) : (s.hostWrite a d).softPending = s.softPending := rfl
@[simp] theorem State.hostWrite_qmg (s : State) (a : Nat) (d : List Byte) : (s.hostWrite a d).qmg = s.qmg := rfl
@[simp] theorem State.hostWrite_hmc (s : State) (a : Nat) (d : List Byte) : (s.hostWrite a d).hmc = s.hmc := rfl
@[simp] theorem State.hostWrite_bsn (s : State) (a : Nat) (d : List Byte) : (s.hostWrite a d).bsn = s.bsn := rfl
@[simp] theorem State.hostWrite_oca (s : State) (a : Nat) (d : List Byte) : (s.hostWrite a d).oca = s.oca := rfl
@[simp] theorem State.hostWrite_amu (s : State) (a : Nat) (d : List Byte) : (s.hostWrite a d).amu = s.amu := rfl
@[simp] theorem State.hostWrite_mgl (s : State) (a : Nat) (d : List Byte) : (s.hostWrite a d).mgl = s.mgl := rfl
@[simp] theorem State.hostWrite_hal (s : State) (a : Nat) (d : List Byte) : (s.hostWrite a d).hal = s.hal := rfl
@[simp] theorem State.hostWrite_cvc (s : State) (a : Nat) (d : List Byte) : (s.hostWrite a d).cvc = s.cvc := rfl
@[simp] theorem State.hostWrite_dge (s : State) (a : Nat) (d : List Byte) : (s.hostWrite a d).dge = s.dge := rfl
@[simp] theorem State.hostWrite_hbm (s : State) (a : Nat) (d : List Byte) : (s.hostWrite a d).hbm = s.hbm := rfl
@[simp] theorem State.hostWrite_draws (s : State) (a : Nat) (d : List Byte) : (s.hostWrite a d).draws = s.draws := rfl
@[simp] theorem State.hostWrite_pending (s : State) (a : Nat) (d : List Byte) : (s.hostWrite a d).pending = s.pending := rfl

/-! #### `message` -/

theorem State.message_shape (s : State) (fn : Nat) (v : Nat) : ∃ (p : NMap Bool) (o : List Out),
    s.message fn v = { s with out := o, hif := { s.hif with pba := p } } := by
  unfold State.message
  split
  · exact ⟨_, _, rfl⟩
  · split
    · exact ⟨_, _, rfl⟩
    · exact ⟨_, _, rfl⟩
@[simp] theorem State.message_regs (s : State) (fn : Nat) (v : Nat) : (s.message fn v).regs = s.regs := by
  obtain ⟨_, _, h⟩ := s.message_shape fn v; rw [h]
@[simp] theorem State.message_board (s : State) (fn : Nat) (v : Nat) : (s.message fn v).board = s.board := by
  obtain ⟨_, _, h⟩ := s.message_shape fn v; rw [h]
@[simp] theorem State.message_clk (s : State) (fn : Nat) (v : Nat) : (s.message fn v).clk = s.clk := by
  obtain ⟨_, _, h⟩ := s.message_shape fn v; rw [h]
@[simp] theorem State.message_tsu (s : State) (fn : Nat) (v : Nat) : (s.message fn v).tsu = s.tsu := by
  obtain ⟨_, _, h⟩ := s.message_shape fn v; rw [h]
@[simp] theorem State.message_reef (s : State) (fn : Nat) (v : Nat) : (s.message fn v).reef = s.reef := by
  obtain ⟨_, _, h⟩ := s.message_shape fn v; rw [h]
@[simp] theorem State.message_darn (s : State) (fn : Nat) (v : Nat) : (s.message fn v).darn = s.darn := by
  obtain ⟨_, _, h⟩ := s.message_shape fn v; rw [h]
@[simp] theorem State.message_store (s : State) (fn : Nat) (v : Nat) : (s.message fn v).store = s.store := by
  obtain ⟨_, _, h⟩ := s.message_shape fn v; rw [h]
@[simp] theorem State.message_errLog (s : State) (fn : Nat) (v : Nat) : (s.message fn v).errLog = s.errLog := by
  obtain ⟨_, _, h⟩ := s.message_shape fn v; rw [h]
@[simp] theorem State.message_failedSubs (s : State) (fn : Nat) (v : Nat) : (s.message fn v).failedSubs = s.failedSubs := by
  obtain ⟨_, _, h⟩ := s.message_shape fn v; rw [h]
@[simp] theorem State.message_softPending (s : State) (fn : Nat) (v : Nat) : (s.message fn v).softPending = s.softPending := by
  obtain ⟨_, _, h⟩ := s.message_shape fn v; rw [h]
@[simp] theorem State.message_qmg (s : State) (fn : Nat) (v : Nat) : (s.message fn v).qmg = s.qmg := by
  obtain ⟨_, _, h⟩ := s.message_shape fn v; rw [h]
@[simp] theorem State.message_hmc (s : State) (fn : Nat) (v : Nat) : (s.message fn v).hmc = s.hmc := by
  obtain ⟨_, _, h⟩ := s.message_shape fn v; rw [h]
@[simp] theorem State.message_bsn (s : State) (fn : Nat) (v : Nat) : (s.message fn v).bsn = s.bsn := by
  obtain ⟨_, _, h⟩ := s.message_shape fn v; rw [h]
@[simp] theorem State.message_oca (s : State) (fn : Nat) (v : Nat) : (s.message fn v).oca = s.oca := by
  obtain ⟨_, _, h⟩ := s.message_shape fn v; rw [h]
@[simp] theorem State.message_amu (s : State) (fn : Nat) (v : Nat) : (s.message fn v).amu = s.amu := by
  obtain ⟨_, _, h⟩ := s.message_shape fn v; rw [h]
@[simp] theorem State.message_mgl (s : State) (fn : Nat) (v : Nat) : (s.message fn v).mgl = s.mgl := by
  obtain ⟨_, _, h⟩ := s.message_shape fn v; rw [h]
@[simp] theorem State.message_hal (s : State) (fn : Nat) (v : Nat) : (s.message fn v).hal = s.hal := by
  obtain ⟨_, _, h⟩ := s.message_shape fn v; rw [h]
@[simp] theorem State.message_cvc (s : State) (fn : Nat) (v : Nat) : (s.message fn v).cvc = s.cvc := by
  obtain ⟨_, _, h⟩ := s.message_shape fn v; rw [h]
@[simp] theorem State.message_dge (s : State) (fn : Nat) (v : Nat) : (s.message fn v).dge = s.dge := by
  obtain ⟨_, _, h⟩ := s.message_shape fn v; rw [h]
@[simp] theorem State.message_hostMem (s : State) (fn : Nat) (v : Nat) : (s.message fn v).hostMem = s.hostMem := by
  obtain ⟨_, _, h⟩ := s.message_shape fn v; rw [h]
@[simp] theorem State.message_hbm (s : State) (fn : Nat) (v : Nat) : (s.message fn v).hbm = s.hbm := by
  obtain ⟨_, _, h⟩ := s.message_shape fn v; rw [h]
@[simp] theorem State.message_draws (s : State) (fn : Nat) (v : Nat) : (s.message fn v).draws = s.draws := by
  obtain ⟨_, _, h⟩ := s.message_shape fn v; rw [h]
@[simp] theorem State.message_pending (s : State) (fn : Nat) (v : Nat) : (s.message fn v).pending = s.pending := by
  obtain ⟨_, _, h⟩ := s.message_shape fn v; rw [h]
@[simp] theorem State.message_hif_linkUp (s : State) (fn : Nat) (v : Nat) : (s.message fn v).hif.linkUp = s.hif.linkUp := by
  obtain ⟨_, _, h⟩ := s.message_shape fn v; rw [h]

/-! #### `setIrqBit` -/

theorem State.setIrqBit_shape (s : State) (sub : Nat) (b : Nat) : ∃ (r : NMap Nat) (p : NMap Bool) (o : List Out),
    s.setIrqBit sub b = { s with regs := r, out := o, hif := { s.hif with pba := p } } := by
  unfold State.setIrqBit
  simp only []
  split
  · obtain ⟨_, _, h⟩ := (s.setIrqStatus sub (withBit (s.irqStatus sub) b)).message_shape 0 (sub - 1)
    rw [h]; exact ⟨_, _, _, rfl⟩
  · exact ⟨_, _, _, rfl⟩
@[simp] theorem State.setIrqBit_board (s : State) (sub : Nat) (b : Nat) : (s.setIrqBit sub b).board = s.board := by
  obtain ⟨_, _, _, h⟩ := s.setIrqBit_shape sub b; rw [h]
@[simp] theorem State.setIrqBit_clk (s : State) (sub : Nat) (b : Nat) : (s.setIrqBit sub b).clk = s.clk := by
  obtain ⟨_, _, _, h⟩ := s.setIrqBit_shape sub b; rw [h]
@[simp] theorem State.setIrqBit_tsu (s : State) (sub : Nat) (b : Nat) : (s.setIrqBit sub b).tsu = s.tsu := by
  obtain ⟨_, _, _, h⟩ := s.setIrqBit_shape sub b; rw [h]
@[simp] theorem State.setIrqBit_reef (s : State) (sub : Nat) (b : Nat) : (s.setIrqBit sub b).reef = s.reef := by
  obtain ⟨_, _, _, h⟩ := s.setIrqBit_shape sub b; rw [h]
@[simp] theorem State.setIrqBit_darn (s : State) (sub : Nat) (b : Nat) : (s.setIrqBit sub b).darn = s.darn := by
  obtain ⟨_, _, _, h⟩ := s.setIrqBit_shape sub b; rw [h]
@[simp] theorem State.setIrqBit_store (s : State) (sub : Nat) (b : Nat) : (s.setIrqBit sub b).store = s.store := by
  obtain ⟨_, _, _, h⟩ := s.setIrqBit_shape sub b; rw [h]
@[simp] theorem State.setIrqBit_errLog (s : State) (sub : Nat) (b : Nat) : (s.setIrqBit sub b).errLog = s.errLog := by
  obtain ⟨_, _, _, h⟩ := s.setIrqBit_shape sub b; rw [h]
@[simp] theorem State.setIrqBit_failedSubs (s : State) (sub : Nat) (b : Nat) : (s.setIrqBit sub b).failedSubs = s.failedSubs := by
  obtain ⟨_, _, _, h⟩ := s.setIrqBit_shape sub b; rw [h]
@[simp] theorem State.setIrqBit_softPending (s : State) (sub : Nat) (b : Nat) : (s.setIrqBit sub b).softPending = s.softPending := by
  obtain ⟨_, _, _, h⟩ := s.setIrqBit_shape sub b; rw [h]
@[simp] theorem State.setIrqBit_qmg (s : State) (sub : Nat) (b : Nat) : (s.setIrqBit sub b).qmg = s.qmg := by
  obtain ⟨_, _, _, h⟩ := s.setIrqBit_shape sub b; rw [h]
@[simp] theorem State.setIrqBit_hmc (s : State) (sub : Nat) (b : Nat) : (s.setIrqBit sub b).hmc = s.hmc := by
  obtain ⟨_, _, _, h⟩ := s.setIrqBit_shape sub b; rw [h]
@[simp] theorem State.setIrqBit_bsn (s : State) (sub : Nat) (b : Nat) : (s.setIrqBit sub b).bsn = s.bsn := by
  obtain ⟨_, _, _, h⟩ := s.setIrqBit_shape sub b; rw [h]
@[simp] theorem State.setIrqBit_oca (s : State) (sub : Nat) (b : Nat) : (s.setIrqBit sub b).oca = s.oca := by
  obtain ⟨_, _, _, h⟩ := s.setIrqBit_shape sub b; rw [h]
@[simp] theorem State.setIrqBit_amu (s : State) (sub : Nat) (b : Nat) : (s.setIrqBit sub b).amu = s.amu := by
  obtain ⟨_, _, _, h⟩ := s.setIrqBit_shape sub b; rw [h]
@[simp] theorem State.setIrqBit_mgl (s : State) (sub : Nat) (b : Nat) : (s.setIrqBit sub b).mgl = s.mgl := by
  obtain ⟨_, _, _, h⟩ := s.setIrqBit_shape sub b; rw [h]
@[simp] theorem State.setIrqBit_hal (s : State) (sub : Nat) (b : Nat) : (s.setIrqBit sub b).hal = s.hal := by
  obtain ⟨_, _, _, h⟩ := s.setIrqBit_shape sub b; rw [h]
@[simp] theorem State.setIrqBit_cvc (s : State) (sub : Nat) (b : Nat) : (s.setIrqBit sub b).cvc = s.cvc := by
  obtain ⟨_, _, _, h⟩ := s.setIrqBit_shape sub b; rw [h]
@[simp] theorem State.setIrqBit_dge (s : State) (sub : Nat) (b : Nat) : (s.setIrqBit sub b).dge = s.dge := by
  obtain ⟨_, _, _, h⟩ := s.setIrqBit_shape sub b; rw [h]
@[simp] theorem State.setIrqBit_hostMem (s : State) (sub : Nat) (b : Nat) : (s.setIrqBit sub b).hostMem = s.hostMem := by
  obtain ⟨_, _, _, h⟩ := s.setIrqBit_shape sub b; rw [h]
@[simp] theorem State.setIrqBit_hbm (s : State) (sub : Nat) (b : Nat) : (s.setIrqBit sub b).hbm = s.hbm := by
  obtain ⟨_, _, _, h⟩ := s.setIrqBit_shape sub b; rw [h]
@[simp] theorem State.setIrqBit_draws (s : State) (sub : Nat) (b : Nat) : (s.setIrqBit sub b).draws = s.draws := by
  obtain ⟨_, _, _, h⟩ := s.setIrqBit_shape sub b; rw [h]
@[simp] theorem State.setIrqBit_pending (s : State) (sub : Nat) (b : Nat) : (s.setIrqBit sub b).pending = s.pending := by
  obtain ⟨_, _, _, h⟩ := s.setIrqBit_shape sub b; rw [h]
@[simp] theorem State.setIrqBit_hif_linkUp (s : State) (sub : Nat) (b : Nat) : (s.setIrqBit sub b).hif.linkUp = s.hif.linkUp := by
  obtain ⟨_, _, _, h⟩ := s.setIrqBit_shape sub b; rw [h]

/-! #### `recordLost` -/

theorem State.recordLost_shape (s : State) : ∃ (r : NMap Nat) (p : NMap Bool) (o : List Out),
    s.recordLost  = { s with regs := r, out := o, hif := { s.hif with pba := p } } := by
  unfold State.recordLost
  simp only []
  split
  · exact ⟨_, _, _, rfl⟩
  · obtain ⟨_, _, _, h⟩ := (s.bumpSat fTSU_LOG_LOST_COUNT 0 1).setIrqBit_shape 13 2
    split <;> rw [h] <;> exact ⟨_, _, _, rfl⟩
@[simp] theorem State.recordLost_board (s : State) : (s.recordLost).board = s.board := by
  obtain ⟨_, _, _, h⟩ := s.recordLost_shape; rw [h]
@[simp] theorem State.recordLost_clk (s : State) : (s.recordLost).clk = s.clk := by
  obtain ⟨_, _, _, h⟩ := s.recordLost_shape; rw [h]
@[simp] theorem State.recordLost_tsu (s : State) : (s.recordLost).tsu = s.tsu := by
  obtain ⟨_, _, _, h⟩ := s.recordLost_shape; rw [h]
@[simp] theorem State.recordLost_reef (s : State) : (s.recordLost).reef = s.reef := by
  obtain ⟨_, _, _, h⟩ := s.recordLost_shape; rw [h]
@[simp] theorem State.recordLost_darn (s : State) : (s.recordLost).darn = s.darn := by
  obtain ⟨_, _, _, h⟩ := s.recordLost_shape; rw [h]
@[simp] theorem State.recordLost_store (s : State) : (s.recordLost).store = s.store := by
  obtain ⟨_, _, _, h⟩ := s.recordLost_shape; rw [h]
@[simp] theorem State.recordLost_errLog (s : State) : (s.recordLost).errLog = s.errLog := by
  obtain ⟨_, _, _, h⟩ := s.recordLost_shape; rw [h]
@[simp] theorem State.recordLost_failedSubs (s : State) : (s.recordLost).failedSubs = s.failedSubs := by
  obtain ⟨_, _, _, h⟩ := s.recordLost_shape; rw [h]
@[simp] theorem State.recordLost_softPending (s : State) : (s.recordLost).softPending = s.softPending := by
  obtain ⟨_, _, _, h⟩ := s.recordLost_shape; rw [h]
@[simp] theorem State.recordLost_qmg (s : State) : (s.recordLost).qmg = s.qmg := by
  obtain ⟨_, _, _, h⟩ := s.recordLost_shape; rw [h]
@[simp] theorem State.recordLost_hmc (s : State) : (s.recordLost).hmc = s.hmc := by
  obtain ⟨_, _, _, h⟩ := s.recordLost_shape; rw [h]
@[simp] theorem State.recordLost_bsn (s : State) : (s.recordLost).bsn = s.bsn := by
  obtain ⟨_, _, _, h⟩ := s.recordLost_shape; rw [h]
@[simp] theorem State.recordLost_oca (s : State) : (s.recordLost).oca = s.oca := by
  obtain ⟨_, _, _, h⟩ := s.recordLost_shape; rw [h]
@[simp] theorem State.recordLost_amu (s : State) : (s.recordLost).amu = s.amu := by
  obtain ⟨_, _, _, h⟩ := s.recordLost_shape; rw [h]
@[simp] theorem State.recordLost_mgl (s : State) : (s.recordLost).mgl = s.mgl := by
  obtain ⟨_, _, _, h⟩ := s.recordLost_shape; rw [h]
@[simp] theorem State.recordLost_hal (s : State) : (s.recordLost).hal = s.hal := by
  obtain ⟨_, _, _, h⟩ := s.recordLost_shape; rw [h]
@[simp] theorem State.recordLost_cvc (s : State) : (s.recordLost).cvc = s.cvc := by
  obtain ⟨_, _, _, h⟩ := s.recordLost_shape; rw [h]
@[simp] theorem State.recordLost_dge (s : State) : (s.recordLost).dge = s.dge := by
  obtain ⟨_, _, _, h⟩ := s.recordLost_shape; rw [h]
@[simp] theorem State.recordLost_hostMem (s : State) : (s.recordLost).hostMem = s.hostMem := by
  obtain ⟨_, _, _, h⟩ := s.recordLost_shape; rw [h]
@[simp] theorem State.recordLost_hbm (s : State) : (s.recordLost).hbm = s.hbm := by
  obtain ⟨_, _, _, h⟩ := s.recordLost_shape; rw [h]
@[simp] theorem State.recordLost_draws (s : State) : (s.recordLost).draws = s.draws := by
  obtain ⟨_, _, _, h⟩ := s.recordLost_shape; rw [h]
@[simp] theorem State.recordLost_pending (s : State) : (s.recordLost).pending = s.pending := by
  obtain ⟨_, _, _, h⟩ := s.recordLost_shape; rw [h]
@[simp] theorem State.recordLost_hif_linkUp (s : State) : (s.recordLost).hif.linkUp = s.hif.linkUp := by
  obtain ⟨_, _, _, h⟩ := s.recordLost_shape; rw [h]

/-! #### `record` -/

theorem State.record_shape (s : State) (source : Nat) (kind : Nat) (fn : Option Nat) (detail : Nat) : ∃ (r : NMap Nat) (p : NMap Bool) (o : List Out) (q : Tsu),
    s.record source kind fn detail = { s with regs := r, out := o, tsu := q, hif := { s.hif with pba := p } } := by
  unfold State.record
  split
  · exact ⟨_, _, _, _, rfl⟩
  · split
    · exact ⟨_, _, _, _, rfl⟩
    · obtain ⟨_, _, _, h⟩ := s.recordLost_shape
      rw [h]; exact ⟨_, _, _, _, rfl⟩
@[simp] theorem State.record_board (s : State) (source : Nat) (kind : Nat) (fn : Option Nat) (detail : Nat) : (s.record source kind fn detail).board = s.board := by
  obtain ⟨_, _, _, _, h⟩ := s.record_shape source kind fn detail; rw [h]
@[simp] theorem State.record_clk (s : State) (source : Nat) (kind : Nat) (fn : Option Nat) (detail : Nat) : (s.record source kind fn detail).clk = s.clk := by
  obtain ⟨_, _, _, _, h⟩ := s.record_shape source kind fn detail; rw [h]
@[simp] theorem State.record_reef (s : State) (source : Nat) (kind : Nat) (fn : Option Nat) (detail : Nat) : (s.record source kind fn detail).reef = s.reef := by
  obtain ⟨_, _, _, _, h⟩ := s.record_shape source kind fn detail; rw [h]
@[simp] theorem State.record_darn (s : State) (source : Nat) (kind : Nat) (fn : Option Nat) (detail : Nat) : (s.record source kind fn detail).darn = s.darn := by
  obtain ⟨_, _, _, _, h⟩ := s.record_shape source kind fn detail; rw [h]
@[simp] theorem State.record_store (s : State) (source : Nat) (kind : Nat) (fn : Option Nat) (detail : Nat) : (s.record source kind fn detail).store = s.store := by
  obtain ⟨_, _, _, _, h⟩ := s.record_shape source kind fn detail; rw [h]
@[simp] theorem State.record_errLog (s : State) (source : Nat) (kind : Nat) (fn : Option Nat) (detail : Nat) : (s.record source kind fn detail).errLog = s.errLog := by
  obtain ⟨_, _, _, _, h⟩ := s.record_shape source kind fn detail; rw [h]
@[simp] theorem State.record_failedSubs (s : State) (source : Nat) (kind : Nat) (fn : Option Nat) (detail : Nat) : (s.record source kind fn detail).failedSubs = s.failedSubs := by
  obtain ⟨_, _, _, _, h⟩ := s.record_shape source kind fn detail; rw [h]
@[simp] theorem State.record_softPending (s : State) (source : Nat) (kind : Nat) (fn : Option Nat) (detail : Nat) : (s.record source kind fn detail).softPending = s.softPending := by
  obtain ⟨_, _, _, _, h⟩ := s.record_shape source kind fn detail; rw [h]
@[simp] theorem State.record_qmg (s : State) (source : Nat) (kind : Nat) (fn : Option Nat) (detail : Nat) : (s.record source kind fn detail).qmg = s.qmg := by
  obtain ⟨_, _, _, _, h⟩ := s.record_shape source kind fn detail; rw [h]
@[simp] theorem State.record_hmc (s : State) (source : Nat) (kind : Nat) (fn : Option Nat) (detail : Nat) : (s.record source kind fn detail).hmc = s.hmc := by
  obtain ⟨_, _, _, _, h⟩ := s.record_shape source kind fn detail; rw [h]
@[simp] theorem State.record_bsn (s : State) (source : Nat) (kind : Nat) (fn : Option Nat) (detail : Nat) : (s.record source kind fn detail).bsn = s.bsn := by
  obtain ⟨_, _, _, _, h⟩ := s.record_shape source kind fn detail; rw [h]
@[simp] theorem State.record_oca (s : State) (source : Nat) (kind : Nat) (fn : Option Nat) (detail : Nat) : (s.record source kind fn detail).oca = s.oca := by
  obtain ⟨_, _, _, _, h⟩ := s.record_shape source kind fn detail; rw [h]
@[simp] theorem State.record_amu (s : State) (source : Nat) (kind : Nat) (fn : Option Nat) (detail : Nat) : (s.record source kind fn detail).amu = s.amu := by
  obtain ⟨_, _, _, _, h⟩ := s.record_shape source kind fn detail; rw [h]
@[simp] theorem State.record_mgl (s : State) (source : Nat) (kind : Nat) (fn : Option Nat) (detail : Nat) : (s.record source kind fn detail).mgl = s.mgl := by
  obtain ⟨_, _, _, _, h⟩ := s.record_shape source kind fn detail; rw [h]
@[simp] theorem State.record_hal (s : State) (source : Nat) (kind : Nat) (fn : Option Nat) (detail : Nat) : (s.record source kind fn detail).hal = s.hal := by
  obtain ⟨_, _, _, _, h⟩ := s.record_shape source kind fn detail; rw [h]
@[simp] theorem State.record_cvc (s : State) (source : Nat) (kind : Nat) (fn : Option Nat) (detail : Nat) : (s.record source kind fn detail).cvc = s.cvc := by
  obtain ⟨_, _, _, _, h⟩ := s.record_shape source kind fn detail; rw [h]
@[simp] theorem State.record_dge (s : State) (source : Nat) (kind : Nat) (fn : Option Nat) (detail : Nat) : (s.record source kind fn detail).dge = s.dge := by
  obtain ⟨_, _, _, _, h⟩ := s.record_shape source kind fn detail; rw [h]
@[simp] theorem State.record_hostMem (s : State) (source : Nat) (kind : Nat) (fn : Option Nat) (detail : Nat) : (s.record source kind fn detail).hostMem = s.hostMem := by
  obtain ⟨_, _, _, _, h⟩ := s.record_shape source kind fn detail; rw [h]
@[simp] theorem State.record_hbm (s : State) (source : Nat) (kind : Nat) (fn : Option Nat) (detail : Nat) : (s.record source kind fn detail).hbm = s.hbm := by
  obtain ⟨_, _, _, _, h⟩ := s.record_shape source kind fn detail; rw [h]
@[simp] theorem State.record_draws (s : State) (source : Nat) (kind : Nat) (fn : Option Nat) (detail : Nat) : (s.record source kind fn detail).draws = s.draws := by
  obtain ⟨_, _, _, _, h⟩ := s.record_shape source kind fn detail; rw [h]
@[simp] theorem State.record_pending (s : State) (source : Nat) (kind : Nat) (fn : Option Nat) (detail : Nat) : (s.record source kind fn detail).pending = s.pending := by
  obtain ⟨_, _, _, _, h⟩ := s.record_shape source kind fn detail; rw [h]
@[simp] theorem State.record_hif_linkUp (s : State) (source : Nat) (kind : Nat) (fn : Option Nat) (detail : Nat) : (s.record source kind fn detail).hif.linkUp = s.hif.linkUp := by
  obtain ⟨_, _, _, _, h⟩ := s.record_shape source kind fn detail; rw [h]

/-! #### `raise` -/

theorem State.raise_shape (s : State) (sub : Nat) (b : Nat) : ∃ (r : NMap Nat) (p : NMap Bool) (o : List Out) (q : Tsu),
    s.raise sub b = { s with regs := r, out := o, tsu := q, hif := { s.hif with pba := p } } := by
  unfold State.raise
  split
  · exact ⟨_, _, _, _, rfl⟩
  · obtain ⟨_, _, _, h⟩ := s.setIrqBit_shape sub b
    obtain ⟨_, _, _, _, g⟩ := (s.setIrqBit sub b).record_shape sub 1 none b
    rw [g, h]; exact ⟨_, _, _, _, rfl⟩
@[simp] theorem State.raise_board (s : State) (sub : Nat) (b : Nat) : (s.raise sub b).board = s.board := by
  obtain ⟨_, _, _, _, h⟩ := s.raise_shape sub b; rw [h]
@[simp] theorem State.raise_clk (s : State) (sub : Nat) (b : Nat) : (s.raise sub b).clk = s.clk := by
  obtain ⟨_, _, _, _, h⟩ := s.raise_shape sub b; rw [h]
@[simp] theorem State.raise_reef (s : State) (sub : Nat) (b : Nat) : (s.raise sub b).reef = s.reef := by
  obtain ⟨_, _, _, _, h⟩ := s.raise_shape sub b; rw [h]
@[simp] theorem State.raise_darn (s : State) (sub : Nat) (b : Nat) : (s.raise sub b).darn = s.darn := by
  obtain ⟨_, _, _, _, h⟩ := s.raise_shape sub b; rw [h]
@[simp] theorem State.raise_store (s : State) (sub : Nat) (b : Nat) : (s.raise sub b).store = s.store := by
  obtain ⟨_, _, _, _, h⟩ := s.raise_shape sub b; rw [h]
@[simp] theorem State.raise_errLog (s : State) (sub : Nat) (b : Nat) : (s.raise sub b).errLog = s.errLog := by
  obtain ⟨_, _, _, _, h⟩ := s.raise_shape sub b; rw [h]
@[simp] theorem State.raise_failedSubs (s : State) (sub : Nat) (b : Nat) : (s.raise sub b).failedSubs = s.failedSubs := by
  obtain ⟨_, _, _, _, h⟩ := s.raise_shape sub b; rw [h]
@[simp] theorem State.raise_softPending (s : State) (sub : Nat) (b : Nat) : (s.raise sub b).softPending = s.softPending := by
  obtain ⟨_, _, _, _, h⟩ := s.raise_shape sub b; rw [h]
@[simp] theorem State.raise_qmg (s : State) (sub : Nat) (b : Nat) : (s.raise sub b).qmg = s.qmg := by
  obtain ⟨_, _, _, _, h⟩ := s.raise_shape sub b; rw [h]
@[simp] theorem State.raise_hmc (s : State) (sub : Nat) (b : Nat) : (s.raise sub b).hmc = s.hmc := by
  obtain ⟨_, _, _, _, h⟩ := s.raise_shape sub b; rw [h]
@[simp] theorem State.raise_bsn (s : State) (sub : Nat) (b : Nat) : (s.raise sub b).bsn = s.bsn := by
  obtain ⟨_, _, _, _, h⟩ := s.raise_shape sub b; rw [h]
@[simp] theorem State.raise_oca (s : State) (sub : Nat) (b : Nat) : (s.raise sub b).oca = s.oca := by
  obtain ⟨_, _, _, _, h⟩ := s.raise_shape sub b; rw [h]
@[simp] theorem State.raise_amu (s : State) (sub : Nat) (b : Nat) : (s.raise sub b).amu = s.amu := by
  obtain ⟨_, _, _, _, h⟩ := s.raise_shape sub b; rw [h]
@[simp] theorem State.raise_mgl (s : State) (sub : Nat) (b : Nat) : (s.raise sub b).mgl = s.mgl := by
  obtain ⟨_, _, _, _, h⟩ := s.raise_shape sub b; rw [h]
@[simp] theorem State.raise_hal (s : State) (sub : Nat) (b : Nat) : (s.raise sub b).hal = s.hal := by
  obtain ⟨_, _, _, _, h⟩ := s.raise_shape sub b; rw [h]
@[simp] theorem State.raise_cvc (s : State) (sub : Nat) (b : Nat) : (s.raise sub b).cvc = s.cvc := by
  obtain ⟨_, _, _, _, h⟩ := s.raise_shape sub b; rw [h]
@[simp] theorem State.raise_dge (s : State) (sub : Nat) (b : Nat) : (s.raise sub b).dge = s.dge := by
  obtain ⟨_, _, _, _, h⟩ := s.raise_shape sub b; rw [h]
@[simp] theorem State.raise_hostMem (s : State) (sub : Nat) (b : Nat) : (s.raise sub b).hostMem = s.hostMem := by
  obtain ⟨_, _, _, _, h⟩ := s.raise_shape sub b; rw [h]
@[simp] theorem State.raise_hbm (s : State) (sub : Nat) (b : Nat) : (s.raise sub b).hbm = s.hbm := by
  obtain ⟨_, _, _, _, h⟩ := s.raise_shape sub b; rw [h]
@[simp] theorem State.raise_draws (s : State) (sub : Nat) (b : Nat) : (s.raise sub b).draws = s.draws := by
  obtain ⟨_, _, _, _, h⟩ := s.raise_shape sub b; rw [h]
@[simp] theorem State.raise_pending (s : State) (sub : Nat) (b : Nat) : (s.raise sub b).pending = s.pending := by
  obtain ⟨_, _, _, _, h⟩ := s.raise_shape sub b; rw [h]
@[simp] theorem State.raise_hif_linkUp (s : State) (sub : Nat) (b : Nat) : (s.raise sub b).hif.linkUp = s.hif.linkUp := by
  obtain ⟨_, _, _, _, h⟩ := s.raise_shape sub b; rw [h]

/-! #### `raiseFn` -/

theorem State.raiseFn_shape (s : State) (fn : Nat) (b : Nat) : ∃ (r : NMap Nat) (p : NMap Bool) (o : List Out) (q : Tsu),
    s.raiseFn fn b = { s with regs := r, out := o, tsu := q, hif := { s.hif with pba := p } } := by
  unfold State.raiseFn
  split
  · exact ⟨_, _, _, _, rfl⟩
  · simp only []
    split
    · obtain ⟨_, _, h⟩ := (s.setFnIrqStatus fn (withBit (s.fnIrqStatus fn) b)).message_shape fn
        (s.rd fHIF_FN_EVENT_VECTOR_VECTOR fn)
      obtain ⟨_, _, _, _, g⟩ := ((s.setFnIrqStatus fn (withBit (s.fnIrqStatus fn) b)).message fn
        (s.rd fHIF_FN_EVENT_VECTOR_VECTOR fn)).record_shape 1 1 (some fn) b
      rw [g, h]; exact ⟨_, _, _, _, rfl⟩
    · obtain ⟨_, _, _, _, g⟩ := (s.setFnIrqStatus fn (withBit (s.fnIrqStatus fn) b)).record_shape 1 1 (some fn) b
      rw [g]; exact ⟨_, _, _, _, rfl⟩
@[simp] theorem State.raiseFn_board (s : State) (fn : Nat) (b : Nat) : (s.raiseFn fn b).board = s.board := by
  obtain ⟨_, _, _, _, h⟩ := s.raiseFn_shape fn b; rw [h]
@[simp] theorem State.raiseFn_clk (s : State) (fn : Nat) (b : Nat) : (s.raiseFn fn b).clk = s.clk := by
  obtain ⟨_, _, _, _, h⟩ := s.raiseFn_shape fn b; rw [h]
@[simp] theorem State.raiseFn_reef (s : State) (fn : Nat) (b : Nat) : (s.raiseFn fn b).reef = s.reef := by
  obtain ⟨_, _, _, _, h⟩ := s.raiseFn_shape fn b; rw [h]
@[simp] theorem State.raiseFn_darn (s : State) (fn : Nat) (b : Nat) : (s.raiseFn fn b).darn = s.darn := by
  obtain ⟨_, _, _, _, h⟩ := s.raiseFn_shape fn b; rw [h]
@[simp] theorem State.raiseFn_store (s : State) (fn : Nat) (b : Nat) : (s.raiseFn fn b).store = s.store := by
  obtain ⟨_, _, _, _, h⟩ := s.raiseFn_shape fn b; rw [h]
@[simp] theorem State.raiseFn_errLog (s : State) (fn : Nat) (b : Nat) : (s.raiseFn fn b).errLog = s.errLog := by
  obtain ⟨_, _, _, _, h⟩ := s.raiseFn_shape fn b; rw [h]
@[simp] theorem State.raiseFn_failedSubs (s : State) (fn : Nat) (b : Nat) : (s.raiseFn fn b).failedSubs = s.failedSubs := by
  obtain ⟨_, _, _, _, h⟩ := s.raiseFn_shape fn b; rw [h]
@[simp] theorem State.raiseFn_softPending (s : State) (fn : Nat) (b : Nat) : (s.raiseFn fn b).softPending = s.softPending := by
  obtain ⟨_, _, _, _, h⟩ := s.raiseFn_shape fn b; rw [h]
@[simp] theorem State.raiseFn_qmg (s : State) (fn : Nat) (b : Nat) : (s.raiseFn fn b).qmg = s.qmg := by
  obtain ⟨_, _, _, _, h⟩ := s.raiseFn_shape fn b; rw [h]
@[simp] theorem State.raiseFn_hmc (s : State) (fn : Nat) (b : Nat) : (s.raiseFn fn b).hmc = s.hmc := by
  obtain ⟨_, _, _, _, h⟩ := s.raiseFn_shape fn b; rw [h]
@[simp] theorem State.raiseFn_bsn (s : State) (fn : Nat) (b : Nat) : (s.raiseFn fn b).bsn = s.bsn := by
  obtain ⟨_, _, _, _, h⟩ := s.raiseFn_shape fn b; rw [h]
@[simp] theorem State.raiseFn_oca (s : State) (fn : Nat) (b : Nat) : (s.raiseFn fn b).oca = s.oca := by
  obtain ⟨_, _, _, _, h⟩ := s.raiseFn_shape fn b; rw [h]
@[simp] theorem State.raiseFn_amu (s : State) (fn : Nat) (b : Nat) : (s.raiseFn fn b).amu = s.amu := by
  obtain ⟨_, _, _, _, h⟩ := s.raiseFn_shape fn b; rw [h]
@[simp] theorem State.raiseFn_mgl (s : State) (fn : Nat) (b : Nat) : (s.raiseFn fn b).mgl = s.mgl := by
  obtain ⟨_, _, _, _, h⟩ := s.raiseFn_shape fn b; rw [h]
@[simp] theorem State.raiseFn_hal (s : State) (fn : Nat) (b : Nat) : (s.raiseFn fn b).hal = s.hal := by
  obtain ⟨_, _, _, _, h⟩ := s.raiseFn_shape fn b; rw [h]
@[simp] theorem State.raiseFn_cvc (s : State) (fn : Nat) (b : Nat) : (s.raiseFn fn b).cvc = s.cvc := by
  obtain ⟨_, _, _, _, h⟩ := s.raiseFn_shape fn b; rw [h]
@[simp] theorem State.raiseFn_dge (s : State) (fn : Nat) (b : Nat) : (s.raiseFn fn b).dge = s.dge := by
  obtain ⟨_, _, _, _, h⟩ := s.raiseFn_shape fn b; rw [h]
@[simp] theorem State.raiseFn_hostMem (s : State) (fn : Nat) (b : Nat) : (s.raiseFn fn b).hostMem = s.hostMem := by
  obtain ⟨_, _, _, _, h⟩ := s.raiseFn_shape fn b; rw [h]
@[simp] theorem State.raiseFn_hbm (s : State) (fn : Nat) (b : Nat) : (s.raiseFn fn b).hbm = s.hbm := by
  obtain ⟨_, _, _, _, h⟩ := s.raiseFn_shape fn b; rw [h]
@[simp] theorem State.raiseFn_draws (s : State) (fn : Nat) (b : Nat) : (s.raiseFn fn b).draws = s.draws := by
  obtain ⟨_, _, _, _, h⟩ := s.raiseFn_shape fn b; rw [h]
@[simp] theorem State.raiseFn_pending (s : State) (fn : Nat) (b : Nat) : (s.raiseFn fn b).pending = s.pending := by
  obtain ⟨_, _, _, _, h⟩ := s.raiseFn_shape fn b; rw [h]
@[simp] theorem State.raiseFn_hif_linkUp (s : State) (fn : Nat) (b : Nat) : (s.raiseFn fn b).hif.linkUp = s.hif.linkUp := by
  obtain ⟨_, _, _, _, h⟩ := s.raiseFn_shape fn b; rw [h]

/-! #### `alert` -/

theorem State.alert_shape (s : State) (f : Field) : ∃ (r : NMap Nat) (p : NMap Bool) (o : List Out) (q : Tsu),
    s.alert f = { s with regs := r, out := o, tsu := q, hif := { s.hif with pba := p } } := by
  obtain ⟨_, _, _, _, h⟩ := (s.wr f 0 1).raise_shape 14 4
  unfold State.alert
  rw [h]; exact ⟨_, _, _, _, rfl⟩
@[simp] theorem State.alert_board (s : State) (f : Field) : (s.alert f).board = s.board := by
  obtain ⟨_, _, _, _, h⟩ := s.alert_shape f; rw [h]
@[simp] theorem State.alert_clk (s : State) (f : Field) : (s.alert f).clk = s.clk := by
  obtain ⟨_, _, _, _, h⟩ := s.alert_shape f; rw [h]
@[simp] theorem State.alert_reef (s : State) (f : Field) : (s.alert f).reef = s.reef := by
  obtain ⟨_, _, _, _, h⟩ := s.alert_shape f; rw [h]
@[simp] theorem State.alert_darn (s : State) (f : Field) : (s.alert f).darn = s.darn := by
  obtain ⟨_, _, _, _, h⟩ := s.alert_shape f; rw [h]
@[simp] theorem State.alert_store (s : State) (f : Field) : (s.alert f).store = s.store := by
  obtain ⟨_, _, _, _, h⟩ := s.alert_shape f; rw [h]
@[simp] theorem State.alert_errLog (s : State) (f : Field) : (s.alert f).errLog = s.errLog := by
  obtain ⟨_, _, _, _, h⟩ := s.alert_shape f; rw [h]
@[simp] theorem State.alert_failedSubs (s : State) (f : Field) : (s.alert f).failedSubs = s.failedSubs := by
  obtain ⟨_, _, _, _, h⟩ := s.alert_shape f; rw [h]
@[simp] theorem State.alert_softPending (s : State) (f : Field) : (s.alert f).softPending = s.softPending := by
  obtain ⟨_, _, _, _, h⟩ := s.alert_shape f; rw [h]
@[simp] theorem State.alert_qmg (s : State) (f : Field) : (s.alert f).qmg = s.qmg := by
  obtain ⟨_, _, _, _, h⟩ := s.alert_shape f; rw [h]
@[simp] theorem State.alert_hmc (s : State) (f : Field) : (s.alert f).hmc = s.hmc := by
  obtain ⟨_, _, _, _, h⟩ := s.alert_shape f; rw [h]
@[simp] theorem State.alert_bsn (s : State) (f : Field) : (s.alert f).bsn = s.bsn := by
  obtain ⟨_, _, _, _, h⟩ := s.alert_shape f; rw [h]
@[simp] theorem State.alert_oca (s : State) (f : Field) : (s.alert f).oca = s.oca := by
  obtain ⟨_, _, _, _, h⟩ := s.alert_shape f; rw [h]
@[simp] theorem State.alert_amu (s : State) (f : Field) : (s.alert f).amu = s.amu := by
  obtain ⟨_, _, _, _, h⟩ := s.alert_shape f; rw [h]
@[simp] theorem State.alert_mgl (s : State) (f : Field) : (s.alert f).mgl = s.mgl := by
  obtain ⟨_, _, _, _, h⟩ := s.alert_shape f; rw [h]
@[simp] theorem State.alert_hal (s : State) (f : Field) : (s.alert f).hal = s.hal := by
  obtain ⟨_, _, _, _, h⟩ := s.alert_shape f; rw [h]
@[simp] theorem State.alert_cvc (s : State) (f : Field) : (s.alert f).cvc = s.cvc := by
  obtain ⟨_, _, _, _, h⟩ := s.alert_shape f; rw [h]
@[simp] theorem State.alert_dge (s : State) (f : Field) : (s.alert f).dge = s.dge := by
  obtain ⟨_, _, _, _, h⟩ := s.alert_shape f; rw [h]
@[simp] theorem State.alert_hostMem (s : State) (f : Field) : (s.alert f).hostMem = s.hostMem := by
  obtain ⟨_, _, _, _, h⟩ := s.alert_shape f; rw [h]
@[simp] theorem State.alert_hbm (s : State) (f : Field) : (s.alert f).hbm = s.hbm := by
  obtain ⟨_, _, _, _, h⟩ := s.alert_shape f; rw [h]
@[simp] theorem State.alert_draws (s : State) (f : Field) : (s.alert f).draws = s.draws := by
  obtain ⟨_, _, _, _, h⟩ := s.alert_shape f; rw [h]
@[simp] theorem State.alert_pending (s : State) (f : Field) : (s.alert f).pending = s.pending := by
  obtain ⟨_, _, _, _, h⟩ := s.alert_shape f; rw [h]
@[simp] theorem State.alert_hif_linkUp (s : State) (f : Field) : (s.alert f).hif.linkUp = s.hif.linkUp := by
  obtain ⟨_, _, _, _, h⟩ := s.alert_shape f; rw [h]

/-! #### `writeLog` -/

theorem State.writeLog_shape (s : State) (sub : Nat) (e : ErrEntry) : ∃ (r : NMap Nat) (p : NMap Bool) (o : List Out) (q : Tsu) (l : NMap ErrEntry),
    s.writeLog sub e = { s with regs := r, out := o, tsu := q, errLog := l, hif := { s.hif with pba := p } } := by
  have base : ∀ u : State, (∃ r g, u = { s with regs := r, errLog := g }) →
      ∃ r p o t g, ((u.record sub 2 e.fn (s.rd fERR_LOG_PTR_NEXT sub)).raise sub 0) =
        { s with regs := r, out := o, tsu := t, errLog := g, hif := { s.hif with pba := p } } := by
    rintro u ⟨r, g, rfl⟩
    obtain ⟨_, _, _, _, h⟩ := ({ s with regs := r, errLog := g } : State).record_shape sub 2 e.fn (s.rd fERR_LOG_PTR_NEXT sub)
    obtain ⟨_, _, _, _, k⟩ := (({ s with regs := r, errLog := g } : State).record sub 2 e.fn
      (s.rd fERR_LOG_PTR_NEXT sub)).raise_shape sub 0
    rw [k, h]; exact ⟨_, _, _, _, _, rfl⟩
  have all : ∀ u : State, (∃ r p o t g, u = { s with regs := r, out := o, tsu := t, errLog := g, hif := { s.hif with pba := p } }) →
      ∃ r p o t g, (if e.cause = 0 then u else u.raise sub e.cause) =
        { s with regs := r, out := o, tsu := t, errLog := g, hif := { s.hif with pba := p } } := by
    rintro u ⟨r, p, o, t, g, rfl⟩
    split
    · exact ⟨_, _, _, _, _, rfl⟩
    · obtain ⟨_, _, _, _, k⟩ := State.raise_shape _ sub e.cause
      rw [k]; exact ⟨_, _, _, _, _, rfl⟩
  refine all _ (base _ ?_)
  split <;> exact ⟨_, _, rfl⟩
@[simp] theorem State.writeLog_board (s : State) (sub : Nat) (e : ErrEntry) : (s.writeLog sub e).board = s.board := by
  obtain ⟨_, _, _, _, _, h⟩ := s.writeLog_shape sub e; rw [h]
@[simp] theorem State.writeLog_clk (s : State) (sub : Nat) (e : ErrEntry) : (s.writeLog sub e).clk = s.clk := by
  obtain ⟨_, _, _, _, _, h⟩ := s.writeLog_shape sub e; rw [h]
@[simp] theorem State.writeLog_reef (s : State) (sub : Nat) (e : ErrEntry) : (s.writeLog sub e).reef = s.reef := by
  obtain ⟨_, _, _, _, _, h⟩ := s.writeLog_shape sub e; rw [h]
@[simp] theorem State.writeLog_darn (s : State) (sub : Nat) (e : ErrEntry) : (s.writeLog sub e).darn = s.darn := by
  obtain ⟨_, _, _, _, _, h⟩ := s.writeLog_shape sub e; rw [h]
@[simp] theorem State.writeLog_store (s : State) (sub : Nat) (e : ErrEntry) : (s.writeLog sub e).store = s.store := by
  obtain ⟨_, _, _, _, _, h⟩ := s.writeLog_shape sub e; rw [h]
@[simp] theorem State.writeLog_failedSubs (s : State) (sub : Nat) (e : ErrEntry) : (s.writeLog sub e).failedSubs = s.failedSubs := by
  obtain ⟨_, _, _, _, _, h⟩ := s.writeLog_shape sub e; rw [h]
@[simp] theorem State.writeLog_softPending (s : State) (sub : Nat) (e : ErrEntry) : (s.writeLog sub e).softPending = s.softPending := by
  obtain ⟨_, _, _, _, _, h⟩ := s.writeLog_shape sub e; rw [h]
@[simp] theorem State.writeLog_qmg (s : State) (sub : Nat) (e : ErrEntry) : (s.writeLog sub e).qmg = s.qmg := by
  obtain ⟨_, _, _, _, _, h⟩ := s.writeLog_shape sub e; rw [h]
@[simp] theorem State.writeLog_hmc (s : State) (sub : Nat) (e : ErrEntry) : (s.writeLog sub e).hmc = s.hmc := by
  obtain ⟨_, _, _, _, _, h⟩ := s.writeLog_shape sub e; rw [h]
@[simp] theorem State.writeLog_bsn (s : State) (sub : Nat) (e : ErrEntry) : (s.writeLog sub e).bsn = s.bsn := by
  obtain ⟨_, _, _, _, _, h⟩ := s.writeLog_shape sub e; rw [h]
@[simp] theorem State.writeLog_oca (s : State) (sub : Nat) (e : ErrEntry) : (s.writeLog sub e).oca = s.oca := by
  obtain ⟨_, _, _, _, _, h⟩ := s.writeLog_shape sub e; rw [h]
@[simp] theorem State.writeLog_amu (s : State) (sub : Nat) (e : ErrEntry) : (s.writeLog sub e).amu = s.amu := by
  obtain ⟨_, _, _, _, _, h⟩ := s.writeLog_shape sub e; rw [h]
@[simp] theorem State.writeLog_mgl (s : State) (sub : Nat) (e : ErrEntry) : (s.writeLog sub e).mgl = s.mgl := by
  obtain ⟨_, _, _, _, _, h⟩ := s.writeLog_shape sub e; rw [h]
@[simp] theorem State.writeLog_hal (s : State) (sub : Nat) (e : ErrEntry) : (s.writeLog sub e).hal = s.hal := by
  obtain ⟨_, _, _, _, _, h⟩ := s.writeLog_shape sub e; rw [h]
@[simp] theorem State.writeLog_cvc (s : State) (sub : Nat) (e : ErrEntry) : (s.writeLog sub e).cvc = s.cvc := by
  obtain ⟨_, _, _, _, _, h⟩ := s.writeLog_shape sub e; rw [h]
@[simp] theorem State.writeLog_dge (s : State) (sub : Nat) (e : ErrEntry) : (s.writeLog sub e).dge = s.dge := by
  obtain ⟨_, _, _, _, _, h⟩ := s.writeLog_shape sub e; rw [h]
@[simp] theorem State.writeLog_hostMem (s : State) (sub : Nat) (e : ErrEntry) : (s.writeLog sub e).hostMem = s.hostMem := by
  obtain ⟨_, _, _, _, _, h⟩ := s.writeLog_shape sub e; rw [h]
@[simp] theorem State.writeLog_hbm (s : State) (sub : Nat) (e : ErrEntry) : (s.writeLog sub e).hbm = s.hbm := by
  obtain ⟨_, _, _, _, _, h⟩ := s.writeLog_shape sub e; rw [h]
@[simp] theorem State.writeLog_draws (s : State) (sub : Nat) (e : ErrEntry) : (s.writeLog sub e).draws = s.draws := by
  obtain ⟨_, _, _, _, _, h⟩ := s.writeLog_shape sub e; rw [h]
@[simp] theorem State.writeLog_pending (s : State) (sub : Nat) (e : ErrEntry) : (s.writeLog sub e).pending = s.pending := by
  obtain ⟨_, _, _, _, _, h⟩ := s.writeLog_shape sub e; rw [h]
@[simp] theorem State.writeLog_hif_linkUp (s : State) (sub : Nat) (e : ErrEntry) : (s.writeLog sub e).hif.linkUp = s.hif.linkUp := by
  obtain ⟨_, _, _, _, _, h⟩ := s.writeLog_shape sub e; rw [h]

/-! #### `pageFault` -/

theorem State.pageFault_shape (s : State) (sub : Nat) : ∃ (r : NMap Nat) (p : NMap Bool) (o : List Out) (q : Tsu),
    s.pageFault sub = { s with regs := r, out := o, tsu := q, hif := { s.hif with pba := p } } := by
  unfold State.pageFault
  split
  · exact ⟨_, _, _, _, rfl⟩
  · obtain ⟨_, _, _, _, h⟩ := (s.wr fSTATUS_FAULT sub 1).raise_shape sub 1
    rw [h]; exact ⟨_, _, _, _, rfl⟩
@[simp] theorem State.pageFault_board (s : State) (sub : Nat) : (s.pageFault sub).board = s.board := by
  obtain ⟨_, _, _, _, h⟩ := s.pageFault_shape sub; rw [h]
@[simp] theorem State.pageFault_clk (s : State) (sub : Nat) : (s.pageFault sub).clk = s.clk := by
  obtain ⟨_, _, _, _, h⟩ := s.pageFault_shape sub; rw [h]
@[simp] theorem State.pageFault_reef (s : State) (sub : Nat) : (s.pageFault sub).reef = s.reef := by
  obtain ⟨_, _, _, _, h⟩ := s.pageFault_shape sub; rw [h]
@[simp] theorem State.pageFault_darn (s : State) (sub : Nat) : (s.pageFault sub).darn = s.darn := by
  obtain ⟨_, _, _, _, h⟩ := s.pageFault_shape sub; rw [h]
@[simp] theorem State.pageFault_store (s : State) (sub : Nat) : (s.pageFault sub).store = s.store := by
  obtain ⟨_, _, _, _, h⟩ := s.pageFault_shape sub; rw [h]
@[simp] theorem State.pageFault_errLog (s : State) (sub : Nat) : (s.pageFault sub).errLog = s.errLog := by
  obtain ⟨_, _, _, _, h⟩ := s.pageFault_shape sub; rw [h]
@[simp] theorem State.pageFault_failedSubs (s : State) (sub : Nat) : (s.pageFault sub).failedSubs = s.failedSubs := by
  obtain ⟨_, _, _, _, h⟩ := s.pageFault_shape sub; rw [h]
@[simp] theorem State.pageFault_softPending (s : State) (sub : Nat) : (s.pageFault sub).softPending = s.softPending := by
  obtain ⟨_, _, _, _, h⟩ := s.pageFault_shape sub; rw [h]
@[simp] theorem State.pageFault_qmg (s : State) (sub : Nat) : (s.pageFault sub).qmg = s.qmg := by
  obtain ⟨_, _, _, _, h⟩ := s.pageFault_shape sub; rw [h]
@[simp] theorem State.pageFault_hmc (s : State) (sub : Nat) : (s.pageFault sub).hmc = s.hmc := by
  obtain ⟨_, _, _, _, h⟩ := s.pageFault_shape sub; rw [h]
@[simp] theorem State.pageFault_bsn (s : State) (sub : Nat) : (s.pageFault sub).bsn = s.bsn := by
  obtain ⟨_, _, _, _, h⟩ := s.pageFault_shape sub; rw [h]
@[simp] theorem State.pageFault_oca (s : State) (sub : Nat) : (s.pageFault sub).oca = s.oca := by
  obtain ⟨_, _, _, _, h⟩ := s.pageFault_shape sub; rw [h]
@[simp] theorem State.pageFault_amu (s : State) (sub : Nat) : (s.pageFault sub).amu = s.amu := by
  obtain ⟨_, _, _, _, h⟩ := s.pageFault_shape sub; rw [h]
@[simp] theorem State.pageFault_mgl (s : State) (sub : Nat) : (s.pageFault sub).mgl = s.mgl := by
  obtain ⟨_, _, _, _, h⟩ := s.pageFault_shape sub; rw [h]
@[simp] theorem State.pageFault_hal (s : State) (sub : Nat) : (s.pageFault sub).hal = s.hal := by
  obtain ⟨_, _, _, _, h⟩ := s.pageFault_shape sub; rw [h]
@[simp] theorem State.pageFault_cvc (s : State) (sub : Nat) : (s.pageFault sub).cvc = s.cvc := by
  obtain ⟨_, _, _, _, h⟩ := s.pageFault_shape sub; rw [h]
@[simp] theorem State.pageFault_dge (s : State) (sub : Nat) : (s.pageFault sub).dge = s.dge := by
  obtain ⟨_, _, _, _, h⟩ := s.pageFault_shape sub; rw [h]
@[simp] theorem State.pageFault_hostMem (s : State) (sub : Nat) : (s.pageFault sub).hostMem = s.hostMem := by
  obtain ⟨_, _, _, _, h⟩ := s.pageFault_shape sub; rw [h]
@[simp] theorem State.pageFault_hbm (s : State) (sub : Nat) : (s.pageFault sub).hbm = s.hbm := by
  obtain ⟨_, _, _, _, h⟩ := s.pageFault_shape sub; rw [h]
@[simp] theorem State.pageFault_draws (s : State) (sub : Nat) : (s.pageFault sub).draws = s.draws := by
  obtain ⟨_, _, _, _, h⟩ := s.pageFault_shape sub; rw [h]
@[simp] theorem State.pageFault_pending (s : State) (sub : Nat) : (s.pageFault sub).pending = s.pending := by
  obtain ⟨_, _, _, _, h⟩ := s.pageFault_shape sub; rw [h]
@[simp] theorem State.pageFault_hif_linkUp (s : State) (sub : Nat) : (s.pageFault sub).hif.linkUp = s.hif.linkUp := by
  obtain ⟨_, _, _, _, h⟩ := s.pageFault_shape sub; rw [h]

/-! #### `noteClass` -/

theorem State.noteClass_shape (s : State) (cls : Nat) (source : Nat) : ∃ (r : NMap Nat),
    s.noteClass cls source = { s with regs := r } := by
  unfold State.noteClass
  simp only []
  split <;> split <;> split <;> exact ⟨_, rfl⟩
@[simp] theorem State.noteClass_board (s : State) (cls : Nat) (source : Nat) : (s.noteClass cls source).board = s.board := by
  obtain ⟨_, h⟩ := s.noteClass_shape cls source; rw [h]
@[simp] theorem State.noteClass_clk (s : State) (cls : Nat) (source : Nat) : (s.noteClass cls source).clk = s.clk := by
  obtain ⟨_, h⟩ := s.noteClass_shape cls source; rw [h]
@[simp] theorem State.noteClass_hif (s : State) (cls : Nat) (source : Nat) : (s.noteClass cls source).hif = s.hif := by
  obtain ⟨_, h⟩ := s.noteClass_shape cls source; rw [h]
@[simp] theorem State.noteClass_tsu (s : State) (cls : Nat) (source : Nat) : (s.noteClass cls source).tsu = s.tsu := by
  obtain ⟨_, h⟩ := s.noteClass_shape cls source; rw [h]
@[simp] theorem State.noteClass_reef (s : State) (cls : Nat) (source : Nat) : (s.noteClass cls source).reef = s.reef := by
  obtain ⟨_, h⟩ := s.noteClass_shape cls source; rw [h]
@[simp] theorem State.noteClass_darn (s : State) (cls : Nat) (source : Nat) : (s.noteClass cls source).darn = s.darn := by
  obtain ⟨_, h⟩ := s.noteClass_shape cls source; rw [h]
@[simp] theorem State.noteClass_store (s : State) (cls : Nat) (source : Nat) : (s.noteClass cls source).store = s.store := by
  obtain ⟨_, h⟩ := s.noteClass_shape cls source; rw [h]
@[simp] theorem State.noteClass_errLog (s : State) (cls : Nat) (source : Nat) : (s.noteClass cls source).errLog = s.errLog := by
  obtain ⟨_, h⟩ := s.noteClass_shape cls source; rw [h]
@[simp] theorem State.noteClass_failedSubs (s : State) (cls : Nat) (source : Nat) : (s.noteClass cls source).failedSubs = s.failedSubs := by
  obtain ⟨_, h⟩ := s.noteClass_shape cls source; rw [h]
@[simp] theorem State.noteClass_softPending (s : State) (cls : Nat) (source : Nat) : (s.noteClass cls source).softPending = s.softPending := by
  obtain ⟨_, h⟩ := s.noteClass_shape cls source; rw [h]
@[simp] theorem State.noteClass_qmg (s : State) (cls : Nat) (source : Nat) : (s.noteClass cls source).qmg = s.qmg := by
  obtain ⟨_, h⟩ := s.noteClass_shape cls source; rw [h]
@[simp] theorem State.noteClass_hmc (s : State) (cls : Nat) (source : Nat) : (s.noteClass cls source).hmc = s.hmc := by
  obtain ⟨_, h⟩ := s.noteClass_shape cls source; rw [h]
@[simp] theorem State.noteClass_bsn (s : State) (cls : Nat) (source : Nat) : (s.noteClass cls source).bsn = s.bsn := by
  obtain ⟨_, h⟩ := s.noteClass_shape cls source; rw [h]
@[simp] theorem State.noteClass_oca (s : State) (cls : Nat) (source : Nat) : (s.noteClass cls source).oca = s.oca := by
  obtain ⟨_, h⟩ := s.noteClass_shape cls source; rw [h]
@[simp] theorem State.noteClass_amu (s : State) (cls : Nat) (source : Nat) : (s.noteClass cls source).amu = s.amu := by
  obtain ⟨_, h⟩ := s.noteClass_shape cls source; rw [h]
@[simp] theorem State.noteClass_mgl (s : State) (cls : Nat) (source : Nat) : (s.noteClass cls source).mgl = s.mgl := by
  obtain ⟨_, h⟩ := s.noteClass_shape cls source; rw [h]
@[simp] theorem State.noteClass_hal (s : State) (cls : Nat) (source : Nat) : (s.noteClass cls source).hal = s.hal := by
  obtain ⟨_, h⟩ := s.noteClass_shape cls source; rw [h]
@[simp] theorem State.noteClass_cvc (s : State) (cls : Nat) (source : Nat) : (s.noteClass cls source).cvc = s.cvc := by
  obtain ⟨_, h⟩ := s.noteClass_shape cls source; rw [h]
@[simp] theorem State.noteClass_dge (s : State) (cls : Nat) (source : Nat) : (s.noteClass cls source).dge = s.dge := by
  obtain ⟨_, h⟩ := s.noteClass_shape cls source; rw [h]
@[simp] theorem State.noteClass_hostMem (s : State) (cls : Nat) (source : Nat) : (s.noteClass cls source).hostMem = s.hostMem := by
  obtain ⟨_, h⟩ := s.noteClass_shape cls source; rw [h]
@[simp] theorem State.noteClass_hbm (s : State) (cls : Nat) (source : Nat) : (s.noteClass cls source).hbm = s.hbm := by
  obtain ⟨_, h⟩ := s.noteClass_shape cls source; rw [h]
@[simp] theorem State.noteClass_out (s : State) (cls : Nat) (source : Nat) : (s.noteClass cls source).out = s.out := by
  obtain ⟨_, h⟩ := s.noteClass_shape cls source; rw [h]
@[simp] theorem State.noteClass_draws (s : State) (cls : Nat) (source : Nat) : (s.noteClass cls source).draws = s.draws := by
  obtain ⟨_, h⟩ := s.noteClass_shape cls source; rw [h]
@[simp] theorem State.noteClass_pending (s : State) (cls : Nat) (source : Nat) : (s.noteClass cls source).pending = s.pending := by
  obtain ⟨_, h⟩ := s.noteClass_shape cls source; rw [h]

/-! #### `aer` -/

theorem State.aer_shape (s : State) (u : Bool) : ∃ (c : NMap Nat) (o : List Out),
    s.aer u = { s with out := o, hif := { s.hif with cfg := c } } := by
  unfold State.aer
  split <;> exact ⟨_, _, rfl⟩
@[simp] theorem State.aer_regs (s : State) (u : Bool) : (s.aer u).regs = s.regs := by
  obtain ⟨_, _, h⟩ := s.aer_shape u; rw [h]
@[simp] theorem State.aer_board (s : State) (u : Bool) : (s.aer u).board = s.board := by
  obtain ⟨_, _, h⟩ := s.aer_shape u; rw [h]
@[simp] theorem State.aer_clk (s : State) (u : Bool) : (s.aer u).clk = s.clk := by
  obtain ⟨_, _, h⟩ := s.aer_shape u; rw [h]
@[simp] theorem State.aer_tsu (s : State) (u : Bool) : (s.aer u).tsu = s.tsu := by
  obtain ⟨_, _, h⟩ := s.aer_shape u; rw [h]
@[simp] theorem State.aer_reef (s : State) (u : Bool) : (s.aer u).reef = s.reef := by
  obtain ⟨_, _, h⟩ := s.aer_shape u; rw [h]
@[simp] theorem State.aer_darn (s : State) (u : Bool) : (s.aer u).darn = s.darn := by
  obtain ⟨_, _, h⟩ := s.aer_shape u; rw [h]
@[simp] theorem State.aer_store (s : State) (u : Bool) : (s.aer u).store = s.store := by
  obtain ⟨_, _, h⟩ := s.aer_shape u; rw [h]
@[simp] theorem State.aer_errLog (s : State) (u : Bool) : (s.aer u).errLog = s.errLog := by
  obtain ⟨_, _, h⟩ := s.aer_shape u; rw [h]
@[simp] theorem State.aer_failedSubs (s : State) (u : Bool) : (s.aer u).failedSubs = s.failedSubs := by
  obtain ⟨_, _, h⟩ := s.aer_shape u; rw [h]
@[simp] theorem State.aer_softPending (s : State) (u : Bool) : (s.aer u).softPending = s.softPending := by
  obtain ⟨_, _, h⟩ := s.aer_shape u; rw [h]
@[simp] theorem State.aer_qmg (s : State) (u : Bool) : (s.aer u).qmg = s.qmg := by
  obtain ⟨_, _, h⟩ := s.aer_shape u; rw [h]
@[simp] theorem State.aer_hmc (s : State) (u : Bool) : (s.aer u).hmc = s.hmc := by
  obtain ⟨_, _, h⟩ := s.aer_shape u; rw [h]
@[simp] theorem State.aer_bsn (s : State) (u : Bool) : (s.aer u).bsn = s.bsn := by
  obtain ⟨_, _, h⟩ := s.aer_shape u; rw [h]
@[simp] theorem State.aer_oca (s : State) (u : Bool) : (s.aer u).oca = s.oca := by
  obtain ⟨_, _, h⟩ := s.aer_shape u; rw [h]
@[simp] theorem State.aer_amu (s : State) (u : Bool) : (s.aer u).amu = s.amu := by
  obtain ⟨_, _, h⟩ := s.aer_shape u; rw [h]
@[simp] theorem State.aer_mgl (s : State) (u : Bool) : (s.aer u).mgl = s.mgl := by
  obtain ⟨_, _, h⟩ := s.aer_shape u; rw [h]
@[simp] theorem State.aer_hal (s : State) (u : Bool) : (s.aer u).hal = s.hal := by
  obtain ⟨_, _, h⟩ := s.aer_shape u; rw [h]
@[simp] theorem State.aer_cvc (s : State) (u : Bool) : (s.aer u).cvc = s.cvc := by
  obtain ⟨_, _, h⟩ := s.aer_shape u; rw [h]
@[simp] theorem State.aer_dge (s : State) (u : Bool) : (s.aer u).dge = s.dge := by
  obtain ⟨_, _, h⟩ := s.aer_shape u; rw [h]
@[simp] theorem State.aer_hostMem (s : State) (u : Bool) : (s.aer u).hostMem = s.hostMem := by
  obtain ⟨_, _, h⟩ := s.aer_shape u; rw [h]
@[simp] theorem State.aer_hbm (s : State) (u : Bool) : (s.aer u).hbm = s.hbm := by
  obtain ⟨_, _, h⟩ := s.aer_shape u; rw [h]
@[simp] theorem State.aer_draws (s : State) (u : Bool) : (s.aer u).draws = s.draws := by
  obtain ⟨_, _, h⟩ := s.aer_shape u; rw [h]
@[simp] theorem State.aer_pending (s : State) (u : Bool) : (s.aer u).pending = s.pending := by
  obtain ⟨_, _, h⟩ := s.aer_shape u; rw [h]
@[simp] theorem State.aer_hif_linkUp (s : State) (u : Bool) : (s.aer u).hif.linkUp = s.hif.linkUp := by
  obtain ⟨_, _, h⟩ := s.aer_shape u; rw [h]

/-! #### `snap` -/

theorem State.snap_shape (s : State) (sub : Nat) (e : ErrEntry) : ∃ (d : Store) (n : Nat),
    s.snap sub e = { s with store := d, draws := n } := by
  unfold State.snap
  simp only []
  split
  · exact ⟨_, _, rfl⟩
  · split <;> exact ⟨_, _, rfl⟩
@[simp] theorem State.snap_regs (s : State) (sub : Nat) (e : ErrEntry) : (s.snap sub e).regs = s.regs := by
  obtain ⟨_, _, h⟩ := s.snap_shape sub e; rw [h]
@[simp] theorem State.snap_board (s : State) (sub : Nat) (e : ErrEntry) : (s.snap sub e).board = s.board := by
  obtain ⟨_, _, h⟩ := s.snap_shape sub e; rw [h]
@[simp] theorem State.snap_clk (s : State) (sub : Nat) (e : ErrEntry) : (s.snap sub e).clk = s.clk := by
  obtain ⟨_, _, h⟩ := s.snap_shape sub e; rw [h]
@[simp] theorem State.snap_hif (s : State) (sub : Nat) (e : ErrEntry) : (s.snap sub e).hif = s.hif := by
  obtain ⟨_, _, h⟩ := s.snap_shape sub e; rw [h]
@[simp] theorem State.snap_tsu (s : State) (sub : Nat) (e : ErrEntry) : (s.snap sub e).tsu = s.tsu := by
  obtain ⟨_, _, h⟩ := s.snap_shape sub e; rw [h]
@[simp] theorem State.snap_reef (s : State) (sub : Nat) (e : ErrEntry) : (s.snap sub e).reef = s.reef := by
  obtain ⟨_, _, h⟩ := s.snap_shape sub e; rw [h]
@[simp] theorem State.snap_darn (s : State) (sub : Nat) (e : ErrEntry) : (s.snap sub e).darn = s.darn := by
  obtain ⟨_, _, h⟩ := s.snap_shape sub e; rw [h]
@[simp] theorem State.snap_errLog (s : State) (sub : Nat) (e : ErrEntry) : (s.snap sub e).errLog = s.errLog := by
  obtain ⟨_, _, h⟩ := s.snap_shape sub e; rw [h]
@[simp] theorem State.snap_failedSubs (s : State) (sub : Nat) (e : ErrEntry) : (s.snap sub e).failedSubs = s.failedSubs := by
  obtain ⟨_, _, h⟩ := s.snap_shape sub e; rw [h]
@[simp] theorem State.snap_softPending (s : State) (sub : Nat) (e : ErrEntry) : (s.snap sub e).softPending = s.softPending := by
  obtain ⟨_, _, h⟩ := s.snap_shape sub e; rw [h]
@[simp] theorem State.snap_qmg (s : State) (sub : Nat) (e : ErrEntry) : (s.snap sub e).qmg = s.qmg := by
  obtain ⟨_, _, h⟩ := s.snap_shape sub e; rw [h]
@[simp] theorem State.snap_hmc (s : State) (sub : Nat) (e : ErrEntry) : (s.snap sub e).hmc = s.hmc := by
  obtain ⟨_, _, h⟩ := s.snap_shape sub e; rw [h]
@[simp] theorem State.snap_bsn (s : State) (sub : Nat) (e : ErrEntry) : (s.snap sub e).bsn = s.bsn := by
  obtain ⟨_, _, h⟩ := s.snap_shape sub e; rw [h]
@[simp] theorem State.snap_oca (s : State) (sub : Nat) (e : ErrEntry) : (s.snap sub e).oca = s.oca := by
  obtain ⟨_, _, h⟩ := s.snap_shape sub e; rw [h]
@[simp] theorem State.snap_amu (s : State) (sub : Nat) (e : ErrEntry) : (s.snap sub e).amu = s.amu := by
  obtain ⟨_, _, h⟩ := s.snap_shape sub e; rw [h]
@[simp] theorem State.snap_mgl (s : State) (sub : Nat) (e : ErrEntry) : (s.snap sub e).mgl = s.mgl := by
  obtain ⟨_, _, h⟩ := s.snap_shape sub e; rw [h]
@[simp] theorem State.snap_hal (s : State) (sub : Nat) (e : ErrEntry) : (s.snap sub e).hal = s.hal := by
  obtain ⟨_, _, h⟩ := s.snap_shape sub e; rw [h]
@[simp] theorem State.snap_cvc (s : State) (sub : Nat) (e : ErrEntry) : (s.snap sub e).cvc = s.cvc := by
  obtain ⟨_, _, h⟩ := s.snap_shape sub e; rw [h]
@[simp] theorem State.snap_dge (s : State) (sub : Nat) (e : ErrEntry) : (s.snap sub e).dge = s.dge := by
  obtain ⟨_, _, h⟩ := s.snap_shape sub e; rw [h]
@[simp] theorem State.snap_hostMem (s : State) (sub : Nat) (e : ErrEntry) : (s.snap sub e).hostMem = s.hostMem := by
  obtain ⟨_, _, h⟩ := s.snap_shape sub e; rw [h]
@[simp] theorem State.snap_hbm (s : State) (sub : Nat) (e : ErrEntry) : (s.snap sub e).hbm = s.hbm := by
  obtain ⟨_, _, h⟩ := s.snap_shape sub e; rw [h]
@[simp] theorem State.snap_out (s : State) (sub : Nat) (e : ErrEntry) : (s.snap sub e).out = s.out := by
  obtain ⟨_, _, h⟩ := s.snap_shape sub e; rw [h]
@[simp] theorem State.snap_pending (s : State) (sub : Nat) (e : ErrEntry) : (s.snap sub e).pending = s.pending := by
  obtain ⟨_, _, h⟩ := s.snap_shape sub e; rw [h]

/-! #### `report` -/

theorem State.report_shape (s : State) (sub : Nat) (e : ErrEntry) : ∃ (r : NMap Nat) (p : NMap Bool) (c : NMap Nat) (o : List Out) (q : Tsu) (d : Store) (n : Nat),
    s.report sub e = { s with regs := r, out := o, tsu := q, store := d, draws := n, hif := { s.hif with pba := p, cfg := c } } := by
  obtain ⟨_, h1⟩ := s.noteClass_shape e.cls e.source
  obtain ⟨_, _, _, _, h2⟩ := (s.noteClass e.cls e.source).pageFault_shape sub
  obtain ⟨_, _, _, _, h3⟩ := ((s.noteClass e.cls e.source).pageFault sub).alert_shape fPWR_ALERT_STATUS_DEVICE_FAULT
  have h4 : ∀ b, ∃ r p c o t, ((((s.noteClass e.cls e.source).pageFault sub).alert fPWR_ALERT_STATUS_DEVICE_FAULT).aer b) =
      { s with regs := r, out := o, tsu := t, hif := { s.hif with pba := p, cfg := c } } := by
    intro b
    obtain ⟨_, _, h⟩ := (((s.noteClass e.cls e.source).pageFault sub).alert fPWR_ALERT_STATUS_DEVICE_FAULT).aer_shape b
    rw [h, h3, h2, h1]; exact ⟨_, _, _, _, _, rfl⟩
  unfold State.report
  simp only []
  split
  · obtain ⟨_, _, _, _, _, h⟩ := h4 false
    rw [h]; exact ⟨_, _, _, _, _, _, _, rfl⟩
  · split
    · obtain ⟨_, _, _, _, _, h⟩ := h4 true
      obtain ⟨_, _, g⟩ := ((((s.noteClass e.cls e.source).pageFault sub).alert fPWR_ALERT_STATUS_DEVICE_FAULT).aer
        true).snap_shape sub e
      rw [g, h]; exact ⟨_, _, _, _, _, _, _, rfl⟩
    · rw [h1]; exact ⟨_, _, _, _, _, _, _, rfl⟩
@[simp] theorem State.report_board (s : State) (sub : Nat) (e : ErrEntry) : (s.report sub e).board = s.board := by
  obtain ⟨_, _, _, _, _, _, _, h⟩ := s.report_shape sub e; rw [h]
@[simp] theorem State.report_clk (s : State) (sub : Nat) (e : ErrEntry) : (s.report sub e).clk = s.clk := by
  obtain ⟨_, _, _, _, _, _, _, h⟩ := s.report_shape sub e; rw [h]
@[simp] theorem State.report_reef (s : State) (sub : Nat) (e : ErrEntry) : (s.report sub e).reef = s.reef := by
  obtain ⟨_, _, _, _, _, _, _, h⟩ := s.report_shape sub e; rw [h]
@[simp] theorem State.report_darn (s : State) (sub : Nat) (e : ErrEntry) : (s.report sub e).darn = s.darn := by
  obtain ⟨_, _, _, _, _, _, _, h⟩ := s.report_shape sub e; rw [h]
@[simp] theorem State.report_errLog (s : State) (sub : Nat) (e : ErrEntry) : (s.report sub e).errLog = s.errLog := by
  obtain ⟨_, _, _, _, _, _, _, h⟩ := s.report_shape sub e; rw [h]
@[simp] theorem State.report_failedSubs (s : State) (sub : Nat) (e : ErrEntry) : (s.report sub e).failedSubs = s.failedSubs := by
  obtain ⟨_, _, _, _, _, _, _, h⟩ := s.report_shape sub e; rw [h]
@[simp] theorem State.report_softPending (s : State) (sub : Nat) (e : ErrEntry) : (s.report sub e).softPending = s.softPending := by
  obtain ⟨_, _, _, _, _, _, _, h⟩ := s.report_shape sub e; rw [h]
@[simp] theorem State.report_qmg (s : State) (sub : Nat) (e : ErrEntry) : (s.report sub e).qmg = s.qmg := by
  obtain ⟨_, _, _, _, _, _, _, h⟩ := s.report_shape sub e; rw [h]
@[simp] theorem State.report_hmc (s : State) (sub : Nat) (e : ErrEntry) : (s.report sub e).hmc = s.hmc := by
  obtain ⟨_, _, _, _, _, _, _, h⟩ := s.report_shape sub e; rw [h]
@[simp] theorem State.report_bsn (s : State) (sub : Nat) (e : ErrEntry) : (s.report sub e).bsn = s.bsn := by
  obtain ⟨_, _, _, _, _, _, _, h⟩ := s.report_shape sub e; rw [h]
@[simp] theorem State.report_oca (s : State) (sub : Nat) (e : ErrEntry) : (s.report sub e).oca = s.oca := by
  obtain ⟨_, _, _, _, _, _, _, h⟩ := s.report_shape sub e; rw [h]
@[simp] theorem State.report_amu (s : State) (sub : Nat) (e : ErrEntry) : (s.report sub e).amu = s.amu := by
  obtain ⟨_, _, _, _, _, _, _, h⟩ := s.report_shape sub e; rw [h]
@[simp] theorem State.report_mgl (s : State) (sub : Nat) (e : ErrEntry) : (s.report sub e).mgl = s.mgl := by
  obtain ⟨_, _, _, _, _, _, _, h⟩ := s.report_shape sub e; rw [h]
@[simp] theorem State.report_hal (s : State) (sub : Nat) (e : ErrEntry) : (s.report sub e).hal = s.hal := by
  obtain ⟨_, _, _, _, _, _, _, h⟩ := s.report_shape sub e; rw [h]
@[simp] theorem State.report_cvc (s : State) (sub : Nat) (e : ErrEntry) : (s.report sub e).cvc = s.cvc := by
  obtain ⟨_, _, _, _, _, _, _, h⟩ := s.report_shape sub e; rw [h]
@[simp] theorem State.report_dge (s : State) (sub : Nat) (e : ErrEntry) : (s.report sub e).dge = s.dge := by
  obtain ⟨_, _, _, _, _, _, _, h⟩ := s.report_shape sub e; rw [h]
@[simp] theorem State.report_hostMem (s : State) (sub : Nat) (e : ErrEntry) : (s.report sub e).hostMem = s.hostMem := by
  obtain ⟨_, _, _, _, _, _, _, h⟩ := s.report_shape sub e; rw [h]
@[simp] theorem State.report_hbm (s : State) (sub : Nat) (e : ErrEntry) : (s.report sub e).hbm = s.hbm := by
  obtain ⟨_, _, _, _, _, _, _, h⟩ := s.report_shape sub e; rw [h]
@[simp] theorem State.report_pending (s : State) (sub : Nat) (e : ErrEntry) : (s.report sub e).pending = s.pending := by
  obtain ⟨_, _, _, _, _, _, _, h⟩ := s.report_shape sub e; rw [h]
@[simp] theorem State.report_hif_linkUp (s : State) (sub : Nat) (e : ErrEntry) : (s.report sub e).hif.linkUp = s.hif.linkUp := by
  obtain ⟨_, _, _, _, _, _, _, h⟩ := s.report_shape sub e; rw [h]

/-! #### `fault` -/

theorem State.fault_shape (s : State) (sub : Nat) (e : ErrEntry) : ∃ (r : NMap Nat) (p : NMap Bool) (c : NMap Nat) (o : List Out) (q : Tsu) (l : NMap ErrEntry) (d : Store) (n : Nat),
    s.fault sub e = { s with regs := r, out := o, tsu := q, errLog := l, store := d, draws := n, hif := { s.hif with pba := p, cfg := c } } := by
  obtain ⟨_, _, _, _, _, h⟩ := s.writeLog_shape sub e
  obtain ⟨_, _, _, _, _, _, _, g⟩ := (s.writeLog sub e).report_shape sub e
  unfold State.fault
  rw [g, h]; exact ⟨_, _, _, _, _, _, _, _, rfl⟩
@[simp] theorem State.fault_board (s : State) (sub : Nat) (e : ErrEntry) : (s.fault sub e).board = s.board := by
  obtain ⟨_, _, _, _, _, _, _, _, h⟩ := s.fault_shape sub e; rw [h]
@[simp] theorem State.fault_clk (s : State) (sub : Nat) (e : ErrEntry) : (s.fault sub e).clk = s.clk := by
  obtain ⟨_, _, _, _, _, _, _, _, h⟩ := s.fault_shape sub e; rw [h]
@[simp] theorem State.fault_reef (s : State) (sub : Nat) (e : ErrEntry) : (s.fault sub e).reef = s.reef := by
  obtain ⟨_, _, _, _, _, _, _, _, h⟩ := s.fault_shape sub e; rw [h]
@[simp] theorem State.fault_darn (s : State) (sub : Nat) (e : ErrEntry) : (s.fault sub e).darn = s.darn := by
  obtain ⟨_, _, _, _, _, _, _, _, h⟩ := s.fault_shape sub e; rw [h]
@[simp] theorem State.fault_failedSubs (s : State) (sub : Nat) (e : ErrEntry) : (s.fault sub e).failedSubs = s.failedSubs := by
  obtain ⟨_, _, _, _, _, _, _, _, h⟩ := s.fault_shape sub e; rw [h]
@[simp] theorem State.fault_softPending (s : State) (sub : Nat) (e : ErrEntry) : (s.fault sub e).softPending = s.softPending := by
  obtain ⟨_, _, _, _, _, _, _, _, h⟩ := s.fault_shape sub e; rw [h]
@[simp] theorem State.fault_qmg (s : State) (sub : Nat) (e : ErrEntry) : (s.fault sub e).qmg = s.qmg := by
  obtain ⟨_, _, _, _, _, _, _, _, h⟩ := s.fault_shape sub e; rw [h]
@[simp] theorem State.fault_hmc (s : State) (sub : Nat) (e : ErrEntry) : (s.fault sub e).hmc = s.hmc := by
  obtain ⟨_, _, _, _, _, _, _, _, h⟩ := s.fault_shape sub e; rw [h]
@[simp] theorem State.fault_bsn (s : State) (sub : Nat) (e : ErrEntry) : (s.fault sub e).bsn = s.bsn := by
  obtain ⟨_, _, _, _, _, _, _, _, h⟩ := s.fault_shape sub e; rw [h]
@[simp] theorem State.fault_oca (s : State) (sub : Nat) (e : ErrEntry) : (s.fault sub e).oca = s.oca := by
  obtain ⟨_, _, _, _, _, _, _, _, h⟩ := s.fault_shape sub e; rw [h]
@[simp] theorem State.fault_amu (s : State) (sub : Nat) (e : ErrEntry) : (s.fault sub e).amu = s.amu := by
  obtain ⟨_, _, _, _, _, _, _, _, h⟩ := s.fault_shape sub e; rw [h]
@[simp] theorem State.fault_mgl (s : State) (sub : Nat) (e : ErrEntry) : (s.fault sub e).mgl = s.mgl := by
  obtain ⟨_, _, _, _, _, _, _, _, h⟩ := s.fault_shape sub e; rw [h]
@[simp] theorem State.fault_hal (s : State) (sub : Nat) (e : ErrEntry) : (s.fault sub e).hal = s.hal := by
  obtain ⟨_, _, _, _, _, _, _, _, h⟩ := s.fault_shape sub e; rw [h]
@[simp] theorem State.fault_cvc (s : State) (sub : Nat) (e : ErrEntry) : (s.fault sub e).cvc = s.cvc := by
  obtain ⟨_, _, _, _, _, _, _, _, h⟩ := s.fault_shape sub e; rw [h]
@[simp] theorem State.fault_dge (s : State) (sub : Nat) (e : ErrEntry) : (s.fault sub e).dge = s.dge := by
  obtain ⟨_, _, _, _, _, _, _, _, h⟩ := s.fault_shape sub e; rw [h]
@[simp] theorem State.fault_hostMem (s : State) (sub : Nat) (e : ErrEntry) : (s.fault sub e).hostMem = s.hostMem := by
  obtain ⟨_, _, _, _, _, _, _, _, h⟩ := s.fault_shape sub e; rw [h]
@[simp] theorem State.fault_hbm (s : State) (sub : Nat) (e : ErrEntry) : (s.fault sub e).hbm = s.hbm := by
  obtain ⟨_, _, _, _, _, _, _, _, h⟩ := s.fault_shape sub e; rw [h]
@[simp] theorem State.fault_pending (s : State) (sub : Nat) (e : ErrEntry) : (s.fault sub e).pending = s.pending := by
  obtain ⟨_, _, _, _, _, _, _, _, h⟩ := s.fault_shape sub e; rw [h]
@[simp] theorem State.fault_hif_linkUp (s : State) (sub : Nat) (e : ErrEntry) : (s.fault sub e).hif.linkUp = s.hif.linkUp := by
  obtain ⟨_, _, _, _, _, _, _, _, h⟩ := s.fault_shape sub e; rw [h]

/-! #### `notice` -/

theorem State.notice_shape (s : State) (sub : Nat) (unit : Nat) : ∃ (r : NMap Nat) (p : NMap Bool) (c : NMap Nat) (o : List Out) (q : Tsu) (l : NMap ErrEntry) (d : Store) (n : Nat),
    s.notice sub unit = { s with regs := r, out := o, tsu := q, errLog := l, store := d, draws := n, hif := { s.hif with pba := p, cfg := c } } := by
  exact s.fault_shape sub { s.entry sub 5 with unit := unit }
@[simp] theorem State.notice_board (s : State) (sub : Nat) (unit : Nat) : (s.notice sub unit).board = s.board := by
  obtain ⟨_, _, _, _, _, _, _, _, h⟩ := s.notice_shape sub unit; rw [h]
@[simp] theorem State.notice_clk (s : State) (sub : Nat) (unit : Nat) : (s.notice sub unit).clk = s.clk := by
  obtain ⟨_, _, _, _, _, _, _, _, h⟩ := s.notice_shape sub unit; rw [h]
@[simp] theorem State.notice_reef (s : State) (sub : Nat) (unit : Nat) : (s.notice sub unit).reef = s.reef := by
  obtain ⟨_, _, _, _, _, _, _, _, h⟩ := s.notice_shape sub unit; rw [h]
@[simp] theorem State.notice_darn (s : State) (sub : Nat) (unit : Nat) : (s.notice sub unit).darn = s.darn := by
  obtain ⟨_, _, _, _, _, _, _, _, h⟩ := s.notice_shape sub unit; rw [h]
@[simp] theorem State.notice_failedSubs (s : State) (sub : Nat) (unit : Nat) : (s.notice sub unit).failedSubs = s.failedSubs := by
  obtain ⟨_, _, _, _, _, _, _, _, h⟩ := s.notice_shape sub unit; rw [h]
@[simp] theorem State.notice_softPending (s : State) (sub : Nat) (unit : Nat) : (s.notice sub unit).softPending = s.softPending := by
  obtain ⟨_, _, _, _, _, _, _, _, h⟩ := s.notice_shape sub unit; rw [h]
@[simp] theorem State.notice_qmg (s : State) (sub : Nat) (unit : Nat) : (s.notice sub unit).qmg = s.qmg := by
  obtain ⟨_, _, _, _, _, _, _, _, h⟩ := s.notice_shape sub unit; rw [h]
@[simp] theorem State.notice_hmc (s : State) (sub : Nat) (unit : Nat) : (s.notice sub unit).hmc = s.hmc := by
  obtain ⟨_, _, _, _, _, _, _, _, h⟩ := s.notice_shape sub unit; rw [h]
@[simp] theorem State.notice_bsn (s : State) (sub : Nat) (unit : Nat) : (s.notice sub unit).bsn = s.bsn := by
  obtain ⟨_, _, _, _, _, _, _, _, h⟩ := s.notice_shape sub unit; rw [h]
@[simp] theorem State.notice_oca (s : State) (sub : Nat) (unit : Nat) : (s.notice sub unit).oca = s.oca := by
  obtain ⟨_, _, _, _, _, _, _, _, h⟩ := s.notice_shape sub unit; rw [h]
@[simp] theorem State.notice_amu (s : State) (sub : Nat) (unit : Nat) : (s.notice sub unit).amu = s.amu := by
  obtain ⟨_, _, _, _, _, _, _, _, h⟩ := s.notice_shape sub unit; rw [h]
@[simp] theorem State.notice_mgl (s : State) (sub : Nat) (unit : Nat) : (s.notice sub unit).mgl = s.mgl := by
  obtain ⟨_, _, _, _, _, _, _, _, h⟩ := s.notice_shape sub unit; rw [h]
@[simp] theorem State.notice_hal (s : State) (sub : Nat) (unit : Nat) : (s.notice sub unit).hal = s.hal := by
  obtain ⟨_, _, _, _, _, _, _, _, h⟩ := s.notice_shape sub unit; rw [h]
@[simp] theorem State.notice_cvc (s : State) (sub : Nat) (unit : Nat) : (s.notice sub unit).cvc = s.cvc := by
  obtain ⟨_, _, _, _, _, _, _, _, h⟩ := s.notice_shape sub unit; rw [h]
@[simp] theorem State.notice_dge (s : State) (sub : Nat) (unit : Nat) : (s.notice sub unit).dge = s.dge := by
  obtain ⟨_, _, _, _, _, _, _, _, h⟩ := s.notice_shape sub unit; rw [h]
@[simp] theorem State.notice_hostMem (s : State) (sub : Nat) (unit : Nat) : (s.notice sub unit).hostMem = s.hostMem := by
  obtain ⟨_, _, _, _, _, _, _, _, h⟩ := s.notice_shape sub unit; rw [h]
@[simp] theorem State.notice_hbm (s : State) (sub : Nat) (unit : Nat) : (s.notice sub unit).hbm = s.hbm := by
  obtain ⟨_, _, _, _, _, _, _, _, h⟩ := s.notice_shape sub unit; rw [h]
@[simp] theorem State.notice_pending (s : State) (sub : Nat) (unit : Nat) : (s.notice sub unit).pending = s.pending := by
  obtain ⟨_, _, _, _, _, _, _, _, h⟩ := s.notice_shape sub unit; rw [h]
@[simp] theorem State.notice_hif_linkUp (s : State) (sub : Nat) (unit : Nat) : (s.notice sub unit).hif.linkUp = s.hif.linkUp := by
  obtain ⟨_, _, _, _, _, _, _, _, h⟩ := s.notice_shape sub unit; rw [h]

end Sys2Proof.Machine
end

