-- ==== Sys2Proof/Laws/Registers.lean ====
section
/-! SUPPORT. Register fields: what a read answers after a write, and that a read depends on the register store alone. -/

namespace Sys2Proof.Machine

theorem State.rd_congr {s t : State} (h : t.regs = s.regs) (f : Field) (i : Nat) : t.rd f i = s.rd f i := by
  unfold State.rd; rw [h]

@[simp] theorem State.rd_wr_same (s : State) (f : Field) (i v : Nat) : (s.wr f i v).rd f i = lowBits f.len v := by
  simp [State.rd, State.wr]

theorem Field.key_ne {f g : Field} {i j : Nat} (hi : i < 65536) (hj : j < 65536) (h : f.id ≠ g.id ∨ i ≠ j) :
    f.key i ≠ g.key j := by
  unfold Field.key; omega

theorem State.rd_wr_key {s : State} {f g : Field} {i j v : Nat} (h : f.key i ≠ g.key j) :
    (s.wr f i v).rd g j = s.rd g j := by
  unfold State.rd State.wr
  exact getD_setD_other _ _ _ _ _ _ (Ne.symm h)

theorem State.rd_wr_other {s : State} {f g : Field} {i j v : Nat} (hi : i < 65536) (hj : j < 65536)
    (h : f.id ≠ g.id ∨ i ≠ j) : (s.wr f i v).rd g j = s.rd g j :=
  State.rd_wr_key (Field.key_ne hi hj h)

theorem lowBits_of_lt {n v : Nat} (h : v < 2 ^ n) : lowBits n v = v := Nat.mod_eq_of_lt h

theorem lowBits_lt (n v : Nat) : lowBits n v < 2 ^ n := Nat.mod_lt _ (Nat.two_pow_pos n)

@[simp] theorem State.rd_emit (s : State) (o : Out) (f : Field) (i : Nat) : (s.emit o).rd f i = s.rd f i := rfl
@[simp] theorem State.rd_drawn (s : State) (f : Field) (i : Nat) : s.drawn.rd f i = s.rd f i := rfl
@[simp] theorem State.rd_setCfg (s : State) (fn : Nat) (c : CfgItem) (v : Nat) (f : Field) (i : Nat) :
    (s.setCfg fn c v).rd f i = s.rd f i := rfl
@[simp] theorem State.rd_hostWrite (s : State) (a : Nat) (d : List Byte) (f : Field) (i : Nat) :
    (s.hostWrite a d).rd f i = s.rd f i := rfl
@[simp] theorem State.rd_message (s : State) (fn v : Nat) (f : Field) (i : Nat) : (s.message fn v).rd f i = s.rd f i :=
  State.rd_congr (s.message_regs fn v) f i
@[simp] theorem State.rd_kept (s u : State) (f : Field) (i : Nat) : (s.kept u).rd f i = u.rd f i := rfl
@[simp] theorem State.rd_queued (s u : State) (f : Field) (i : Nat) : (s.queued u).rd f i = u.rd f i := rfl

/-- The low `n` bits of a saturating sum: the sum, or the largest value. -/
theorem satAdd_lt (n v k : Nat) : satAdd n v k < 2 ^ n := by
  have := Nat.two_pow_pos n
  unfold satAdd; omega

theorem State.rd_bumpSat (s : State) (f : Field) (i k : Nat) :
    (s.bumpSat f i k).rd f i = satAdd f.len (s.rd f i) k := by
  simp [State.bumpSat, lowBits_of_lt, satAdd_lt]

end Sys2Proof.Machine
end

