-- ==== Sys2Proof/Laws/Reset.lean ====
section
/-! SUPPORT. What a change of reef level, a reset and a stop can reach (Machine/Reef.lean, Machine/Reset.lean). -/

namespace Sys2Proof.Machine

/-! ### Reef levels -/

/-- A requested divider waits for a boundary; nothing else changes (R68). -/
theorem State.requestDiv_eq (s : State) (d : Nat) : ∃ n, s.requestDiv d = { s with clk := { s.clk with divReq := some d, divAt := n } } :=
  ⟨_, rfl⟩

/-- What a new level reaches: the level's register and what `REEF_CHANGE` reaches, the divider requested with its
boundary, and the time of the change. -/
theorem State.setLevel_shape (s : State) (l : Nat) : ∃ r p o t n,
    s.setLevel l = { s with
      regs := r, out := o, tsu := t, hif := { s.hif with pba := p },
      reef := { s.reef with changedAt := s.clk.tsu },
      clk := { s.clk with divReq := some (levelDivider l), divAt := n } } := by
  unfold State.setLevel State.requestDiv
  simp only []
  obtain ⟨_, _, _, _, h⟩ := State.raise_shape ({ s.wr fPWR_REEF_STATUS_LEVEL 0 l with
      clk := { s.clk with divReq := some (levelDivider l), divAt := (s.clk.tsu / 2 + 1) * 2 % 2 ^ 64 },
      reef := { s.reef with changedAt := s.clk.tsu } } : State) 14 2
  exact ⟨_, _, _, _, _, h⟩

theorem State.setLevel_clk (s : State) (l : Nat) :
    ∃ n, (s.setLevel l).clk = { s.clk with divReq := some (levelDivider l), divAt := n } := by
  obtain ⟨_, _, _, _, n, h⟩ := s.setLevel_shape l; exact ⟨n, by rw [h]⟩

/-- Comparing the demands reaches what a new level reaches; the divider requested is that of a level. -/
theorem State.reefAgain_shape (s : State) : ∃ r p o t c x,
    s.reefAgain = { s with regs := r, out := o, tsu := t, clk := c, reef := { s.reef with changedAt := x }, hif := { s.hif with pba := p } } ∧
      (c = s.clk ∨ ∃ l n, c = { s.clk with divReq := some (levelDivider l), divAt := n }) := by
  unfold State.reefAgain
  split
  · obtain ⟨_, _, _, _, n, h⟩ := (s.wr fPWR_REEF_STATUS_STEPPING 0 0).setLevel_shape s.demand
    exact ⟨_, _, _, _, _, _, h, .inr ⟨_, _, rfl⟩⟩
  · exact ⟨_, _, _, _, _, s.reef.changedAt, rfl, .inl rfl⟩

theorem State.reefAgain_clk (s : State) :
    s.reefAgain.clk = s.clk ∨ ∃ l n, s.reefAgain.clk = { s.clk with divReq := some (levelDivider l), divAt := n } := by
  obtain ⟨_, _, _, _, c, _, h, k⟩ := s.reefAgain_shape
  rw [h]; exact k

@[simp] theorem State.reefAgain_board (s : State) : s.reefAgain.board = s.board := by
  obtain ⟨_, _, _, _, _, _, h, _⟩ := s.reefAgain_shape; rw [h]
@[simp] theorem State.reefAgain_store (s : State) : s.reefAgain.store = s.store := by
  obtain ⟨_, _, _, _, _, _, h, _⟩ := s.reefAgain_shape; rw [h]
@[simp] theorem State.reefAgain_pending (s : State) : s.reefAgain.pending = s.pending := by
  obtain ⟨_, _, _, _, _, _, h, _⟩ := s.reefAgain_shape; rw [h]
@[simp] theorem State.reefAgain_bsn (s : State) : s.reefAgain.bsn = s.bsn := by
  obtain ⟨_, _, _, _, _, _, h, _⟩ := s.reefAgain_shape; rw [h]
@[simp] theorem State.reefAgain_qmg (s : State) : s.reefAgain.qmg = s.qmg := by
  obtain ⟨_, _, _, _, _, _, h, _⟩ := s.reefAgain_shape; rw [h]
@[simp] theorem State.reefAgain_tick (s : State) : s.reefAgain.clk.tsu = s.clk.tsu := by
  obtain h | ⟨l, n, h⟩ := s.reefAgain_clk <;> rw [h]
@[simp] theorem State.reefAgain_div (s : State) : s.reefAgain.clk.div = s.clk.div := by
  obtain h | ⟨l, n, h⟩ := s.reefAgain_clk <;> rw [h]
@[simp] theorem State.reefAgain_now (s : State) : s.reefAgain.clk.now = s.clk.now := by
  obtain h | ⟨l, n, h⟩ := s.reefAgain_clk <;> rw [h]
@[simp] theorem State.reefAgain_assembled (s : State) : s.reefAgain.clk.assembled = s.clk.assembled := by
  obtain h | ⟨l, n, h⟩ := s.reefAgain_clk <;> rw [h]

@[simp] theorem State.reefNow_board (s : State) : s.reefNow.board = s.board := by
  unfold State.reefNow; split <;> simp
@[simp] theorem State.reefNow_pending (s : State) : s.reefNow.pending = s.pending := by
  unfold State.reefNow; split <;> simp

/-- The causes that persist are raised again: of the rest of the state only what `ALERT` reaches changes (R55). -/
theorem State.alertsAgain_shape (s : State) : ∃ r p o t,
    s.alertsAgain = { s with regs := r, out := o, tsu := t, hif := { s.hif with pba := p } } := by
  have go : ∀ (l : List (Field × Field)) (u : State), ∃ r p o t,
      l.foldl (fun (s : State) q => s.alertAgain q.1) u = { u with regs := r, out := o, tsu := t, hif := { u.hif with pba := p } } := by
    intro l
    induction l with
    | nil => exact fun u => ⟨u.regs, u.hif.pba, u.out, u.tsu, rfl⟩
    | cons q l ih =>
      intro u
      have one : ∃ r p o t, u.alertAgain q.1 = { u with regs := r, out := o, tsu := t, hif := { u.hif with pba := p } } := by
        unfold State.alertAgain
        split
        · exact u.alert_shape q.1
        · exact ⟨u.regs, u.hif.pba, u.out, u.tsu, rfl⟩
      obtain ⟨r, p, o, t, h⟩ := one
      obtain ⟨r', p', o', t', k⟩ := ih (u.alertAgain q.1)
      exact ⟨r', p', o', t', by rw [List.foldl_cons, k, h]⟩
  exact go alertFields s

@[simp] theorem State.alertsAgain_board (s : State) : s.alertsAgain.board = s.board := by
  obtain ⟨_, _, _, _, h⟩ := s.alertsAgain_shape; rw [h]
@[simp] theorem State.alertsAgain_clk (s : State) : s.alertsAgain.clk = s.clk := by
  obtain ⟨_, _, _, _, h⟩ := s.alertsAgain_shape; rw [h]
@[simp] theorem State.alertsAgain_store (s : State) : s.alertsAgain.store = s.store := by
  obtain ⟨_, _, _, _, h⟩ := s.alertsAgain_shape; rw [h]
@[simp] theorem State.alertsAgain_bsn (s : State) : s.alertsAgain.bsn = s.bsn := by
  obtain ⟨_, _, _, _, h⟩ := s.alertsAgain_shape; rw [h]
@[simp] theorem State.alertsAgain_qmg (s : State) : s.alertsAgain.qmg = s.qmg := by
  obtain ⟨_, _, _, _, h⟩ := s.alertsAgain_shape; rw [h]

/-- Of the reef state it changes only when the level last changed. -/
theorem State.reefAgain_reef (s : State) : ∃ n, s.reefAgain.reef = { s.reef with changedAt := n } := by
  obtain ⟨_, _, _, _, _, x, h, _⟩ := s.reefAgain_shape; exact ⟨x, by rw [h]⟩

/-! ### Folds that leave a part of the state alone -/

/-- A fold of steps that each leave `f` alone leaves it alone. -/
theorem foldl_keeps {α β : Type} (f : State → β) (g : State → α → State) (h : ∀ s a, f (g s a) = f s) (l : List α)
    (s : State) : f (l.foldl g s) = f s := by
  induction l generalizing s with
  | nil => rfl
  | cons a l ih => exact (ih _).trans (h s a)

theorem State.applyRows_keeps {β : Type} (f : State → β) (h1 : ∀ (s : State) r, f (s.history 7 1 0xFFFF r 0xFFFF 0) = f s)
    (h2 : ∀ (s : State) k, f { s.bumpSat fDRN_SRAM_APPLIED 0 k with darn := { (s.bumpSat fDRN_SRAM_APPLIED 0 k).darn with sramRows := [] } } = f s)
    (s : State) : f s.applyRows = f s :=
  (foldl_keeps f _ (fun s _ => h1 s _) _ _).trans (h2 s _)

theorem State.railPowers_reef (s : State) : s.railPowers.reef = s.reef := by
  unfold State.railPowers; apply foldl_keeps; intros; rfl

@[simp] theorem State.applyRows_board (s : State) : s.applyRows.board = s.board :=
  s.applyRows_keeps _ (fun _ _ => rfl) (fun _ _ => rfl)
@[simp] theorem State.applyRows_clk (s : State) : s.applyRows.clk = s.clk :=
  s.applyRows_keeps _ (fun _ _ => rfl) (fun _ _ => rfl)
@[simp] theorem State.applyRows_store (s : State) : s.applyRows.store = s.store :=
  s.applyRows_keeps _ (fun _ _ => rfl) (fun _ _ => rfl)
@[simp] theorem State.applyRows_qmg (s : State) : s.applyRows.qmg = s.qmg :=
  s.applyRows_keeps _ (fun _ _ => rfl) (fun _ _ => rfl)
@[simp] theorem State.applyRows_bsn (s : State) : s.applyRows.bsn = s.bsn :=
  s.applyRows_keeps _ (fun _ _ => rfl) (fun _ _ => rfl)
@[simp] theorem State.applyRows_oca (s : State) : s.applyRows.oca = s.oca :=
  s.applyRows_keeps _ (fun _ _ => rfl) (fun _ _ => rfl)
@[simp] theorem State.applyRows_hbm (s : State) : s.applyRows.hbm = s.hbm :=
  s.applyRows_keeps _ (fun _ _ => rfl) (fun _ _ => rfl)
@[simp] theorem State.applyRows_pending (s : State) : s.applyRows.pending = s.pending :=
  s.applyRows_keeps _ (fun _ _ => rfl) (fun _ _ => rfl)

/-! ### Stops -/

@[simp] theorem State.shutDrives_board (s : State) (n : Nat) : (s.shutDrives n).board = s.board := by
  unfold State.shutDrives; apply foldl_keeps; intros; rfl
@[simp] theorem State.shutDrives_clk (s : State) (n : Nat) : (s.shutDrives n).clk = s.clk := by
  unfold State.shutDrives; apply foldl_keeps; intros; rfl
@[simp] theorem State.shutDrives_store (s : State) (n : Nat) : (s.shutDrives n).store = s.store := by
  unfold State.shutDrives; apply foldl_keeps; intros; rfl
@[simp] theorem State.shutDrives_pending (s : State) (n : Nat) : (s.shutDrives n).pending = s.pending := by
  unfold State.shutDrives; apply foldl_keeps; intros; rfl

/-- With the rails off the module is off, without `PWR_GOOD`, and the cause is latched and stored (R33, R52). -/
theorem State.railsOff_off (s : State) (cause : Nat) :
    (s.railsOff cause).board.phase = .off ∧ (s.railsOff cause).board.pwrGood = false ∧
      (s.railsOff cause).board.stopLatch = cause ∧ (s.railsOff cause).store.lastStop = cause := by
  simp only [State.railsOff]
  split <;> exact ⟨rfl, rfl, rfl, rfl⟩

/-- Removing the rails leaves the records of the stop, the pins that the board drives and the waiting commands. -/
theorem State.railsOff_keeps (s : State) (cause : Nat) :
    (s.railsOff cause).store.powerLoss = s.store.powerLoss ∧ (s.railsOff cause).store.lastRec = s.store.lastRec ∧
      (s.railsOff cause).board.pwrEn = s.board.pwrEn ∧ (s.railsOff cause).pending = s.pending ∧
      (s.railsOff cause).clk = { Clocks.reset with now := s.clk.now } := by
  simp only [State.railsOff]
  split <;> exact ⟨rfl, rfl, rfl, rfl, rfl⟩

/-- The orderly stop ends with the rails off; its record, from step 2 on, is what the next assembly finds (R50, R51). -/
theorem State.orderlyStop_record (s : State) (cause steps f d : Nat) (h : 2 ≤ steps) :
    (s.orderlyStop cause steps f d).store.powerLoss = some (s.stopRecord 1 cause steps f d) := by
  simp only [State.orderlyStop, if_pos h]
  rw [(State.railsOff_keeps _ _).1]
  split <;> simp [State.leaveRecord]

theorem State.orderlyStop_pwrEn (s : State) (cause steps f d : Nat) :
    (s.orderlyStop cause steps f d).board.pwrEn = s.board.pwrEn := by
  simp only [State.orderlyStop]
  rw [(State.railsOff_keeps _ _).2.2.1]
  split <;> split <;> simp [State.leaveRecord]

theorem State.orderlyStop_off (s : State) (cause steps f d : Nat) :
    (s.orderlyStop cause steps f d).board.phase = .off ∧ (s.orderlyStop cause steps f d).board.pwrGood = false ∧
      (s.orderlyStop cause steps f d).board.stopLatch = cause ∧ (s.orderlyStop cause steps f d).store.lastStop = cause :=
  State.railsOff_off _ _

/-! ### Cold and warm reset -/

theorem find_filter_key {α : Type} (m : NMap α) (p : Nat → Bool) (k : Nat) :
    find (m.filter (fun kv => p kv.1)) k = if p k then find m k else none := by
  induction m with
  | nil => simp [find]
  | cons kv m ih =>
    by_cases h : kv.1 = k
    · subst h
      cases hp : p kv.1
      · rw [List.filter_cons_of_neg (by simp [hp]), ih, hp]; rfl
      · rw [List.filter_cons_of_pos (by simp [hp])]; simp [find]
    · cases hp : p kv.1
      · rw [List.filter_cons_of_neg (by simp [hp]), ih]; simp [find, Ne.symm h]
      · rw [List.filter_cons_of_pos (by simp [hp])]; simp [find, Ne.symm h, ih]

/-- The main reset keeps the fields that it is told to keep (R9, R72). -/
theorem State.rd_mainReset (s : State) {ks : List Field} (n : Nat) {f : Field} {i : Nat} (h : f ∈ ks) (hi : i < 65536) :
    (s.mainReset ks n).rd f i = s.rd f i := by
  show getD _ (keepRegs ks s.regs) _ = _
  have e : find (keepRegs ks s.regs) (f.key i) = find s.regs (f.key i) := by
    unfold keepRegs
    rw [find_filter_key s.regs (fun k => (ks.map Field.id).contains (k / 65536)), if_pos]
    rw [show f.key i / 65536 = f.id by unfold Field.key; omega]
    simp only [List.contains_eq_mem, List.mem_map, decide_eq_true_eq]
    exact ⟨f, h, rfl⟩
  unfold State.rd getD
  rw [e]

@[simp] theorem State.warmClear_clk (s : State) : s.warmClear.clk = s.clk := by
  simp [State.warmClear, State.newDeviceKey, State.mainReset]

theorem State.startWarm_new (s : State) (cause : Field) (h : s.board.phase ≠ .warm) :
    (s.startWarm cause).board.phase = .warm ∧ (s.startWarm cause).clk.warmAt = s.clk.tsu ∧
      (s.startWarm cause).clk.held = false := by
  simp [State.startWarm, h, State.quiesced, State.offClock]

/-- A reset condition leaves the device in a warm reset with its cause set (R71, R73). -/
theorem State.startWarm_phase (s : State) (cause : Field) : (s.startWarm cause).board.phase = .warm := by
  unfold State.startWarm; split <;> simp_all

theorem State.startWarm_cause (s : State) (cause : Field) : (s.startWarm cause).rd cause 0 = lowBits cause.len 1 := by
  unfold State.startWarm
  split
  · exact (State.rd_congr (s := s.wr cause 0 1) rfl cause 0).trans (State.rd_wr_same _ _ _ _)
  · exact (State.rd_congr (s := s.quiesced.wr cause 0 1) rfl cause 0).trans (State.rd_wr_same _ _ _ _)

/-- Starting a warm reset changes of the board only the phase. -/
theorem State.startWarm_board (s : State) (cause : Field) : (s.startWarm cause).board = { s.board with phase := .warm } := by
  unfold State.startWarm
  split
  · next h => show s.board = _; rw [← h]
  · rfl

/-- Starting a warm reset leaves the pins. -/
theorem State.startWarm_perst (s : State) (cause : Field) : (s.startWarm cause).board.perstN = s.board.perstN := by
  unfold State.startWarm; split <;> rfl

/-- A warm reset starts, or goes on; of the clock root it changes when it started and whether it waits. -/
theorem State.startWarm_clk (s : State) (cause : Field) :
    ∃ h w, (s.startWarm cause).clk = { s.clk with held := h, warmAt := w } := by
  unfold State.startWarm
  split
  · exact ⟨true, s.clk.warmAt, rfl⟩
  · exact ⟨false, s.clk.tsu, by simp [State.quiesced, State.offClock]⟩

end Sys2Proof.Machine
end

