-- ==== Sys2Proof/Laws/Wear.lean ====
section
/-! SUPPORT. What wear counts, marks and the swap history can reach (Machine/Wear.lean). -/

namespace Sys2Proof.Machine


/-! #### `history` -/

@[simp] theorem State.history_board (s : State) (kind : Nat) (cause : Nat) (logical : Nat) (old : Nat) (new : Nat) (detail : Nat) : (s.history kind cause logical old new detail).board = s.board := rfl
@[simp] theorem State.history_clk (s : State) (kind : Nat) (cause : Nat) (logical : Nat) (old : Nat) (new : Nat) (detail : Nat) : (s.history kind cause logical old new detail).clk = s.clk := rfl
@[simp] theorem State.history_hif (s : State) (kind : Nat) (cause : Nat) (logical : Nat) (old : Nat) (new : Nat) (detail : Nat) : (s.history kind cause logical old new detail).hif = s.hif := rfl
@[simp] theorem State.history_tsu (s : State) (kind : Nat) (cause : Nat) (logical : Nat) (old : Nat) (new : Nat) (detail : Nat) : (s.history kind cause logical old new detail).tsu = s.tsu := rfl
@[simp] theorem State.history_reef (s : State) (kind : Nat) (cause : Nat) (logical : Nat) (old : Nat) (new : Nat) (detail : Nat) : (s.history kind cause logical old new detail).reef = s.reef := rfl
@[simp] theorem State.history_store (s : State) (kind : Nat) (cause : Nat) (logical : Nat) (old : Nat) (new : Nat) (detail : Nat) : (s.history kind cause logical old new detail).store = s.store := rfl
@[simp] theorem State.history_errLog (s : State) (kind : Nat) (cause : Nat) (logical : Nat) (old : Nat) (new : Nat) (detail : Nat) : (s.history kind cause logical old new detail).errLog = s.errLog := rfl
@[simp] theorem State.history_failedSubs (s : State) (kind : Nat) (cause : Nat) (logical : Nat) (old : Nat) (new : Nat) (detail : Nat) : (s.history kind cause logical old new detail).failedSubs = s.failedSubs := rfl
@[simp] theorem State.history_softPending (s : State) (kind : Nat) (cause : Nat) (logical : Nat) (old : Nat) (new : Nat) (detail : Nat) : (s.history kind cause logical old new detail).softPending = s.softPending := rfl
@[simp] theorem State.history_qmg (s : State) (kind : Nat) (cause : Nat) (logical : Nat) (old : Nat) (new : Nat) (detail : Nat) : (s.history kind cause logical old new detail).qmg = s.qmg := rfl
@[simp] theorem State.history_hmc (s : State) (kind : Nat) (cause : Nat) (logical : Nat) (old : Nat) (new : Nat) (detail : Nat) : (s.history kind cause logical old new detail).hmc = s.hmc := rfl
@[simp] theorem State.history_bsn (s : State) (kind : Nat) (cause : Nat) (logical : Nat) (old : Nat) (new : Nat) (detail : Nat) : (s.history kind cause logical old new detail).bsn = s.bsn := rfl
@[simp] theorem State.history_oca (s : State) (kind : Nat) (cause : Nat) (logical : Nat) (old : Nat) (new : Nat) (detail : Nat) : (s.history kind cause logical old new detail).oca = s.oca := rfl
@[simp] theorem State.history_amu (s : State) (kind : Nat) (cause : Nat) (logical : Nat) (old : Nat) (new : Nat) (detail : Nat) : (s.history kind cause logical old new detail).amu = s.amu := rfl
@[simp] theorem State.history_mgl (s : State) (kind : Nat) (cause : Nat) (logical : Nat) (old : Nat) (new : Nat) (detail : Nat) : (s.history kind cause logical old new detail).mgl = s.mgl := rfl
@[simp] theorem State.history_hal (s : State) (kind : Nat) (cause : Nat) (logical : Nat) (old : Nat) (new : Nat) (detail : Nat) : (s.history kind cause logical old new detail).hal = s.hal := rfl
@[simp] theorem State.history_cvc (s : State) (kind : Nat) (cause : Nat) (logical : Nat) (old : Nat) (new : Nat) (detail : Nat) : (s.history kind cause logical old new detail).cvc = s.cvc := rfl
@[simp] theorem State.history_dge (s : State) (kind : Nat) (cause : Nat) (logical : Nat) (old : Nat) (new : Nat) (detail : Nat) : (s.history kind cause logical old new detail).dge = s.dge := rfl
@[simp] theorem State.history_hostMem (s : State) (kind : Nat) (cause : Nat) (logical : Nat) (old : Nat) (new : Nat) (detail : Nat) : (s.history kind cause logical old new detail).hostMem = s.hostMem := rfl
@[simp] theorem State.history_hbm (s : State) (kind : Nat) (cause : Nat) (logical : Nat) (old : Nat) (new : Nat) (detail : Nat) : (s.history kind cause logical old new detail).hbm = s.hbm := rfl
@[simp] theorem State.history_out (s : State) (kind : Nat) (cause : Nat) (logical : Nat) (old : Nat) (new : Nat) (detail : Nat) : (s.history kind cause logical old new detail).out = s.out := rfl
@[simp] theorem State.history_draws (s : State) (kind : Nat) (cause : Nat) (logical : Nat) (old : Nat) (new : Nat) (detail : Nat) : (s.history kind cause logical old new detail).draws = s.draws := rfl
@[simp] theorem State.history_pending (s : State) (kind : Nat) (cause : Nat) (logical : Nat) (old : Nat) (new : Nat) (detail : Nat) : (s.history kind cause logical old new detail).pending = s.pending := rfl

/-! #### `mark` -/

theorem State.mark_shape (s : State) (kind : Nat) (unit : Nat) (cause : Nat) : ∃ (r : NMap Nat) (p : NMap Bool) (o : List Out) (q : Tsu) (w : Darn),
    s.mark kind unit cause = { s with regs := r, out := o, tsu := q, darn := w, hif := { s.hif with pba := p } } := by
  have base : ∀ u : State, (∃ r, u = { s with regs := r }) → ∃ r p o t w,
      (if s.setting fDRN_POLICY_AUTO 0 = 0 ∧ cause ≠ 3 then (u.wr fDRN_SWAP_STATUS_LAST_RESULT 0 3).raise 15 2
        else { u with darn := { u.darn with marks := insertMark ⟨kind, unit, cause, 0, u.clk.tsu⟩ u.darn.marks } }) =
      { s with regs := r, out := o, tsu := t, darn := w, hif := { s.hif with pba := p } } := by
    rintro u ⟨r, rfl⟩
    split
    · obtain ⟨_, _, _, _, h⟩ := State.raise_shape (State.wr { s with regs := r } fDRN_SWAP_STATUS_LAST_RESULT 0 3) 15 2
      rw [h]; exact ⟨_, _, _, _, _, rfl⟩
    · exact ⟨_, _, _, _, _, rfl⟩
  unfold State.mark
  split
  · exact ⟨_, _, _, _, _, rfl⟩
  · refine base _ ?_
    split <;> exact ⟨_, rfl⟩
@[simp] theorem State.mark_board (s : State) (kind : Nat) (unit : Nat) (cause : Nat) : (s.mark kind unit cause).board = s.board := by
  obtain ⟨_, _, _, _, _, h⟩ := s.mark_shape kind unit cause; rw [h]
@[simp] theorem State.mark_clk (s : State) (kind : Nat) (unit : Nat) (cause : Nat) : (s.mark kind unit cause).clk = s.clk := by
  obtain ⟨_, _, _, _, _, h⟩ := s.mark_shape kind unit cause; rw [h]
@[simp] theorem State.mark_reef (s : State) (kind : Nat) (unit : Nat) (cause : Nat) : (s.mark kind unit cause).reef = s.reef := by
  obtain ⟨_, _, _, _, _, h⟩ := s.mark_shape kind unit cause; rw [h]
@[simp] theorem State.mark_store (s : State) (kind : Nat) (unit : Nat) (cause : Nat) : (s.mark kind unit cause).store = s.store := by
  obtain ⟨_, _, _, _, _, h⟩ := s.mark_shape kind unit cause; rw [h]
@[simp] theorem State.mark_errLog (s : State) (kind : Nat) (unit : Nat) (cause : Nat) : (s.mark kind unit cause).errLog = s.errLog := by
  obtain ⟨_, _, _, _, _, h⟩ := s.mark_shape kind unit cause; rw [h]
@[simp] theorem State.mark_failedSubs (s : State) (kind : Nat) (unit : Nat) (cause : Nat) : (s.mark kind unit cause).failedSubs = s.failedSubs := by
  obtain ⟨_, _, _, _, _, h⟩ := s.mark_shape kind unit cause; rw [h]
@[simp] theorem State.mark_softPending (s : State) (kind : Nat) (unit : Nat) (cause : Nat) : (s.mark kind unit cause).softPending = s.softPending := by
  obtain ⟨_, _, _, _, _, h⟩ := s.mark_shape kind unit cause; rw [h]
@[simp] theorem State.mark_qmg (s : State) (kind : Nat) (unit : Nat) (cause : Nat) : (s.mark kind unit cause).qmg = s.qmg := by
  obtain ⟨_, _, _, _, _, h⟩ := s.mark_shape kind unit cause; rw [h]
@[simp] theorem State.mark_hmc (s : State) (kind : Nat) (unit : Nat) (cause : Nat) : (s.mark kind unit cause).hmc = s.hmc := by
  obtain ⟨_, _, _, _, _, h⟩ := s.mark_shape kind unit cause; rw [h]
@[simp] theorem State.mark_bsn (s : State) (kind : Nat) (unit : Nat) (cause : Nat) : (s.mark kind unit cause).bsn = s.bsn := by
  obtain ⟨_, _, _, _, _, h⟩ := s.mark_shape kind unit cause; rw [h]
@[simp] theorem State.mark_oca (s : State) (kind : Nat) (unit : Nat) (cause : Nat) : (s.mark kind unit cause).oca = s.oca := by
  obtain ⟨_, _, _, _, _, h⟩ := s.mark_shape kind unit cause; rw [h]
@[simp] theorem State.mark_amu (s : State) (kind : Nat) (unit : Nat) (cause : Nat) : (s.mark kind unit cause).amu = s.amu := by
  obtain ⟨_, _, _, _, _, h⟩ := s.mark_shape kind unit cause; rw [h]
@[simp] theorem State.mark_mgl (s : State) (kind : Nat) (unit : Nat) (cause : Nat) : (s.mark kind unit cause).mgl = s.mgl := by
  obtain ⟨_, _, _, _, _, h⟩ := s.mark_shape kind unit cause; rw [h]
@[simp] theorem State.mark_hal (s : State) (kind : Nat) (unit : Nat) (cause : Nat) : (s.mark kind unit cause).hal = s.hal := by
  obtain ⟨_, _, _, _, _, h⟩ := s.mark_shape kind unit cause; rw [h]
@[simp] theorem State.mark_cvc (s : State) (kind : Nat) (unit : Nat) (cause : Nat) : (s.mark kind unit cause).cvc = s.cvc := by
  obtain ⟨_, _, _, _, _, h⟩ := s.mark_shape kind unit cause; rw [h]
@[simp] theorem State.mark_dge (s : State) (kind : Nat) (unit : Nat) (cause : Nat) : (s.mark kind unit cause).dge = s.dge := by
  obtain ⟨_, _, _, _, _, h⟩ := s.mark_shape kind unit cause; rw [h]
@[simp] theorem State.mark_hostMem (s : State) (kind : Nat) (unit : Nat) (cause : Nat) : (s.mark kind unit cause).hostMem = s.hostMem := by
  obtain ⟨_, _, _, _, _, h⟩ := s.mark_shape kind unit cause; rw [h]
@[simp] theorem State.mark_hbm (s : State) (kind : Nat) (unit : Nat) (cause : Nat) : (s.mark kind unit cause).hbm = s.hbm := by
  obtain ⟨_, _, _, _, _, h⟩ := s.mark_shape kind unit cause; rw [h]
@[simp] theorem State.mark_draws (s : State) (kind : Nat) (unit : Nat) (cause : Nat) : (s.mark kind unit cause).draws = s.draws := by
  obtain ⟨_, _, _, _, _, h⟩ := s.mark_shape kind unit cause; rw [h]
@[simp] theorem State.mark_pending (s : State) (kind : Nat) (unit : Nat) (cause : Nat) : (s.mark kind unit cause).pending = s.pending := by
  obtain ⟨_, _, _, _, _, h⟩ := s.mark_shape kind unit cause; rw [h]
@[simp] theorem State.mark_hif_linkUp (s : State) (kind : Nat) (unit : Nat) (cause : Nat) : (s.mark kind unit cause).hif.linkUp = s.hif.linkUp := by
  obtain ⟨_, _, _, _, _, h⟩ := s.mark_shape kind unit cause; rw [h]

/-! #### `swapEnds` -/

theorem State.swapEnds_shape (s : State) (kind : Nat) (unit : Nat) (result : Nat) : ∃ (r : NMap Nat) (p : NMap Bool) (o : List Out) (q : Tsu),
    s.swapEnds kind unit result = { s with regs := r, out := o, tsu := q, hif := { s.hif with pba := p } } := by
  have base : ∀ u : State, (∃ r, u = { s with regs := r }) → ∃ r p o t,
      (u.wr fDRN_SWAP_STATUS_LAST_RESULT 0 result).raise 15 2 =
        { s with regs := r, out := o, tsu := t, hif := { s.hif with pba := p } } := by
    rintro u ⟨r, rfl⟩
    obtain ⟨_, _, _, _, h⟩ := State.raise_shape (State.wr { s with regs := r } fDRN_SWAP_STATUS_LAST_RESULT 0 result) 15 2
    rw [h]; exact ⟨_, _, _, _, rfl⟩
  refine base _ ?_
  split <;> exact ⟨_, rfl⟩
@[simp] theorem State.swapEnds_board (s : State) (kind : Nat) (unit : Nat) (result : Nat) : (s.swapEnds kind unit result).board = s.board := by
  obtain ⟨_, _, _, _, h⟩ := s.swapEnds_shape kind unit result; rw [h]
@[simp] theorem State.swapEnds_clk (s : State) (kind : Nat) (unit : Nat) (result : Nat) : (s.swapEnds kind unit result).clk = s.clk := by
  obtain ⟨_, _, _, _, h⟩ := s.swapEnds_shape kind unit result; rw [h]
@[simp] theorem State.swapEnds_reef (s : State) (kind : Nat) (unit : Nat) (result : Nat) : (s.swapEnds kind unit result).reef = s.reef := by
  obtain ⟨_, _, _, _, h⟩ := s.swapEnds_shape kind unit result; rw [h]
@[simp] theorem State.swapEnds_darn (s : State) (kind : Nat) (unit : Nat) (result : Nat) : (s.swapEnds kind unit result).darn = s.darn := by
  obtain ⟨_, _, _, _, h⟩ := s.swapEnds_shape kind unit result; rw [h]
@[simp] theorem State.swapEnds_store (s : State) (kind : Nat) (unit : Nat) (result : Nat) : (s.swapEnds kind unit result).store = s.store := by
  obtain ⟨_, _, _, _, h⟩ := s.swapEnds_shape kind unit result; rw [h]
@[simp] theorem State.swapEnds_errLog (s : State) (kind : Nat) (unit : Nat) (result : Nat) : (s.swapEnds kind unit result).errLog = s.errLog := by
  obtain ⟨_, _, _, _, h⟩ := s.swapEnds_shape kind unit result; rw [h]
@[simp] theorem State.swapEnds_failedSubs (s : State) (kind : Nat) (unit : Nat) (result : Nat) : (s.swapEnds kind unit result).failedSubs = s.failedSubs := by
  obtain ⟨_, _, _, _, h⟩ := s.swapEnds_shape kind unit result; rw [h]
@[simp] theorem State.swapEnds_softPending (s : State) (kind : Nat) (unit : Nat) (result : Nat) : (s.swapEnds kind unit result).softPending = s.softPending := by
  obtain ⟨_, _, _, _, h⟩ := s.swapEnds_shape kind unit result; rw [h]
@[simp] theorem State.swapEnds_qmg (s : State) (kind : Nat) (unit : Nat) (result : Nat) : (s.swapEnds kind unit result).qmg = s.qmg := by
  obtain ⟨_, _, _, _, h⟩ := s.swapEnds_shape kind unit result; rw [h]
@[simp] theorem State.swapEnds_hmc (s : State) (kind : Nat) (unit : Nat) (result : Nat) : (s.swapEnds kind unit result).hmc = s.hmc := by
  obtain ⟨_, _, _, _, h⟩ := s.swapEnds_shape kind unit result; rw [h]
@[simp] theorem State.swapEnds_bsn (s : State) (kind : Nat) (unit : Nat) (result : Nat) : (s.swapEnds kind unit result).bsn = s.bsn := by
  obtain ⟨_, _, _, _, h⟩ := s.swapEnds_shape kind unit result; rw [h]
@[simp] theorem State.swapEnds_oca (s : State) (kind : Nat) (unit : Nat) (result : Nat) : (s.swapEnds kind unit result).oca = s.oca := by
  obtain ⟨_, _, _, _, h⟩ := s.swapEnds_shape kind unit result; rw [h]
@[simp] theorem State.swapEnds_amu (s : State) (kind : Nat) (unit : Nat) (result : Nat) : (s.swapEnds kind unit result).amu = s.amu := by
  obtain ⟨_, _, _, _, h⟩ := s.swapEnds_shape kind unit result; rw [h]
@[simp] theorem State.swapEnds_mgl (s : State) (kind : Nat) (unit : Nat) (result : Nat) : (s.swapEnds kind unit result).mgl = s.mgl := by
  obtain ⟨_, _, _, _, h⟩ := s.swapEnds_shape kind unit result; rw [h]
@[simp] theorem State.swapEnds_hal (s : State) (kind : Nat) (unit : Nat) (result : Nat) : (s.swapEnds kind unit result).hal = s.hal := by
  obtain ⟨_, _, _, _, h⟩ := s.swapEnds_shape kind unit result; rw [h]
@[simp] theorem State.swapEnds_cvc (s : State) (kind : Nat) (unit : Nat) (result : Nat) : (s.swapEnds kind unit result).cvc = s.cvc := by
  obtain ⟨_, _, _, _, h⟩ := s.swapEnds_shape kind unit result; rw [h]
@[simp] theorem State.swapEnds_dge (s : State) (kind : Nat) (unit : Nat) (result : Nat) : (s.swapEnds kind unit result).dge = s.dge := by
  obtain ⟨_, _, _, _, h⟩ := s.swapEnds_shape kind unit result; rw [h]
@[simp] theorem State.swapEnds_hostMem (s : State) (kind : Nat) (unit : Nat) (result : Nat) : (s.swapEnds kind unit result).hostMem = s.hostMem := by
  obtain ⟨_, _, _, _, h⟩ := s.swapEnds_shape kind unit result; rw [h]
@[simp] theorem State.swapEnds_hbm (s : State) (kind : Nat) (unit : Nat) (result : Nat) : (s.swapEnds kind unit result).hbm = s.hbm := by
  obtain ⟨_, _, _, _, h⟩ := s.swapEnds_shape kind unit result; rw [h]
@[simp] theorem State.swapEnds_draws (s : State) (kind : Nat) (unit : Nat) (result : Nat) : (s.swapEnds kind unit result).draws = s.draws := by
  obtain ⟨_, _, _, _, h⟩ := s.swapEnds_shape kind unit result; rw [h]
@[simp] theorem State.swapEnds_pending (s : State) (kind : Nat) (unit : Nat) (result : Nat) : (s.swapEnds kind unit result).pending = s.pending := by
  obtain ⟨_, _, _, _, h⟩ := s.swapEnds_shape kind unit result; rw [h]
@[simp] theorem State.swapEnds_hif_linkUp (s : State) (kind : Nat) (unit : Nat) (result : Nat) : (s.swapEnds kind unit result).hif.linkUp = s.hif.linkUp := by
  obtain ⟨_, _, _, _, h⟩ := s.swapEnds_shape kind unit result; rw [h]

/-! #### `sramCorrected` -/

theorem State.sramCorrected_shape (s : State) (unit : Nat) : ∃ (r : NMap Nat) (w : Darn) (n : Nat),
    s.sramCorrected unit = { s with regs := r, darn := w, draws := n } := by
  unfold State.sramCorrected
  simp only []
  split <;> exact ⟨_, _, _, rfl⟩
@[simp] theorem State.sramCorrected_board (s : State) (unit : Nat) : (s.sramCorrected unit).board = s.board := by
  obtain ⟨_, _, _, h⟩ := s.sramCorrected_shape unit; rw [h]
@[simp] theorem State.sramCorrected_clk (s : State) (unit : Nat) : (s.sramCorrected unit).clk = s.clk := by
  obtain ⟨_, _, _, h⟩ := s.sramCorrected_shape unit; rw [h]
@[simp] theorem State.sramCorrected_hif (s : State) (unit : Nat) : (s.sramCorrected unit).hif = s.hif := by
  obtain ⟨_, _, _, h⟩ := s.sramCorrected_shape unit; rw [h]
@[simp] theorem State.sramCorrected_tsu (s : State) (unit : Nat) : (s.sramCorrected unit).tsu = s.tsu := by
  obtain ⟨_, _, _, h⟩ := s.sramCorrected_shape unit; rw [h]
@[simp] theorem State.sramCorrected_reef (s : State) (unit : Nat) : (s.sramCorrected unit).reef = s.reef := by
  obtain ⟨_, _, _, h⟩ := s.sramCorrected_shape unit; rw [h]
@[simp] theorem State.sramCorrected_store (s : State) (unit : Nat) : (s.sramCorrected unit).store = s.store := by
  obtain ⟨_, _, _, h⟩ := s.sramCorrected_shape unit; rw [h]
@[simp] theorem State.sramCorrected_errLog (s : State) (unit : Nat) : (s.sramCorrected unit).errLog = s.errLog := by
  obtain ⟨_, _, _, h⟩ := s.sramCorrected_shape unit; rw [h]
@[simp] theorem State.sramCorrected_failedSubs (s : State) (unit : Nat) : (s.sramCorrected unit).failedSubs = s.failedSubs := by
  obtain ⟨_, _, _, h⟩ := s.sramCorrected_shape unit; rw [h]
@[simp] theorem State.sramCorrected_softPending (s : State) (unit : Nat) : (s.sramCorrected unit).softPending = s.softPending := by
  obtain ⟨_, _, _, h⟩ := s.sramCorrected_shape unit; rw [h]
@[simp] theorem State.sramCorrected_qmg (s : State) (unit : Nat) : (s.sramCorrected unit).qmg = s.qmg := by
  obtain ⟨_, _, _, h⟩ := s.sramCorrected_shape unit; rw [h]
@[simp] theorem State.sramCorrected_hmc (s : State) (unit : Nat) : (s.sramCorrected unit).hmc = s.hmc := by
  obtain ⟨_, _, _, h⟩ := s.sramCorrected_shape unit; rw [h]
@[simp] theorem State.sramCorrected_bsn (s : State) (unit : Nat) : (s.sramCorrected unit).bsn = s.bsn := by
  obtain ⟨_, _, _, h⟩ := s.sramCorrected_shape unit; rw [h]
@[simp] theorem State.sramCorrected_oca (s : State) (unit : Nat) : (s.sramCorrected unit).oca = s.oca := by
  obtain ⟨_, _, _, h⟩ := s.sramCorrected_shape unit; rw [h]
@[simp] theorem State.sramCorrected_amu (s : State) (unit : Nat) : (s.sramCorrected unit).amu = s.amu := by
  obtain ⟨_, _, _, h⟩ := s.sramCorrected_shape unit; rw [h]
@[simp] theorem State.sramCorrected_mgl (s : State) (unit : Nat) : (s.sramCorrected unit).mgl = s.mgl := by
  obtain ⟨_, _, _, h⟩ := s.sramCorrected_shape unit; rw [h]
@[simp] theorem State.sramCorrected_hal (s : State) (unit : Nat) : (s.sramCorrected unit).hal = s.hal := by
  obtain ⟨_, _, _, h⟩ := s.sramCorrected_shape unit; rw [h]
@[simp] theorem State.sramCorrected_cvc (s : State) (unit : Nat) : (s.sramCorrected unit).cvc = s.cvc := by
  obtain ⟨_, _, _, h⟩ := s.sramCorrected_shape unit; rw [h]
@[simp] theorem State.sramCorrected_dge (s : State) (unit : Nat) : (s.sramCorrected unit).dge = s.dge := by
  obtain ⟨_, _, _, h⟩ := s.sramCorrected_shape unit; rw [h]
@[simp] theorem State.sramCorrected_hostMem (s : State) (unit : Nat) : (s.sramCorrected unit).hostMem = s.hostMem := by
  obtain ⟨_, _, _, h⟩ := s.sramCorrected_shape unit; rw [h]
@[simp] theorem State.sramCorrected_hbm (s : State) (unit : Nat) : (s.sramCorrected unit).hbm = s.hbm := by
  obtain ⟨_, _, _, h⟩ := s.sramCorrected_shape unit; rw [h]
@[simp] theorem State.sramCorrected_out (s : State) (unit : Nat) : (s.sramCorrected unit).out = s.out := by
  obtain ⟨_, _, _, h⟩ := s.sramCorrected_shape unit; rw [h]
@[simp] theorem State.sramCorrected_pending (s : State) (unit : Nat) : (s.sramCorrected unit).pending = s.pending := by
  obtain ⟨_, _, _, h⟩ := s.sramCorrected_shape unit; rw [h]

/-! #### `tileCorrected` -/

theorem State.tileCorrected_shape (s : State) (t : Nat) (f : Field) : ∃ (r : NMap Nat) (p : NMap Bool) (o : List Out) (q : Tsu) (w : Darn) (n : Nat),
    s.tileCorrected t f = { s with regs := r, out := o, tsu := q, darn := w, draws := n, hif := { s.hif with pba := p } } := by
  have bump : ∀ (u : State) (g : Field) (i : Nat), (∃ r w n, u = { s with regs := r, darn := w, draws := n }) →
      ∃ r w n, u.bumpSat g i 1 = { s with regs := r, darn := w, draws := n } := by
    rintro u g i ⟨r, w, n, rfl⟩
    exact ⟨_, _, _, rfl⟩
  have step : ∀ u : State, (∃ r w n, u = { s with regs := r, darn := w, draws := n }) → ∃ r p o q w n,
      (if s.setting1 fDRN_THRESH_TILE_CORR 0 ≤ u.rd fDRN_TILE_WEAR_WINDOW_CORR t then u.mark 0 t 1 else u) =
      { s with regs := r, out := o, tsu := q, darn := w, draws := n, hif := { s.hif with pba := p } } := by
    rintro u ⟨r, w, n, rfl⟩
    split
    · obtain ⟨_, _, _, _, _, g⟩ := State.mark_shape { s with regs := r, darn := w, draws := n } 0 t 1
      rw [g]; exact ⟨_, _, _, _, _, _, rfl⟩
    · exact ⟨_, _, _, _, _, _, rfl⟩
  unfold State.tileCorrected
  exact step _ (bump _ _ _ (bump _ _ _ (bump _ _ _ (bump _ _ _ (s.sramCorrected_shape t)))))
@[simp] theorem State.tileCorrected_board (s : State) (t : Nat) (f : Field) : (s.tileCorrected t f).board = s.board := by
  obtain ⟨_, _, _, _, _, _, h⟩ := s.tileCorrected_shape t f; rw [h]
@[simp] theorem State.tileCorrected_clk (s : State) (t : Nat) (f : Field) : (s.tileCorrected t f).clk = s.clk := by
  obtain ⟨_, _, _, _, _, _, h⟩ := s.tileCorrected_shape t f; rw [h]
@[simp] theorem State.tileCorrected_reef (s : State) (t : Nat) (f : Field) : (s.tileCorrected t f).reef = s.reef := by
  obtain ⟨_, _, _, _, _, _, h⟩ := s.tileCorrected_shape t f; rw [h]
@[simp] theorem State.tileCorrected_store (s : State) (t : Nat) (f : Field) : (s.tileCorrected t f).store = s.store := by
  obtain ⟨_, _, _, _, _, _, h⟩ := s.tileCorrected_shape t f; rw [h]
@[simp] theorem State.tileCorrected_errLog (s : State) (t : Nat) (f : Field) : (s.tileCorrected t f).errLog = s.errLog := by
  obtain ⟨_, _, _, _, _, _, h⟩ := s.tileCorrected_shape t f; rw [h]
@[simp] theorem State.tileCorrected_failedSubs (s : State) (t : Nat) (f : Field) : (s.tileCorrected t f).failedSubs = s.failedSubs := by
  obtain ⟨_, _, _, _, _, _, h⟩ := s.tileCorrected_shape t f; rw [h]
@[simp] theorem State.tileCorrected_softPending (s : State) (t : Nat) (f : Field) : (s.tileCorrected t f).softPending = s.softPending := by
  obtain ⟨_, _, _, _, _, _, h⟩ := s.tileCorrected_shape t f; rw [h]
@[simp] theorem State.tileCorrected_qmg (s : State) (t : Nat) (f : Field) : (s.tileCorrected t f).qmg = s.qmg := by
  obtain ⟨_, _, _, _, _, _, h⟩ := s.tileCorrected_shape t f; rw [h]
@[simp] theorem State.tileCorrected_hmc (s : State) (t : Nat) (f : Field) : (s.tileCorrected t f).hmc = s.hmc := by
  obtain ⟨_, _, _, _, _, _, h⟩ := s.tileCorrected_shape t f; rw [h]
@[simp] theorem State.tileCorrected_bsn (s : State) (t : Nat) (f : Field) : (s.tileCorrected t f).bsn = s.bsn := by
  obtain ⟨_, _, _, _, _, _, h⟩ := s.tileCorrected_shape t f; rw [h]
@[simp] theorem State.tileCorrected_oca (s : State) (t : Nat) (f : Field) : (s.tileCorrected t f).oca = s.oca := by
  obtain ⟨_, _, _, _, _, _, h⟩ := s.tileCorrected_shape t f; rw [h]
@[simp] theorem State.tileCorrected_amu (s : State) (t : Nat) (f : Field) : (s.tileCorrected t f).amu = s.amu := by
  obtain ⟨_, _, _, _, _, _, h⟩ := s.tileCorrected_shape t f; rw [h]
@[simp] theorem State.tileCorrected_mgl (s : State) (t : Nat) (f : Field) : (s.tileCorrected t f).mgl = s.mgl := by
  obtain ⟨_, _, _, _, _, _, h⟩ := s.tileCorrected_shape t f; rw [h]
@[simp] theorem State.tileCorrected_hal (s : State) (t : Nat) (f : Field) : (s.tileCorrected t f).hal = s.hal := by
  obtain ⟨_, _, _, _, _, _, h⟩ := s.tileCorrected_shape t f; rw [h]
@[simp] theorem State.tileCorrected_cvc (s : State) (t : Nat) (f : Field) : (s.tileCorrected t f).cvc = s.cvc := by
  obtain ⟨_, _, _, _, _, _, h⟩ := s.tileCorrected_shape t f; rw [h]
@[simp] theorem State.tileCorrected_dge (s : State) (t : Nat) (f : Field) : (s.tileCorrected t f).dge = s.dge := by
  obtain ⟨_, _, _, _, _, _, h⟩ := s.tileCorrected_shape t f; rw [h]
@[simp] theorem State.tileCorrected_hostMem (s : State) (t : Nat) (f : Field) : (s.tileCorrected t f).hostMem = s.hostMem := by
  obtain ⟨_, _, _, _, _, _, h⟩ := s.tileCorrected_shape t f; rw [h]
@[simp] theorem State.tileCorrected_hbm (s : State) (t : Nat) (f : Field) : (s.tileCorrected t f).hbm = s.hbm := by
  obtain ⟨_, _, _, _, _, _, h⟩ := s.tileCorrected_shape t f; rw [h]
@[simp] theorem State.tileCorrected_pending (s : State) (t : Nat) (f : Field) : (s.tileCorrected t f).pending = s.pending := by
  obtain ⟨_, _, _, _, _, _, h⟩ := s.tileCorrected_shape t f; rw [h]
@[simp] theorem State.tileCorrected_hif_linkUp (s : State) (t : Nat) (f : Field) : (s.tileCorrected t f).hif.linkUp = s.hif.linkUp := by
  obtain ⟨_, _, _, _, _, _, h⟩ := s.tileCorrected_shape t f; rw [h]

end Sys2Proof.Machine
end

