-- ==== Sys2Proof/Laws/Core.lean ====
section
/-! SUPPORT. The tile: reading and changing a core, what the correction of registers leaves alone, and what an
instruction that issues does (Machine/Tile.lean). -/

namespace Sys2Proof.Machine

/-! ### Cores -/

@[simp] theorem State.core_setCore (s : State) (t : Nat) (c : Core) : (s.setCore t c).core t = c := by
  simp [State.core, State.setCore]

theorem State.core_setCore_other (s : State) {t u : Nat} (c : Core) (h : u ≠ t) : (s.setCore t c).core u = s.core u :=
  getD_setD_other _ _ _ _ _ _ h

@[simp] theorem State.core_onCore (s : State) (t : Nat) (f : Core → Core) : (s.onCore t f).core t = f (s.core t) :=
  State.core_setCore s t _

theorem State.core_onCore_other (s : State) {t u : Nat} (f : Core → Core) (h : u ≠ t) :
    (s.onCore t f).core u = s.core u :=
  State.core_setCore_other s _ h

theorem State.core_congr {s u : State} (h : u.oca = s.oca) (t : Nat) : u.core t = s.core t := by
  unfold State.core; rw [h]

@[simp] theorem State.core_outsideCores (s u : State) (t : Nat) : (s.outsideCores u).core t = u.core t := rfl

@[simp] theorem State.core_tileCorrected (s : State) (t u : Nat) (f : Field) : (s.tileCorrected t f).core u = s.core u :=
  State.core_congr (s.tileCorrected_oca t f) u

/-! ### Registers -/

/-- A write of register words changes of a core only the errors that its registers hold or are to hold (R263). -/
theorem Core.noteWrite_shape (c : Core) (ws : List Nat) :
    ∃ b a, c.noteWrite ws = { c with regBad := b, armed := a } := by
  unfold Core.noteWrite
  simp only []
  split <;> exact ⟨_, _, rfl⟩

@[simp] theorem Core.noteWrite_task (c : Core) (ws : List Nat) : (c.noteWrite ws).task = c.task := by
  obtain ⟨_, _, h⟩ := c.noteWrite_shape ws; rw [h]
@[simp] theorem Core.noteWrite_pc (c : Core) (ws : List Nat) : (c.noteWrite ws).pc = c.pc := by
  obtain ⟨_, _, h⟩ := c.noteWrite_shape ws; rw [h]
@[simp] theorem Core.noteWrite_x (c : Core) (ws : List Nat) : (c.noteWrite ws).x = c.x := by
  obtain ⟨_, _, h⟩ := c.noteWrite_shape ws; rw [h]
@[simp] theorem Core.noteWrite_p (c : Core) (ws : List Nat) : (c.noteWrite ws).p = c.p := by
  obtain ⟨_, _, h⟩ := c.noteWrite_shape ws; rw [h]
@[simp] theorem Core.noteWrite_v (c : Core) (ws : List Nat) : (c.noteWrite ws).v = c.v := by
  obtain ⟨_, _, h⟩ := c.noteWrite_shape ws; rw [h]
@[simp] theorem Core.noteWrite_m (c : Core) (ws : List Nat) : (c.noteWrite ws).m = c.m := by
  obtain ⟨_, _, h⟩ := c.noteWrite_shape ws; rw [h]
@[simp] theorem Core.noteWrite_vl (c : Core) (ws : List Nat) : (c.noteWrite ws).vl = c.vl := by
  obtain ⟨_, _, h⟩ := c.noteWrite_shape ws; rw [h]
@[simp] theorem Core.noteWrite_vrs (c : Core) (ws : List Nat) : (c.noteWrite ws).vrs = c.vrs := by
  obtain ⟨_, _, h⟩ := c.noteWrite_shape ws; rw [h]
@[simp] theorem Core.noteWrite_ls (c : Core) (ws : List Nat) : (c.noteWrite ws).ls = c.ls := by
  obtain ⟨_, _, h⟩ := c.noteWrite_shape ws; rw [h]
@[simp] theorem Core.noteWrite_instret (c : Core) (ws : List Nat) : (c.noteWrite ws).instret = c.instret := by
  obtain ⟨_, _, h⟩ := c.noteWrite_shape ws; rw [h]
@[simp] theorem Core.noteWrite_accs (c : Core) (ws : List Nat) : (c.noteWrite ws).accs = c.accs := by
  obtain ⟨_, _, h⟩ := c.noteWrite_shape ws; rw [h]
@[simp] theorem Core.noteWrite_vq (c : Core) (ws : List Nat) : (c.noteWrite ws).vq = c.vq := by
  obtain ⟨_, _, h⟩ := c.noteWrite_shape ws; rw [h]
@[simp] theorem Core.noteWrite_vmem (c : Core) (ws : List Nat) : (c.noteWrite ws).vmem = c.vmem := by
  obtain ⟨_, _, h⟩ := c.noteWrite_shape ws; rw [h]
@[simp] theorem Core.noteWrite_icache (c : Core) (ws : List Nat) : (c.noteWrite ws).icache = c.icache := by
  obtain ⟨_, _, h⟩ := c.noteWrite_shape ws; rw [h]

@[simp] theorem Core.getX_zero (c : Core) : c.getX 0 = 0 := rfl

theorem Core.getX_putX (c : Core) (r : Nat) (v : Qword) (h : r ≠ 0) : (c.putX r v).getX r = v := by
  simp [Core.getX, Core.putX, h]

theorem Core.getX_putX_other (c : Core) {r q : Nat} (v : Qword) (h : q ≠ r) : (c.putX r v).getX q = c.getX q := by
  unfold Core.putX
  split
  · rfl
  · unfold Core.getX
    split
    · rfl
    · simp only [Core.noteWrite_x]
      exact getD_setD_other _ _ _ _ _ _ h

theorem Core.putX_zero (c : Core) (v : Qword) : c.putX 0 v = c := rfl

/-! ### Correction of registers (R263) -/

/-- Reading registers changes nothing of the core but the marks of the errors that it corrects. -/
theorem State.correctRegs_core (s : State) (t : Nat) (reads : List Nat) :
    ∃ b, (s.correctRegs t reads).core t = { s.core t with regBad := b } := by
  unfold State.correctRegs
  have go : ∀ (l : List Nat) (u : State), (∃ b, u.core t = { s.core t with regBad := b }) →
      ∃ b, (l.foldl (fun s r => (s.onCore t (fun c => { c with regBad := del c.regBad r })).tileCorrected t
        fOCA_CORRECTED_REGISTERS) u).core t = { s.core t with regBad := b } := by
    intro l
    induction l with
    | nil => intro u h; exact h
    | cons r l ih =>
      intro u h
      refine ih _ ?_
      obtain ⟨b, h⟩ := h
      exact ⟨del b r, by simp [h]⟩
  exact go _ s ⟨_, rfl⟩

@[simp] theorem State.correctRegs_getX (s : State) (t : Nat) (reads : List Nat) (r : Nat) :
    ((s.correctRegs t reads).core t).getX r = (s.core t).getX r := by
  obtain ⟨b, h⟩ := s.correctRegs_core t reads
  rw [h]; rfl

theorem State.readRegs_core (s : State) (t : Nat) (w : Dword) (reads : List Nat) :
    ∃ b, (s.readRegs t w reads).core t = { s.core t with regBad := b } := s.correctRegs_core t _

@[simp] theorem State.readRegs_getX (s : State) (t : Nat) (w : Dword) (reads : List Nat) (r : Nat) :
    ((s.readRegs t w reads).core t).getX r = (s.core t).getX r := s.correctRegs_getX t _ r

@[simp] theorem State.readRegs_clk (s : State) (t : Nat) (w : Dword) (reads : List Nat) :
    (s.readRegs t w reads).clk = s.clk := by
  unfold State.readRegs State.correctRegs
  exact foldl_keeps State.clk _ (fun s a => by rw [State.tileCorrected_clk]; rfl) _ s

/-- Reading registers moves no counter of the core (R244, R263). -/
@[simp] theorem State.readRegs_counter (s : State) (t : Nat) (w : Dword) (reads : List Nat) (n : Nat) :
    (s.readRegs t w reads).counter ((s.readRegs t w reads).core t) n = s.counter (s.core t) n := by
  obtain ⟨b, h⟩ := s.readRegs_core t w reads
  have c : (s.readRegs t w reads).clk = s.clk := by simp
  simp only [h, State.counter, State.cyclesSince, c]

/-! ### An instruction that issues -/

/-- An instruction that issues has its effect on the state in which its registers are corrected. -/
theorem State.issue_of {s : State} {t : Nat} {w : Dword} {e : Enc} {reads : List Nat} (h : Issues s t w e reads)
    (f : State → Core → Issued) :
    s.issue t w e reads f = match f (s.readRegs t w reads) ((s.readRegs t w reads).core t) with
      | .wait => s
      | .raises st sub addr trap =>
        (s.readRegs t w reads).preciseFault t (.precise st sub w (s.core t).pc addr trap)
      | .goes v => v := by
  have g : (s.core t).badRead [predWord (wPsel w)] = false ∧ (s.core t).badRead reads = false := by
    have := h.good
    simpa [Core.badRead] using this
  simp only [State.issue, h.next, h.legal, h.has, h.arrived, h.predicate, g.1, g.2, Bool.not_true, Bool.false_eq_true,
    if_false]
  rfl

/-- An instruction whose predicate is false goes on, whatever it would do (R246). -/
theorem State.issue_off {s : State} {t : Nat} {w : Dword} {e : Enc} {reads : List Nat} (f : State → Core → Issued)
    (h1 : s.canIssue t w = true) (h2 : legal w = true) (h3 : e.has w = true) (h4 : reads.any (s.core t).awaits = false)
    (h5 : predTest (s.core t).p w = false) (h6 : (s.core t).badRead [predWord (wPsel w)] = false) :
    s.issue t w e reads f = (s.correctRegs t [predWord (wPsel w)]).nextPc t := by
  simp [State.issue, h1, h2, h3, h4, h5, h6]

/-- An instruction whose guard is uncorrectable ends its task (R263). -/
theorem State.issue_badGuard {s : State} {t : Nat} {w : Dword} {e : Enc} {reads : List Nat} (f : State → Core → Issued)
    (h1 : s.canIssue t w = true) (h2 : legal w = true) (h3 : e.has w = true) (h4 : reads.any (s.core t).awaits = false)
    (h5 : (s.core t).badRead [predWord (wPsel w)] = true) :
    s.issue t w e reads f = s.badRegister t w := by
  simp [State.issue, h1, h2, h3, h4, h5]

/-- A word that no instruction has raises ILLEGAL (R241, R246). -/
theorem State.issue_illegal {s : State} {t : Nat} {w : Dword} {e : Enc} {reads : List Nat} (f : State → Core → Issued)
    (h1 : s.canIssue t w = true) (h2 : legal w = false) :
    s.issue t w e reads f = s.preciseFault t (.precise 0x30 0x01 w (s.core t).pc 0 0) := by
  simp [State.issue, h1, h2]

/-- An instruction waits while a register that it reads awaits its value (R236, R246). -/
theorem State.issue_wait {s : State} {t : Nat} {w : Dword} {e : Enc} {reads : List Nat} (f : State → Core → Issued)
    (h1 : s.canIssue t w = true) (h2 : legal w = true) (h4 : reads.any (s.core t).awaits = true) :
    s.issue t w e reads f = s := by
  cases h : e.has w <;> simp [State.issue, h1, h2, h4, h]

/-- Registers of which none awaits a value. -/
theorem Core.none_awaits {c : Core} (h : ∀ r, c.awaits r = false) (reads : List Nat) : reads.any c.awaits = false := by
  simp [h]

theorem State.running_of_canIssue {s : State} {t : Nat} {w : Dword} (h : s.canIssue t w = true) : s.running = true := by
  unfold State.canIssue at h
  exact (Bool.and_eq_true _ _ ▸ h).1

theorem Issues.running {s : State} {t : Nat} {w : Dword} {e : Enc} {reads : List Nat} (h : Issues s t w e reads) :
    s.running = true := by
  have := h.next
  unfold State.canIssue at this
  exact (Bool.and_eq_true _ _ ▸ this).1

/-! ### What stays when an instruction goes on -/

theorem State.tileTask_congr {s u : State} {t : Nat} (hc : (u.core t).task = (s.core t).task) (hb : u.bsn = s.bsn) :
    u.tileTask t = s.tileTask t := by
  unfold State.tileTask State.task
  rw [hc, hb]

theorem State.inBlob_congr {s u : State} (hb : u.bsn = s.bsn) (x : Task) (pc : Nat) : u.inBlob x pc = s.inBlob x pc := by
  unfold State.inBlob State.blob State.run State.graphOf State.graph
  rw [hb]

/-- A pc within its code raises nothing. -/
theorem State.checkRange_stays {s : State} {t : Nat} (h : s.stays t (s.core t).pc) : s.checkRange t = s := by
  unfold State.checkRange
  cases hk : s.tileTask t with
  | none => rfl
  | some kx => simp [h kx hk]

theorem State.correctRegs_bsn (s : State) (t : Nat) (reads : List Nat) : (s.correctRegs t reads).bsn = s.bsn := by
  unfold State.correctRegs; apply foldl_keeps (f := State.bsn); intro s r; simp; rfl

theorem State.correctRegs_other (s : State) (t : Nat) (reads : List Nat) {u : Nat} (h : u ≠ t) :
    (s.correctRegs t reads).core u = s.core u := by
  unfold State.correctRegs; apply foldl_keeps (f := fun s => s.core u); intro s r; simp [State.core_onCore_other, h]

/-- Of a core a write of a scalar register reaches the scalar registers, what would write the register later, and the
errors injected into registers. -/
theorem Core.putX_keeps (c : Core) (r : Nat) (v : Qword) :
    (c.putX r v).task = c.task ∧ (c.putX r v).pc = c.pc ∧ (c.putX r v).instret = c.instret ∧ (c.putX r v).p = c.p ∧
      (c.putX r v).v = c.v ∧ (c.putX r v).m = c.m ∧ (c.putX r v).vl = c.vl ∧ (c.putX r v).vrs = c.vrs ∧
      (c.putX r v).ls = c.ls := by
  unfold Core.putX
  split
  · exact ⟨rfl, rfl, rfl, rfl, rfl, rfl, rfl, rfl, rfl⟩
  · simp only [Core.noteWrite_task, Core.noteWrite_pc, Core.noteWrite_instret, Core.noteWrite_p, Core.noteWrite_v,
      Core.noteWrite_m, Core.noteWrite_vl, Core.noteWrite_vrs, Core.noteWrite_ls, and_self]

/-- An instruction that goes on within its code: its core advances, and that is all. -/
theorem State.nextPc_stays {s : State} {t : Nat} (h : s.stays t (((s.core t).pc + 4) % 2 ^ 64)) :
    s.nextPc t = s.onCore t (fun c => c.advance ((c.pc + 4) % 2 ^ 64) false) := by
  unfold State.nextPc
  apply State.checkRange_stays
  intro kx hk
  have e : (s.onCore t (fun c => c.advance ((c.pc + 4) % 2 ^ 64) false)).tileTask t = s.tileTask t :=
    State.tileTask_congr (by rw [State.core_onCore]; rfl) rfl
  have b : (s.onCore t (fun c => c.advance ((c.pc + 4) % 2 ^ 64) false)).bsn = s.bsn := rfl
  rw [e] at hk
  rw [State.inBlob_congr b, State.core_onCore]
  exact h kx hk

end Sys2Proof.Machine
end

