-- ==== Sys2Proof/Laws/Exec.lean ====
section
/-! SUPPORT. Which gate each command of exec goes through. -/

namespace Sys2Proof.Machine

theorem exec_coreWord (c : Instr) (s : State) {x : Nat × Dword × Enc} (h : coreWord c = some x) :
    ∃ b f, exec c s = coreStep b f s := by
  cases c
  all_goals first
    | (cases h; done)
    | (delta exec; dsimp only; exact ⟨_, _, rfl⟩)

theorem exec_digestCommand (c : Instr) (s : State) (h : digestCommand c = true) :
    ∃ b f, exec c s = digestStep b f s := by
  cases c
  all_goals first
    | (cases h; done)
    | (delta exec; dsimp only; exact ⟨_, _, rfl⟩)

theorem exec_overvoltage (c : Instr) (s : State) (h : overvoltage c = true) :
    exec c s = .fault .beyondAbsoluteMaximum := by
  cases c
  case supplyHigh => exact if_pos (of_decide_eq_true h)
  case surge => exact if_pos (of_decide_eq_true h)
  case inputFault => exact if_pos (of_decide_eq_true h)
  all_goals cases h

/-- A command that the clock root does not see leaves it, and the queue, as they are. -/
theorem exec_clockless (c : Instr) (s : State) (h : clockCommand c = false) (v : overvoltage c = false) :
    (∃ b f, exec c s = steady b f s) ∨ (∃ b f, exec c s = coreStep b f s) ∨ (∃ b f, exec c s = digestStep b f s) := by
  cases w : coreWord c with
  | some x => exact .inr (.inl (exec_coreWord c s w))
  | none =>
  cases d : digestCommand c with
  | true => exact .inr (.inr (exec_digestCommand c s d))
  | false =>
  cases c
  case supplyHigh => exact .inl ⟨_, _, if_neg (of_decide_eq_false v)⟩
  all_goals first
    | (cases h; done)
    | (cases w; done)
    | (cases d; done)
    | (delta exec; dsimp only
       first | exact .inl ⟨_, _, rfl⟩ | exact .inr (.inl ⟨_, _, rfl⟩))

theorem exec_clocked (c : Instr) (s : State) (h : clockCommand c = true) (v : overvoltage c = false) :
    (∃ b f, exec c s = enabled b f s) ∨ (∃ b f, exec c s = paced b f s) := by
  cases c
  case surge => exact .inl ⟨_, _, if_neg (of_decide_eq_false v)⟩
  case inputFault => exact .inl ⟨_, _, if_neg (of_decide_eq_false v)⟩
  case throttleNFall ns =>
    show (∃ b f, execThrottleNFall ns s = enabled b f s) ∨ _
    unfold execThrottleNFall; dsimp only; exact .inl ⟨_, _, rfl⟩
  all_goals first
    | (cases h; done)
    | (delta exec; dsimp only
       first | exact .inl ⟨_, _, rfl⟩ | exact .inr ⟨_, _, rfl⟩)

/-- Every command but those above the absolute maximum answers a next state, with the queue as it was. -/
theorem exec_next (c : Instr) (s : State) (v : overvoltage c = false) :
    ∃ t, exec c s = .next t ∧ t.pending = s.pending := by
  cases h : clockCommand c
  · rcases exec_clockless c s h v with ⟨b, f, e⟩ | ⟨b, f, e⟩ | ⟨b, f, e⟩ <;> rw [e]
    · obtain ⟨t, a, p, _⟩ := steady_next b f s; exact ⟨t, a, p⟩
    · obtain ⟨t, a, p⟩ := coreStep_next b f s; exact ⟨t, a, by rw [p]; rfl⟩
    · obtain ⟨t, a, p⟩ := digestStep_next b f s; exact ⟨t, a, by rw [p]; rfl⟩
  · rcases exec_clocked c s h v with ⟨b, f, e⟩ | ⟨b, f, e⟩ <;> rw [e]
    · exact enabled_next b f s
    · obtain ⟨t, a, p, _⟩ := paced_next b f s; exact ⟨t, a, p⟩

/-- A command that the clock root does not see leaves it as it is. -/
theorem exec_clk (c : Instr) (s : State) {t : State} (h : clockCommand c = false) (e : exec c s = .next t) :
    t.clk = s.clk := by
  cases v : overvoltage c
  · rcases exec_clockless c s h v with ⟨b, f, x⟩ | ⟨b, f, x⟩ | ⟨b, f, x⟩ <;> rw [x] at e
    · obtain ⟨u, a, _, p⟩ := steady_next b f s; rw [a] at e; cases e; exact p
    · obtain ⟨u, a, p⟩ := coreStep_next b f s; rw [a] at e; cases e; rw [p]; rfl
    · obtain ⟨u, a, p⟩ := digestStep_next b f s; rw [a] at e; cases e; rw [p]; rfl
  · rw [exec_overvoltage c s v] at e; cases e

/-- The word of an operator core goes through the issue of its encoding, or, for a segment load, through segIssue. -/
theorem exec_issue (c : Instr) (s : State) {t : Nat} {w : Dword} {e : Enc} (h : coreWord c = some (t, w, e)) :
    (∃ reads f, exec c s = coreStep s.running (fun s => s.issue t w e reads f) s) ∨
      exec c s = coreStep s.running (fun s => s.segIssue t w e) s := by
  cases c
  case vlseg2 => cases h; exact .inr rfl
  case vlseg3 => cases h; exact .inr rfl
  case vlseg4 => cases h; exact .inr rfl
  all_goals first
    | (cases h; done)
    | (cases h; left; delta exec; dsimp only; exact ⟨_, _, rfl⟩)
end Sys2Proof.Machine
end

