-- ==== Sys2Proof/Laws/Time.lean ====
section
/-! SUPPORT. What a tick reaches (Machine/Tick.lean). -/

namespace Sys2Proof.Machine

@[simp] theorem State.settleAts_clk (s : State) : s.settleAts.clk = s.clk := by
  unfold State.settleAts; apply foldl_keeps (f := State.clk); intros; rfl

@[simp] theorem State.settleAts_pending (s : State) : s.settleAts.pending = s.pending := by
  unfold State.settleAts; apply foldl_keeps (f := State.pending); intros; rfl

/-- While the derived clocks run a tick counts, and the divider that waits for this boundary comes into force. -/
theorem State.tick_clk (s : State) (h : s.clocked = true) : s.tick.clk = s.clk.counted := by
  unfold State.tick
  split
  · simp [State.psTouch, State.countTick]
  · rfl

/-- A divider that does not wait for the coming boundary is left alone by the count. -/
theorem Clocks.counted_between {c : Clocks} (h : c.atBoundary = false) :
    c.counted = { c with tsu := (c.tsu + 1) % 2 ^ 64, now := c.now + 1, cyc := c.cyc + halfCycles c.div } := by
  simp [Clocks.counted, h]

/-- At the boundary that a request waits for, its divider is in force and counts the half-cycles (R68). -/
theorem Clocks.counted_boundary {c : Clocks} (h : c.atBoundary = true) :
    c.counted.div = c.divReq.getD c.div ∧ c.counted.divReq = none ∧ c.counted.tsu = (c.tsu + 1) % 2 ^ 64 ∧
      c.counted.cyc = c.cyc + halfCycles (c.divReq.getD c.div) := by
  simp [Clocks.counted, h, Clocks.divided]

theorem State.tick_pending (s : State) : s.tick.pending = s.pending := by
  unfold State.tick
  split
  · simp [State.psTouch, State.countTick]
  · split <;> rfl

/-- Without the derived clocks an idle step lets time pass and changes nothing else. -/
theorem State.tick_still {s : State} (h : s.clocked = false) : s.tick = s.wait := by
  have r : s.running = false := by
    cases hr : s.running
    · rfl
    · simp [State.clocked, hr] at h
  unfold State.tick
  simp [r, h]

end Sys2Proof.Machine
end

