-- ==== Sys2Proof/Laws/Clock.lean ====
section
/-! SUPPORT. The clock root stays legal under the operations that reach it: levels, resets and register writes. -/

namespace Sys2Proof.Machine

theorem Clocks.Legal.keep {a b : Clocks} (h : a.Legal) (d : b.div = a.div) (r : b.divReq = a.divReq) (t : b.tsu = a.tsu) :
    b.Legal := ⟨d ▸ h.div, fun x e => h.req x (r ▸ e), t ▸ h.tsu⟩

theorem Clocks.reset_legal : Clocks.reset.Legal := ⟨.inl rfl, (by rintro _ ⟨⟩), (by decide)⟩

theorem levelDivider_legal (l : Nat) : legalDivider (levelDivider l) := by
  unfold levelDivider legalDivider; split
  · exact .inl rfl
  · split
    · exact .inr (.inl rfl)
    · exact .inr (.inr rfl)

theorem Clocks.Legal.request {a : Clocks} (h : a.Legal) (l n : Nat) :
    ({ a with divReq := some (levelDivider l), divAt := n } : Clocks).Legal :=
  ⟨h.div, (by rintro _ ⟨⟩; exact levelDivider_legal l), h.tsu⟩

theorem State.setLevel_legal {s : State} (h : s.clk.Legal) (l : Nat) : (s.setLevel l).clk.Legal := by
  obtain ⟨n, e⟩ := s.setLevel_clk l
  rw [e]; exact h.request l n

theorem State.reefAgain_legal {s : State} (h : s.clk.Legal) : s.reefAgain.clk.Legal := by
  obtain e | ⟨l, n, e⟩ := s.reefAgain_clk <;> rw [e]
  · exact h
  · exact h.request l n

theorem State.reefNow_legal {s : State} (h : s.clk.Legal) : s.reefNow.clk.Legal := by
  unfold State.reefNow; split
  · exact State.reefAgain_legal h
  · exact h

/-- The latest request takes effect: a divider of a level. -/
theorem Clocks.Legal.divided {c : Clocks} (h : c.Legal) : c.divided.Legal := by
  refine ⟨?_, (by rintro _ ⟨⟩), h.tsu⟩
  show legalDivider (c.divReq.getD c.div)
  cases q : c.divReq with
  | none => exact h.div
  | some d => exact h.req d q

theorem Clocks.Legal.counted {c : Clocks} (h : c.Legal) : c.counted.Legal := by
  have k : ∀ d : Clocks, d.Legal →
      ({ d with tsu := (d.tsu + 1) % 2 ^ 64, now := d.now + 1, cyc := d.cyc + halfCycles d.div } : Clocks).Legal :=
    fun d h => ⟨h.div, h.req, Nat.mod_lt _ (by decide)⟩
  unfold Clocks.counted
  dsimp only
  split
  · exact k _ h.divided
  · exact k _ h

/-- A tick, or a step without the derived clocks, keeps the clock root legal. -/
theorem State.tick_legal {s : State} (h : s.clk.Legal) : s.tick.clk.Legal := by
  cases c : s.clocked
  · rw [State.tick_still c]; exact h.keep rfl rfl rfl
  · rw [s.tick_clk c]; exact h.counted

theorem State.startWarm_legal {s : State} (h : s.clk.Legal) (cause : Field) : (s.startWarm cause).clk.Legal := by
  obtain ⟨x, w, e⟩ := s.startWarm_clk cause
  rw [e]; exact h.keep rfl rfl rfl

theorem State.inputFault_legal {s : State} (h : s.clk.Legal) (mv : Nat) : (s.inputFault mv).clk.Legal :=
  State.reefNow_legal (by simpa [State.alert] using h)

theorem State.railsOff_legal (s : State) (cause : Nat) : (s.railsOff cause).clk.Legal := by
  rw [(s.railsOff_keeps cause).2.2.2.2]; exact Clocks.reset_legal.keep rfl rfl rfl

theorem State.orderlyStop_legal (s : State) (cause n a b : Nat) : (s.orderlyStop cause n a b).clk.Legal :=
  State.railsOff_legal _ _

/-! ### Register writes -/

theorem State.wr_clk_foldl {α : Type} (g : State → α → State) (h : ∀ s a, (g s a).clk = s.clk) (l : List α) (s : State) :
    (l.foldl g s).clk = s.clk := foldl_keeps State.clk g h l s

theorem State.expertWrite_clk (s : State) (sub : Nat) (f : State → State) (h : (f s).clk = s.clk) :
    (s.expertWrite sub f).clk = s.clk := by
  unfold State.expertWrite; split <;> simp [h]

theorem State.writeField_clk (s : State) (f : Field) (i v : Nat) : (s.writeField f i v).clk = s.clk := by
  unfold State.writeField; split <;> simp

theorem State.writeGuarded_clk (s : State) (sub : Nat) (f : Field) (i v : Nat) : (s.writeGuarded sub f i v).clk = s.clk := by
  unfold State.writeGuarded; split
  · exact s.expertWrite_clk _ _ (s.writeField_clk _ _ _)
  · exact s.writeField_clk _ _ _

theorem State.writeFields_clk (s : State) (sub : Nat) (fs : List Field) (i v : Nat) : (s.writeFields sub fs i v).clk = s.clk :=
  State.wr_clk_foldl _ (fun s f => s.writeGuarded_clk sub f i v) _ _

theorem State.writeWarmReset_legal {s : State} (h : s.clk.Legal) (k : Nat) : (s.writeWarmReset k).clk.Legal := by
  unfold State.writeWarmReset; split
  · exact State.startWarm_legal h _
  · exact h

/-- Of the writers, those of the clock heads keep the clock root legal. -/
theorem State.writer_legal {s : State} (h : s.clk.Legal) (w : Writer) (hw : w ∈ writers) (hc : clockHeads.contains w.1.id = true)
    (i v : Nat) : (w.2 s i v).clk.Legal := by
  simp only [writers, writersHeader, writersHost, writersEngines, writersVolume, writersDevice, List.mem_append,
    List.mem_cons, List.not_mem_nil, or_false] at hw
  rcases hw with (((h1 | h1) | h1) | h1) | h1
  all_goals repeat' (rcases h1 with rfl | h1)
  all_goals first
    | (exact absurd hc (by decide))
    | (exact State.reefAgain_legal (by rw [State.writeField_clk]; exact h))
    | (exact State.reefAgain_legal (by rw [State.writeFields_clk]; exact h))
    | (exact State.writeWarmReset_legal h _)

theorem State.writeReg_legal {s : State} (h : s.clk.Legal) (d : RegDesc) (sub i v : Nat) : (s.writeReg d sub i v).clk.Legal := by
  unfold State.writeReg
  split
  · next w e =>
    have hm := List.mem_of_find?_eq_some e
    have he : w.1.id = d.head := by simpa using List.find?_some e
    split
    · next hc => exact State.writer_legal h w hm (he ▸ hc) i v
    · exact h.keep rfl rfl rfl
  · rw [State.writeFields_clk]; exact h

theorem State.writeOverride_legal {s : State} (h : s.clk.Legal) (d : RegDesc) (sub i v : Nat) :
    (s.writeOverride d sub i v).clk.Legal := by
  have hk : ∀ low, ((d.overridden.foldl (fun (s : State) f => s.wr f.x i (f.normal (f.of low))) s).wr d.ovrEn i
      (v / 2 ^ d.topBit)).clk.Legal := by
    intro low
    have e : (d.overridden.foldl (fun (s : State) f => s.wr f.x i (f.normal (f.of low))) s).clk = s.clk :=
      State.wr_clk_foldl _ (fun s f => by simp) _ _
    rw [State.wr_clk, e]; exact h
  simp only [State.writeOverride]
  split
  · simpa using h
  · split
    · exact State.reefAgain_legal (hk _)
    · exact hk _

theorem State.writePlace_legal {s : State} (h : s.clk.Legal) (p : Place4) (v : Nat) : (s.writePlace p v).clk.Legal := by
  unfold State.writePlace
  split <;> try exact h
  · split
    · split
      · exact State.writeOverride_legal h _ _ _ _
      · exact State.writeReg_legal h _ _ _ _
    · exact h

theorem State.denied_clk (s : State) (fn : Nat) (w : Bool) (k o p : Nat) : (s.denied fn w k o p).clk = s.clk := by
  simp only [State.denied]; split <;> simp

theorem State.putDword_legal {s : State} (h : s.clk.Legal) (a : Access) (w : Option (Nat × Nat)) (v : Nat) :
    (s.putDword a w v).clk.Legal := by
  simp only [State.putDword]
  split
  · exact State.writePlace_legal h _ _
  · split
    · exact h
    · exact State.writePlace_legal h _ _

theorem State.busWrite_legal {s : State} (h : s.clk.Legal) (a : Access) (v : Nat) : (s.busWrite a v).clk.Legal := by
  have ht : (s.takeLatch a).clk.Legal := h
  simp only [State.busWrite]
  split
  · exact ht
  · split
    · simpa using ht
    · split
      · rw [State.deny, State.denied_clk]; exact ht
      · unfold State.writeShaped
        split
        · split
          · exact State.putDword_legal ht _ _ _
          · exact ht
        · dsimp only
          split
          · exact State.writePlace_legal ht _ _
          · exact State.writePlace_legal (State.writePlace_legal ht _ _) _ _
        · exact ht

/-! ### Losing and regaining the lock -/

@[simp] theorem State.clearContexts_clk (s : State) (c : Nat) : (s.clearContexts c).clk = s.clk := by
  simp [State.clearContexts, State.newDeviceKey]

@[simp] theorem State.dropLink_clk (s : State) : s.dropLink.clk = s.clk := rfl

theorem State.relock_clk (s : State) : s.relock.clk = { s.clk with warmAt := s.clk.tsu } := by
  simp [State.relock, State.quiesced, State.offClock]

theorem State.lockLost_clk (s : State) : s.lockLost.clk = { s.clk with lostAt := s.clk.now } := by
  simp only [State.lockLost]
  split <;> simp [State.alert]

theorem State.coldReset_legal (s : State) : s.coldReset.clk.Legal := by
  simp only [State.coldReset, State.alertsAgain_clk]
  exact Clocks.reset_legal.keep rfl rfl rfl

theorem State.perstLow_legal {s : State} (h : s.clk.Legal) : s.perstLow.clk.Legal := by
  simp only [State.perstLow]
  split
  · rw [State.dropLink_clk]
    exact State.startWarm_legal (s := { s with board := { s.board with perstN := false, drvPerstN := 0 } }) h _
  · exact h

theorem State.perstRise_legal {s : State} (h : s.clk.Legal) : s.perstRise.clk.Legal := by
  simp only [State.perstRise]
  split
  · exact h.keep rfl rfl rfl
  · exact h

/-! ### Commands of the clock root -/

theorem enabled_legal {s t : State} (h : s.clk.Legal) {b : Bool} {f : State → State} (e : enabled b f s = .next t)
    (y : (f s).clk.Legal) : t.clk.Legal := by
  cases b
  · rw [enabled_off rfl] at e; cases e; exact h
  · rw [enabled_on rfl] at e; cases e; exact y

theorem paced_legal {s t : State} (h : s.clk.Legal) {b : Bool} {f : State → State} (e : paced b f s = .next t) :
    t.clk.Legal := by
  obtain ⟨u, a, _, d1, d2, d3, _⟩ := paced_next b f s
  rw [a] at e; cases e
  exact h.keep d1 d2 d3

theorem execDroopSample_legal {s t : State} (h : s.clk.Legal) (rail mv : Nat) (e : execDroopSample rail mv s = .next t) : t.clk.Legal := by
  refine enabled_legal h e ?_
  dsimp only
  split
  · exact State.reefAgain_legal h
  · split
    · exact h
    · split
      · simp only [State.railRecovers]
        split
        · exact h
        · split
          · exact State.reefAgain_legal h
          · exact h
      · exact h

theorem execThrottleNFall_legal {s t : State} (h : s.clk.Legal) (ns : Nat) (e : execThrottleNFall ns s = .next t) : t.clk.Legal := by
  have e' := e
  unfold execThrottleNFall at e'
  dsimp only at e'
  refine enabled_legal h e' ?_
  have k : (if 50 ≤ ns ∧ ns < 100 then s.drawn else s).clk.Legal := by split <;> exact h
  split
  · exact State.reefNow_legal k
  · exact k

theorem execResetRelease_legal {s t : State} (h : s.clk.Legal) (e : execResetRelease s = .next t) : t.clk.Legal := by
  refine enabled_legal h e ?_
  simp only [State.resetRelease, State.releaseEvent]
  rw [State.alertsAgain_clk, State.record_clk]
  exact State.reefAgain_legal ⟨by simpa [State.requestDiv] using h.div, (by rintro _ ⟨⟩; exact .inl rfl), by simpa [State.requestDiv] using h.tsu⟩

@[simp] theorem State.railPowers_clk (s : State) : s.railPowers.clk = s.clk := by
  unfold State.railPowers; apply foldl_keeps (f := State.clk); intros; rfl

theorem execControllerWindowEnd_legal {s t : State} (h : s.clk.Legal) (dw mv uj : Nat)
    (e : execControllerWindowEnd dw mv uj s = .next t) : t.clk.Legal := by
  have k : ∀ (c : Prop) [Decidable c] (w : State), w.clk.Legal → (if c then w.raise 14 3 else w).clk.Legal := by
    intro c _ w hw
    split
    · rw [State.raise_clk]; exact hw
    · exact hw
  refine enabled_legal h e (k _ _ ?_)
  simp only [State.railPowers_clk, State.bumpWrap_clk, State.wr_clk]
  exact State.reefAgain_legal (by simp only [State.wr_clk]; exact h)

theorem execThermalSample_legal {s t : State} (h : s.clk.Legal) (die hbm : Nat) (e : execThermalSample die hbm s = .next t) : t.clk.Legal := by
  refine enabled_legal h e ?_
  dsimp only
  split
  · rw [State.alert, State.raise_clk]; exact State.reefAgain_legal h
  · split
    · exact h
    · split
      · split
        · exact State.reefAgain_legal h
        · exact h
      · exact h

theorem execPwrEnFall_legal {s t : State} (h : s.clk.Legal) (e : execPwrEnFall s = .next t) : t.clk.Legal := by
  refine enabled_legal h e ?_
  simp only [State.pwrEnFall]
  split
  · exact h
  · split
    · exact State.railsOff_legal _ _
    · exact State.orderlyStop_legal _ _ _ _ _

theorem execBrownOut_legal {s t : State} (h : s.clk.Legal) (e : execBrownOut s = .next t) : t.clk.Legal := by
  refine enabled_legal h e ?_
  simp only [State.brownOut]
  split <;> exact State.orderlyStop_legal _ _ _ _ _

end Sys2Proof.Machine
end

