-- ==== Sys2Proof/Laws/Digest.lean ====
section
/-! SUPPORT. Digest slots: an action on one slot reaches that slot alone (Machine/Digest.lean). -/

namespace Sys2Proof.Machine

/-- Slots of different functions, or different slots of one, are different. -/
theorem slotKey_ne {fn sl g q : Nat} (h1 : sl < 16) (h2 : q < 16) (h : g ≠ fn ∨ q ≠ sl) : slotKey g q ≠ slotKey fn sl := by
  unfold slotKey; omega

/-- The slots after an action on one: those before, with at most that one replaced. -/
def State.OneSlot (s u : State) (fn sl : Nat) : Prop :=
  u.dge.slots = s.dge.slots ∨ ∃ d, u.dge.slots = setD DgeSlot.blank s.dge.slots (slotKey fn sl) d

theorem State.OneSlot.other {s u : State} {fn sl : Nat} (h : s.OneSlot u fn sl) {g q : Nat} (n : slotKey g q ≠ slotKey fn sl) :
    u.dslot g q = s.dslot g q := by
  unfold State.dslot
  obtain h | ⟨d, h⟩ := h
  · rw [h]
  · rw [h]; exact getD_setD_other _ _ _ _ _ _ n

theorem State.OneSlot.self (s : State) (fn sl : Nat) : s.OneSlot s fn sl := .inl rfl
theorem State.setDslot_one (s : State) (fn sl : Nat) (d : DgeSlot) : s.OneSlot (s.setDslot fn sl d) fn sl := .inr ⟨d, rfl⟩
theorem State.slotError_one (s : State) (fn sl n : Nat) : s.OneSlot (s.slotError fn sl n) fn sl :=
  .inr ⟨{ (s.dslot fn sl).note 0x10 n with st := 3, busy := 0, buf := [] }, rfl⟩
theorem State.releaseSlot_one (s : State) (fn sl : Nat) : s.OneSlot (s.releaseSlot fn sl) fn sl :=
  .inr ⟨DgeSlot.blank, rfl⟩

theorem State.claim_one (s : State) (fn sl alg : Nat) : s.OneSlot (s.claim fn sl alg) fn sl := by
  simp only [State.claim]
  repeat' split
  all_goals first
    | exact .self s fn sl
    | exact s.setDslot_one fn sl _
    | (right; refine ⟨DgeSlot.note (s.dslot fn sl) 0x17 0x01, ?_⟩; rw [State.raise_dge]; rfl)

theorem State.keySlot_one (s : State) (fn sl : Nat) : s.OneSlot (s.keySlot fn sl) fn sl := by
  simp only [State.keySlot]
  repeat' split
  all_goals first | exact .self s fn sl | exact s.setDslot_one fn sl _

theorem State.onSlot_one (s : State) (fn sl : Nat) (f : DgeSlot → State → State) (h : ∀ d, s.OneSlot (f d s) fn sl) :
    s.OneSlot (s.onSlot fn sl f) fn sl := by
  simp only [State.onSlot]
  split
  · exact .self s fn sl
  · exact h _

theorem State.lastSlot_one (s : State) (fn sl : Nat) : s.OneSlot (s.lastSlot fn sl) fn sl := by
  refine s.onSlot_one fn sl _ (fun d => ?_)
  repeat' split
  all_goals first | exact .self s fn sl | exact s.slotError_one fn sl _ | exact s.setDslot_one fn sl _

theorem State.restartSlot_one (s : State) (fn sl : Nat) : s.OneSlot (s.restartSlot fn sl) fn sl :=
  s.onSlot_one fn sl _ (fun d => .inr ⟨{ DgeSlot.blank with st := 1, alg := d.alg, chain := algInit d.alg, image := d.image }, rfl⟩)

theorem State.exportSlot_one (s : State) (fn sl : Nat) : s.OneSlot (s.exportSlot fn sl) fn sl := by
  refine s.onSlot_one fn sl _ (fun d => ?_)
  split
  · exact .self s fn sl
  · exact s.setDslot_one fn sl _

theorem State.importSlot_one (s : State) (fn sl : Nat) : s.OneSlot (s.importSlot fn sl) fn sl := by
  simp only [State.importSlot]
  repeat' split
  all_goals first | exact .self s fn sl | exact s.slotError_one fn sl _ | exact s.setDslot_one fn sl _

theorem State.denied_dge (s : State) (fn : Nat) (w : Bool) (k o p : Nat) : (s.denied fn w k o p).dge = s.dge := by
  simp only [State.denied]; split <;> simp

theorem State.slotData_one (s : State) (fn sl v : Nat) : s.OneSlot (s.slotData fn sl v) fn sl := by
  simp only [State.slotData]
  repeat' split
  all_goals first
    | exact .self s fn sl
    | exact s.slotError_one fn sl _
    | exact s.setDslot_one fn sl _
    | exact .inl (by rw [State.denied_dge])

end Sys2Proof.Machine
end

