-- ==== Sys2Proof/Laws/Irq.lean ====
section
/-! SUPPORT. Interrupt causes and error logs: a raised cause is set, and what raising, recording and logging reach
(Machine/Ops.lean). -/

namespace Sys2Proof.Machine

/-! ### Causes -/

theorem State.irqStatus_setIrqStatus (s : State) (sub v : Nat) (h : sub < 65536) :
    (s.setIrqStatus sub v).irqStatus sub = v % 2 ^ 32 := by
  have e : (s.setIrqStatus sub v).rd fIRQ_STATUS_ERR sub = v % 2 % 2 := by
    unfold State.setIrqStatus
    rw [State.rd_wr_other h h (.inl (by decide)), State.rd_wr_other h h (.inl (by decide)), State.rd_wr_same]; rfl
  have f : (s.setIrqStatus sub v).rd fIRQ_STATUS_FAULT sub = v / 2 % 2 % 2 := by
    unfold State.setIrqStatus
    rw [State.rd_wr_other h h (.inl (by decide)), State.rd_wr_same]; rfl
  have g : (s.setIrqStatus sub v).rd fIRQ_STATUS_SUB sub = v / 4 % 2 ^ 30 := by
    unfold State.setIrqStatus; rw [State.rd_wr_same]; rfl
  unfold State.irqStatus
  rw [e, f, g]; omega

theorem State.setIrqBit_sets (s : State) (sub b : Nat) (h : sub < 65536) (hb : b < 32) :
    ((s.setIrqBit sub b).irqStatus sub).testBit b = true := by
  have e : ((s.setIrqStatus sub (withBit (s.irqStatus sub) b)).irqStatus sub).testBit b = true := by
    rw [State.irqStatus_setIrqStatus _ _ _ h, Nat.testBit_mod_two_pow]
    simp [hb, withBit, Nat.testBit_or]
  simp only [State.setIrqBit]
  split
  · rw [show ∀ u : State, ((u.message 0 (sub - 1)).irqStatus sub) = u.irqStatus sub from fun u => by
      simp [State.irqStatus]]
    exact e
  · exact e

/-- Setting one cause leaves those that are set. -/
theorem State.setIrqBit_keeps (s : State) (sub b q c : Nat) (h : sub < 65536) (hq : q < 65536) (hc : c < 32)
    (e : (s.irqStatus q).testBit c = true) : ((s.setIrqBit sub b).irqStatus q).testBit c = true := by
  have g : ((s.setIrqStatus sub (withBit (s.irqStatus sub) b)).irqStatus q).testBit c = true := by
    by_cases hs : sub = q
    · subst hs
      rw [State.irqStatus_setIrqStatus _ _ _ h, Nat.testBit_mod_two_pow]
      simp [hc, withBit, Nat.testBit_or, e]
    · have k : ∀ f : Field, (s.setIrqStatus sub (withBit (s.irqStatus sub) b)).rd f q = s.rd f q := by
        intro f
        unfold State.setIrqStatus
        rw [State.rd_wr_other h hq (.inr hs), State.rd_wr_other h hq (.inr hs), State.rd_wr_other h hq (.inr hs)]
      unfold State.irqStatus at *
      rw [k, k, k]; exact e
  simp only [State.setIrqBit]
  split
  · rw [show ∀ u : State, ((u.message 0 (sub - 1)).irqStatus q) = u.irqStatus q from fun u => by simp [State.irqStatus]]
    exact g
  · exact g

/-! ### Registers that raising and recording reach -/

/-- A field that neither a cause nor the count of lost records touches. -/
def Field.quiet (f : Field) : Bool :=
  f.id ≠ fIRQ_STATUS_ERR.id && f.id ≠ fIRQ_STATUS_FAULT.id && f.id ≠ fIRQ_STATUS_SUB.id && f.id ≠ fTSU_LOG_LOST_COUNT.id

theorem Field.quiet_ne {f : Field} (h : f.quiet = true) :
    fIRQ_STATUS_ERR.id ≠ f.id ∧ fIRQ_STATUS_FAULT.id ≠ f.id ∧ fIRQ_STATUS_SUB.id ≠ f.id ∧ fTSU_LOG_LOST_COUNT.id ≠ f.id := by
  simp only [Field.quiet, Bool.and_eq_true, decide_eq_true_eq] at h
  exact ⟨Ne.symm h.1.1.1, Ne.symm h.1.1.2, Ne.symm h.1.2, Ne.symm h.2⟩

theorem State.rd_setIrqBit {s : State} {sub b : Nat} {f : Field} {i : Nat} (h : sub < 65536) (hi : i < 65536)
    (q : f.quiet = true) : (s.setIrqBit sub b).rd f i = s.rd f i := by
  obtain ⟨q1, q2, q3, _⟩ := Field.quiet_ne q
  have e : ∀ v, (s.setIrqStatus sub v).rd f i = s.rd f i := by
    intro v; unfold State.setIrqStatus
    rw [State.rd_wr_other h hi (.inl q3), State.rd_wr_other h hi (.inl q2), State.rd_wr_other h hi (.inl q1)]
  simp only [State.setIrqBit]
  split
  · rw [State.rd_message]; exact e _
  · exact e _

theorem State.rd_record {s : State} {src kind : Nat} {fn : Option Nat} {d : Nat} {f : Field} {i : Nat} (hi : i < 65536)
    (q : f.quiet = true) : (s.record src kind fn d).rd f i = s.rd f i := by
  obtain ⟨_, _, _, q4⟩ := Field.quiet_ne q
  have b : ∀ u : State, (u.bumpSat fTSU_LOG_LOST_COUNT 0 1).rd f i = u.rd f i := fun u =>
    State.rd_wr_other (by decide) hi (.inl q4)
  unfold State.record
  split
  · rfl
  · split
    · rfl
    · simp only [State.recordLost]
      split
      · exact b s
      · split
        · rw [b, State.rd_setIrqBit (by decide) hi q, b]
        · rw [State.rd_setIrqBit (by decide) hi q, b]

theorem State.rd_raise {s : State} {sub b : Nat} {f : Field} {i : Nat} (h : sub < 65536) (hi : i < 65536)
    (q : f.quiet = true) : (s.raise sub b).rd f i = s.rd f i := by
  unfold State.raise
  split
  · rfl
  · rw [State.rd_record hi q, State.rd_setIrqBit h hi q]

/-- A latched alert cause reads 1 (R55). -/
theorem State.rd_alert_same {s : State} {f : Field} (q : f.quiet = true) : (s.alert f).rd f 0 = lowBits f.len 1 := by
  unfold State.alert
  rw [State.rd_raise (by decide) (by decide) q, State.rd_wr_same]

theorem State.rd_alert_other {s : State} {f g : Field} {i : Nat} (hi : i < 65536) (q : g.quiet = true) (h : f.id ≠ g.id) :
    (s.alert f).rd g i = s.rd g i := by
  unfold State.alert
  rw [State.rd_raise (by decide) hi q, State.rd_wr_other (by decide) hi (.inl h)]

/-- The causes that persist after a reset touch nothing but the causes and what `ALERT` touches (R55). -/
theorem State.rd_alertsAgain {s : State} {f : Field} {i : Nat} (hi : i < 65536) (q : f.quiet = true)
    (n : ∀ p ∈ alertFields, p.1.id ≠ f.id) : s.alertsAgain.rd f i = s.rd f i := by
  have go : ∀ (l : List (Field × Field)) (u : State), (∀ p ∈ l, p.1.id ≠ f.id) →
      (l.foldl (fun (s : State) p => s.alertAgain p.1) u).rd f i = u.rd f i := by
    intro l
    induction l with
    | nil => intro u _; rfl
    | cons p l ih =>
      intro u h
      refine (ih _ (fun p m => h p (List.mem_cons_of_mem _ m))).trans ?_
      show (u.alertAgain p.1).rd f i = _
      unfold State.alertAgain
      split
      · exact State.rd_alert_other hi q (h p List.mem_cons_self)
      · rfl
  exact go _ s n

/-- Comparing the demands touches the level, the mark of a fall in progress and what `REEF_CHANGE` touches. -/
theorem State.rd_reefNow {s : State} {f : Field} {i : Nat} (hi : i < 65536) (q : f.quiet = true)
    (h1 : fPWR_REEF_STATUS_STEPPING.id ≠ f.id) (h2 : fPWR_REEF_STATUS_LEVEL.id ≠ f.id) : s.reefNow.rd f i = s.rd f i := by
  unfold State.reefNow State.reefAgain
  split
  · split
    · unfold State.setLevel
      rw [State.rd_raise (by decide) hi q]
      show ((s.wr fPWR_REEF_STATUS_STEPPING 0 0).wr fPWR_REEF_STATUS_LEVEL 0 s.demand).rd f i = _
      rw [State.rd_wr_other (by decide) hi (.inl h2), State.rd_wr_other (by decide) hi (.inl h1)]
    · rw [State.rd_wr_other (by decide) hi (.inl h1)]
  · rfl

/-! ### A raised cause is set, and stays set under what follows -/

theorem State.record_keeps {s : State} {src kind : Nat} {fn : Option Nat} {d q c : Nat} (hq : q < 65536) (hc : c < 32)
    (e : (s.irqStatus q).testBit c = true) : ((s.record src kind fn d).irqStatus q).testBit c = true := by
  have b : ∀ u : State, (u.bumpSat fTSU_LOG_LOST_COUNT 0 1).irqStatus q = u.irqStatus q := by
    intro u
    unfold State.irqStatus State.bumpSat
    rw [State.rd_wr_other (by decide) hq (.inl (by decide)), State.rd_wr_other (by decide) hq (.inl (by decide)),
      State.rd_wr_other (by decide) hq (.inl (by decide))]
  unfold State.record
  split
  · exact e
  · split
    · exact e
    · simp only [State.recordLost]
      split
      · rw [b]; exact e
      · split
        · rw [b]; exact State.setIrqBit_keeps _ _ _ _ _ (by decide) hq hc (by rw [b]; exact e)
        · exact State.setIrqBit_keeps _ _ _ _ _ (by decide) hq hc (by rw [b]; exact e)

theorem State.raise_sets (s : State) (sub b : Nat) (h : sub < 65536) (hb : b < 32) :
    ((s.raise sub b).irqStatus sub).testBit b = true := by
  unfold State.raise
  split
  · assumption
  · exact State.record_keeps h hb (State.setIrqBit_sets s sub b h hb)

/-- A field quiet for causes that the error log does not touch either. -/
theorem State.rd_writeLog {s : State} {sub : Nat} {e : ErrEntry} {f : Field} {i : Nat} (h : sub < 65536) (hi : i < 65536)
    (q : f.quiet = true) (q1 : f.id ≠ fERR_LOG_PTR_NEXT.id) (q2 : f.id ≠ fERR_LOG_PTR_WRAPPED.id)
    (q3 : f.id ≠ fERR_COUNT_COUNT.id) : (s.writeLog sub e).rd f i = s.rd f i := by
  have w : ∀ (u : State) (g : Field) (v : Nat), f.id ≠ g.id → (u.wr g sub v).rd f i = u.rd f i := fun u g v n =>
    State.rd_wr_other h hi (.inl (Ne.symm n))
  have b : ∀ u : State, (u.bumpSat fERR_COUNT_COUNT sub 1).rd f i = u.rd f i := fun u => w u _ _ q3
  have base : ∀ (u : State) (k n : Nat), u.rd f i = s.rd f i →
      ((((({ u with errLog := put u.errLog k e } : State).wr fERR_LOG_PTR_NEXT sub n).bumpSat fERR_COUNT_COUNT sub 1).record
        sub 2 e.fn (s.rd fERR_LOG_PTR_NEXT sub)).raise sub 0).rd f i = s.rd f i := by
    intro u k n hu
    rw [State.rd_raise h hi q, State.rd_record hi q, b, w _ _ _ q1]; exact hu
  have first : (if (find s.errLog (sub * 16 + s.rd fERR_LOG_PTR_NEXT sub)).isSome = true then
      s.wr fERR_LOG_PTR_WRAPPED sub 1 else s).rd f i = s.rd f i := by
    split
    · exact w s _ _ q2
    · rfl
  simp only [State.writeLog]
  split
  · exact base _ _ _ first
  · rw [State.rd_raise h hi q]; exact base _ _ _ first

/-- The entry written stands at the place that NEXT named. -/
theorem State.writeLog_entry (s : State) (sub : Nat) (e : ErrEntry) :
    find (s.writeLog sub e).errLog (sub * 16 + s.rd fERR_LOG_PTR_NEXT sub) = some e := by
  simp only [State.writeLog]
  split <;> simp

/-- The cause of the entry is raised. -/
theorem State.writeLog_raises (s : State) (sub : Nat) (e : ErrEntry) (h : sub < 65536) (hc : e.cause ≠ 0) (hb : e.cause < 32) :
    ((s.writeLog sub e).irqStatus sub).testBit e.cause = true := by
  simp only [State.writeLog]
  rw [if_neg hc]
  exact State.raise_sets _ _ _ h hb

/-- A NOTICE is logged and reported no further (R473). -/
theorem State.fault_logged (s : State) (sub : Nat) (e : ErrEntry) (h : e.cls = 5) : s.fault sub e = s.writeLog sub e := by
  have n : ∀ u : State, u.noteClass 5 e.source = u := by intro u; unfold State.noteClass; simp
  unfold State.fault State.report
  simp only [h, n]
  rfl

/-- A field that no fault touches: quiet for causes, and none of the error log or of what reports a fault. -/
def Field.still (f : Field) : Bool :=
  f.quiet && !([fERR_LOG_PTR_NEXT, fERR_LOG_PTR_WRAPPED, fERR_COUNT_COUNT, fMGT_FAULT_STATUS_FIRST_SOURCE,
    fMGT_FAULT_STATUS_WORST, fMGT_FAULT_STATUS_CONTAINED, fSTATUS_FAULT, fPWR_ALERT_STATUS_DEVICE_FAULT].map Field.id).contains f.id

theorem Field.still_ne {f : Field} (h : f.still = true) :
    f.quiet = true ∧ f.id ≠ fERR_LOG_PTR_NEXT.id ∧ f.id ≠ fERR_LOG_PTR_WRAPPED.id ∧ f.id ≠ fERR_COUNT_COUNT.id ∧
      f.id ≠ fMGT_FAULT_STATUS_FIRST_SOURCE.id ∧ f.id ≠ fMGT_FAULT_STATUS_WORST.id ∧
      f.id ≠ fMGT_FAULT_STATUS_CONTAINED.id ∧ f.id ≠ fSTATUS_FAULT.id ∧ f.id ≠ fPWR_ALERT_STATUS_DEVICE_FAULT.id := by
  unfold Field.still at h
  simp only [Bool.and_eq_true, Bool.not_eq_true', List.map_cons, List.map_nil, List.contains_eq_mem,
    decide_eq_false_iff_not, List.mem_cons, List.not_mem_nil, or_false, not_or] at h
  exact ⟨h.1, h.2⟩

theorem State.rd_noteClass_of {s : State} {cls src : Nat} {f : Field} {i : Nat} (hi : i < 65536)
    (n1 : f.id ≠ fMGT_FAULT_STATUS_FIRST_SOURCE.id) (n2 : f.id ≠ fMGT_FAULT_STATUS_WORST.id)
    (n3 : f.id ≠ fMGT_FAULT_STATUS_CONTAINED.id) : (s.noteClass cls src).rd f i = s.rd f i := by
  have w : ∀ (u : State) (g : Field) (v : Nat), f.id ≠ g.id → (u.wr g 0 v).rd f i = u.rd f i := fun u g v n =>
    State.rd_wr_other (by decide) hi (.inl (Ne.symm n))
  have c : ∀ u : State, (u.bumpSat fMGT_FAULT_STATUS_CONTAINED 0 1).rd f i = u.rd f i := fun u => w u _ _ n3
  unfold State.noteClass
  dsimp only
  split <;> split <;> split <;> simp only [c, w _ _ _ n1, w _ _ _ n2]

theorem State.rd_noteClass {s : State} {cls src : Nat} {f : Field} {i : Nat} (hi : i < 65536) (q : f.still = true) :
    (s.noteClass cls src).rd f i = s.rd f i := by
  obtain ⟨_, _, _, _, n1, n2, n3, _⟩ := Field.still_ne q
  exact State.rd_noteClass_of hi n1 n2 n3

theorem State.rd_pageFault {s : State} {sub : Nat} {f : Field} {i : Nat} (h : sub < 65536) (hi : i < 65536)
    (q : f.still = true) : (s.pageFault sub).rd f i = s.rd f i := by
  obtain ⟨k, _, _, _, _, _, _, n, _⟩ := Field.still_ne q
  unfold State.pageFault
  split
  · rfl
  · rw [State.rd_raise h hi k, State.rd_wr_other h hi (.inl (Ne.symm n))]

@[simp] theorem State.rd_aer (s : State) (u : Bool) (f : Field) (i : Nat) : (s.aer u).rd f i = s.rd f i :=
  State.rd_congr (s.aer_regs u) f i
@[simp] theorem State.rd_snap (s : State) (sub : Nat) (e : ErrEntry) (f : Field) (i : Nat) :
    (s.snap sub e).rd f i = s.rd f i := State.rd_congr (s.snap_regs sub e) f i

/-- A fault leaves every still field. -/
theorem State.rd_fault {s : State} {sub : Nat} {e : ErrEntry} {f : Field} {i : Nat} (h : sub < 65536) (hi : i < 65536)
    (q : f.still = true) : (s.fault sub e).rd f i = s.rd f i := by
  obtain ⟨k, n1, n2, n3, _, _, _, _, n8⟩ := Field.still_ne q
  have a : ∀ u : State, (u.alert fPWR_ALERT_STATUS_DEVICE_FAULT).rd f i = u.rd f i := fun u =>
    State.rd_alert_other hi k (Ne.symm n8)
  unfold State.fault State.report
  dsimp only
  split
  · rw [State.rd_aer, a, State.rd_pageFault h hi q, State.rd_noteClass hi q, State.rd_writeLog h hi k n1 n2 n3]
  · split
    · rw [State.rd_snap, State.rd_aer, a, State.rd_pageFault h hi q, State.rd_noteClass hi q, State.rd_writeLog h hi k n1 n2 n3]
    · rw [State.rd_noteClass hi q, State.rd_writeLog h hi k n1 n2 n3]

theorem State.rd_notice {s : State} {sub unit : Nat} {f : Field} {i : Nat} (h : sub < 65536) (hi : i < 65536)
    (q : f.still = true) : (s.notice sub unit).rd f i = s.rd f i := State.rd_fault h hi q

@[simp] theorem State.checkDone_clk (s : State) : s.checkDone.clk = s.clk := by
  unfold State.checkDone
  split
  · rfl
  · dsimp only
    rw [State.raise_clk]
    split <;> rfl

/-- BRINGUP_DONE touches MGT_BRINGUP_STATUS, the staging stack and what its cause touches (R83). -/
theorem State.rd_checkDone {s : State} {f : Field} {i : Nat} (hi : i < 65536) (q : f.quiet = true)
    (n : ([fMGT_BRINGUP_STATUS_DONE, fMGT_BRINGUP_STATUS_DEGRADED, fMGT_BRINGUP_STATUS_ELAPSED_MS,
      fHMC_STACK_STAGING].map Field.id).contains f.id = false) : s.checkDone.rd f i = s.rd f i := by
  simp only [List.map_cons, List.map_nil, List.contains_eq_mem, decide_eq_false_iff_not, List.mem_cons,
    List.not_mem_nil, or_false, not_or] at n
  obtain ⟨n1, n2, n3, n4⟩ := n
  have w : ∀ (u : State) (g : Field) (j v : Nat), j < 65536 → f.id ≠ g.id → (u.wr g j v).rd f i = u.rd f i :=
    fun u g j v hj n => State.rd_wr_other hj hi (.inl (Ne.symm n))
  unfold State.checkDone
  split
  · rfl
  · dsimp only
    rw [State.rd_raise (by decide) hi q]
    split
    · next st hs =>
      have : st < 8 := List.mem_range.1 (List.mem_of_find?_eq_some hs)
      rw [w _ _ _ _ (by omega) n4, w _ _ _ _ (by decide) n3, w _ _ _ _ (by decide) n2, w _ _ _ _ (by decide) n1]
    · rw [w _ _ _ _ (by decide) n3, w _ _ _ _ (by decide) n2, w _ _ _ _ (by decide) n1]

/-- A fault of a class that is not contained or fatal is logged, and noted in MGT_FAULT_STATUS (R473). -/
theorem State.fault_minor (s : State) (sub : Nat) (e : ErrEntry) (h2 : e.cls ≠ 2) (h3 : e.cls ≠ 3) (h4 : e.cls ≠ 4) :
    s.fault sub e = (s.writeLog sub e).noteClass e.cls e.source := by
  simp only [State.fault, State.report, h2, h3, h4, if_false, or_self]

/-- A record changes of TSU's own state the reorder buffer alone. -/
theorem State.record_tsu (s : State) (src kind : Nat) (fn : Option Nat) (d : Nat) :
    ∃ l, (s.record src kind fn d).tsu = { s.tsu with reorder := l } := by
  unfold State.record
  split
  · exact ⟨s.tsu.reorder, rfl⟩
  · split
    · exact ⟨_, rfl⟩
    · refine ⟨s.tsu.reorder, ?_⟩
      simp only [State.recordLost]
      split
      · rfl
      · split <;> simp

theorem State.raise_tsu (s : State) (sub b : Nat) : ∃ l, (s.raise sub b).tsu = { s.tsu with reorder := l } := by
  unfold State.raise
  split
  · exact ⟨s.tsu.reorder, rfl⟩
  · obtain ⟨l, h⟩ := (s.setIrqBit sub b).record_tsu sub 1 none b
    exact ⟨l, by rw [h]; simp⟩

end Sys2Proof.Machine
end

