-- ==== Sys2Proof/Laws/Memory.lean ====
section
/-! SUPPORT. Memories keep their canonical form, and what a write of bytes reaches: host memory, HBM, local store
(Machine/Ops.lean, Machine/Hbm.lean, Machine/Tile.lean). -/

namespace Sys2Proof.Machine

/-! ### The canonical form -/

theorem State.hostWrite_wf (s : State) (a : Nat) (d : List Byte) (h : s.hostMem.wf = true) :
    (s.hostWrite a d).hostMem.wf = true := Mem.wf_store s.hostMem a d h

theorem State.putLine_wf (s : State) (line : Nat) (l : Line) (c : Check) (h : s.hbm.wf = true) :
    (s.putLine line l c).hbm.wf = true := Mem.wf_store s.hbm _ _ h

theorem Core.lsWrite_ls (c : Core) (off : Nat) (d : List Byte) : (c.lsWrite off d).ls = Mem.store c.ls off d := by
  unfold Core.lsWrite; split <;> rfl

theorem Core.lsWrite_wf (c : Core) (off : Nat) (d : List Byte) (h : c.ls.wf = true) : (c.lsWrite off d).ls.wf = true := by
  rw [Core.lsWrite_ls]; exact Mem.wf_store c.ls off d h

/-! ### Charges -/

/-- A charge of HBM lines reaches the function's account and its count of bytes (R120). -/
theorem State.chargeHbm_shape (s : State) (fn n : Nat) : ∃ r q,
    s.chargeHbm fn n = { s with regs := r, hif := { s.hif with qos := q } } := by
  unfold State.chargeHbm
  split
  · exact ⟨s.regs, s.hif.qos, rfl⟩
  · exact ⟨_, _, rfl⟩

/-! ### Lines of HBM -/

@[simp] theorem State.bucketAdd_hbm (s : State) (st : Nat) : (s.bucketAdd st).hbm = s.hbm := by
  unfold State.bucketAdd; simp only []; split <;> simp

@[simp] theorem State.noteCorrected_hbm (s : State) (line : Nat) (scrub : Bool) : (s.noteCorrected line scrub).hbm = s.hbm := by
  unfold State.noteCorrected; simp only []; split <;> simp

theorem Mem.wf_storeAll (m : Mem) (ps : List (Nat × List Byte)) (h : m.wf = true) : (m.storeAll ps).wf = true := by
  unfold Mem.storeAll
  induction ps generalizing m with
  | nil => exact h
  | cons p ps ih => exact ih _ (Mem.wf_store m p.1 p.2 h)

/-- Writing copies back charges their functions and leaves the copies clean. -/
theorem State.writeBackCopies_shape (s : State) (p : MastLine → Bool) : ∃ r q,
    s.writeBackCopies p = { s with
      regs := r, hif := { s.hif with qos := q }
      mast := s.mast.map (fun c => if p c then { c with dirty := false } else c) } := by
  have go : ∀ (l : List MastLine) (u : State), ∃ r q,
      l.foldl (fun s c => s.chargeHbm c.fn 1) u = { u with regs := r, hif := { u.hif with qos := q } } := by
    intro l
    induction l with
    | nil => exact fun u => ⟨u.regs, u.hif.qos, rfl⟩
    | cons c l ih =>
      intro u
      obtain ⟨r, q, h⟩ := u.chargeHbm_shape c.fn 1
      obtain ⟨r', q', k⟩ := ih (u.chargeHbm c.fn 1)
      exact ⟨r', q', by rw [List.foldl_cons, k, h]⟩
  exact go _ _

/-- Invalidating copies writes the dirty ones back and takes all of them out. -/
theorem State.dropCopies_shape (s : State) (p : MastLine → Bool) : ∃ r q l,
    s.dropCopies p = { s with regs := r, hif := { s.hif with qos := q }, mast := l } := by
  obtain ⟨r, q, h⟩ := s.writeBackCopies_shape p
  unfold State.dropCopies
  rw [h]; exact ⟨_, _, _, rfl⟩

/-- No copy that satisfies `p` stays. -/
theorem State.dropCopies_mast (s : State) (p : MastLine → Bool) (c : MastLine) (h : c ∈ (s.dropCopies p).mast) :
    p c = false := by
  unfold State.dropCopies at h
  simpa using (List.mem_filter.1 h).2

@[simp] theorem State.dropLine_hbm (s : State) (line : Nat) : (s.dropLine line).hbm = s.hbm := by
  obtain ⟨_, _, _, h⟩ := s.dropCopies_shape (fun c => c.line = line); unfold State.dropLine; rw [h]
@[simp] theorem State.dropLine_hmc (s : State) (line : Nat) : (s.dropLine line).hmc = s.hmc := by
  obtain ⟨_, _, _, h⟩ := s.dropCopies_shape (fun c => c.line = line); unfold State.dropLine; rw [h]
@[simp] theorem State.writeBackCopies_hbm (s : State) (p : MastLine → Bool) : (s.writeBackCopies p).hbm = s.hbm := by
  obtain ⟨_, _, h⟩ := s.writeBackCopies_shape p; rw [h]
@[simp] theorem State.writeBackCopies_hmc (s : State) (p : MastLine → Bool) : (s.writeBackCopies p).hmc = s.hmc := by
  obtain ⟨_, _, h⟩ := s.writeBackCopies_shape p; rw [h]

/-- A demand read of a good line writes back the dirty copies of the line, and that is all. -/
theorem State.readLine_good {s : State} {line : Nat} (h : s.checkOf line = .good) :
    s.readLine line = s.writeBackCopies (fun c => c.line = line) := by
  have e : (s.writeBackCopies (fun c => c.line = line)).checkOf line = .good := by
    unfold State.checkOf at h ⊢; rw [State.writeBackCopies_hmc]; exact h
  unfold State.readLine State.readStored State.lineClass
  rw [e]; rfl

@[simp] theorem State.noteUncorrectable_hbm (s : State) (line : Nat) : (s.noteUncorrectable line).hbm = s.hbm := by
  unfold State.noteUncorrectable
  simp only [State.fault_hbm, State.bumpSat_hbm]
  split <;> simp [State.setCheck]

/-- A demand read keeps the canonical form: it writes at most the corrected data of its line back (R422, R428). -/
theorem State.readLine_wf (s : State) (line : Nat) (h : s.hbm.wf = true) : (s.readLine line).hbm.wf = true := by
  have h0 : (s.writeBackCopies (fun c => c.line = line)).hbm.wf = true := by rw [State.writeBackCopies_hbm]; exact h
  unfold State.readLine State.readStored
  split
  · simp only [State.noteCorrected_hbm]; exact State.putLine_wf _ _ _ _ h0
  · simp only [State.noteUncorrectable_hbm]; exact h0
  · exact h0

/-- Bytes written to a good line are stored, the line stays good, and HBM changes nowhere else (R431, R432). -/
theorem State.writeInLine_good {s : State} {line : Nat} {ps : List (Nat × List Byte)} (h : s.checkOf line = .good) :
    (s.writeInLine line ps).1.hbm = Mem.storeAll s.hbm ps ∧ (s.writeInLine line ps).1.checkOf line = .good ∧
      (s.writeInLine line ps).2 = false := by
  have e : (s.dropLine line).checkOf line = .good := by
    unfold State.checkOf at h ⊢; rw [State.dropLine_hmc]; exact h
  have e2 : ((s.dropLine line).writeBackCopies (fun c => c.line = line)).checkOf line = .good := by
    unfold State.checkOf at e ⊢; rw [State.writeBackCopies_hmc]; exact e
  unfold State.writeInLine
  simp only [State.readLine_good e]
  split
  · exact ⟨by simp [State.setCheck], by simp [State.setCheck, State.checkOf, getD_setD_same], rfl⟩
  · have : ((s.dropLine line).writeBackCopies (fun c => c.line = line)).lineClass line ≠ 3 := by
      unfold State.lineClass; rw [e2]; simp
    rw [if_neg this]
    exact ⟨by simp [State.setCheck], by simp [State.setCheck, State.checkOf, getD_setD_same], rfl⟩

/-- A write of a good line leaves host memory and the cores. -/
theorem State.writeInLine_rest {s : State} {line : Nat} {ps : List (Nat × List Byte)} (h : s.checkOf line = .good) :
    (s.writeInLine line ps).1.hostMem = s.hostMem ∧ (s.writeInLine line ps).1.oca = s.oca := by
  obtain ⟨_, _, _, d⟩ := s.dropCopies_shape (fun c => c.line = line)
  have e : (s.dropLine line).checkOf line = .good := by
    unfold State.checkOf at h ⊢; rw [State.dropLine_hmc]; exact h
  have d1 : (s.dropLine line).hostMem = s.hostMem ∧ (s.dropLine line).oca = s.oca := by unfold State.dropLine; rw [d]; exact ⟨rfl, rfl⟩
  obtain ⟨_, _, w⟩ := (s.dropLine line).writeBackCopies_shape (fun c => c.line = line)
  have w1 : ∀ x y, ((s.dropLine line).writeBackCopies (fun c => c.line = line)).hostMem = x →
      ((s.dropLine line).writeBackCopies (fun c => c.line = line)).oca = y →
      (s.writeInLine line ps).1.hostMem = s.hostMem ∧ (s.writeInLine line ps).1.oca = s.oca := by
    intro x y _ _
    unfold State.writeInLine
    simp only [State.readLine_good e]
    split
    · exact d1
    · split
      · simp only [State.bumpSat_hostMem, State.bumpSat_oca]; rw [w]; exact d1
      · show _ = _ ∧ _ = _
        simp only [State.setCheck]; rw [w]; exact d1
  exact w1 _ _ rfl rfl

/-- What a write within a line stores, whatever the line held. -/
theorem State.writeInLine_wf (s : State) (line : Nat) (ps : List (Nat × List Byte)) (h : s.hbm.wf = true) :
    (s.writeInLine line ps).1.hbm.wf = true := by
  have h0 : (s.dropLine line).hbm.wf = true := by rw [State.dropLine_hbm]; exact h
  unfold State.writeInLine
  simp only []
  split
  · exact Mem.wf_storeAll _ ps h0
  · split
    · simp only [State.bumpSat_hbm]; exact Mem.wf_storeAll _ ps (State.readLine_wf _ line h0)
    · exact Mem.wf_storeAll _ ps (State.readLine_wf _ line h0)

end Sys2Proof.Machine
end

