-- ==== Sys2Proof/Laws/Queue.lean ====
section
/-! SUPPORT. Admin commands: which entry one is, and what running it does (Machine/Queue.lean). -/

namespace Sys2Proof.Machine

/-- An admin command of the opcode is ready where the device executes commands and one has been fetched. -/
theorem State.adminReady_of {s : State} {fn op : Nat} {e : Entry} (h1 : s.running = true) (h2 : s.ready 2 = true)
    (h3 : s.adminNext fn op = some e) : s.adminReady fn op = true := by
  simp [State.adminReady, h1, h2, h3]

/-- The command runs on its entry, and its completion carries the statuses that `f` gives. -/
theorem State.adminRun_of {s : State} {fn op : Nat} {e : Entry} (h : s.adminNext fn op = some e)
    (f : Line → State → Nat × Nat × Nat × Nat × State) :
    s.adminRun fn op f = (f e.line s).2.2.2.2.complete ⟨fn, 0, e.tag⟩ (f e.line s).1 (f e.line s).2.1
      (f e.line s).2.2.1 (f e.line s).2.2.2.1 := by
  rw [State.adminRun, h]

/-- The queues do not depend on registers. -/
@[simp] theorem State.queue_wr (s : State) (f : Field) (i v fn qid : Nat) : (s.wr f i v).queue fn qid = s.queue fn qid := rfl

end Sys2Proof.Machine
end

