-- ==== Sys2Proof/Laws/Task.lean ====
section
/-! SUPPORT. A task that starts: what staging and starting reach of a core (Machine/Peg.lean). -/

namespace Sys2Proof.Machine

@[simp] theorem State.bucketAdd_oca (s : State) (st : Nat) : (s.bucketAdd st).oca = s.oca := by
  unfold State.bucketAdd; simp only []; split <;> simp

@[simp] theorem State.noteCorrected_oca (s : State) (line : Nat) (scrub : Bool) : (s.noteCorrected line scrub).oca = s.oca := by
  unfold State.noteCorrected; simp only []; split <;> simp

@[simp] theorem State.chargeHbm_oca (s : State) (fn n : Nat) : (s.chargeHbm fn n).oca = s.oca := by
  obtain ⟨_, _, h⟩ := s.chargeHbm_shape fn n; rw [h]
@[simp] theorem State.dropCopies_oca (s : State) (p : MastLine → Bool) : (s.dropCopies p).oca = s.oca := by
  obtain ⟨_, _, _, h⟩ := s.dropCopies_shape p; rw [h]
@[simp] theorem State.writeBackCopies_oca (s : State) (p : MastLine → Bool) : (s.writeBackCopies p).oca = s.oca := by
  obtain ⟨_, _, h⟩ := s.writeBackCopies_shape p; rw [h]

@[simp] theorem State.noteUncorrectable_oca (s : State) (line : Nat) : (s.noteUncorrectable line).oca = s.oca := by
  unfold State.noteUncorrectable
  simp only [State.fault_oca, State.bumpSat_oca]
  split
  · rfl
  · exact s.dropCopies_oca _

@[simp] theorem State.readLine_oca (s : State) (line : Nat) : (s.readLine line).oca = s.oca := by
  unfold State.readLine State.readStored
  split
  · rw [State.noteCorrected_oca]; exact s.writeBackCopies_oca _
  · rw [State.noteUncorrectable_oca]; exact s.writeBackCopies_oca _
  · exact s.writeBackCopies_oca _

@[simp] theorem State.mastPut_oca (s : State) (c : MastLine) : (s.mastPut c).oca = s.oca := by
  unfold State.mastPut
  dsimp only
  split
  · rfl
  · split
    · rfl
    · exact s.drawn.dropCopies_oca _

@[simp] theorem State.mastRead_oca (s : State) (t fn line : Nat) : (s.mastRead t fn line).oca = s.oca := by
  unfold State.mastRead
  dsimp only
  split
  · rfl
  · split <;> simp

/-! Nor do they reach the scheduler. -/

@[simp] theorem State.bucketAdd_bsn (s : State) (st : Nat) : (s.bucketAdd st).bsn = s.bsn := by
  unfold State.bucketAdd; simp only []; split <;> simp

@[simp] theorem State.noteCorrected_bsn (s : State) (line : Nat) (scrub : Bool) : (s.noteCorrected line scrub).bsn = s.bsn := by
  unfold State.noteCorrected; simp only []; split <;> simp

@[simp] theorem State.chargeHbm_bsn (s : State) (fn n : Nat) : (s.chargeHbm fn n).bsn = s.bsn := by
  obtain ⟨_, _, h⟩ := s.chargeHbm_shape fn n; rw [h]
@[simp] theorem State.dropCopies_bsn (s : State) (p : MastLine → Bool) : (s.dropCopies p).bsn = s.bsn := by
  obtain ⟨_, _, _, h⟩ := s.dropCopies_shape p; rw [h]
@[simp] theorem State.writeBackCopies_bsn (s : State) (p : MastLine → Bool) : (s.writeBackCopies p).bsn = s.bsn := by
  obtain ⟨_, _, h⟩ := s.writeBackCopies_shape p; rw [h]

@[simp] theorem State.noteUncorrectable_bsn (s : State) (line : Nat) : (s.noteUncorrectable line).bsn = s.bsn := by
  unfold State.noteUncorrectable
  simp only [State.fault_bsn, State.bumpSat_bsn]
  split
  · rfl
  · exact s.dropCopies_bsn _

@[simp] theorem State.readLine_bsn (s : State) (line : Nat) : (s.readLine line).bsn = s.bsn := by
  unfold State.readLine State.readStored
  split
  · rw [State.noteCorrected_bsn]; exact s.writeBackCopies_bsn _
  · rw [State.noteUncorrectable_bsn]; exact s.writeBackCopies_bsn _
  · exact s.writeBackCopies_bsn _

@[simp] theorem State.mastPut_bsn (s : State) (c : MastLine) : (s.mastPut c).bsn = s.bsn := by
  unfold State.mastPut
  dsimp only
  split
  · rfl
  · split
    · rfl
    · exact s.drawn.dropCopies_bsn _

@[simp] theorem State.mastRead_bsn (s : State) (t fn line : Nat) : (s.mastRead t fn line).bsn = s.bsn := by
  unfold State.mastRead
  dsimp only
  split
  · rfl
  · split <;> simp

@[simp] theorem State.chargeCore_oca (s : State) (fn n : Nat) : (s.chargeCore fn n).oca = s.oca := rfl

/-- A line that enters the instruction cache leaves the registers and the task of the core. -/
theorem Core.putLine_keeps (c : Core) (line : Nat) (l : Line) : (c.putLine line l).v = c.v ∧ (c.putLine line l).task = c.task := by
  unfold Core.putLine; split <;> exact ⟨rfl, rfl⟩

/-- Filling a line of the instruction cache leaves the registers and the task of the core. -/
theorem State.fillICache_core (s : State) (t line : Nat) (l : Line) :
    ((s.fillICache t line l).core t).v = (s.core t).v ∧ ((s.fillICache t line l).core t).task = (s.core t).task := by
  simp only [State.fillICache]
  split
  · rw [State.core_setCore]; exact (s.core t).putLine_keeps line l
  · have e : ∀ c, (s.setCore t c).drawn.core t = c := fun c => (State.core_congr rfl t).trans (State.core_setCore s t c)
    rw [e]; exact ((s.core t).dropLine _).putLine_keeps line l

theorem State.stageLine_core (s : State) (t fn line : Nat) :
    ((s.stageLine t fn line).core t).v = (s.core t).v ∧ ((s.stageLine t fn line).core t).task = (s.core t).task := by
  unfold State.stageLine
  split
  · exact ⟨rfl, rfl⟩
  · next dpa _ =>
    have e : (s.mastRead t fn (dpa / 64)).core t = s.core t := State.core_congr (by simp) t
    dsimp only
    split
    · rw [e]; exact ⟨rfl, rfl⟩
    · obtain ⟨h, k⟩ := State.fillICache_core (s.mastRead t fn (dpa / 64)) t line ((s.mastRead t fn (dpa / 64)).lineData (dpa / 64))
      rw [h, k, e]; exact ⟨rfl, rfl⟩

/-- Staging a task leaves the vector registers and the task of the core. -/
theorem State.stage_core (s : State) (t peg k : Nat) (x : Task) :
    ((s.stage t peg k x).core t).v = (s.core t).v ∧ ((s.stage t peg k x).core t).task = (s.core t).task := by
  unfold State.stage
  split
  · exact ⟨rfl, rfl⟩
  · have go : ∀ (l : List Nat) (f : Nat → Nat) (u : State), (u.core t).v = (s.core t).v ∧ (u.core t).task = (s.core t).task →
        ((l.foldl (fun s i => s.stageLine t x.fn (f i)) u).core t).v = (s.core t).v ∧
        ((l.foldl (fun s i => s.stageLine t x.fn (f i)) u).core t).task = (s.core t).task := by
      intro l f
      induction l with
      | nil => intro u h; exact h
      | cons i l ih =>
        intro u h
        refine ih _ ?_
        obtain ⟨e1, e2⟩ := u.stageLine_core t x.fn (f i)
        rw [e1, e2]; exact h
    refine go _ _ _ ?_
    rw [State.core_onCore]
    have hc : ∀ (r' : Run) (y : Task), ((s.setRun x.run r').setTask k y).core t = s.core t := fun _ _ => State.core_congr rfl t
    have hd : ∀ y : Task, (s.setTask k y).core t = s.core t := fun _ => State.core_congr rfl t
    split <;> split <;> simp only [hc, hd, and_self]

theorem State.stageLine_bsn (s : State) (t fn line : Nat) : (s.stageLine t fn line).bsn = s.bsn := by
  unfold State.stageLine
  split
  · rfl
  · dsimp only
    split
    · simp
    · unfold State.fillICache; dsimp only; split
      · exact State.mastRead_bsn _ _ _ _
      · exact State.mastRead_bsn _ _ _ _

/-- Staging a task of a run leaves the task that run, and the run its graph and its parameters. -/
theorem State.stage_run (s : State) (t peg k : Nat) (x : Task) (r : Run) (h : s.run x.run = some r) :
    ∃ y r', (s.stage t peg k x).task k = some y ∧ y.run = x.run ∧ y.node = x.node ∧
      (s.stage t peg k x).run x.run = some r' ∧ r'.params = r.params ∧ (s.stage t peg k x).graphOf r' = s.graphOf r := by
  unfold State.stage
  rw [h]
  dsimp only
  have go : ∀ (l : List Nat) (f : Nat → Nat) (u : State),
      (l.foldl (fun s i => s.stageLine t x.fn (f i)) u).bsn = u.bsn := by
    intro l f
    induction l with
    | nil => intro u; rfl
    | cons i l ih => intro u; exact (ih _).trans (u.stageLine_bsn _ _ _)
  unfold State.task State.run State.graphOf State.graph
  rw [go]
  cases x.token with
  | none => exact ⟨_, r, find_put_same _ _ _, rfl, rfl, h, rfl, rfl⟩
  | some q =>
    refine ⟨_, r.noteClose _ _ _, find_put_same _ _ _, rfl, rfl, find_put_same _ _ _, ?_, ?_⟩
    · unfold Run.noteClose; split <;> rfl
    · show (find s.bsn.graphs ((r.noteClose _ _ _).fn * 64 + (r.noteClose _ _ _).graph)).getD _ = _
      unfold Run.noteClose; split <;> rfl

/-- A task that starts on a tile finds its core begun, with the vector registers of before. -/
theorem State.startTask_core (s : State) (t peg k : Nat) (x : Task) (r : Run) (h : s.run x.run = some r) :
    ∃ since a b, (s.startTask t peg k x).core t =
      { (s.core t).begin k ((s.graphOf r).entry r x.node) (fieldAt (r.record ((s.graphOf r).node x.node)) 4 4) ((s.graphOf r).node x.node).lsBytes
          (s.clk.cyc + 12 * ((s.core t).scrubEnd - s.clk.tsu) / s.clk.div)
          (if peg = 0 then (s.core t).bankA else (s.core t).bankB) with fnSince := since, bankA := a, bankB := b } := by
  unfold State.startTask
  rw [h]
  refine ⟨if s.tileHolds t = some x.fn then (s.core t).fnSince else s.clk.tsu, if peg = 0 then (s.core t).bankB else [], [], ?_⟩
  refine (State.core_congr ?_ t).trans (State.core_setCore s t _)
  dsimp only
  split <;> rfl

end Sys2Proof.Machine
end

