-- ==== Sys2Proof/Laws/Vector.lean ====
section
/-! SUPPORT. Elements of vector registers: an element of a register that was built from elements is the one put there
(Machine/Vector.lean). -/

namespace Sys2Proof.Machine

theorem packEls_lt (w : Nat) (l : List Nat) : packEls w l < 2 ^ (8 * w * l.length) := by
  induction l with
  | nil => simp [packEls]
  | cons x l ih =>
    simp only [packEls, List.length_cons]
    have h1 : x % 2 ^ (8 * w) < 2 ^ (8 * w) := Nat.mod_lt _ (Nat.two_pow_pos _)
    have h2 : 2 ^ (8 * w * (l.length + 1)) = 2 ^ (8 * w) * 2 ^ (8 * w * l.length) := by rw [← Nat.pow_add]; congr 1; ring
    rw [h2]
    nlinarith [Nat.two_pow_pos (8 * w)]

theorem bitField_packEls (w : Nat) (l : List Nat) (i : Nat) (h : i < l.length) :
    bitField (packEls w l) (8 * w * i) (8 * w) = l[i] % 2 ^ (8 * w) := by
  induction l generalizing i with
  | nil => simp at h
  | cons x l ih =>
    unfold bitField at *
    cases i with
    | zero => simp [packEls]
    | succ i =>
      simp only [packEls, List.getElem_cons_succ]
      rw [show 8 * w * (i + 1) = 8 * w + 8 * w * i by ring, Nat.pow_add, ← Nat.div_div_eq_div_mul,
        Nat.add_mul_div_left _ _ (Nat.two_pow_pos _), Nat.div_eq_of_lt (Nat.mod_lt _ (Nat.two_pow_pos _)), Nat.zero_add]
      exact ih i (by simpa using h)

/-- Elements fill a register of 512 bytes. -/
theorem el_buildV {w : Nat} (hw : 8 * w * maxEl w = 4096) (f : Nat → Nat) {i : Nat} (h : i < maxEl w) :
    el w (buildV w f) i = f i % 2 ^ (8 * w) := by
  have hl : packEls w ((List.range (maxEl w)).map f) < 2 ^ 4096 := by
    have := packEls_lt w ((List.range (maxEl w)).map f)
    rwa [List.length_map, List.length_range, hw] at this
  unfold el buildV
  rw [BitVec.toNat_ofNat, Nat.mod_eq_of_lt hl, bitField_packEls _ _ _ (by simpa using h)]
  simp

@[simp] theorem el_lt (w : Nat) (v : VReg) (i : Nat) : el w v i < 2 ^ (8 * w) := Nat.mod_lt _ (Nat.two_pow_pos _)

/-- Of a destination the active elements are replaced, and the others stay. -/
theorem el_overlayV {w : Nat} (hw : 8 * w * maxEl w = 4096) (n : Nat) (vm : MReg) (old : VReg) (f : Nat → Nat) {i : Nat}
    (h : i < maxEl w) :
    el w (overlayV w n vm old f) i = if active w n vm i = true then f i % 2 ^ (8 * w) else el w old i := by
  unfold overlayV
  rw [el_buildV hw _ h]
  split
  · rfl
  · exact Nat.mod_eq_of_lt (el_lt w old i)

@[simp] theorem Core.getV_putV (c : Core) (r : Nat) (v : VReg) : (c.putV r v).getV r = v := getD_setD_same 0 c.v r v

theorem Core.getV_putV_other (c : Core) {r q : Nat} (v : VReg) (h : q ≠ r) : (c.putV r v).getV q = c.getV q :=
  getD_setD_other 0 0 c.v r q v h

end Sys2Proof.Machine
end

