-- ==== Sys2Proof/Tests/Slice0.lean ====
section
/-! SUPPORT. Tests: a state and operands that meet the hypotheses of each statement (`wit_…`), an ill-formed command for each
check of WellFormed, and checks against the worked examples of spec/ (`test_…`, the example in the comment). -/

set_option linter.unusedVariables false
set_option Elab.async false

namespace Sys2Proof.Machine.Tests
open Sys2Proof Sys2Proof.Machine

/-! ### States for the witnesses -/

def up : State :=
  let r := State.reset
  let a := (List.range 16).foldl (fun (s : State) i => s.wr fSTATUS_READY (i + 1) 1) r
  let b := a.setCfg 0 .memorySpace 1
  { b with
      board := { b.board with phase := .run, perstN := true, pwrGood := true },
      hif := { b.hif with linkUp := true } }
def off0 : State := { State.reset with
    board := { State.reset.board with phase := .off, pwrGood := false, stopLatch := 0 } }
def starting0 : State := { State.reset with board := { State.reset.board with phase := .starting, pwrGood := false } }
def faulty : State := { up with
    board := { up.board with faultAt := some 0, faultHoldup := true, inputSwitch := false, holdupSwitch := true } }
def drive0 : DriveInfo := { blocks := 1000, lba512 := true, supported := true, vwc := true, zeroes := true,
                            maxBlocks := 256, mtfa := 1000, queues := 8, speed := 5, width := 4, deepState := 4, label := [] }
def trained : State := { up with
    board := { up.board with drvPresent := 255 },
    clk := { up.clk with tsu := ticksOfMs 4000, now := ticksOfMs 4000 } }
def cxlOpen (s : State) : State := (((s.wr fHIF_CO_ENABLE 0 1).wr fHIF_CO_UNITS 0 1).wr
  fMGT_READY_MAP_MEM_STACK_READY 0 1).wr fHMC_STACK_STATE 0 1
def carved : State := ((up.wr fHIF_CO_UNITS 0 1).wr fMGT_READY_MAP_MEM_STACK_READY 0 1).wr fHMC_STACK_STATE 0 1
def xfer0 : Xfer := { src := 4096, dst := 0, count := 64, sw := 1, dw := 1, sstride := 1, dstride := 1,
                      srcHost := true, dstHost := false, cxl := false }
def halJob0 : HalJob := { fn := 0, work := .register, x := xfer0, next := 64, done := 0, bursts := [⟨0, 64, 0⟩],
                          ending := none, soft := false }
def busyHost : State := { up with hal := { up.hal with jobs := put up.hal.jobs 0 [halJob0] } }
def full4 (s : State) : State := { s.wr fHAL_CH_CFG_ASSIGNED 0 1 with
    hal := { s.hal with jobs := [(0, [halJob0, halJob0])] } }
def xout0 : Xfer := { xfer0 with srcHost := false, dstHost := true }
def ln (bs : List Nat) : Line := BitVec.ofNat 512 (bs.zipIdx.foldl (fun a p => a + p.1 * 256 ^ p.2) 0)
def gq : Queue := { cls := 1, sqBase := 0x10000, cqBase := 0x20000, sqLog := 4, cqLog := 4, mod := 0,
                    irqEn := false, vector := 0, head := 0, tail := 0, poll := false, known := false, readAt := 0, fetched := [], pend := [], waiting := [], cqFull := false, unsignalled := 0, oldest := 0, disabling := false }
def aq : Queue := { gq with cls := 0 }
def cqe0 : Cqe := ⟨0, 0, 0, false, 0, 0, 0⟩
def withQ (fn qid : Nat) (q : Queue) (s : State) : State := s.setQueue fn qid q
def graph0 : Graph := { image := 0, imageBytes := 4096, nodes := [], edges := [], params := [], codeOff := 0,
                        codeBytes := 0, arenaPages := 0, runParamBytes := 0, amuBanks := 0 }
def withG (s : State) : State := { s with bsn := { s.bsn with graphs := put s.bsn.graphs 0 graph0 } }
def lrun : Line := ln ([1] ++ List.replicate 21 0 ++ [16])
def run0 : Run := up.newRun 0 1 lrun
def withR (r : Nat) (x : Run) (s : State) : State := s.setRun r x
def withT (k : Nat) (x : Task) (s : State) : State := s.setTask k x
def withG2 (s : State) : State := { s with
    bsn := { s.bsn with graphs := put s.bsn.graphs 0 { graph0 with amuBanks := 1 } } }
def node0 (k : Nat) : Machine.Node :=
  { kind := k, pass := false, stateful := false, windowed := false, inPorts := 1, outPorts := 1, maxTasks := 1,
    recOff := 0, recLen := 0, codeOff := 0, codeLen := 64, lsBytes := 0, limitUs := 0, stateBytes := 0 }
def graph3 : Graph := { graph0 with
    nodes := (List.range 10).map node0,
    edges := [⟨7, 0, 0, 0, false, false, 4, 4096⟩, ⟨0, 0, 9, 0, false, false, 4, 4096⟩],
    codeBytes := 64 }
def withG3 (s : State) : State := { s with bsn := { s.bsn with graphs := put s.bsn.graphs 0 graph3 } }
def tok0 : Token := { seq := 0, flow := 0, empty := false, skipped := false, poison := false, cols := 0, rows := 0,
                      node := 7, subseq := 0, part := 0, srcTs := 0, sel := 0, fn := 0, colset := 0, runTag := 0, col0 := 0, timeLo := 0, timeHi := 0, bufs := [], stamp := 0 }
def task0 : Task := { fn := 0, run := 7, node := 0, port := 0, token := some tok0, seq := 0, isSource := false,
                      isFinal := false, state := .ready, place := .none, staged := false, home := none, start := 0, list := 0, made := 0, bufs := [], outs := [], status := 0, sub := 0, late := false, closeBelow := 0, result := none }
def up3 : State := (up.wr fOCA_TILE_STATE 3 tsService).wr fMGT_READY_MAP_MAST_MAST_READY 0 1
def withF (s : State) : State := { s with bsn := { s.bsn with flows := [(0, ⟨0, 7, 0, 0, [(0, 0)], [], false⟩)] } }
def otherFn : State := ((withG3 (withT 1 { task0 with node := 0, state := .pegged, place := .pegA 3 } (withR 7
  { run0 with
    started := true } up3))).wr fOCA_TILE_FN_VALID 3 1).wr fOCA_TILE_FN 3 9
def afterScrub : Task := ((((otherFn.scrub 3).chargeCore 0 otherFn.scrubTicks).stage 3 0 1 { task0 with
    node := 0,
    state := .pegged,
    place := .pegA 3 }).task 1).getD task0
def readyTask : State := withG3 (withT 1 { task0 with node := 1 } (withR 7 { run0 with started := true } (up3.wr
  fMGT_READY_MAP_MEM_STACK_READY 0 255)))
def tileTask0 : Task := { task0 with state := .running, place := .tile 3 }
def stacked : State := { (up3.wr fMGT_READY_MAP_MEM_STACK_READY 0 255).wr fHMC_STACK_STATE 0 1 with
    hmc := { up3.hmc with leaves := [(0, ⟨0, true, true⟩)] } }
def tileUp : State := (withG3 (withT 1 tileTask0 (withR 7 { run0 with started := true } stacked))).onCore 3 (fun c =>
  { c with task := some 1 })
def acc0 : MemAcc := { kind := .load 8 false, va := 64, len := 8, rd := 5, stamp := 0, pc := 0, word := 0 }
def tileAcc : State := tileUp.onCore 3 (fun c => { c with accs := [acc0] })
def tileBadAcc : State := tileUp.onCore 3 (fun c => { c with accs := [{ acc0 with va := 2 ^ 40 }] })
def tileVec : State := tileUp.onCore 3 (fun c => { c with vq := [⟨0, 0, 0, 0, 0, 0, 0⟩] })
def haltOut : State := { stacked.wr fHAL_CH_STATUS_STATE 0 2 with
    hal := { up.hal with jobs := [(0, [{ halJob0 with x := xout0 }])] } }
def mjob0 : MglJob := { fn := 0, task := none, channel := 0, qid := 1, tag := 7, desc := 0, bytes := [],
                        result := none, since := 0 }
def mres0 : MglResult := { status := 0, sub := 0, saved := false, inBit := 0, consumed := 0, outPrimary := 0,
                           outChain := 0, crc := 0, blocks := 0, ts := 0, state := none }
def table0 : AmuTable := { keyUnits := 1, hashed := false, banks := [0], spilled := false, damaged := false,
                           entries := 1, multiRows := 0, keyBytes := some 8, payType := none }
def entry0 : AmuEntry := { cells := 0, key := 0, payload := 0, pvalid := true, bad := false }
def fnOne (s : State) : State := s.wr fMGL_ENGINE_FN 0 1
def graph4 : Graph := { graph3 with
    nodes := graph3.nodes.map (fun n => if n.kind = 6 then { n with recLen := 16 } else n),
    params := [1, 0, 0, 0, 0, 0, 0, 0] }
def moveOut (s : State) : State := { s with
    bsn := { s.bsn with
        graphs := put s.bsn.graphs 0 graph4,
        runs := put s.bsn.runs 7 { run0 with started := true, params := [1, 0, 0, 0, 0, 0, 0, 0] } } }
def lcopy : Line := ln ([1] ++ List.replicate 16 0 ++ [16] ++ List.replicate 6 0 ++ [64, 0, 0, 0, 1, 0, 0, 0, 1])
def lmang : Line := ln [1, 0, 0, 0, 1]
def vol0 : Volume := { members := 2, parity := false, chunkLog := 4, stripes := 4, ports := [0, 1], spare := none,
                       missing := [], rebuild := none, resync := [] }
def vcmd0 : VolCmd := { fn := 0, kind := .read, entry := none, task := none, ranges := [(0, 1)], host := true,
                        segs := [], fua := false, locks := [], staging := 0, stage := .fifo, fetches := [], lost := 0, errs := 0, status := 0, sub := 0, orphan := false, held := none }
def dcmd0 : DriveCmd := { tag := 5, port := 0, op := 1, block := 0, count := 1, data := [], fua := false, cmd := 0,
                          item := none, member := 0, since := 0, again := false }
def vbad0 : VolCmd := { vcmd0 with host := false, segs := [(2 ^ 40, 4096)] }
def exited (n : Nat) : State := [2].foldl (fun (u : State) (co : Nat) => u.wr fHIF_CO_ENABLE co 1)
  (((({ (up.wr fCVC_PS_STATUS_STATE 0 n).wr fCVC_PS_STATUS_WAKING 0 1 with hif := { up.hif with coWait := [2] } } :
    State).wr fCVC_PS_STATUS_STATE 0 0).wr fCVC_PS_STATUS_WAKING 0 0).bumpSat fCVC_PS_STATUS_WAKES 0 1)
def deepSleep : State := { (List.range 4).foldl (fun (s : State) i => s.wr fCVC_PS_TIMER_IDLE_US i 1) (up.wr fCVC_PS_STATUS_STATE 0 3) with
    clk := { up.clk with tsu := 2 ^ 50 } }
def withVol (s : State) : State := { s with cvc := { s.cvc with vol := some vol0 } }
def drives8 : NMap DriveInfo := (List.range 8).map (fun p => (p, { drive0 with blocks := 100000 }))
def creatable : State := { (((up.wr fDSP_PORT_STATE 0 3).wr fCVC_VOL_CFG_MEMBERS 0 1).wr fCVC_VOL_CFG_CHUNK_LOG2 0 4) with
    cvc := { up.cvc with drives := drives8 } }
def spareable : State := { up.wr fDSP_PORT_STATE 6 3 with cvc := { up.cvc with vol := some vol0, drives := drives8 } }
def overLimit : State := { up.wr fPWR_REEF_STATUS_CONTROLLER 0 3 with
    clk := { up.clk with tsu := 8000 },
    reef := { up.reef with windows := List.replicate 1000 9000 } }
def cwR (s : State) (dw : Nat) : Nat × Nat := controllerStep (s.setting fPWR_LIMIT_LIMIT_W 0) (s.setting
  fPWR_LIMIT_HYST_W 0) ((dw :: s.reef.windows).take 1000) s.demandController s.reef.sinceRise
def cwU (s : State) (dw mv : Nat) : State := (({ s with
    reef := { s.reef with
        windows := (dw :: s.reef.windows).take 1000,
        sinceRise := (cwR s dw).2,
        lastWindow := s.reef.lastWindow + 1 },
    board := { s.board with inputMv := mv } } : State).wr fPWR_REEF_STATUS_CONTROLLER 0 (cwR s dw).1).reefAgain
def cwW (s : State) (dw mv uj : Nat) : State := (((((cwU s dw mv).wr fPWR_INPUT_MILLIVOLTS 0 mv).wr
  fPWR_INPUT_WATTS_X10 0 dw).wr fPWR_INPUT_MEAN_10MS_X10 0 (windowSum 1000 ((dw :: s.reef.windows).take 1000) / ((dw
    :: s.reef.windows).take 1000).length)).bumpWrap fPWR_ENERGY_MICROJOULES 0 uj).railPowers
def allHeld : State := { up with dge := { up.dge with zeroing := List.replicate 64 0 } }
def openSlot : DgeSlot := { DgeSlot.blank with st := 1, alg := 1, chain := algInit 1 }
def recPre : List Byte := recordHead openSlot 0 0 ++ byteList (List.replicate 12 0) ++ byteList (natBytes
  (openSlot.chain ++ List.replicate (200 - openSlot.chain.length) 0)) ++ byteList (List.replicate 16 0)
def recOf (n : Nat) : List Byte := recPre ++ leBytes 4 n ++ leBytes 4 0
def sealedSlot : DgeSlot := { openSlot with busy := 3, image := recOf (crc32c recPre).toNat }
def sealedIn : State := up.setDslot 0 3 sealedSlot
def scrubbing : State := (stacked.wr fHMC_SCRUB_CFG_ENABLE 0 1).wr fHMC_STACK_STATE 0 1
def testable : State := (((up3.wr fHMC_STACK_STATE 0 1).wr fHMC_TEST_ADDR_LINE 0 0x800000).wr fEXPERT_UNLOCK_UNLOCKED
  6 1)
def poisoned : State := { up with hmc := { up.hmc with check := [(1, .poison)] } }

/-- Tile 3 in MAINTENANCE with nothing outstanding: its program issues any word. -/
def maint : State := up.wr fOCA_TILE_STATE 3 tsMaintenance
/-- Tile 3 serves a task of its function, whose code holds the word `w`. -/
def serving (w : Nat) : State :=
  tileUp.onCore 3 (fun c => { c with icache := [(0, BitVec.ofNat 512 w)] })
/-- Tile 3 in MAINTENANCE with x1 = `v`. -/
def maintX1 (v : Qword) : State := maint.onCore 3 (fun c => { c with x := [(1, v)] })
/-- `Issues`, decided. -/
def issuesB (s : State) (t : Nat) (w : Dword) (e : Enc) (reads : List Nat) : Bool :=
  s.canIssue t w && legal w && e.has w && !(reads.any (s.core t).awaits) && predTest (s.core t).p w &&
    !((s.core t).badRead (predWord (wPsel w) :: reads))
theorem issues_of (s : State) (t : Nat) (w : Dword) (e : Enc) (reads : List Nat) (h : issuesB s t w e reads = true) :
    Issues s t w e reads := by
  simp only [issuesB, Bool.and_eq_true, Bool.not_eq_true'] at h
  obtain ⟨⟨⟨⟨⟨h1, h2⟩, h3⟩, h4⟩, h5⟩, h6⟩ := h
  exact ⟨h1, h2, h3, h4, h5, h6⟩
/-- `s` with a vector instruction in the queue of tile 3. -/
def vecBusy (s : State) : State := s.onCore 3 (fun c => { c with vq := [⟨0, 0, 0, 0, 0, 0, 0⟩] })
/-- `s` with `n` accesses of tile 3 in flight, each to a line of its own. -/
def inFlight (n : Nat) (k : AccKind) (s : State) : State :=
  s.onCore 3 (fun c =>
    { c with accs := (List.range n).map (fun i => { acc0 with kind := k, va := 0x2000 + 64 * i, rd := 0 }) })
/-- `s` with an error in a word of the local store of tile 3. -/
def lsError (word : Nat) (bad : Bool) (s : State) : State := s.onCore 3 (fun c => { c with lsBad := [(word, bad)] })

/-! ### Witnesses of the statements -/

theorem wit_SupplyCommandsComplete :
    (let s : State := off0; let auxMs : Nat := 50; let mv : Nat := 40000; let lowMs : Nat := 0; let removed : Bool := false;
      decide ((s.board.phase = .off) ∧ (s.board.auxOk = true) ∧ (50 ≤ auxMs) ∧ (40000 ≤ mv) ∧ ((s.board.stopLatch = 0 ∨ 10 ≤ lowMs ∨ removed = true)))) = true ∧
    (let s : State := starting0;
      decide ((s.board.phase = .starting))) = true ∧
    (let s : State := starting0; let mv : Nat := 57000;
      decide ((s.board.phase ≠ .off) ∧ (s.board.faultAt = none) ∧ (57000 ≤ mv))) = true ∧
    (let s : State := up; let celsius : Nat := 115;
      decide ((s.board.phase ≠ .off) ∧ (115 ≤ celsius))) = true ∧
    (let s : State := up;
      decide ((s.board.phase ∈ [.run, .warm, .unlocked]) ∧ (s.board.pwrEn = true))) = true ∧
    (let s : State := { up with board := { up.board with phase := .pllLost, pwrEn := true } };
      decide ((s.board.phase ∈ [.pllLost, .pllFailed]) ∧ (s.board.pwrEn = true))) = true ∧
    (let s : State := { off0 with board := { off0.board with auxOk := false } }; let mv : Nat := 3135; let straps : Nat := 5;
      decide ((s.board.auxOk = false) ∧ (3135 ≤ mv) ∧ (mv ≤ 3465))) = true ∧
    (let s : State := up; let mv : Nat := 3134;
      decide ((s.board.auxOk = true) ∧ (s.board.pwrGood = true) ∧ ((mv < 3135 ∨ 3465 < mv)))) = true ∧
    (let s : State := up; let mv : Nat := 38000; let us : Nat := 100;
      decide ((s.board.phase ≠ .off) ∧ (38000 ≤ mv) ∧ (mv < 40000) ∧ (100 ≤ us))) = true ∧
    (let s : State := up; let mv : Nat := 80000; let us : Nat := 100;
      decide ((s.board.phase ≠ .off) ∧ (60000 < mv) ∧ (mv ≤ 80000) ∧ (100 ≤ us))) = true ∧
    (let s : State := up; let rail : Nat := 5; let mv : Nat := 1000;
      decide ((s.railsUp = true) ∧ (s.board.pwrGood = true) ∧ (rail < 6))) = true ∧
    (let s : State := off0;
      decide ((s.railsUp = false) ∧ (s.board.auxOk = true))) = true := by
  decide +kernel

theorem wit_InputFaultCommandsComplete :
    (let s : State := up; let mv : Nat := 80000; let us : Nat := 100;
      decide ((s.board.phase ≠ .off) ∧ (s.board.faultAt = none) ∧ (63000 < mv) ∧ (mv ≤ 80000) ∧ (us ≤ 100) ∧ ((∀ t ∈ s.board.surgeAt, t + ticksOfMs 100 ≤ s.clk.now)))) = true ∧
    (let s : State := { up with board := { up.board with surgeAt := some 0 } }; let mv : Nat := 63001; let us : Nat := 1; let t0 : Nat := 0;
      decide ((s.board.phase ≠ .off) ∧ (s.board.faultAt = none) ∧ (63000 < mv) ∧ (mv ≤ 80000) ∧ ((100 < us ∨ (s.board.surgeAt = some t0 ∧ s.clk.now < t0 + ticksOfMs 100))))) = true ∧
    (let s : State := up; let mv : Nat := 37999; let us : Nat := 0;
      decide ((s.board.phase ≠ .off) ∧ (s.board.faultAt = none) ∧ ((mv < 38000 ∨ (63000 < mv ∧ 100 < us ∧ mv ≤ 80000))))) = true ∧
    (let s : State := faulty; let mv : Nat := 39000; let us : Nat := 100; let t0 : Nat := 0;
      decide ((s.board.phase ≠ .off) ∧ (39000 ≤ mv) ∧ (mv ≤ 60000) ∧ (100 ≤ us) ∧ (s.board.faultHoldup = true) ∧ (s.board.faultAt = some t0) ∧ (s.clk.now < t0 + ticksOfMs 1))) = true ∧
    (let s : State := { faulty with clk := { faulty.clk with now := 800000 } }; let t0 : Nat := 0;
      decide ((s.board.phase ≠ .off) ∧ (s.board.faultHoldup = true) ∧ (s.board.faultAt = some t0) ∧ (t0 + ticksOfMs 1 ≤ s.clk.now))) = true ∧
    (let s : State := { faulty with board := { faulty.board with faultHoldup := false } }; let t0 : Nat := 0;
      decide ((s.board.phase ≠ .off) ∧ (s.board.faultHoldup = false) ∧ (s.board.faultAt = some t0))) = true := by
  decide +kernel

theorem wit_ReefCommandsComplete :
    (let s : State := up; let rail : Nat := 0; let mv : Nat := 1;
      decide ((s.clocked = true) ∧ (rail < 6) ∧ (mv * 100 < s.railDroop rail))) = true ∧
    (let s : State := up; let rail : Nat := 0; let mv : Nat := 900;
      decide ((s.clocked = true) ∧ (rail < 6) ∧ (s.railDroop rail ≤ mv * 100) ∧ (find s.board.droopRails rail = none))) = true ∧
    (let s : State := { up with board := { up.board with droopRails := [(1, 0)], droopAt := some 0 } }; let rail : Nat := 1; let mv : Nat := 801; let since : Nat := 0;
      decide ((s.clocked = true) ∧ (rail < 6) ∧ (s.railDroop rail ≤ mv * 100) ∧ (find s.board.droopRails rail = some since) ∧ (s.railGood rail mv = false))) = true ∧
    (let s : State := { up with board := { up.board with droopRails := [(1, 0)], droopAt := some 0 } }; let rail : Nat := 1; let mv : Nat := 2000;
      decide ((s.clocked = true) ∧ (rail < 6) ∧ (s.railDroop rail ≤ mv * 100) ∧ (find s.board.droopRails rail = some 0) ∧ (s.railGood rail mv = true))) = true ∧
    (let s : State := { up with board := { up.board with droopRails := [(1, 1)], droopAt := some 0 } }; let rail : Nat := 1; let mv : Nat := 2000; let since : Nat := 1;
      decide ((s.clocked = true) ∧ (rail < 6) ∧ (s.railDroop rail ≤ mv * 100) ∧ (find s.board.droopRails rail = some since) ∧ (0 < since) ∧ (s.railGood rail mv = true) ∧ (s.clk.now < since - 1 + ticksOfUs 10))) = true ∧
    (let s : State := { up with board := { up.board with droopRails := [(1, 1)], droopAt := some 0 }, clk := { up.clk with now := 8000 } }; let rail : Nat := 1; let mv : Nat := 2000; let since : Nat := 1;
      decide ((s.clocked = true) ∧ (rail < 6) ∧ (s.railDroop rail ≤ mv * 100) ∧ (find s.board.droopRails rail = some since) ∧ (0 < since) ∧ (s.railGood rail mv = true) ∧ (since - 1 + ticksOfUs 10 ≤ s.clk.now))) = true ∧
    (let s : State := { up with board := { up.board with droopAt := some 0 }, clk := { up.clk with now := 800001 } }; let t0 : Nat := 0;
      decide ((s.clocked = true) ∧ (s.board.droopAlerted = false) ∧ (s.board.droopAt = some t0) ∧ (t0 + ticksOfMs 1 < s.clk.now))) = true ∧
    (let s : State := up; let lowNs : Nat := 100;
      decide ((s.auheundOn = true) ∧ (100 ≤ lowNs))) = true ∧
    (let s : State := up; let lowNs : Nat := 49;
      decide ((s.auheundOn = true) ∧ (lowNs < 50))) = true ∧
    (let s : State := up; let lowNs : Nat := 75;
      decide ((s.auheundOn = true) ∧ (50 ≤ lowNs) ∧ (lowNs < 100))) = true ∧
    (let s : State := { up with board := { up.board with throttleLow := true } };
      decide ((s.auheundOn = true) ∧ (s.board.throttleLow = true))) = true ∧
    (let s : State := { up with board := { up.board with throttleRise := some 0 }, clk := { up.clk with now := 60000000 } }; let t0 : Nat := 0;
      decide ((s.auheundOn = true) ∧ (s.board.throttleRise = some t0) ∧ (t0 + ticksOfUs (s.setting fPWR_THROTTLE_CFG_HOLD_US 0) ≤ s.clk.now))) = true ∧
    (let s : State := { up with clk := { up.clk with divReq := some 4, divAt := 0 } }; let d : Nat := 4;
      decide ((s.clocked = true) ∧ (s.clk.divReq = some d) ∧ (s.clk.divAt = s.clk.tsu))) = true := by
  decide +kernel

theorem wit_ResetCommandsComplete :
    (let s : State := { up with board := { up.board with phase := .unlocked } };
      decide ((s.board.phase = .unlocked))) = true ∧
    (let s : State := up;
      decide ((s.clocked = true))) = true ∧
    (let s : State := { up with board := { up.board with phase := .pllLost } };
      decide ((s.board.phase = .pllLost) ∧ (s.clk.now < s.clk.lostAt + ticksOfMs 10))) = true ∧
    (let s : State := { up with board := { up.board with phase := .pllLost }, clk := { up.clk with now := 8000000 } };
      decide ((s.board.phase = .pllLost) ∧ (s.clk.lostAt + ticksOfMs 10 ≤ s.clk.now))) = true ∧
    (let s : State := up;
      decide ((s.railsUp = true) ∧ (s.board.perstN = true) ∧ (s.clocked = true))) = true ∧
    (let s : State := { up with board := { up.board with phase := .unlocked } };
      decide ((s.railsUp = true) ∧ (s.board.perstN = true) ∧ (s.clocked = false))) = true ∧
    (let s : State := { up with board := { up.board with perstN := false } };
      decide ((s.railsUp = true) ∧ (s.board.pwrGood = true) ∧ (s.board.perstN = false) ∧ (s.clk.held = false))) = true ∧
    (let s : State := { up with board := { up.board with perstN := false }, clk := { up.clk with held := true } };
      decide ((s.running = true) ∧ (s.board.pwrGood = true) ∧ (s.board.perstN = false) ∧ (s.clk.held = true))) = true ∧
    (let s : State := { up with board := { up.board with perstN := false, phase := .warm }, clk := { up.clk with held := true } };
      decide ((s.railsUp = true) ∧ (s.running = false) ∧ (s.board.pwrGood = true) ∧ (s.board.perstN = false) ∧ (s.clk.held = true))) = true ∧
    (let s : State := up;
      decide ((s.running = true) ∧ (s.board.pwrGood = true) ∧ (s.hif.linkUp = true))) = true ∧
    (let s : State := { up with board := { up.board with phase := .warm } };
      decide ((s.board.phase = .warm) ∧ (s.board.pwrGood = true) ∧ (s.hif.linkUp = true))) = true ∧
    (let s : State := up;
      decide ((s.running = true) ∧ (s.hif.linkUp = true))) = true ∧
    (let s : State := { up with board := { up.board with phase := .warm } };
      decide ((s.board.phase = .warm) ∧ (s.hif.linkUp = true))) = true ∧
    (let s : State := up; let key : Nat := 0xA5C3;
      decide ((s.reaches 0 = true) ∧ (s.ready 16 = true) ∧ (lowBits 16 key = 0xA5C3))) = true ∧
    (let s : State := up; let key : Nat := 0xA5C2;
      decide ((s.reaches 0 = true) ∧ (s.ready 16 = true) ∧ (lowBits 16 key ≠ 0xA5C3))) = true ∧
    (let s : State := { up with board := { up.board with phase := .warm } };
      decide ((s.board.phase = .warm) ∧ (s.drivesQuiet = true))) = true := by
  decide +kernel

theorem wit_BringupCommandsComplete :
    (let s : State := { (up.wr fSTATUS_READY 3 0) with hif := up.hif }; let sub : Nat := 3; let failed : Nat := 0;
      decide ((s.bringing = true) ∧ (1 ≤ sub) ∧ (sub ≤ 16) ∧ (s.ready sub = false) ∧ (s.readyCond sub = true))) = true ∧
    (let s : State := trained; let mast : Nat := 0; let failMask : Nat := 0;
      decide ((s.mastOpen mast = true) ∧ (s.elapsed 150 = true))) = true ∧
    (let s : State := trained; let mast : Nat := 0;
      decide ((s.mastOpen mast = true) ∧ (s.elapsed 600 = true))) = true ∧
    (let s : State := trained; let stack : Nat := 0;
      decide ((s.stackTrains stack = true) ∧ (s.elapsed 200 = true))) = true ∧
    (let s : State := trained; let stack : Nat := 0;
      decide ((s.stackTrains stack = true) ∧ (s.stackLate stack = true))) = true ∧
    (let s : State := trained; let port : Nat := 0;
      decide ((s.bringing = true) ∧ (s.ready 11 = true) ∧ (port < 8) ∧ (s.drvHere port = true) ∧ (s.rd fDSP_PORT_STATE port = 0) ∧ (s.rd fDSP_PORT_DISABLE port = 0) ∧ (s.board.perstN = true) ∧ (s.drvReleaseAt port ≤ s.clk.now))) = true ∧
    (let s : State := { trained.wr fDSP_PORT_STATE 0 2 with pending := [] }; let port : Nat := 0; let info : DriveInfo := drive0;
      decide ((s.bringing = true) ∧ (s.board.pwrGood = true) ∧ (s.ready 11 = true) ∧ (port < 8) ∧ (s.drvHere port = true) ∧ (s.rd fDSP_PORT_STATE port ∈ [1, 2, 4]) ∧ (s.elapsed 1000 = true) ∧ (info.supported = true))) = true ∧
    (let s : State := { trained.wr fDSP_PORT_STATE 0 2 with pending := [] }; let port : Nat := 0; let info : DriveInfo := { drive0 with supported := false };
      decide ((s.bringing = true) ∧ (s.board.pwrGood = true) ∧ (s.ready 11 = true) ∧ (port < 8) ∧ (s.drvHere port = true) ∧ (s.rd fDSP_PORT_STATE port ∈ [1, 2, 4]) ∧ (s.elapsed 1000 = true) ∧ (info.supported = false))) = true ∧
    (let s : State := trained; let port : Nat := 0;
      decide ((s.bringing = true) ∧ (s.ready 11 = true) ∧ (port < 8) ∧ (s.drvHere port = true) ∧ (s.rd fDSP_PORT_STATE port ∈ [0, 1, 2]) ∧ (s.elapsed 3000 = true))) = true ∧
    (let s : State := { trained.wr fDSP_PORT_STATE 0 4 with pending := [] }; let port : Nat := 0;
      decide ((s.bringing = true) ∧ (s.ready 11 = true) ∧ (port < 8) ∧ (s.rd fDSP_PORT_STATE port = 4))) = true ∧
    (let s : State := trained;
      decide ((s.bringing = true) ∧ (s.ready 11 = true) ∧ (s.clk.assembled = false) ∧ (s.elapsed 1000 = true) ∧ (((List.range 8).all s.portSettled = true ∨ s.elapsed 3000 = true)))) = true := by
  decide +kernel

theorem wit_HostCommandsComplete :
    (let s : State := up; let fn : Nat := 0; let item : CfgItem := .vendorId;
      decide ((s.running = true) ∧ (s.board.pwrGood = true) ∧ (s.board.perstN = true) ∧ (s.ready 1 = true) ∧ (s.present fn = true) ∧ (fn ≤ 1024))) = true ∧
    (let s : State := up; let fn : Nat := 0; let v : Nat := 3;
      decide ((s.running = true) ∧ (s.board.pwrGood = true) ∧ (s.board.perstN = true) ∧ (s.ready 1 = true) ∧ (s.present fn = true) ∧ (fn ≤ 1024))) = true ∧
    (let s : State := up; let fn : Nat := 0; let item : CfgItem := .numVfs; let v : Nat := 3;
      decide ((s.running = true) ∧ (s.board.pwrGood = true) ∧ (s.board.perstN = true) ∧ (s.ready 1 = true) ∧ (s.present fn = true) ∧ (fn ≤ 1024))) = true ∧
    (let s : State := up; let fn : Nat := 9; let item : CfgItem := .vendorId; let wr : Option Nat := none;
      decide ((s.running = true) ∧ (s.board.pwrGood = true) ∧ (s.board.perstN = true) ∧ (s.ready 1 = true) ∧ (s.present fn = false) ∧ (fn ≤ 1024))) = true ∧
    (let s : State := { up.wr fSTATUS_READY 1 0 with pending := [] }; let fn : Nat := 7; let item : CfgItem := .vendorId; let wr : Option Nat := none;
      decide (((s.clocked = true ∨ s.board.phase = .unlocked)) ∧ (s.board.pwrGood = true) ∧ (s.board.perstN = true) ∧ ((s.running = false ∨ s.ready 1 = false)) ∧ (fn ≤ 1024))) = true ∧
    (let s : State := { up with hif := { up.hif with linkUp := false } }; let speed : Nat := 4; let width : Nat := 16; let flit : Bool := true; let cxl : Bool := false; let reversed : Bool := false; let t : State := (((((({ up with hif := { up.hif with linkUp := false } } : State).wr fHIF_LINK_STATUS_SPEED 0 4).wr fHIF_LINK_STATUS_WIDTH 0 16).wr fHIF_LINK_STATUS_FLIT 0 1).wr fHIF_LINK_STATUS_CXL 0 0).wr fHIF_LINK_STATUS_REVERSED 0 0).wr fHIF_LINK_STATUS_DEGRADED 0 0;
      decide ((s.running = true) ∧ (s.board.pwrGood = true) ∧ (s.board.perstN = true) ∧ (s.clk.held = false) ∧ (s.hif.linkUp = false) ∧ (linkWidthOk width = true) ∧ (1 ≤ s.linkSpeed speed flit) ∧ (s.linkSpeed speed flit ≤ 4) ∧ (t = (((((s.wr fHIF_LINK_STATUS_SPEED 0 (s.linkSpeed speed flit)).wr fHIF_LINK_STATUS_WIDTH 0 width).wr fHIF_LINK_STATUS_FLIT 0 (bit flit)).wr fHIF_LINK_STATUS_CXL 0 (bit (flit && cxl))).wr fHIF_LINK_STATUS_REVERSED 0 (bit reversed)).wr fHIF_LINK_STATUS_DEGRADED 0 0))) = true ∧
    (let s : State := { up with hif := { up.hif with linkUp := false } }; let speed : Nat := 4; let width : Nat := 2; let flit : Bool := true; let cxl : Bool := false; let reversed : Bool := false;
      decide ((s.running = true) ∧ (s.board.pwrGood = true) ∧ (s.board.perstN = true) ∧ (s.clk.held = false) ∧ (s.hif.linkUp = false) ∧ ((linkWidthOk width = false ∨ s.linkSpeed speed flit = 0 ∨ 4 < s.linkSpeed speed flit)))) = true ∧
    (let s : State := { up.wr fHIF_LINK_STATUS_WIDTH 0 16 with pending := [] }; let w : Nat := 16; let t : State := (up.wr fHIF_LINK_STATUS_WIDTH 0 8).wr fHIF_LINK_STATUS_DEGRADED 0 1;
      decide ((s.running = true) ∧ (s.board.pwrGood = true) ∧ (s.hif.linkUp = true) ∧ (w = s.rd fHIF_LINK_STATUS_WIDTH 0) ∧ (8 ≤ w) ∧ (t = (s.wr fHIF_LINK_STATUS_WIDTH 0 (w / 2)).wr fHIF_LINK_STATUS_DEGRADED 0 1))) = true ∧
    (let s : State := up;
      decide ((s.live 0 = true))) = true ∧
    (let s : State := up;
      decide ((s.live 0 = true))) = true ∧
    (let s : State := up; let n : Nat := 1024;
      decide ((s.live 0 = true) ∧ (s.cfg 0 .vfEnable = 0) ∧ (n ≤ 1024))) = true ∧
    (let s : State := { (up.setCfg 0 .numVfs 4).setCfg 0 .vfEnable 1 with pending := [] };
      decide ((s.live 0 = true) ∧ (s.cfg 0 .vfEnable = 1))) = true ∧
    (let s : State := { (up.setCfg 0 .numVfs 4).setCfg 0 .vfEnable 1 with pending := [] }; let fn : Nat := 2;
      decide ((s.live fn = true) ∧ (fn ≠ 0))) = true ∧
    (let s : State := up;
      decide ((s.live 0 = true))) = true ∧
    (let s : State := { up with hif := { up.hif with msix := setD Msix.blank up.hif.msix 3 { up.msixEntry 0 3 with masked := true } } }; let fn : Nat := 0; let vec : Nat := 3; let d : State := ({ up with hif := { up.hif with msix := setD Msix.blank up.hif.msix 3 { up.msixEntry 0 3 with masked := true } } } : State).atRegion 1 0x10030;
      decide ((s.reaches fn = true) ∧ (vec < vectorsOf fn) ∧ (d = (if fn = 0 then s.atRegion 1 (0x10000 + 16 * vec) else s.atWindow fn (0x1000 + 16 * vec))) ∧ (s.msixPending fn vec = false))) = true ∧
    (let s : State := { (up.setCfg 0 .msixEnable 1).setPending 0 3 true with pending := [] }; let fn : Nat := 0; let vec : Nat := 3; let d : State := ({ (up.setCfg 0 .msixEnable 1).setPending 0 3 true with pending := [] } : State).atRegion 1 0x10030; let u : State := { (({ (up.setCfg 0 .msixEnable 1).setPending 0 3 true with pending := [] } : State).atRegion 1 0x10030) with hif := { (({ (up.setCfg 0 .msixEnable 1).setPending 0 3 true with pending := [] } : State).atRegion 1 0x10030).hif with msix := setD Msix.blank up.hif.msix 3 { up.msixEntry 0 3 with masked := false } } };
      decide ((s.reaches fn = true) ∧ (vec < vectorsOf fn) ∧ (d = (if fn = 0 then s.atRegion 1 (0x10000 + 16 * vec) else s.atWindow fn (0x1000 + 16 * vec))) ∧ (u = { d with hif := { d.hif with msix := setD Msix.blank d.hif.msix (fn * 2048 + vec) { s.msixEntry fn vec with masked := false } } }) ∧ (u.msixPending fn vec = true) ∧ (u.vecMasked fn vec = false) ∧ (u.cfg fn .msixEnable = 1) ∧ (u.running = true) ∧ (u.board.pwrGood = true) ∧ (u.ready 1 = true))) = true ∧
    (let s : State := up; let fn : Nat := 0; let addr : Nat := 4096; let len : Nat := 4096;
      decide ((s.live fn = true) ∧ (s.hif.linkUp = true) ∧ ((s.hif.atsWait.filter (fun w => w.1 = fn)).length < 32) ∧ (s.hostBusy fn addr len = false))) = true ∧
    (let s : State := busyHost; let fn : Nat := 0; let addr : Nat := 4096; let len : Nat := 4096;
      decide ((s.live fn = true) ∧ (s.hif.linkUp = true) ∧ ((s.hif.atsWait.filter (fun w => w.1 = fn)).length < 32) ∧ (s.hostBusy fn addr len = true))) = true ∧
    (let s : State := up; let kind : Nat := 0; let req : List Byte := [1, 0, 0, 0];
      decide ((s.live 0 = true) ∧ (s.hif.linkUp = true) ∧ (kind < 3) ∧ (req.length ≤ 4096))) = true ∧
    (let s : State := { up.wr fHIF_LINK_STATUS_CXL 0 1 with pending := [] }; let addr : Nat := 64;
      decide ((s.cxlUp = true))) = true ∧
    (let s : State := { (((((cxlOpen { { up.wr fHIF_LINK_STATUS_CXL 0 1 with pending := [] } with hif := up.hif })).setCfg 0 (.hdmBase 0) 0).setCfg 0 (.hdmSize 0) (2 ^ 28)).setCfg 0 (.hdmOn 0) 1) with pending := [] }; let hpa : Nat := 0; let len : Nat := 64; let dpa : Nat := 0;
      decide ((s.cxlUp = true) ∧ (s.cxlTurn true = true) ∧ (s.hdmDpa hpa = some dpa) ∧ (s.cxlReaches dpa len = true))) = true ∧
    (let s : State := { up.wr fHIF_LINK_STATUS_CXL 0 1 with pending := [] }; let hpa : Nat := 0; let len : Nat := 64;
      decide ((s.cxlUp = true) ∧ (s.cxlTurn true = true) ∧ (s.cxlAddr hpa len = none))) = true ∧
    (let s : State := { (((((cxlOpen { { up.wr fHIF_LINK_STATUS_CXL 0 1 with pending := [] } with hif := up.hif })).setCfg 0 (.hdmBase 0) 0).setCfg 0 (.hdmSize 0) (2 ^ 28)).setCfg 0 (.hdmOn 0) 1) with pending := [] }; let hpa : Nat := 0; let data : List Byte := [1, 2]; let dpa : Nat := 0;
      decide ((s.cxlUp = true) ∧ (s.cxlTurn false = true) ∧ (s.hdmDpa hpa = some dpa) ∧ (s.cxlReaches dpa data.length = true))) = true ∧
    (let s : State := { up.wr fHIF_LINK_STATUS_CXL 0 1 with pending := [] }; let hpa : Nat := 0; let data : List Byte := [1, 2];
      decide ((s.cxlUp = true) ∧ (s.cxlTurn false = true) ∧ (s.cxlAddr hpa data.length = none))) = true ∧
    (let s : State := carved; let co : Nat := 0;
      decide ((s.reaches 0 = true) ∧ (co < 64) ∧ (s.coOn co = false) ∧ (s.coAllowed co = true) ∧ (s.psState < 3))) = true ∧
    (let s : State := { carved.wr fCVC_PS_STATUS_STATE 0 3 with pending := [] }; let co : Nat := 0; let d : State := ({ carved.wr fCVC_PS_STATUS_STATE 0 3 with pending := [] } : State).atRegion 1 0x30000;
      decide ((s.reaches 0 = true) ∧ (co < 64) ∧ (s.coOn co = false) ∧ (s.coAllowed co = true) ∧ (3 ≤ s.psState) ∧ (d = s.atRegion 1 (0x30000 + 16 * co)))) = true ∧
    (let s : State := up; let co : Nat := 0;
      decide ((s.reaches 0 = true) ∧ (co < 64) ∧ (s.coOn co = false) ∧ (s.coAllowed co = false))) = true ∧
    (let s : State := carved; let co : Nat := 0; let d : State := carved.atRegion 1 0x30000;
      decide ((s.reaches 0 = true) ∧ (co < 64) ∧ (d = s.atRegion 1 (0x30000 + 16 * co)))) = true := by
  decide +kernel

theorem wit_RegisterCommandsComplete :
    (let s : State := up; let a : Access := { fn := 0, space := .bar0, off := 0x40010, size := 4, poisoned := false }; let v : Nat := 1;
      decide ((s.reaches a.fn = true) ∧ (accessOk a = true) ∧ (a.poisoned = false))) = true ∧
    (let s : State := up; let a : Access := { fn := 0, space := .bar0, off := 0x40010, size := 4, poisoned := true }; let v : Nat := 1;
      decide ((s.reaches a.fn = true) ∧ (accessOk a = true) ∧ (a.poisoned = true))) = true ∧
    (let s : State := up; let sub : Nat := 9; let e : Bool := true; let d : State := up.atRegion 9 0x10;
      decide ((s.reaches 0 = true) ∧ (sub ∈ [4, 7, 8, 9]) ∧ (d = s.atRegion sub 0x10))) = true ∧
    (let s : State := up; let e : Bool := true;
      decide ((s.reaches 0 = true))) = true ∧
    (let s : State := up; let sub : Nat := 10; let e : Bool := true; let d : State := up.atRegion 10 0x10;
      decide ((s.reaches 0 = true) ∧ (sub ∈ [10, 11, 15]) ∧ (sub ∉ s.softPending) ∧ (d = s.atRegion sub 0x10))) = true ∧
    (let s : State := up; let sub : Nat := 2; let e : Bool := true;
      decide ((s.reaches 0 = true) ∧ (1 ≤ sub) ∧ (sub ≤ 16) ∧ (softResets sub = false))) = true ∧
    (let s : State := up; let sub : Nat := 7; let on : Bool := false;
      decide ((s.reaches 0 = true) ∧ (1 ≤ sub) ∧ (sub ≤ 16) ∧ (sub ≠ 12) ∧ (softResets sub = true))) = true ∧
    (let s : State := up; let on : Bool := false;
      decide ((s.reaches 0 = true))) = true ∧
    (let s : State := up; let sub : Nat := 3; let on : Bool := false;
      decide ((s.reaches 0 = true) ∧ (1 ≤ sub) ∧ (sub ≤ 16) ∧ (softResets sub = false))) = true ∧
    (let s : State := up; let sub : Nat := 4; let v : Nat := 5;
      decide ((s.pageReaches sub = true))) = true ∧
    (let s : State := up; let sub : Nat := 4; let v : Nat := 5;
      decide ((s.pageReaches sub = true))) = true ∧
    (let s : State := up; let sub : Nat := 4; let v : Nat := 5;
      decide ((s.pageReaches sub = true))) = true ∧
    (let s : State := up; let sub : Nat := 4; let key : Nat := 0x5EA5;
      decide ((s.pageReaches sub = true))) = true := by
  decide +kernel

theorem wit_QueueCommandsComplete :
    (let s : State := withQ 0 1 gq up; let fn : Nat := 0; let qid : Nat := 1; let tail : Nat := 5;
      decide ((s.reaches fn = true) ∧ (s.ownsQueue fn qid = true))) = true ∧
    (let s : State := withQ 0 1 gq up; let fn : Nat := 0; let qid : Nat := 2; let tail : Nat := 5;
      decide ((s.reaches fn = true) ∧ (s.ownsQueue fn qid = false))) = true ∧
    (let s : State := withQ 0 1 gq up; let fn : Nat := 0; let qid : Nat := 1; let i : Nat := 5; let q : Queue := gq;
      decide ((s.reaches fn = true) ∧ (s.ownsQueue fn qid = true) ∧ (s.queue fn qid = some q))) = true ∧
    (let s : State := withQ 0 1 gq up; let fn : Nat := 0; let qid : Nat := 2; let i : Nat := 5;
      decide ((s.reaches fn = true) ∧ (s.ownsQueue fn qid = false))) = true ∧
    (let s : State := withQ 0 1 { gq with poll := true } up;
      decide ((s.fetches = true))) = true ∧
    (let s : State := withQ 0 1 { gq with fetched := [⟨1, ln [1], .fetched⟩] } up; let fn : Nat := 0; let qid : Nat := 1; let q : Queue := { gq with fetched := [⟨1, ln [1], .fetched⟩] }; let e : Entry := ⟨1, ln [1], .fetched⟩;
      decide ((s.running = true) ∧ (s.ready 2 = true) ∧ (s.queue fn qid = some q) ∧ (q.disabling = false) ∧ (q.cls ≠ 0) ∧ (q.nextHandOn = some e) ∧ (handOnError q.cls e.line = none) ∧ (s.takes fn q.cls e.line = true))) = true ∧
    (let s : State := withQ 0 0 { aq with fetched := [⟨1, ln [1], .fetched⟩] } up; let fn : Nat := 0; let q : Queue := { aq with fetched := [⟨1, ln [1], .fetched⟩] }; let e : Entry := ⟨1, ln [1], .fetched⟩;
      decide ((s.running = true) ∧ (s.ready 2 = true) ∧ (s.queue fn 0 = some q) ∧ (q.disabling = false) ∧ (q.cls = 0) ∧ (q.nextHandOn = some e) ∧ (handOnError q.cls e.line = none) ∧ (pf0Only fn e.line = none) ∧ (s.takes fn q.cls e.line = true))) = true ∧
    (let s : State := withQ 3 0 { aq with fetched := [⟨1, ln [0x20], .fetched⟩] } up; let fn : Nat := 3; let q : Queue := { aq with fetched := [⟨1, ln [0x20], .fetched⟩] }; let e : Entry := ⟨1, ln [0x20], .fetched⟩; let x : Nat × Nat := (0x23, 0x01);
      decide ((s.running = true) ∧ (s.ready 2 = true) ∧ (s.queue fn 0 = some q) ∧ (q.disabling = false) ∧ (q.cls = 0) ∧ (q.nextHandOn = some e) ∧ (handOnError q.cls e.line = none) ∧ (pf0Only fn e.line = some x))) = true ∧
    (let s : State := withQ 0 1 { gq with fetched := [⟨1, ln [0x7F], .fetched⟩] } up; let fn : Nat := 0; let qid : Nat := 1; let q : Queue := { gq with fetched := [⟨1, ln [0x7F], .fetched⟩] }; let e : Entry := ⟨1, ln [0x7F], .fetched⟩; let x : Nat × Nat := (0x10, 0x02);
      decide ((s.running = true) ∧ (s.ready 2 = true) ∧ (s.queue fn qid = some q) ∧ (q.disabling = false) ∧ (q.nextHandOn = some e) ∧ (handOnError q.cls e.line = some x))) = true ∧
    (let s : State := withQ 0 1 { gq with pend := [cqe0] } { up with clk := { up.clk with tsu := 80000000 } }; let fn : Nat := 0; let qid : Nat := 1; let q : Queue := { gq with pend := [cqe0] };
      decide ((s.running = true) ∧ (s.queue fn qid = some q) ∧ ((q.pend ≠ [] ∨ q.waiting ≠ [])) ∧ (q.readAt + ticksOfUs (max 1 (s.rd fQMG_CQ_RECHECK_INTERVAL_US 0)) ≤ s.clk.tsu))) = true ∧
    (let s : State := withQ 0 1 { gq with unsignalled := 2, irqEn := true } { up with clk := { up.clk with tsu := 80000000 } }; let fn : Nat := 0; let qid : Nat := 1; let q : Queue := { gq with unsignalled := 2, irqEn := true };
      decide ((s.running = true) ∧ (s.queue fn qid = some q) ∧ (q.irqEn = true) ∧ (q.unsignalled ≠ 0) ∧ (q.oldest + ticksOfUs (s.rd fHIF_FN_MOD_DELAY_US (fn * 16 + q.mod)) ≤ s.clk.tsu))) = true ∧
    (let s : State := withQ 0 1 { gq with unsignalled := 2 } { up with clk := { up.clk with tsu := 80000000 } }; let fn : Nat := 0; let qid : Nat := 1; let q : Queue := { gq with unsignalled := 2 };
      decide ((s.running = true) ∧ (s.queue fn qid = some q) ∧ (q.irqEn = false) ∧ (q.unsignalled ≠ 0) ∧ (q.oldest + ticksOfUs (s.rd fHIF_FN_MOD_DELAY_US (fn * 16 + q.mod)) ≤ s.clk.tsu))) = true ∧
    (let s : State := up; let fn : Nat := 0;
      decide ((s.reaches fn = true) ∧ (s.ready 2 = true) ∧ (s.queue fn 0 = none))) = true ∧
    (let s : State := withQ 0 0 aq up; let fn : Nat := 0; let q : Queue := aq;
      decide ((s.reaches fn = true) ∧ (s.ready 2 = true) ∧ (s.queue fn 0 = some q))) = true ∧
    (let s : State := withQ 0 0 aq up; let fn : Nat := 0;
      decide ((s.reaches fn = true) ∧ (s.ready 2 = true))) = true ∧
    (let s : State := withQ 0 0 { aq with disabling := true } up; let fn : Nat := 0; let q : Queue := { aq with disabling := true };
      decide ((s.running = true) ∧ (s.queue fn 0 = some q) ∧ (q.disabling = true) ∧ ((∀ e ∈ q.fetched, e.stage ≠ .started)))) = true ∧
    (let s : State := up; let fn : Nat := 3; let limit : Nat := 6143;
      decide ((s.reaches 0 = true) ∧ (s.ready 2 = true) ∧ (fn ≤ 1024) ∧ (lowBits 13 limit ≤ (if fn = 0 then 4087 else 6143)))) = true ∧
    (let s : State := up; let fn : Nat := 0; let limit : Nat := 4088;
      decide ((s.reaches 0 = true) ∧ (s.ready 2 = true) ∧ (fn ≤ 1024) ∧ ((if fn = 0 then 4087 else 6143) < lowBits 13 limit))) = true ∧
    (let s : State := { up with clk := { up.clk with tsu := 8000 } }; let t : State := { up with clk := { up.clk with tsu := 8000 } }; let b : NMap Nat := [];
      decide ((s.running = true) ∧ (s.hif.qosWindow < s.clk.tsu / 8000) ∧ (t = s.accounted.foldl State.closeAcct s.chargeRunning) ∧ (b = (List.range 1025).foldl (fun m fn => setD qosDefault m fn (t.qosWritten fn)) []))) = true := by
  decide +kernel

theorem wit_AdminCommandsComplete :
    (let s : State := withQ 0 0 { aq with fetched := [⟨1, ln (0x1 :: [0, 0, 0, 1, 0, 1, 4, 4]), .handed⟩] } up; let fn : Nat := 0; let e : Entry := ⟨1, ln (0x1 :: [0, 0, 0, 1, 0, 1, 4, 4]), .handed⟩;
      decide ((s.running = true) ∧ (s.ready 2 = true) ∧ (s.adminNext fn 0x1 = some e) ∧ (s.createError fn e.line = none))) = true ∧
    (let s : State := withQ 0 0 { aq with fetched := [⟨1, ln (0x1 :: [0, 0, 0]), .handed⟩] } up; let fn : Nat := 0; let e : Entry := ⟨1, ln (0x1 :: [0, 0, 0]), .handed⟩; let st : Nat := 0x10; let sub : Nat := 0x03;
      decide ((s.running = true) ∧ (s.ready 2 = true) ∧ (s.adminNext fn 0x1 = some e) ∧ (s.createError fn e.line = some (st, sub)) ∧ (sub ≠ 0x07))) = true ∧
    (let s : State := withQ 0 0 { aq with fetched := [⟨1, ln (0x2 :: [0, 0, 0, 1]), .handed⟩] } (withQ 0 1 gq up); let fn : Nat := 0; let e : Entry := ⟨1, ln (0x2 :: [0, 0, 0, 1]), .handed⟩;
      decide ((s.running = true) ∧ (s.ready 2 = true) ∧ (s.adminNext fn 0x2 = some e) ∧ (s.tearError fn e.line = none))) = true ∧
    (let s : State := withQ 0 0 { aq with fetched := [⟨1, ln (0x2 :: [0, 0, 0]), .handed⟩] } up; let fn : Nat := 0; let e : Entry := ⟨1, ln (0x2 :: [0, 0, 0]), .handed⟩; let x : Nat × Nat := (0x10, 0x03);
      decide ((s.running = true) ∧ (s.ready 2 = true) ∧ (s.adminNext fn 0x2 = some e) ∧ (s.tearError fn e.line = some x))) = true ∧
    (let s : State := withQ 0 0 { aq with fetched := [⟨1, ln (0x3 :: [0, 0, 0, 1]), .handed⟩] } (withQ 0 1 gq up); let fn : Nat := 0; let e : Entry := ⟨1, ln (0x3 :: [0, 0, 0, 1]), .handed⟩;
      decide ((s.running = true) ∧ (s.ready 2 = true) ∧ (s.adminNext fn 0x3 = some e) ∧ (s.tearError fn e.line = none))) = true ∧
    (let s : State := withQ 0 0 { aq with fetched := [⟨1, ln (0x3 :: [0, 0, 0]), .handed⟩] } up; let fn : Nat := 0; let e : Entry := ⟨1, ln (0x3 :: [0, 0, 0]), .handed⟩; let x : Nat × Nat := (0x10, 0x03);
      decide ((s.running = true) ∧ (s.ready 2 = true) ∧ (s.adminNext fn 0x3 = some e) ∧ (s.tearError fn e.line = some x))) = true ∧
    (let s : State := withQ 0 0 { aq with fetched := [⟨1, ln (0x10 :: [0, 0, 0]), .handed⟩] } up; let fn : Nat := 0; let e : Entry := ⟨1, ln (0x10 :: [0, 0, 0]), .handed⟩;
      decide ((s.running = true) ∧ (s.ready 2 = true) ∧ (s.adminNext fn 0x10 = some e))) = true ∧
    (let s : State := withQ 0 0 { aq with fetched := [⟨1, ln (0x11 :: [0, 0, 0]), .handed⟩] } (withG up); let fn : Nat := 0; let e : Entry := ⟨1, ln (0x11 :: [0, 0, 0]), .handed⟩;
      decide ((s.running = true) ∧ (s.ready 2 = true) ∧ (s.adminNext fn 0x11 = some e) ∧ (entryBits e.line 4 6 2 = 0) ∧ (entryNonzero e.line 5 60 = false) ∧ ((s.graph fn (entryBits e.line 4 0 6)).isSome = true) ∧ (s.graphBusy fn (entryBits e.line 4 0 6) = false))) = true ∧
    (let s : State := withQ 0 0 { aq with fetched := [⟨1, ln (0x11 :: [0, 0, 0]), .handed⟩] } up; let fn : Nat := 0; let e : Entry := ⟨1, ln (0x11 :: [0, 0, 0]), .handed⟩;
      decide ((s.running = true) ∧ (s.ready 2 = true) ∧ (s.adminNext fn 0x11 = some e) ∧ (entryBits e.line 4 6 2 = 0) ∧ (entryNonzero e.line 5 60 = false) ∧ (s.graph fn (entryBits e.line 4 0 6) = none))) = true ∧
    (let s : State := withQ 0 0 { aq with fetched := [⟨1, ln (0x11 :: [0, 0, 0]), .handed⟩] } (withQ 0 1 { gq with fetched := [⟨2, ln [1], .started⟩] } (withG up)); let fn : Nat := 0; let e : Entry := ⟨1, ln (0x11 :: [0, 0, 0]), .handed⟩;
      decide ((s.running = true) ∧ (s.ready 2 = true) ∧ (s.adminNext fn 0x11 = some e) ∧ (entryBits e.line 4 6 2 = 0) ∧ (entryNonzero e.line 5 60 = false) ∧ ((s.graph fn (entryBits e.line 4 0 6)).isSome = true) ∧ (s.graphBusy fn (entryBits e.line 4 0 6) = true))) = true ∧
    (let s : State := withQ 0 0 { aq with fetched := [⟨1, ln (0x11 :: [0, 0, 0, 0, 1]), .handed⟩] } up; let fn : Nat := 0; let e : Entry := ⟨1, ln (0x11 :: [0, 0, 0, 0, 1]), .handed⟩;
      decide ((s.running = true) ∧ (s.ready 2 = true) ∧ (s.adminNext fn 0x11 = some e) ∧ ((entryBits e.line 4 6 2 ≠ 0 ∨ entryNonzero e.line 5 60 = true)))) = true ∧
    (let s : State := withQ 0 0 { aq with fetched := [⟨1, ln [0x18, 0, 0, 0, 0, 1], .handed⟩] } up; let fn : Nat := 0; let e : Entry := ⟨1, ln [0x18, 0, 0, 0, 0, 1], .handed⟩; let x : Nat × Nat := (0x10, 0x01);
      decide ((s.running = true) ∧ (s.ready 2 = true) ∧ (s.cancelNext fn (fun (c : Nat) => c = 0) = some e) ∧ (s.cancelError fn e.line = some x))) = true ∧
    (let s : State := withQ 0 0 { aq with fetched := [⟨1, ln [0x18, 0, 0, 0, 1, 1], .handed⟩] } up; let fn : Nat := 0; let e : Entry := ⟨1, ln [0x18, 0, 0, 0, 1, 1], .handed⟩; let x : Nat × Nat := (0x10, 0x01);
      decide ((s.running = true) ∧ (s.ready 2 = true) ∧ (s.cancelNext fn (fun (c : Nat) => c = 1) = some e) ∧ (s.cancelError fn e.line = some x))) = true ∧
    (let s : State := withQ 0 0 { aq with fetched := [⟨1, ln [0x18, 0, 0, 0, 2, 1], .handed⟩] } up; let fn : Nat := 0; let e : Entry := ⟨1, ln [0x18, 0, 0, 0, 2, 1], .handed⟩; let x : Nat × Nat := (0x10, 0x01);
      decide ((s.running = true) ∧ (s.ready 2 = true) ∧ (s.cancelNext fn (fun (c : Nat) => 2 ≤ c) = some e) ∧ (s.cancelError fn e.line = some x))) = true ∧
    (let s : State := withQ 0 0 { aq with fetched := [⟨1, ln [0x18, 0, 0, 0, 0], .handed⟩] } up; let fn : Nat := 0; let e : Entry := ⟨1, ln [0x18, 0, 0, 0, 0], .handed⟩;
      decide ((s.running = true) ∧ (s.ready 2 = true) ∧ (s.cancelNext fn (fun (c : Nat) => c = 0) = some e) ∧ (s.cancelError fn e.line = none))) = true ∧
    (let s : State := withQ 0 0 { aq with fetched := [⟨1, ln [0x18, 0, 0, 0, 1], .handed⟩] } up; let fn : Nat := 0; let e : Entry := ⟨1, ln [0x18, 0, 0, 0, 1], .handed⟩;
      decide ((s.running = true) ∧ (s.ready 2 = true) ∧ (s.cancelNext fn (fun (c : Nat) => c = 1) = some e) ∧ (s.cancelError fn e.line = none))) = true ∧
    (let s : State := withQ 0 0 { aq with fetched := [⟨1, ln [0x18, 0, 0, 0, 2], .handed⟩] } up; let fn : Nat := 0; let e : Entry := ⟨1, ln [0x18, 0, 0, 0, 2], .handed⟩;
      decide ((s.running = true) ∧ (s.ready 2 = true) ∧ (s.cancelNext fn (fun (c : Nat) => 2 ≤ c) = some e) ∧ (s.cancelError fn e.line = none))) = true := by
  decide +kernel

theorem wit_RunCommandsComplete :
    (let s : State := withQ 0 1 { gq with fetched := [⟨7, ln [1], .handed⟩] } up; let fn : Nat := 0; let qid : Nat := 1; let e : Entry := ⟨7, ln [1], .handed⟩; let x : Nat × Nat := (0x10, 0x30);
      decide ((s.running = true) ∧ (s.ready 3 = true) ∧ (s.handedEntry fn qid 1 = some e) ∧ (s.runError fn e.line = some x))) = true ∧
    (let s : State := withG (withQ 0 1 { gq with fetched := [⟨7, lrun, .handed⟩] } up); let fn : Nat := 0; let qid : Nat := 1; let e : Entry := ⟨7, lrun, .handed⟩;
      decide ((s.running = true) ∧ (s.ready 3 = true) ∧ (s.handedEntry fn qid 1 = some e) ∧ (s.runError fn e.line = none))) = true ∧
    (let s : State := withG (withR 7 run0 up); let r : Nat := 7; let host : Nat := 0;
      decide ((s.starts 3 = true) ∧ (s.psState < 3) ∧ (s.mayStart r = true))) = true ∧
    (let s : State := withG2 (withR 7 run0 { up with clk := { up.clk with tsu := 800000 } }); let r : Nat := 7; let x : Run := run0;
      decide ((s.running = true) ∧ (s.ready 3 = true) ∧ (s.amu.hold = none) ∧ (oldestRun s.bankWaiters = some (r, x)) ∧ (x.waitAt + ticksOfMs 1 ≤ s.clk.tsu))) = true ∧
    (let s : State := withG3 (withR 7 { run0 with started := true, sources := [(0, ⟨1, 0, false⟩)] } up); let r : Nat := 7; let n : Nat := 0; let host : Nat := 0;
      decide ((s.starts 3 = true) ∧ (s.sourceReady r n = true))) = true ∧
    (let s : State := withG (withR 7 { run0 with started := true, first := some (1, 3, 0x31, 0) } up); let r : Nat := 7; let x : Run := { run0 with started := true, first := some (1, 3, 0x31, 0) }; let f : Nat × Nat × Nat × Nat := (1, 3, 0x31, 0);
      decide ((s.running = true) ∧ (s.ready 3 = true) ∧ (s.run r = some x) ∧ (((x.started = true ∧ x.stopping = true) ∨ s.runDone r x = true)) ∧ (x.first = some f))) = true ∧
    (let s : State := withG (withR 7 { run0 with started := true } up); let r : Nat := 7; let x : Run := { run0 with started := true };
      decide ((s.running = true) ∧ (s.ready 3 = true) ∧ (s.run r = some x) ∧ (((x.started = true ∧ x.stopping = true) ∨ s.runDone r x = true)) ∧ (x.first = none))) = true ∧
    (let s : State := withR 7 { run0 with started := true, sink := some 1 } up; let r : Nat := 7; let x : Run := { run0 with started := true, sink := some 1 };
      decide ((s.running = true) ∧ (s.run r = some x) ∧ ((x.sink ≠ none ∨ x.segRest ≠ [])) ∧ (x.stopping = false))) = true ∧
    (let s : State := withG3 (withT 1 { task0 with node := 8, token := some tok0 } (withR 7 { run0 with started := true } up)); let k : Nat := 1;
      decide ((s.readyOf k 8 = true))) = true ∧
    (let s : State := withG3 (withT 1 { task0 with node := 9, token := some tok0 } (withR 7 { run0 with started := true } up)); let k : Nat := 1;
      decide ((s.readyOf k 9 = true) ∧ (s.sinkTurn k = true))) = true ∧
    (let s : State := withG3 (withT 1 { task0 with node := 1, state := .pegged, place := .cvc } (withR 7 { run0 with started := true } up)); let k : Nat := 1; let x : Task := { task0 with node := 1, state := .pegged, place := .cvc };
      decide ((s.cvcAwake = true) ∧ (s.starts 10 = true) ∧ (s.cvc.fw = none) ∧ (s.volAtHand = false) ∧ (s.task k = some x) ∧ (x.state = .pegged) ∧ (x.place = .cvc) ∧ (s.runStopping x = false))) = true := by
  decide +kernel

theorem wit_TaskCommandsComplete :
    (let s : State := withG3 (withR 7 { run0 with started := true, queues := [(sourceKey 0, [tok0])] } up);
      decide ((s.starts 3 = true) ∧ (s.cands ≠ []))) = true ∧
    (let s : State := withG3 (withR 7 { run0 with started := true, queues := [(0, [{ tok0 with empty := true }])] } up); let r : Nat := 7; let e : Nat := 0; let x : Run := { run0 with started := true, queues := [(0, [{ tok0 with empty := true }])] }; let t : Token := { tok0 with empty := true };
      decide ((s.running = true) ∧ (s.canForward r e = true) ∧ (s.run r = some x) ∧ (x.forwardable e = some t) ∧ (((s.graphOf x).node ((s.graphOf x).edge e).dst).kind ≠ 9))) = true ∧
    (let s : State := withG3 (withR 7 { run0 with started := true, queues := [(1, [{ tok0 with empty := true }])] } up); let r : Nat := 7; let e : Nat := 1; let x : Run := { run0 with started := true, queues := [(1, [{ tok0 with empty := true }])] }; let t : Token := { tok0 with empty := true };
      decide ((s.running = true) ∧ (s.canForward r e = true) ∧ (s.run r = some x) ∧ (x.forwardable e = some t) ∧ (((s.graphOf x).node ((s.graphOf x).edge e).dst).kind = 9))) = true ∧
    (let s : State := up; let kind : Nat := 0; let unit : Nat := 3;
      decide ((s.starts 3 = true) ∧ (s.unitTakes kind = true) ∧ (find s.bsn.halts (s.fillStop kind unit) = none) ∧ (s.fillStop kind unit ∉ s.bsn.inject))) = true ∧
    (let s : State := { up with bsn := { up.bsn with inject := [up.fillStop 0 3] } }; let kind : Nat := 0; let unit : Nat := 3;
      decide ((s.starts 3 = true) ∧ (s.unitTakes kind = true) ∧ (find s.bsn.halts (s.fillStop kind unit) = none) ∧ ((s.fillSlot kind unit).bsn.dispatches ≤ s.bsn.dispatches))) = true ∧
    (let s : State := { readyTask with bsn := { readyTask.bsn with inject := [up.fillStop 0 3] } }; let kind : Nat := 0; let unit : Nat := 3;
      decide ((s.starts 3 = true) ∧ (s.unitTakes kind = true) ∧ (find s.bsn.halts (s.fillStop kind unit) = none) ∧ (s.fillStop kind unit ∈ s.bsn.inject) ∧ (s.bsn.dispatches < (s.fillSlot kind unit).bsn.dispatches))) = true ∧
    (let s : State := withG3 (withT 1 { task0 with node := 0, state := .pegged, place := .pegA 3 } (withR 7 { run0 with started := true } up)); let t : Nat := 3; let peg : Nat := 0; let k : Nat := 1; let x : Task := { task0 with node := 0, state := .pegged, place := .pegA 3 };
      decide ((s.running = true) ∧ (s.pegTask (pegPlace t peg) = some (k, x)) ∧ (x.staged = false) ∧ (s.noScrub t peg x = true))) = true ∧
    (let s : State := withG3 (withT 1 { task0 with node := 0, state := .pegged, place := .pegA 3, staged := true } (withR 7 { run0 with started := true } (up3))); let t : Nat := 3; let peg : Nat := 0; let k : Nat := 1; let x : Task := { task0 with node := 0, state := .pegged, place := .pegA 3, staged := true };
      decide ((s.starts 4 = true) ∧ (s.psState < 2) ∧ (s.tileOpen t = true) ∧ ((s.core t).task = none) ∧ (s.nextPeg t = some (peg, k, x)) ∧ (s.runStopping x = false) ∧ ((∀ f ∈ s.tileHolds t, f = x.fn)) ∧ (x.staged = true))) = true ∧
    (let s : State := otherFn; let t : Nat := 3; let peg : Nat := 0; let k : Nat := 1; let x : Task := { task0 with node := 0, state := .pegged, place := .pegA 3 }; let f : Nat := 9; let y : Task := afterScrub;
      decide ((s.starts 4 = true) ∧ (s.psState < 2) ∧ (s.tileOpen t = true) ∧ ((s.core t).task = none) ∧ (s.nextPeg t = some (peg, k, x)) ∧ (s.runStopping x = false) ∧ (s.tileHolds t = some f) ∧ (f ≠ x.fn) ∧ ((((s.scrub t).chargeCore x.fn s.scrubTicks).stage t peg k x).task k = some y))) = true ∧
    (let s : State := withG3 (withT 1 { task0 with node := 0, state := .running, place := .tile 3 } (withR 7 { run0 with started := true } { up with clk := { up.clk with tsu := 2 ^ 50 } })); let k : Nat := 1; let x : Task := { task0 with node := 0, state := .running, place := .tile 3 };
      decide ((s.running = true) ∧ (s.task k = some x) ∧ (x.state = .running) ∧ (x.start + s.limitOf x ≤ s.clk.tsu) ∧ ((x.start + s.limitOf x < s.clk.tsu ∨ s.cancelCovers x = false)))) = true ∧
    (let s : State := withG3 (withT 1 { task0 with node := 0, state := .ending } (withR 7 { run0 with started := true } up)); let t : Nat := 1; let x : Task := { task0 with node := 0, state := .ending };
      decide ((s.running = true) ∧ (s.task t = some x) ∧ (x.state = .ending) ∧ ((s.placeOuts x.run x.node x.outs).2 = []))) = true ∧
    (let s : State := withG3 (withT 1 { task0 with node := 0, state := .ending, outs := [(0, tok0)] } (withR 7 { run0 with started := true, queues := [(1, List.replicate 4 tok0)] } up)); let t : Nat := 1; let x : Task := { task0 with node := 0, state := .ending, outs := [(0, tok0)] };
      decide ((s.running = true) ∧ (s.task t = some x) ∧ (x.state = .ending) ∧ ((s.placeOuts x.run x.node x.outs).2 ≠ []))) = true ∧
    (let s : State := withF (withG3 (withR 7 { run0 with started := true } up)); let fl : Nat := 0;
      decide ((s.running = true) ∧ (2 ∉ s.failedSubs) ∧ (s.canRelease fl = true))) = true ∧
    (let s : State := up; let stop : Nat := 1;
      decide ((s.running = true) ∧ (s.ready 3 = true) ∧ (stop < 2) ∧ (3 ∉ s.failedSubs))) = true ∧
    (let s : State := { up with bsn := { up.bsn with halts := [(1, 0)] }, clk := { up.clk with tsu := 800 } }; let stop : Nat := 1; let t0 : Nat := 0;
      decide ((s.running = true) ∧ (find s.bsn.halts stop = some t0) ∧ (t0 + ticksOfUs 1 ≤ s.clk.tsu))) = true ∧
    (let s : State := up.wr fEXPERT_UNLOCK_UNLOCKED 3 1; let u : State := (up.wr fEXPERT_UNLOCK_UNLOCKED 3 1).atRegion 3 0x900;
      decide ((s.reaches 0 = true) ∧ (s.ready 3 = true) ∧ (u = s.atRegion 3 0x900) ∧ (u.rd fEXPERT_UNLOCK_UNLOCKED 3 = 1) ∧ (0 ∉ s.bsn.inject))) = true ∧
    (let s : State := { up.wr fEXPERT_UNLOCK_UNLOCKED 3 1 with bsn := { up.bsn with inject := [0] } }; let u : State := ({ up.wr fEXPERT_UNLOCK_UNLOCKED 3 1 with bsn := { up.bsn with inject := [0] } } : State).atRegion 3 0x900;
      decide ((s.reaches 0 = true) ∧ (s.ready 3 = true) ∧ (u = s.atRegion 3 0x900) ∧ (u.rd fEXPERT_UNLOCK_UNLOCKED 3 = 1) ∧ (0 ∈ s.bsn.inject))) = true ∧
    (let s : State := up; let u : State := up.atRegion 3 0x900;
      decide ((s.reaches 0 = true) ∧ (s.ready 3 = true) ∧ (u = s.atRegion 3 0x900) ∧ (u.rd fEXPERT_UNLOCK_UNLOCKED 3 ≠ 1))) = true ∧
    (let s : State := up.wr fEXPERT_UNLOCK_UNLOCKED 3 1; let u : State := (up.wr fEXPERT_UNLOCK_UNLOCKED 3 1).atRegion 3 0x900;
      decide ((s.reaches 0 = true) ∧ (s.ready 3 = true) ∧ (u = s.atRegion 3 0x900) ∧ (u.rd fEXPERT_UNLOCK_UNLOCKED 3 = 1) ∧ (1 ∉ s.bsn.inject))) = true ∧
    (let s : State := { up.wr fEXPERT_UNLOCK_UNLOCKED 3 1 with bsn := { up.bsn with inject := [1] } }; let u : State := ({ up.wr fEXPERT_UNLOCK_UNLOCKED 3 1 with bsn := { up.bsn with inject := [1] } } : State).atRegion 3 0x900;
      decide ((s.reaches 0 = true) ∧ (s.ready 3 = true) ∧ (u = s.atRegion 3 0x900) ∧ (u.rd fEXPERT_UNLOCK_UNLOCKED 3 = 1) ∧ (1 ∈ s.bsn.inject))) = true ∧
    (let s : State := up; let u : State := up.atRegion 3 0x900;
      decide ((s.reaches 0 = true) ∧ (s.ready 3 = true) ∧ (u = s.atRegion 3 0x900) ∧ (u.rd fEXPERT_UNLOCK_UNLOCKED 3 ≠ 1))) = true ∧
    (let s : State := up.wr fEXPERT_UNLOCK_UNLOCKED 3 1; let fn : Nat := 3; let v : Nat := 4; let u : State := (up.wr fEXPERT_UNLOCK_UNLOCKED 3 1).atRegion 3 0x10030;
      decide ((s.reaches 0 = true) ∧ (s.ready 3 = true) ∧ (fn ≤ 1024) ∧ (u = s.atRegion 3 (0x10000 + 16 * fn)) ∧ (u.rd fEXPERT_UNLOCK_UNLOCKED 3 = 1) ∧ (u.resvSum - u.rd fBSN_FN_RESV fn + lowBits 12 v ≤ 4096))) = true ∧
    (let s : State := (up.wr fEXPERT_UNLOCK_UNLOCKED 3 1).wr fBSN_FN_RESV 7 4000; let fn : Nat := 3; let v : Nat := 97; let u : State := ((up.wr fEXPERT_UNLOCK_UNLOCKED 3 1).wr fBSN_FN_RESV 7 4000).atRegion 3 0x10030;
      decide ((s.reaches 0 = true) ∧ (s.ready 3 = true) ∧ (fn ≤ 1024) ∧ (u = s.atRegion 3 (0x10000 + 16 * fn)) ∧ (u.rd fEXPERT_UNLOCK_UNLOCKED 3 = 1) ∧ (4096 < u.resvSum - u.rd fBSN_FN_RESV fn + lowBits 12 v))) = true ∧
    (let s : State := up; let fn : Nat := 3; let v : Nat := 4; let u : State := up.atRegion 3 0x10030;
      decide ((s.reaches 0 = true) ∧ (s.ready 3 = true) ∧ (fn ≤ 1024) ∧ (u = s.atRegion 3 (0x10000 + 16 * fn)) ∧ (u.rd fEXPERT_UNLOCK_UNLOCKED 3 ≠ 1))) = true ∧
    (let s : State := up.wr fOCA_TILE_STATE 3 tsSpare; let t : Nat := 3; let program : Nat := 1; let u : State := (up.wr fOCA_TILE_STATE 3 tsSpare).atRegion 4 0x10064;
      decide ((s.reaches 0 = true) ∧ (s.ready 4 = true) ∧ (t < 544) ∧ (u = s.atRegion 4 (0x10004 + 32 * t)) ∧ (u.tileState t = tsSpare) ∧ (1 ≤ program) ∧ (program ≤ 3))) = true ∧
    (let s : State := up.wr fOCA_TILE_STATE 3 tsSpare; let t : Nat := 3; let program : Nat := 4; let u : State := (up.wr fOCA_TILE_STATE 3 tsSpare).atRegion 4 0x10064;
      decide ((s.reaches 0 = true) ∧ (s.ready 4 = true) ∧ (t < 544) ∧ (u = s.atRegion 4 (0x10004 + 32 * t)) ∧ ((u.tileState t ≠ tsSpare ∨ program = 0 ∨ 3 < program)))) = true ∧
    (let s : State := up.wr fOCA_TILE_STATE 3 tsMaintenance; let t : Nat := 3; let u : State := (up.wr fOCA_TILE_STATE 3 tsMaintenance).atRegion 4 0x10064;
      decide ((s.reaches 0 = true) ∧ (s.ready 4 = true) ∧ (t < 544) ∧ (u = s.atRegion 4 (0x10004 + 32 * t)) ∧ (u.rd fOCA_TILE_STATE t = tsMaintenance))) = true ∧
    (let s : State := up.wr fOCA_TILE_STATE 3 tsService; let t : Nat := 3; let u : State := (up.wr fOCA_TILE_STATE 3 tsService).atRegion 4 0x10064;
      decide ((s.reaches 0 = true) ∧ (s.ready 4 = true) ∧ (t < 544) ∧ (u = s.atRegion 4 (0x10004 + 32 * t)) ∧ (u.rd fOCA_TILE_STATE t ≠ tsMaintenance) ∧ (u.rd fOCA_TILE_STATE t ≠ 0) ∧ (u.rd fOCA_TILE_STATE t ≠ tsFailed))) = true ∧
    (let s : State := up.wr fOCA_TILE_STATE 3 tsFailed; let t : Nat := 3; let u : State := (up.wr fOCA_TILE_STATE 3 tsFailed).atRegion 4 0x10064;
      decide ((s.reaches 0 = true) ∧ (s.ready 4 = true) ∧ (t < 544) ∧ (u = s.atRegion 4 (0x10004 + 32 * t)) ∧ ((u.rd fOCA_TILE_STATE t = 0 ∨ u.rd fOCA_TILE_STATE t = tsFailed)))) = true ∧
    (let s : State := up.wr fOCA_TILE_STATE 3 tsMaintenance; let t : Nat := 3; let pass : Bool := true;
      decide ((s.running = true) ∧ (s.rd fOCA_TILE_STATE t = tsMaintenance) ∧ (((pass && !(s.core t).halted) = true ∨ s.rd fOCA_TILE_MAINT_PROGRAM t ≠ 1)))) = true ∧
    (let s : State := (up.wr fOCA_TILE_STATE 3 tsMaintenance).wr fOCA_TILE_MAINT_PROGRAM 3 1; let t : Nat := 3; let pass : Bool := false;
      decide ((s.running = true) ∧ (s.rd fOCA_TILE_STATE t = tsMaintenance) ∧ ((pass && !(s.core t).halted) = false) ∧ (s.rd fOCA_TILE_MAINT_PROGRAM t = 1))) = true ∧
    (let s : State := (up.wr fOCA_TILE_STATE 3 tsMaintenance).wr fEXPERT_UNLOCK_UNLOCKED 4 1; let t : Nat := 3; let target : Nat := 0; let double : Bool := true; let u : State := ((up.wr fOCA_TILE_STATE 3 tsMaintenance).wr fEXPERT_UNLOCK_UNLOCKED 4 1).atRegion 4 0x900;
      decide ((s.reaches 0 = true) ∧ (s.ready 4 = true) ∧ (u = s.atRegion 4 0x900) ∧ (u.rd fEXPERT_UNLOCK_UNLOCKED 4 = 1) ∧ (u.rd fOCA_TILE_STATE t = tsMaintenance) ∧ (target < 3))) = true ∧
    (let s : State := up.wr fEXPERT_UNLOCK_UNLOCKED 4 1; let t : Nat := 3; let target : Nat := 0; let double : Bool := true; let u : State := (up.wr fEXPERT_UNLOCK_UNLOCKED 4 1).atRegion 4 0x900;
      decide ((s.reaches 0 = true) ∧ (s.ready 4 = true) ∧ (u = s.atRegion 4 0x900) ∧ (u.rd fEXPERT_UNLOCK_UNLOCKED 4 = 1) ∧ ((u.rd fOCA_TILE_STATE t ≠ tsMaintenance ∨ 3 ≤ target)))) = true ∧
    (let s : State := up; let t : Nat := 3; let target : Nat := 0; let double : Bool := true; let u : State := up.atRegion 4 0x900;
      decide ((s.reaches 0 = true) ∧ (s.ready 4 = true) ∧ (u = s.atRegion 4 0x900) ∧ (u.rd fEXPERT_UNLOCK_UNLOCKED 4 ≠ 1))) = true ∧
    (let s : State := tileBadAcc; let t : Nat := 3; let i : Nat := 0;
      decide ((s.tileLive t = true) ∧ ((s.deferredFault t i).isSome = true))) = true ∧
    (let s : State := tileUp; let t : Nat := 3; let found : Bool := true;
      decide ((s.running = true) ∧ ((s.badFetch t found).isSome = true))) = true ∧
    (let s : State := tileVec; let t : Nat := 3;
      decide ((s.tileLive t = true) ∧ ((s.core t).vectorReady = true))) = true ∧
    (let s : State := tileAcc; let t : Nat := 3; let i : Nat := 0; let found : Nat := 0;
      decide ((s.tileLive t = true) ∧ (i < (s.core t).accs.length))) = true ∧
    (let s : State := tileUp; let t : Nat := 3; let i : Nat := 0; let found : Nat := 0;
      decide ((s.tileLive t = true) ∧ ((s.core t).accs.length ≤ i))) = true := by
  decide +kernel

theorem wit_EngineCommandsComplete :
    (let s : State := withG3 (withT 1 { task0 with node := 4, state := .pegged, place := .amu 56 } (withR 7 { run0 with started := true } (up))); let k : Nat := 1;
      decide ((s.engineReady k [4] = true) ∧ (s.starts 8 = true))) = true ∧
    (let s : State := withG3 (withT 1 { task0 with node := 5, state := .pegged, place := .amu 56 } (withR 7 { run0 with started := true } (up))); let k : Nat := 1;
      decide ((s.engineReady k [5] = true) ∧ (s.starts 8 = true))) = true ∧
    (let s : State := withG3 (withT 1 { task0 with node := 2, state := .pegged, place := .mangle 0 } (withR 7 { run0 with started := true } ({ (up.wr fMGL_ENGINE_LOGICAL 0 0).wr fMGL_ENGINE_FN_VALID 0 0 with mgl := { up.mgl with jobs := [(0, [{ mjob0 with task := some 1 }])] } }))); let k : Nat := 1; let e : Nat := 0; let x : Task := { task0 with node := 2, state := .pegged, place := .mangle 0 }; let u : State := (withG3 (withT 1 { task0 with node := 2, state := .pegged, place := .mangle 0 } (withR 7 { run0 with started := true } ({ (up.wr fMGL_ENGINE_LOGICAL 0 0).wr fMGL_ENGINE_FN_VALID 0 0 with mgl := { up.mgl with jobs := [(0, [{ mjob0 with task := some 1 }])] } })))).engineTakes 0 0;
      decide ((s.engineReady k [2] = true) ∧ (s.starts 9 = true) ∧ (s.engineOfTask k = some e) ∧ (s.task k = some x) ∧ (u = s.engineTakes e x.fn))) = true ∧
    (let s : State := withG3 (withT 1 { task0 with node := 3, state := .pegged, place := .mangle 0 } (withR 7 { run0 with started := true } ({ (up.wr fMGL_ENGINE_LOGICAL 0 0).wr fMGL_ENGINE_FN_VALID 0 0 with mgl := { up.mgl with jobs := [(0, [{ mjob0 with task := some 1 }])] } }))); let k : Nat := 1; let e : Nat := 0; let x : Task := { task0 with node := 3, state := .pegged, place := .mangle 0 }; let u : State := (withG3 (withT 1 { task0 with node := 3, state := .pegged, place := .mangle 0 } (withR 7 { run0 with started := true } ({ (up.wr fMGL_ENGINE_LOGICAL 0 0).wr fMGL_ENGINE_FN_VALID 0 0 with mgl := { up.mgl with jobs := [(0, [{ mjob0 with task := some 1 }])] } })))).engineTakes 0 0;
      decide ((s.engineReady k [3] = true) ∧ (s.starts 9 = true) ∧ (s.engineOfTask k = some e) ∧ (s.task k = some x) ∧ (u = s.engineTakes e x.fn))) = true ∧
    (let s : State := withG3 (withT 1 { task0 with node := 6, state := .pegged, place := .halyard 0 } (withR 7 { run0 with started := true } ({ up with hal := { up.hal with jobs := [(0, [{ halJob0 with work := .task 1, bursts := [], next := 0 }])] } }))); let k : Nat := 1; let host : Nat := 0; let c : Nat := 0; let x : Task := { task0 with node := 6, state := .pegged, place := .halyard 0 };
      decide ((s.engineReady k [6] = true) ∧ (s.starts 7 = true) ∧ (s.task k = some x) ∧ (s.moveDir x = 0) ∧ (s.rxFree x.fn = true) ∧ (s.channelOfTask k = some c) ∧ (s.chStalled c = false))) = true ∧
    (let s : State := (moveOut { withG3 (withT 1 { task0 with node := 6, state := .pegged, place := .halyard 0 } (withR 7 { run0 with started := true } ({ up with hal := { up.hal with jobs := [(0, [{ halJob0 with work := .task 1, bursts := [], next := 0 }])] } }))) with bsn := (withG3 (withT 1 { task0 with node := 6, state := .pegged, place := .halyard 0 } (withR 7 { run0 with started := true } ({ up with hal := { up.hal with jobs := [(0, [{ halJob0 with work := .task 1, bursts := [], next := 0 }])] } })))).bsn }); let k : Nat := 1; let host : Nat := 0; let c : Nat := 0; let x : Task := { task0 with node := 6, state := .pegged, place := .halyard 0 };
      decide ((s.engineReady k [6] = true) ∧ (s.starts 7 = true) ∧ (s.task k = some x) ∧ (s.moveDir x = 1) ∧ (s.txFree x.fn = true) ∧ (s.channelOfTask k = some c) ∧ (s.chStalled c = false))) = true ∧
    (let s : State := withG3 (withT 1 { task0 with node := 4, state := .running, place := .amu 56, result := some (0, 0, []) } (withR 7 { run0 with started := true } (up))); let k : Nat := 1; let tb : Nat := 56; let x : Task := { task0 with node := 4, state := .running, place := .amu 56, result := some (0, 0, []) }; let r : Nat × Nat × List (Nat × Token) := (0, 0, []);
      decide ((s.running = true) ∧ (s.task k = some x) ∧ (x.result = some r) ∧ (x.place = .amu tb))) = true ∧
    (let s : State := withG3 (withT 1 { task0 with node := 6, state := .running, place := .halyard 0, result := some (0, 0, []) } (withR 7 { run0 with started := true } (up))); let k : Nat := 1; let c : Nat := 0; let x : Task := { task0 with node := 6, state := .running, place := .halyard 0, result := some (0, 0, []) }; let r : Nat × Nat × List (Nat × Token) := (0, 0, []);
      decide ((s.running = true) ∧ (s.task k = some x) ∧ (x.result = some r) ∧ (x.place = .halyard c))) = true ∧
    (let s : State := withG3 (withT 1 { task0 with node := 2, state := .running, place := .mangle 0, result := some (0, 0, []) } (withR 7 { run0 with started := true } (up))); let k : Nat := 1; let e : Nat := 0; let x : Task := { task0 with node := 2, state := .running, place := .mangle 0, result := some (0, 0, []) }; let r : Nat × Nat × List (Nat × Token) := (0, 0, []);
      decide ((s.running = true) ∧ (s.task k = some x) ∧ (x.result = some r) ∧ (x.place = .mangle e))) = true ∧
    (let s : State := { (up.wr fMGL_ENGINE_LOGICAL 0 0).wr fMGL_ENGINE_FN_VALID 0 0 with mgl := { up.mgl with jobs := [(0, [{ mjob0 with result := some mres0 }])] } }; let e : Nat := 0; let j : MglJob := { mjob0 with result := some mres0 }; let r : MglResult := mres0; let p : MglResult × State := (({ (up.wr fMGL_ENGINE_LOGICAL 0 0).wr fMGL_ENGINE_FN_VALID 0 0 with mgl := { up.mgl with jobs := [(0, [{ mjob0 with result := some mres0 }])] } } : State).engineIdle 0).saveState 0 mres0;
      decide ((s.running = true) ∧ ((s.engineJobs e).head? = some j) ∧ (j.result = some r) ∧ (p = (s.engineIdle e).saveState j.fn r))) = true ∧
    (let s : State := { (up.wr fAMU_BANK_STATE 5 1) with amu := { up.amu with clearAt := [(5, 0)] }, clk := { up.clk with tsu := 4096 } }; let b : Nat := 5; let t0 : Nat := 0;
      decide ((s.running = true) ∧ (s.rd fAMU_BANK_STATE b = 1) ∧ (find s.amu.clearAt b = some t0) ∧ (t0 + 4096 ≤ s.clk.tsu) ∧ (s.bankGoes b = false))) = true ∧
    (let s : State := { (up.wr fAMU_BANK_STATE 5 1).wr fAMU_BANK_RETIRE_MARK 5 1 with amu := { up.amu with clearAt := [(5, 0)] }, darn := { up.darn with marks := [⟨1, 5, 1, 0, 0⟩] }, clk := { up.clk with tsu := 4096 } }; let b : Nat := 5; let t0 : Nat := 0;
      decide ((s.running = true) ∧ (s.rd fAMU_BANK_STATE b = 1) ∧ (find s.amu.clearAt b = some t0) ∧ (t0 + 4096 ≤ s.clk.tsu) ∧ (s.bankGoes b = true) ∧ (s.starts 15 = true))) = true ∧
    (let s : State := { up with amu := { up.amu with tables := [(56, table0)], entries := [(0, entry0)] } }; let b : Nat := 0; let found : Nat := 0; let kt : Nat × AmuTable := (56, table0);
      decide ((s.running = true) ∧ (s.ready 8 = true) ∧ (s.tableOf b = some kt))) = true ∧
    (let s : State := (({ up with amu := { up.amu with tables := [(56, table0)], entries := [(0, entry0)] } } : State)).wr fEXPERT_UNLOCK_UNLOCKED 8 1; let b : Nat := 0; let e : Nat := 0; let x : AmuEntry := entry0; let u : State := ((({ up with amu := { up.amu with tables := [(56, table0)], entries := [(0, entry0)] } } : State)).wr fEXPERT_UNLOCK_UNLOCKED 8 1).atRegion 8 0x904;
      decide ((s.reaches 0 = true) ∧ (s.ready 8 = true) ∧ (u = s.atRegion 8 0x904) ∧ (u.rd fEXPERT_UNLOCK_UNLOCKED 8 = 1) ∧ ((u.tableOf b).isSome = true) ∧ (u.amuEntry b e = some x))) = true ∧
    (let s : State := (({ up with amu := { up.amu with tables := [(56, table0)], entries := [(0, entry0)] } } : State)).wr fEXPERT_UNLOCK_UNLOCKED 8 1; let b : Nat := 0; let e : Nat := 0; let x : AmuEntry := entry0; let u : State := ((({ up with amu := { up.amu with tables := [(56, table0)], entries := [(0, entry0)] } } : State)).wr fEXPERT_UNLOCK_UNLOCKED 8 1).atRegion 8 0x904;
      decide ((s.reaches 0 = true) ∧ (s.ready 8 = true) ∧ (u = s.atRegion 8 0x904) ∧ (u.rd fEXPERT_UNLOCK_UNLOCKED 8 = 1) ∧ ((u.tableOf b).isSome = true) ∧ (u.amuEntry b e = some x))) = true ∧
    (let s : State := (({ up with amu := { up.amu with tables := [(56, table0)], entries := [(0, entry0)] } } : State)).wr fEXPERT_UNLOCK_UNLOCKED 8 1; let b : Nat := 0; let e : Nat := 9; let copyBits : Bool := true; let u : State := ((({ up with amu := { up.amu with tables := [(56, table0)], entries := [(0, entry0)] } } : State)).wr fEXPERT_UNLOCK_UNLOCKED 8 1).atRegion 8 0x904;
      decide ((s.reaches 0 = true) ∧ (s.ready 8 = true) ∧ (u = s.atRegion 8 0x904) ∧ (u.rd fEXPERT_UNLOCK_UNLOCKED 8 = 1) ∧ ((u.tableOf b).isSome = true) ∧ (u.amuEntry b e = none))) = true ∧
    (let s : State := (up).wr fEXPERT_UNLOCK_UNLOCKED 8 1; let b : Nat := 0; let e : Nat := 9; let copyBits : Bool := true; let u : State := ((up).wr fEXPERT_UNLOCK_UNLOCKED 8 1).atRegion 8 0x904;
      decide ((s.reaches 0 = true) ∧ (s.ready 8 = true) ∧ (u = s.atRegion 8 0x904) ∧ (u.rd fEXPERT_UNLOCK_UNLOCKED 8 = 1) ∧ (u.tableOf b = none))) = true ∧
    (let s : State := up; let b : Nat := 0; let e : Nat := 9; let copyBits : Bool := true; let u : State := up.atRegion 8 0x904;
      decide ((s.reaches 0 = true) ∧ (s.ready 8 = true) ∧ (u = s.atRegion 8 0x904) ∧ (u.rd fEXPERT_UNLOCK_UNLOCKED 8 ≠ 1))) = true ∧
    (let s : State := (fnOne { ({ (up.wr fMGL_ENGINE_LOGICAL 0 0).wr fMGL_ENGINE_FN_VALID 0 0 with mgl := { up.mgl with jobs := [(0, [mjob0])] } } : State).wr fMGL_ENGINE_FN_VALID 0 1 with clk := { up.clk with tsu := 4096 } }); let e : Nat := 0; let p : Nat := 0; let j : MglJob := mjob0;
      decide ((s.running = true) ∧ ((s.engineJobs e).head? = some j) ∧ (s.engineClear e j.fn = false) ∧ (getD 0 s.mgl.idleAt e + 4096 ≤ s.clk.tsu) ∧ (j.since + 4096 ≤ s.clk.tsu) ∧ (s.physEngine e = some p))) = true ∧
    (let s : State := (fnOne { ((up.wr fMGL_ENGINE_LOGICAL 0 0).wr fMGL_ENGINE_FN_VALID 0 1) with clk := { up.clk with tsu := 4096 } }); let e : Nat := 0; let p : Nat := 0;
      decide ((s.running = true) ∧ (s.engineJobs e = []) ∧ (s.physEngine e = some p) ∧ (s.rd fMGL_ENGINE_FN_VALID p = 1) ∧ (getD 0 s.mgl.idleAt e + 4096 ≤ s.clk.tsu))) = true ∧
    (let s : State := { (up.wr fMGL_ENGINE_LOGICAL 0 0).wr fMGL_ENGINE_FN_VALID 0 0 with mgl := { up.mgl with jobs := [(0, [mjob0])] } }; let e : Nat := 0; let j : MglJob := mjob0;
      decide ((s.descReady e = true) ∧ ((s.engineJobs e).head? = some j) ∧ (fieldAt j.bytes 0 1 ≠ 2))) = true ∧
    (let s : State := { (up.wr fMGL_ENGINE_LOGICAL 0 0).wr fMGL_ENGINE_FN_VALID 0 0 with mgl := { up.mgl with jobs := [(0, [{ mjob0 with bytes := [2] }])] } }; let e : Nat := 0; let j : MglJob := { mjob0 with bytes := [2] };
      decide ((s.descReady e = true) ∧ ((s.engineJobs e).head? = some j) ∧ (fieldAt j.bytes 0 1 = 2))) = true ∧
    (let s : State := (up).wr fEXPERT_UNLOCK_UNLOCKED 9 1; let p : Nat := 17; let u : State := ((up).wr fEXPERT_UNLOCK_UNLOCKED 9 1).atRegion 9 0x904;
      decide ((s.reaches 0 = true) ∧ (s.ready 9 = true) ∧ (u = s.atRegion 9 0x904) ∧ (u.rd fEXPERT_UNLOCK_UNLOCKED 9 = 1) ∧ (p < 18))) = true ∧
    (let s : State := (up).wr fEXPERT_UNLOCK_UNLOCKED 9 1; let p : Nat := 18; let u : State := ((up).wr fEXPERT_UNLOCK_UNLOCKED 9 1).atRegion 9 0x904;
      decide ((s.reaches 0 = true) ∧ (s.ready 9 = true) ∧ (u = s.atRegion 9 0x904) ∧ (u.rd fEXPERT_UNLOCK_UNLOCKED 9 = 1) ∧ (18 ≤ p))) = true ∧
    (let s : State := up; let p : Nat := 3; let u : State := up.atRegion 9 0x904;
      decide ((s.reaches 0 = true) ∧ (s.ready 9 = true) ∧ (u = s.atRegion 9 0x904) ∧ (u.rd fEXPERT_UNLOCK_UNLOCKED 9 ≠ 1))) = true ∧
    (let s : State := { up with darn := { up.darn with marks := [⟨2, 4, 1, 0, 0⟩] } }; let p : Nat := 4;
      decide ((s.ready 9 = true) ∧ (s.starts 15 = true) ∧ (s.darn.current = none) ∧ (s.engineMarked = some p))) = true := by
  decide +kernel

theorem wit_HalyardCommandsComplete_20 :
    (let s : State := { up.wr fHAL_CH_STATUS_STATE 0 2 with hal := { up.hal with jobs := [(0, [{ halJob0 with x := { xfer0 with dstHost := true } }])] } }; let c : Nat := 0; let host : Nat := 1; let j : HalJob := { halJob0 with x := { xfer0 with dstHost := true } }; let rest : List HalJob := []; let b : Burst := ⟨0, 64, 0⟩; let e : Nat × Nat := (0x22, 0x10); let es : List Nat := ({ xfer0 with dstHost := true } : Xfer).srcElems 0 64; let i : Nat := s.free % max 1 es.length;
      decide ((s.running = true) ∧ (s.chJobs c = j :: rest) ∧ (j.bursts.head? = some b) ∧ (s.burstBad j b = none) ∧ (hostFailure host = some e) ∧ (j.x.srcHost = true) ∧ (es = j.x.srcElems b.off b.len) ∧ (i = s.free % max 1 es.length))) = true := by
  exact decide_eq_true ⟨by decide +kernel, by decide +kernel, by decide +kernel, by decide +kernel, by decide +kernel, by decide +kernel, by decide +kernel, rfl⟩

theorem wit_HalyardCommandsComplete_21 :
    (let s : State := haltOut; let c : Nat := 0; let host : Nat := 1; let j : HalJob := { halJob0 with x := xout0 }; let rest : List HalJob := []; let b : Burst := ⟨0, 64, 0⟩; let e : Nat × Nat := (0x22, 0x10); let es : List Nat := xout0.dstElems 0 64; let i : Nat := s.free % max 1 es.length;
      decide ((s.running = true) ∧ (s.chJobs c = j :: rest) ∧ (j.bursts.head? = some b) ∧ (s.burstBad j b = none) ∧ (hostFailure host = some e) ∧ (j.x.srcHost = false) ∧ (j.x.dstHost = true) ∧ (e.1 = 0x22) ∧ (es = j.x.dstElems b.off b.len) ∧ (i = s.free % max 1 es.length))) = true := by
  exact decide_eq_true ⟨by decide +kernel, by decide +kernel, by decide +kernel, by decide +kernel, by decide +kernel, by decide +kernel, by decide +kernel, by decide +kernel, by decide +kernel, rfl⟩

theorem wit_HalyardCommandsComplete :
    (let s : State := withQ 0 1 { gq with cls := 3, fetched := [⟨7, ln [1, 0, 0, 0, 4], .handed⟩] } up; let fn : Nat := 0; let qid : Nat := 1; let e : Entry := ⟨7, ln [1, 0, 0, 0, 4], .handed⟩; let x : Nat × Nat := (0x10, 0x01);
      decide ((s.halStarts = true) ∧ (s.moveEntry fn qid false = some e) ∧ (s.moveError fn e.line = some x))) = true ∧
    (let s : State := withQ 0 1 { gq with cls := 3, fetched := [⟨7, lcopy, .handed⟩] } (up.wr fHAL_CH_CFG_ASSIGNED 0 1); let fn : Nat := 0; let qid : Nat := 1; let e : Entry := ⟨7, lcopy, .handed⟩; let c : Nat := 0;
      decide ((s.halStarts = true) ∧ (s.moveEntry fn qid false = some e) ∧ (s.moveError fn e.line = none) ∧ (s.moveChannel fn e.line = some c))) = true ∧
    (let s : State := withQ 0 1 { gq with cls := 3, fetched := [⟨7, lcopy, .handed⟩] } (full4 up); let fn : Nat := 0; let qid : Nat := 1; let e : Entry := ⟨7, lcopy, .handed⟩;
      decide ((s.halStarts = true) ∧ (s.moveEntry fn qid false = some e) ∧ (s.moveError fn e.line = none) ∧ (s.moveChannel fn e.line = none))) = true ∧
    (let s : State := withQ 0 1 { gq with cls := 3, fetched := [⟨7, lmang, .handed⟩] } (up.wr fHAL_CH_CFG_ASSIGNED 0 1); let fn : Nat := 0; let qid : Nat := 1;
      decide ((s.halStarts = true))) = true ∧
    (let s : State := up; let c : Nat := 0; let v : Nat := 0x100001; let u : State := (up).atRegion 7 0x10000;
      decide ((s.reaches 0 = true) ∧ (s.ready 7 = true) ∧ (c < 64) ∧ (u = s.atRegion 7 (0x10000 + 64 * c)) ∧ (u.cfgRefused c v = false))) = true ∧
    (let s : State := up; let c : Nat := 0; let v : Nat := 1; let u : State := (up).atRegion 7 0x10000;
      decide ((s.reaches 0 = true) ∧ (s.ready 7 = true) ∧ (c < 64) ∧ (u = s.atRegion 7 (0x10000 + 64 * c)) ∧ (u.cfgRefused c v = true))) = true ∧
    (let s : State := (((up.wr fHAL_CH_CFG_MODE 0 1).wr fHAL_CH_COUNT_COUNT 0 64).wr fHAL_CH_SSTRIDE_STRIDE 0 1).wr fHAL_CH_DSTRIDE_STRIDE 0 1; let c : Nat := 0; let u : State := ((((up.wr fHAL_CH_CFG_MODE 0 1).wr fHAL_CH_COUNT_COUNT 0 64).wr fHAL_CH_SSTRIDE_STRIDE 0 1).wr fHAL_CH_DSTRIDE_STRIDE 0 1).atRegion 7 0x1000C;
      decide ((s.reaches 0 = true) ∧ (s.ready 7 = true) ∧ (c < 64) ∧ (u = s.atRegion 7 (0x1000C + 64 * c)) ∧ (u.rd fHAL_CH_CFG_MODE c ≠ 0) ∧ (u.chState c = chIdle) ∧ (codesBad (u.rd fHAL_CH_FORMAT_SW c) (u.rd fHAL_CH_FORMAT_DW c) (u.rd fHAL_CH_FORMAT_SRC_SPACE c) (u.rd fHAL_CH_FORMAT_DST_SPACE c) = false) ∧ (u.xferError (u.regXfer c) = none))) = true ∧
    (let s : State := up; let c : Nat := 0; let u : State := (up).atRegion 7 0x1000C;
      decide ((s.reaches 0 = true) ∧ (s.ready 7 = true) ∧ (c < 64) ∧ (u = s.atRegion 7 (0x1000C + 64 * c)) ∧ ((u.rd fHAL_CH_CFG_MODE c = 0 ∨ u.chState c ≠ chIdle)))) = true ∧
    (let s : State := ((((up.wr fHAL_CH_CFG_MODE 0 1).wr fHAL_CH_COUNT_COUNT 0 64).wr fHAL_CH_SSTRIDE_STRIDE 0 1).wr fHAL_CH_DSTRIDE_STRIDE 0 1).wr fHAL_CH_FORMAT_SW 0 5; let c : Nat := 0; let u : State := (((((up.wr fHAL_CH_CFG_MODE 0 1).wr fHAL_CH_COUNT_COUNT 0 64).wr fHAL_CH_SSTRIDE_STRIDE 0 1).wr fHAL_CH_DSTRIDE_STRIDE 0 1).wr fHAL_CH_FORMAT_SW 0 5).atRegion 7 0x1000C;
      decide ((s.reaches 0 = true) ∧ (s.ready 7 = true) ∧ (c < 64) ∧ (u = s.atRegion 7 (0x1000C + 64 * c)) ∧ (u.rd fHAL_CH_CFG_MODE c ≠ 0) ∧ (u.chState c = chIdle) ∧ (codesBad (u.rd fHAL_CH_FORMAT_SW c) (u.rd fHAL_CH_FORMAT_DW c) (u.rd fHAL_CH_FORMAT_SRC_SPACE c) (u.rd fHAL_CH_FORMAT_DST_SPACE c) = true))) = true ∧
    (let s : State := ((((up.wr fHAL_CH_CFG_MODE 0 1).wr fHAL_CH_COUNT_COUNT 0 64).wr fHAL_CH_SSTRIDE_STRIDE 0 1).wr fHAL_CH_DSTRIDE_STRIDE 0 1).wr fHAL_CH_COUNT_COUNT 0 0; let c : Nat := 0; let x : Nat × Nat := (0x11, 0x10); let u : State := (((((up.wr fHAL_CH_CFG_MODE 0 1).wr fHAL_CH_COUNT_COUNT 0 64).wr fHAL_CH_SSTRIDE_STRIDE 0 1).wr fHAL_CH_DSTRIDE_STRIDE 0 1).wr fHAL_CH_COUNT_COUNT 0 0).atRegion 7 0x1000C;
      decide ((s.reaches 0 = true) ∧ (s.ready 7 = true) ∧ (c < 64) ∧ (u = s.atRegion 7 (0x1000C + 64 * c)) ∧ (u.rd fHAL_CH_CFG_MODE c ≠ 0) ∧ (u.chState c = chIdle) ∧ (codesBad (u.rd fHAL_CH_FORMAT_SW c) (u.rd fHAL_CH_FORMAT_DW c) (u.rd fHAL_CH_FORMAT_SRC_SPACE c) (u.rd fHAL_CH_FORMAT_DST_SPACE c) = false) ∧ (u.xferError (u.regXfer c) = some x))) = true ∧
    (let s : State := (up.wr fHAL_CH_CFG_MODE 0 1).wr fHAL_CH_STATUS_STATE 0 4; let c : Nat := 0; let u : State := ((up.wr fHAL_CH_CFG_MODE 0 1).wr fHAL_CH_STATUS_STATE 0 4).atRegion 7 0x1000C;
      decide ((s.reaches 0 = true) ∧ (s.ready 7 = true) ∧ (c < 64) ∧ (u = s.atRegion 7 (0x1000C + 64 * c)) ∧ (u.chState c = chHalted) ∧ (u.rd fHAL_CH_CFG_MODE c = 1))) = true ∧
    (let s : State := up; let c : Nat := 0; let u : State := (up).atRegion 7 0x1000C;
      decide ((s.reaches 0 = true) ∧ (s.ready 7 = true) ∧ (c < 64) ∧ (u = s.atRegion 7 (0x1000C + 64 * c)) ∧ ((u.chState c ≠ chHalted ∨ u.rd fHAL_CH_CFG_MODE c ≠ 1)))) = true ∧
    (let s : State := (up.wr fHAL_CH_CFG_MODE 0 1).wr fHAL_CH_STATUS_STATE 0 2; let c : Nat := 0; let u : State := ((up.wr fHAL_CH_CFG_MODE 0 1).wr fHAL_CH_STATUS_STATE 0 2).atRegion 7 0x1000C;
      decide ((s.reaches 0 = true) ∧ (s.ready 7 = true) ∧ (c < 64) ∧ (u = s.atRegion 7 (0x1000C + 64 * c)) ∧ (u.rd fHAL_CH_CFG_MODE c ≠ 0) ∧ ((u.chState c = chArmed ∨ u.chState c = chActive)))) = true ∧
    (let s : State := up; let c : Nat := 0; let u : State := (up).atRegion 7 0x1000C;
      decide ((s.reaches 0 = true) ∧ (s.ready 7 = true) ∧ (c < 64) ∧ (u = s.atRegion 7 (0x1000C + 64 * c)) ∧ (u.rd fHAL_CH_CFG_MODE c = 0))) = true ∧
    (let s : State := up.wr fHAL_CH_CFG_MODE 0 1; let c : Nat := 0; let u : State := (up.wr fHAL_CH_CFG_MODE 0 1).atRegion 7 0x1000C;
      decide ((s.reaches 0 = true) ∧ (s.ready 7 = true) ∧ (c < 64) ∧ (u = s.atRegion 7 (0x1000C + 64 * c)) ∧ (u.rd fHAL_CH_CFG_MODE c ≠ 0) ∧ (u.chState c ≠ chArmed) ∧ (u.chState c ≠ chActive))) = true ∧
    (let s : State := { up.wr fHAL_CH_STATUS_STATE 0 2 with hal := { up.hal with jobs := [(0, [{ halJob0 with next := 0, bursts := [] }])] } }; let c : Nat := 0; let level : Bool := true;
      decide ((s.burstReady c level = true))) = true ∧
    (let s : State := { up.wr fHAL_CH_STATUS_STATE 0 2 with hal := { up.hal with jobs := [(0, [{ halJob0 with x := { xfer0 with dstHost := true } }])] } }; let c : Nat := 0; let j : HalJob := { halJob0 with x := { xfer0 with dstHost := true } }; let rest : List HalJob := []; let b : Burst := ⟨0, 64, 0⟩;
      decide ((s.running = true) ∧ (s.chJobs c = j :: rest) ∧ (j.bursts.head? = some b) ∧ (s.burstBad j b = none))) = true ∧
    (let s : State := { up.wr fHAL_CH_STATUS_STATE 0 2 with hal := { up.hal with jobs := [(0, [{ halJob0 with x := { xfer0 with srcHost := false } }])] } }; let c : Nat := 0; let j : HalJob := { halJob0 with x := { xfer0 with srcHost := false } }; let rest : List HalJob := []; let b : Burst := ⟨0, 64, 0⟩;
      decide ((s.running = true) ∧ (s.chJobs c = j :: rest) ∧ (j.bursts.head? = some b) ∧ (s.burstBad j b ≠ none))) = true ∧
    (let s : State := { up.wr fHAL_CH_STATUS_STATE 0 2 with hal := { up.hal with jobs := [(0, [{ halJob0 with x := { xfer0 with srcHost := false } }])] } }; let c : Nat := 0; let host : Nat := 0; let j : HalJob := { halJob0 with x := { xfer0 with srcHost := false } }; let rest : List HalJob := []; let b : Burst := ⟨0, 64, 0⟩; let e : Nat × Nat × Nat × Nat := (0, 4096, 0x22, 1);
      decide ((s.running = true) ∧ (s.chJobs c = j :: rest) ∧ (j.bursts.head? = some b) ∧ (s.burstBad j b = some e))) = true ∧
    (let s : State := { { up.wr fHAL_CH_STATUS_STATE 0 3 with hal := { up.hal with jobs := [(0, [halJob0])] } } with hal := { up.hal with jobs := [(0, [halJob0])], stopAt := [(0, 0)] }, clk := { up.clk with tsu := 8000 } }; let c : Nat := 0; let j : HalJob := halJob0; let rest : List HalJob := []; let t0 : Nat := 0;
      decide ((s.running = true) ∧ (s.chState c = chStopping) ∧ (find s.hal.stopAt c = some t0) ∧ (t0 + ticksOfUs 10 ≤ s.clk.tsu) ∧ (s.chJobs c = j :: rest))) = true ∧
    (let s : State := up; let line : Nat := 3;
      decide ((s.running = true) ∧ (s.ready 7 = true) ∧ (line < 16))) = true := by
  decide +kernel

theorem wit_VolumeCommandsComplete_28 :
    (let s : State := spareable; let p : Nat := 6; let v : Volume := vol0; let u : State := ((((spareable.atRegion 10 0x88).sendPlain 6 1 0 256 (List.replicate (4096 * 256) 0)).membership { vol0 with spare := some 6 }).setRole 6 2 0).opDone; let d : State := (spareable : State).atRegion 10 0x88;
      decide ((s.reaches 0 = true) ∧ (s.ready 10 = true) ∧ (d = s.atRegion 10 0x88) ∧ (d.cvc.vol = some v) ∧ (v.spare = none) ∧ (d.portReady p = true) ∧ (d.rd fDSP_PORT_ROLE p ≠ 1) ∧ (d.rd fDSP_PORT_ROLE p ≠ 2) ∧ (v.spareFits (d.drive p).blocks = true) ∧ (v.members < 8) ∧ (u = (((d.sendPlain p 1 0 256 (List.replicate (4096 * 256) 0)).membership { v with spare := some p }).setRole p 2 0).opDone))) = true := by
  exact decide_eq_true ⟨by decide +kernel, by decide +kernel, by decide +kernel, by decide +kernel, by decide +kernel, by decide +kernel, by decide +kernel, by decide +kernel, by decide +kernel, by decide +kernel, rfl⟩

theorem wit_VolumeCommandsComplete :
    (let s : State := withQ 0 1 { gq with cls := 2, fetched := [⟨7, ln [1], .handed⟩] } up; let fn : Nat := 0; let qid : Nat := 1; let host : Nat := 0; let e : Entry := ⟨7, ln [1], .handed⟩;
      decide ((s.cvcAwake = true) ∧ (s.handedEntry fn qid 2 = some e) ∧ (entryOpcode e.line = 1))) = true ∧
    (let s : State := withQ 0 1 { gq with cls := 2, fetched := [⟨7, ln [2], .handed⟩] } up; let fn : Nat := 0; let qid : Nat := 1; let host : Nat := 0; let e : Entry := ⟨7, ln [2], .handed⟩;
      decide ((s.cvcAwake = true) ∧ (s.handedEntry fn qid 2 = some e) ∧ (entryOpcode e.line = 2))) = true ∧
    (let s : State := withQ 0 1 { gq with cls := 2, fetched := [⟨7, ln [3], .handed⟩] } up; let fn : Nat := 0; let qid : Nat := 1; let e : Entry := ⟨7, ln [3], .handed⟩;
      decide ((s.cvcAwake = true) ∧ (s.handedEntry fn qid 2 = some e) ∧ (entryOpcode e.line = 3))) = true ∧
    (let s : State := withQ 0 1 { gq with cls := 2, fetched := [⟨7, ln [4], .handed⟩] } up; let fn : Nat := 0; let qid : Nat := 1; let e : Entry := ⟨7, ln [4], .handed⟩;
      decide ((s.cvcAwake = true) ∧ (s.handedEntry fn qid 2 = some e) ∧ (entryOpcode e.line = 4))) = true ∧
    (let s : State := up;
      decide ((s.cvcAwake = true) ∧ (s.admitNext = none))) = true ∧
    (let s : State := { up with cvc := { up.cvc with cmds := [(0, vcmd0)] } }; let n : Nat := 0; let c : VolCmd := vcmd0;
      decide ((s.cvcAwake = true) ∧ (s.admitNext = some (n, c)) ∧ (c.host = true))) = true ∧
    (let s : State := { up with cvc := { up.cvc with cmds := [(0, { vcmd0 with host := false })] } }; let n : Nat := 0; let c : VolCmd := { vcmd0 with host := false }; let p : List (Nat × Nat) := [];
      decide ((s.cvcAwake = true) ∧ (s.admitNext = some (n, c)) ∧ (c.host = false) ∧ (s.physSegs c.fn (if c.kind = .write then .read else .write) (pagedSegs c.segs) = .ok p))) = true ∧
    (let s : State := { up with cvc := { up.cvc with cmds := [(0, vbad0)] } }; let n : Nat := 0; let c : VolCmd := vbad0; let e : Nat := 1;
      decide ((s.cvcAwake = true) ∧ (s.admitNext = some (n, c)) ∧ (c.host = false) ∧ (s.physSegs c.fn (if c.kind = .write then .read else .write) (pagedSegs c.segs) = .error e))) = true ∧
    (let s : State := { up with cvc := { up.cvc with drv := [dcmd0] } }; let tag : Nat := 5; let status : Nat := 0; let dword0 : Nat := 0; let data : List Byte := []; let d : DriveCmd := dcmd0;
      decide ((s.dspActs = true) ∧ (s.board.pwrGood = true) ∧ (s.cvc.drv.find? (fun (d : DriveCmd) => decide (d.tag = tag)) = some d) ∧ (¬ (status = 0 ∧ d.op = 2 ∧ data.length ≠ 4096 * d.count)))) = true ∧
    (let s : State := { up with cvc := { up.cvc with drv := [{ dcmd0 with op := 2 }] } }; let tag : Nat := 5; let status : Nat := 0; let dword0 : Nat := 0; let data : List Byte := []; let d : DriveCmd := { dcmd0 with op := 2 };
      decide ((s.dspActs = true) ∧ (s.board.pwrGood = true) ∧ (s.cvc.drv.find? (fun (d : DriveCmd) => decide (d.tag = tag)) = some d) ∧ (status = 0) ∧ (d.op = 2) ∧ (data.length ≠ 4096 * d.count))) = true ∧
    (let s : State := { up with cvc := { up.cvc with admin := some ⟨1, 5, 0, 2, 0, 0, 0⟩ } }; let tag : Nat := 5; let status : Nat := 0; let dword0 : Nat := 0; let data : List Byte := []; let j : AdminJob := ⟨1, 5, 0, 2, 0, 0, 0⟩;
      decide ((s.dspActs = true) ∧ (s.board.pwrGood = true) ∧ (s.cvc.drv.find? (fun (d : DriveCmd) => decide (d.tag = tag)) = none) ∧ (s.cvc.admin = some j) ∧ (j.tag = tag))) = true ∧
    (let s : State := { up with board := { up.board with phase := .warm }, cvc := { up.cvc with drv := [dcmd0] } }; let tag : Nat := 5; let status : Nat := 0; let dword0 : Nat := 0; let data : List Byte := [];
      decide ((s.board.phase = .warm) ∧ (s.board.pwrGood = true))) = true ∧
    (let s : State := ({ up with cvc := { up.cvc with drv := [dcmd0] }, clk := { up.clk with tsu := 2 ^ 50 } } : State); let tag : Nat := 5; let reinit : Bool := true; let d : DriveCmd := dcmd0; let u : State := ((({ up with cvc := { up.cvc with drv := [dcmd0] }, clk := { up.clk with tsu := 2 ^ 50 } } : State).bumpSat fCVC_MEDIA_TIMEOUTS 0 1).bumpSat fDSP_PORT_TIMEOUTS 0 1); let v : State := ((({ up with cvc := { up.cvc with drv := [dcmd0] }, clk := { up.clk with tsu := 2 ^ 50 } } : State).bumpSat fCVC_MEDIA_TIMEOUTS 0 1).bumpSat fDSP_PORT_TIMEOUTS 0 1).fault 11 { ((({ up with cvc := { up.cvc with drv := [dcmd0] }, clk := { up.clk with tsu := 2 ^ 50 } } : State).bumpSat fCVC_MEDIA_TIMEOUTS 0 1).bumpSat fDSP_PORT_TIMEOUTS 0 1).entry 11 1 with status := 0x40, sub := 0x03, unit := 0, cause := 3 };
      decide ((s.dspActs = true) ∧ (s.cvc.drv.find? (fun (d : DriveCmd) => decide (d.tag = tag)) = some d) ∧ (d.since + s.driveLimit ≤ s.clk.tsu) ∧ (u = (s.bumpSat fCVC_MEDIA_TIMEOUTS 0 1).bumpSat fDSP_PORT_TIMEOUTS d.port 1) ∧ (v = u.fault 11 { u.entry 11 1 with status := 0x40, sub := 0x03, unit := d.port, cause := 3 }) ∧ (d.again = false) ∧ (reinit = true))) = true ∧
    (let s : State := ({ up with cvc := { up.cvc with drv := [dcmd0] }, clk := { up.clk with tsu := 2 ^ 50 } } : State); let tag : Nat := 5; let reinit : Bool := false; let d : DriveCmd := dcmd0; let u : State := ((({ up with cvc := { up.cvc with drv := [dcmd0] }, clk := { up.clk with tsu := 2 ^ 50 } } : State).bumpSat fCVC_MEDIA_TIMEOUTS 0 1).bumpSat fDSP_PORT_TIMEOUTS 0 1); let v : State := ((({ up with cvc := { up.cvc with drv := [dcmd0] }, clk := { up.clk with tsu := 2 ^ 50 } } : State).bumpSat fCVC_MEDIA_TIMEOUTS 0 1).bumpSat fDSP_PORT_TIMEOUTS 0 1).fault 11 { ((({ up with cvc := { up.cvc with drv := [dcmd0] }, clk := { up.clk with tsu := 2 ^ 50 } } : State).bumpSat fCVC_MEDIA_TIMEOUTS 0 1).bumpSat fDSP_PORT_TIMEOUTS 0 1).entry 11 1 with status := 0x40, sub := 0x03, unit := 0, cause := 3 };
      decide ((s.dspActs = true) ∧ (s.cvc.drv.find? (fun (d : DriveCmd) => decide (d.tag = tag)) = some d) ∧ (d.since + s.driveLimit ≤ s.clk.tsu) ∧ (u = (s.bumpSat fCVC_MEDIA_TIMEOUTS 0 1).bumpSat fDSP_PORT_TIMEOUTS d.port 1) ∧ (v = u.fault 11 { u.entry 11 1 with status := 0x40, sub := 0x03, unit := d.port, cause := 3 }) ∧ (d.again = false) ∧ (reinit = false))) = true ∧
    (let s : State := ({ up with cvc := { up.cvc with drv := [{ dcmd0 with again := true }] }, clk := { up.clk with tsu := 2 ^ 50 } } : State); let tag : Nat := 5; let reinit : Bool := true; let d : DriveCmd := { dcmd0 with again := true }; let u : State := ((({ up with cvc := { up.cvc with drv := [{ dcmd0 with again := true }] }, clk := { up.clk with tsu := 2 ^ 50 } } : State).bumpSat fCVC_MEDIA_TIMEOUTS 0 1).bumpSat fDSP_PORT_TIMEOUTS 0 1); let v : State := ((({ up with cvc := { up.cvc with drv := [{ dcmd0 with again := true }] }, clk := { up.clk with tsu := 2 ^ 50 } } : State).bumpSat fCVC_MEDIA_TIMEOUTS 0 1).bumpSat fDSP_PORT_TIMEOUTS 0 1).fault 11 { ((({ up with cvc := { up.cvc with drv := [{ dcmd0 with again := true }] }, clk := { up.clk with tsu := 2 ^ 50 } } : State).bumpSat fCVC_MEDIA_TIMEOUTS 0 1).bumpSat fDSP_PORT_TIMEOUTS 0 1).entry 11 1 with status := 0x40, sub := 0x03, unit := 0, cause := 3 };
      decide ((s.dspActs = true) ∧ (s.cvc.drv.find? (fun (d : DriveCmd) => decide (d.tag = tag)) = some d) ∧ (d.since + s.driveLimit ≤ s.clk.tsu) ∧ (u = (s.bumpSat fCVC_MEDIA_TIMEOUTS 0 1).bumpSat fDSP_PORT_TIMEOUTS d.port 1) ∧ (v = u.fault 11 { u.entry 11 1 with status := 0x40, sub := 0x03, unit := d.port, cause := 3 }) ∧ (d.again = true))) = true ∧
    (let s : State := { up with cvc := { up.cvc with drv := [dcmd0] } }; let tag : Nat := 5; let reinit : Bool := true; let d : DriveCmd := dcmd0;
      decide ((s.dspActs = true) ∧ (s.cvc.drv.find? (fun (d : DriveCmd) => decide (d.tag = tag)) = some d) ∧ (s.clk.tsu < d.since + s.driveLimit))) = true ∧
    (let s : State := { up with cvc := { up.cvc with admin := some ⟨1, 5, 0, 2, 0, 0, 0⟩ }, clk := { up.clk with tsu := 2 ^ 50 } }; let tag : Nat := 5; let reinit : Bool := true; let j : AdminJob := ⟨1, 5, 0, 2, 0, 0, 0⟩;
      decide ((s.dspActs = true) ∧ (s.cvc.drv.find? (fun (d : DriveCmd) => decide (d.tag = tag)) = none) ∧ (s.cvc.admin = some j) ∧ (j.tag = tag) ∧ (j.since + s.driveLimit ≤ s.clk.tsu))) = true ∧
    (let s : State := { (withVol up).wr fCVC_VOL_STATUS_STATE 0 3 with clk := { up.clk with tsu := 2 ^ 50 } }; let v : Volume := vol0;
      decide ((s.cvcAwake = true) ∧ (s.ready 10 = true) ∧ (s.volState = 3) ∧ (s.internalBusy .rebuild = false) ∧ (s.cvc.vol = some v) ∧ (s.cvc.rebuildAt + s.rebuildSpacing v ≤ s.clk.tsu))) = true ∧
    (let s : State := { up with cvc := { up.cvc with vol := some { vol0 with resync := [(3, 4)] } } }; let v : Volume := { vol0 with resync := [(3, 4)] }; let st : Nat := 3; let n : Nat := 4; let rest : List (Nat × Nat) := [];
      decide ((s.cvcAwake = true) ∧ (s.ready 10 = true) ∧ (s.internalBusy .resync = false) ∧ (s.cvc.vol = some v) ∧ (v.resync = (st, n) :: rest) ∧ (v.missing = []))) = true ∧
    (let s : State := up; let d : State := (up : State).atRegion 10 0x88;
      decide ((s.reaches 0 = true) ∧ (s.ready 10 = true) ∧ (d = s.atRegion 10 0x88) ∧ (d.createBad d.cfgVolume = true))) = true ∧
    (let s : State := creatable; let d : State := (creatable : State).atRegion 10 0x88;
      decide ((s.reaches 0 = true) ∧ (s.ready 10 = true) ∧ (d = s.atRegion 10 0x88) ∧ (d.createBad d.cfgVolume = false))) = true ∧
    (let s : State := up; let d : State := (up : State).atRegion 10 0x88;
      decide ((s.reaches 0 = true) ∧ (s.ready 10 = true) ∧ (d = s.atRegion 10 0x88) ∧ (d.anyGrant = false) ∧ ((∀ nc ∈ d.cvc.cmds, nc.2.internal = true)) ∧ (d.cvc.vol = none))) = true ∧
    (let s : State := (withVol up).wr fCVC_FN_ENABLE 3 1; let d : State := ((withVol up).wr fCVC_FN_ENABLE 3 1 : State).atRegion 10 0x88;
      decide ((s.reaches 0 = true) ∧ (s.ready 10 = true) ∧ (d = s.atRegion 10 0x88) ∧ (d.anyGrant = true))) = true ∧
    (let s : State := { up with cvc := { up.cvc with cmds := [(0, vcmd0)] } }; let d : State := ({ up with cvc := { up.cvc with cmds := [(0, vcmd0)] } } : State).atRegion 10 0x88;
      decide ((s.reaches 0 = true) ∧ (s.ready 10 = true) ∧ (d = s.atRegion 10 0x88) ∧ ((d.cvc.cmds.any (fun (nc : Nat × VolCmd) => !nc.2.internal)) = true))) = true ∧
    (let s : State := withVol up; let v : Volume := vol0; let d : State := (withVol up : State).atRegion 10 0x88;
      decide ((s.reaches 0 = true) ∧ (s.ready 10 = true) ∧ (d = s.atRegion 10 0x88) ∧ (d.anyGrant = false) ∧ ((∀ nc ∈ d.cvc.cmds, nc.2.internal = true)) ∧ (d.cvc.vol = some v))) = true ∧
    (let s : State := up; let p : Nat := 6; let d : State := (up : State).atRegion 10 0x88;
      decide ((s.reaches 0 = true) ∧ (s.ready 10 = true) ∧ (d = s.atRegion 10 0x88) ∧ (d.cvc.vol = none))) = true ∧
    (let s : State := withVol up; let p : Nat := 6; let v : Volume := vol0; let d : State := (withVol up : State).atRegion 10 0x88;
      decide ((s.reaches 0 = true) ∧ (s.ready 10 = true) ∧ (d = s.atRegion 10 0x88) ∧ (d.cvc.vol = some v) ∧ ((v.spare ≠ none ∨ d.portReady p = false ∨ d.rd fDSP_PORT_ROLE p = 1 ∨ d.rd fDSP_PORT_ROLE p = 2 ∨ v.spareFits (d.drive p).blocks = false ∨ 8 ≤ v.members)))) = true ∧
    (let s : State := up; let d : State := (up : State).atRegion 10 0x88;
      decide ((s.reaches 0 = true) ∧ (s.ready 10 = true) ∧ (d = s.atRegion 10 0x88) ∧ (d.cvc.vol = none))) = true ∧
    (let s : State := withVol up; let v : Volume := vol0; let d : State := (withVol up : State).atRegion 10 0x88;
      decide ((s.reaches 0 = true) ∧ (s.ready 10 = true) ∧ (d = s.atRegion 10 0x88) ∧ (d.cvc.vol = some v) ∧ (v.spare = none))) = true ∧
    (let s : State := { up.wr fCVC_VOL_STATUS_STATE 0 3 with cvc := { up.cvc with vol := some { vol0 with spare := some 6 } } }; let v : Volume := { vol0 with spare := some 6 }; let p : Nat := 6; let d : State := ({ up.wr fCVC_VOL_STATUS_STATE 0 3 with cvc := { up.cvc with vol := some { vol0 with spare := some 6 } } } : State).atRegion 10 0x88;
      decide ((s.reaches 0 = true) ∧ (s.ready 10 = true) ∧ (d = s.atRegion 10 0x88) ∧ (d.cvc.vol = some v) ∧ (v.spare = some p) ∧ (d.volState = 3))) = true ∧
    (let s : State := { up with cvc := { up.cvc with vol := some { vol0 with spare := some 6 } } }; let v : Volume := { vol0 with spare := some 6 }; let p : Nat := 6; let d : State := ({ up with cvc := { up.cvc with vol := some { vol0 with spare := some 6 } } } : State).atRegion 10 0x88;
      decide ((s.reaches 0 = true) ∧ (s.ready 10 = true) ∧ (d = s.atRegion 10 0x88) ∧ (d.cvc.vol = some v) ∧ (v.spare = some p) ∧ (d.volState ≠ 3))) = true ∧
    (let s : State := (up.wr fEXPERT_UNLOCK_UNLOCKED 10 1 : State); let fn : Nat := 3; let v : Nat := 4; let d : State := (up.wr fEXPERT_UNLOCK_UNLOCKED 10 1 : State).atRegion 10 0x10070;
      decide ((s.reaches 0 = true) ∧ (s.ready 10 = true) ∧ (fn ≤ 1024) ∧ (d = s.atRegion 10 (0x10010 + 32 * fn)) ∧ (d.rd fEXPERT_UNLOCK_UNLOCKED 10 = 1) ∧ (d.lockResvSum - d.rd fCVC_FN_RESV fn + lowBits 10 v ≤ 512))) = true ∧
    (let s : State := ((up.wr fEXPERT_UNLOCK_UNLOCKED 10 1).wr fCVC_FN_RESV 7 512 : State); let fn : Nat := 3; let v : Nat := 4; let d : State := ((up.wr fEXPERT_UNLOCK_UNLOCKED 10 1).wr fCVC_FN_RESV 7 512 : State).atRegion 10 0x10070;
      decide ((s.reaches 0 = true) ∧ (s.ready 10 = true) ∧ (fn ≤ 1024) ∧ (d = s.atRegion 10 (0x10010 + 32 * fn)) ∧ (d.rd fEXPERT_UNLOCK_UNLOCKED 10 = 1) ∧ (512 < d.lockResvSum - d.rd fCVC_FN_RESV fn + lowBits 10 v))) = true ∧
    (let s : State := (up : State); let fn : Nat := 3; let v : Nat := 4; let d : State := (up : State).atRegion 10 0x10070;
      decide ((s.reaches 0 = true) ∧ (s.ready 10 = true) ∧ (fn ≤ 1024) ∧ (d = s.atRegion 10 (0x10010 + 32 * fn)) ∧ (d.rd fEXPERT_UNLOCK_UNLOCKED 10 ≠ 1))) = true ∧
    (let s : State := (up.wr fEXPERT_UNLOCK_UNLOCKED 10 1 : State); let fn : Nat := 3; let v : Nat := 4; let d : State := (up.wr fEXPERT_UNLOCK_UNLOCKED 10 1 : State).atRegion 10 0x10078;
      decide ((s.reaches 0 = true) ∧ (s.ready 10 = true) ∧ (fn ≤ 1024) ∧ (d = s.atRegion 10 (0x10018 + 32 * fn)) ∧ (d.rd fEXPERT_UNLOCK_UNLOCKED 10 = 1) ∧ (d.cmdResvSum - d.rd fCVC_FN_CMD_RESV fn + lowBits 12 v ≤ 2048))) = true ∧
    (let s : State := ((up.wr fEXPERT_UNLOCK_UNLOCKED 10 1).wr fCVC_FN_CMD_RESV 7 2048 : State); let fn : Nat := 3; let v : Nat := 4; let d : State := ((up.wr fEXPERT_UNLOCK_UNLOCKED 10 1).wr fCVC_FN_CMD_RESV 7 2048 : State).atRegion 10 0x10078;
      decide ((s.reaches 0 = true) ∧ (s.ready 10 = true) ∧ (fn ≤ 1024) ∧ (d = s.atRegion 10 (0x10018 + 32 * fn)) ∧ (d.rd fEXPERT_UNLOCK_UNLOCKED 10 = 1) ∧ (2048 < d.cmdResvSum - d.rd fCVC_FN_CMD_RESV fn + lowBits 12 v))) = true ∧
    (let s : State := (up : State); let fn : Nat := 3; let v : Nat := 4; let d : State := (up : State).atRegion 10 0x10078;
      decide ((s.reaches 0 = true) ∧ (s.ready 10 = true) ∧ (fn ≤ 1024) ∧ (d = s.atRegion 10 (0x10018 + 32 * fn)) ∧ (d.rd fEXPERT_UNLOCK_UNLOCKED 10 ≠ 1))) = true := by
  decide +kernel

theorem wit_DriveCommandsComplete :
    (let s : State := { up with board := { up.board with drvPresent := 255 } }; let p : Nat := 6;
      decide ((p < 8) ∧ (s.drvHere p = true) ∧ (s.running = true))) = true ∧
    (let s : State := { off0 with board := { off0.board with drvPresent := 255 } }; let p : Nat := 6;
      decide ((p < 8) ∧ (s.drvHere p = true) ∧ (s.running = false))) = true ∧
    (let s : State := { up with clk := { up.clk with tsu := ticksOfMs 2000, now := ticksOfMs 2000 }, board := { up.board with drvPresent := 0 } }; let p : Nat := 6;
      decide ((p < 8) ∧ (s.drvHere p = false) ∧ (s.running = true) ∧ (s.ready 11 = true) ∧ (s.rd fDSP_PORT_DISABLE p = 0) ∧ (s.drvReleaseAt p ≤ s.clk.now) ∧ (s.board.perstN = true))) = true ∧
    (let s : State := off0; let p : Nat := 6;
      decide ((p < 8) ∧ (s.drvHere p = false) ∧ (¬ (s.running = true ∧ s.ready 11 = true ∧ s.rd fDSP_PORT_DISABLE p = 0 ∧ s.drvReleaseAt p ≤ s.clk.now ∧ s.board.perstN = true)))) = true ∧
    (let s : State := (up.wr fDSP_PORT_STATE 6 3 : State); let p : Nat := 6; let d : State := (up.wr fDSP_PORT_STATE 6 3 : State).atRegion 11 0x101A0;
      decide ((s.reaches 0 = true) ∧ (s.ready 11 = true) ∧ (p < 8) ∧ (d = s.atRegion 11 (0x10020 + 64 * p)) ∧ (d.portReady p = true))) = true ∧
    (let s : State := (up : State); let p : Nat := 6; let d : State := (up : State).atRegion 11 0x101A0;
      decide ((s.reaches 0 = true) ∧ (s.ready 11 = true) ∧ (p < 8) ∧ (d = s.atRegion 11 (0x10020 + 64 * p)) ∧ (d.portReady p = false))) = true ∧
    (let s : State := (up : State); let p : Nat := 6; let d : State := (up : State).atRegion 11 0x101A0;
      decide ((s.reaches 0 = true) ∧ (s.ready 11 = true) ∧ (p < 8) ∧ (d = s.atRegion 11 (0x10020 + 64 * p)) ∧ (d.rd fDSP_PORT_DISABLE p ≠ 1))) = true ∧
    (let s : State := (up.wr fDSP_PORT_DISABLE 6 1 : State); let p : Nat := 6; let d : State := (up.wr fDSP_PORT_DISABLE 6 1 : State).atRegion 11 0x101A0;
      decide ((s.reaches 0 = true) ∧ (s.ready 11 = true) ∧ (p < 8) ∧ (d = s.atRegion 11 (0x10020 + 64 * p)) ∧ (d.rd fDSP_PORT_DISABLE p = 1))) = true ∧
    (let s : State := ({ up.wr fDSP_PORT_DISABLE 6 1 with board := { up.board with drvPresent := 255 } } : State); let p : Nat := 6; let d : State := ({ up.wr fDSP_PORT_DISABLE 6 1 with board := { up.board with drvPresent := 255 } } : State).atRegion 11 0x101A0;
      decide ((s.reaches 0 = true) ∧ (s.ready 11 = true) ∧ (p < 8) ∧ (d = s.atRegion 11 (0x10020 + 64 * p)) ∧ (d.rd fDSP_PORT_DISABLE p ≠ 0) ∧ (d.drvHere p = true))) = true ∧
    (let s : State := ({ up.wr fDSP_PORT_DISABLE 6 1 with board := { up.board with drvPresent := 0 } } : State); let p : Nat := 6; let d : State := ({ up.wr fDSP_PORT_DISABLE 6 1 with board := { up.board with drvPresent := 0 } } : State).atRegion 11 0x101A0;
      decide ((s.reaches 0 = true) ∧ (s.ready 11 = true) ∧ (p < 8) ∧ (d = s.atRegion 11 (0x10020 + 64 * p)) ∧ (d.rd fDSP_PORT_DISABLE p ≠ 0) ∧ (d.drvHere p = false))) = true ∧
    (let s : State := (up : State); let p : Nat := 6; let d : State := (up : State).atRegion 11 0x101A0;
      decide ((s.reaches 0 = true) ∧ (s.ready 11 = true) ∧ (p < 8) ∧ (d = s.atRegion 11 (0x10020 + 64 * p)) ∧ (d.rd fDSP_PORT_DISABLE p = 0))) = true ∧
    (let s : State := withQ 0 0 { aq with fetched := [⟨1, ln (0x20 :: [0, 0, 0, 8]), .handed⟩] } up; let e : Entry := ⟨1, ln (0x20 :: [0, 0, 0, 8]), .handed⟩; let x : Nat × Nat := (0x10, 0x01);
      decide ((s.running = true) ∧ (s.ready 2 = true) ∧ (s.ready 10 = true) ∧ (s.cvc.admin = none) ∧ (s.adminNext 0 0x20 = some e) ∧ (s.driveAdminError e.line = some x))) = true ∧
    (let s : State := (withQ 0 0 { aq with fetched := [⟨1, ln (0x20 :: [0, 0, 0, 0, 2]), .handed⟩] } up).wr fDSP_PORT_STATE 0 3; let e : Entry := ⟨1, ln (0x20 :: [0, 0, 0, 0, 2]), .handed⟩;
      decide ((s.running = true) ∧ (s.ready 2 = true) ∧ (s.ready 10 = true) ∧ (s.cvc.admin = none) ∧ (s.adminNext 0 0x20 = some e) ∧ (s.driveAdminError e.line = none))) = true ∧
    (let s : State := withQ 0 0 { aq with fetched := [⟨1, ln (0x21 :: [0, 0, 0, 0, 0, 1]), .handed⟩] } up; let ok : Nat := 0; let e : Entry := ⟨1, ln (0x21 :: [0, 0, 0, 0, 0, 1]), .handed⟩;
      decide ((s.running = true) ∧ (s.ready 2 = true) ∧ (s.ready 10 = true) ∧ (s.cvc.fw = none) ∧ (s.adminNext 0 0x21 = some e))) = true ∧
    (let s : State := { up with cvc := { up.cvc with fw := some ⟨1, 0, 1⟩ } }; let ok : Nat := 0; let j : FwJob := ⟨1, 0, 1⟩;
      decide ((s.running = true) ∧ (s.ready 2 = true) ∧ (s.ready 10 = true) ∧ (s.cvc.fw = some j) ∧ (s.fwWaits = false))) = true ∧
    (let s : State := { up with cvc := { up.cvc with fw := some ⟨1, 0, 1⟩, cmds := [(0, vcmd0)] } }; let ok : Nat := 0;
      decide ((s.running = true) ∧ (s.ready 2 = true) ∧ (s.ready 10 = true) ∧ (s.cvc.fw ≠ none) ∧ (s.fwWaits = true))) = true ∧
    (let s : State := { up.wr fCVC_PS_TIMER_IDLE_US 0 1 with clk := { up.clk with tsu := 2 ^ 50 } }; let n : Nat := 1;
      decide ((s.running = true) ∧ (s.ready 10 = true) ∧ (s.mayEnterPs n = true) ∧ (n ≠ 4))) = true ∧
    (let s : State := deepSleep;
      decide ((s.running = true) ∧ (s.ready 10 = true) ∧ (s.mayEnterPs 4 = true))) = true ∧
    (let s : State := busyHost.wr fCVC_PS_STATUS_STATE 0 1;
      decide ((s.running = true) ∧ (s.psWoken = true))) = true ∧
    (let s : State := { (up.wr fCVC_PS_STATUS_STATE 0 1).wr fCVC_PS_STATUS_WAKING 0 1 with hif := { up.hif with coWait := [2] } }; let t : State := exited 1; let u : State := { exited 1 with hif := { (exited 1).hif with coWait := [] } };
      decide ((s.running = true) ∧ (s.rd fCVC_PS_STATUS_WAKING 0 = 1) ∧ (s.psState ≠ 4) ∧ (t = s.hif.coWait.foldl (fun (u : State) (co : Nat) => u.wr fHIF_CO_ENABLE co 1) (((s.wr fCVC_PS_STATUS_STATE 0 0).wr fCVC_PS_STATUS_WAKING 0 0).bumpSat fCVC_PS_STATUS_WAKES 0 1)) ∧ (u = { t with hif := { t.hif with coWait := [] } }))) = true ∧
    (let s : State := { (up.wr fCVC_PS_STATUS_STATE 0 4).wr fCVC_PS_STATUS_WAKING 0 1 with hif := { up.hif with coWait := [2] } }; let t : State := exited 4; let u : State := { exited 4 with hif := { (exited 4).hif with coWait := [] } };
      decide ((s.running = true) ∧ (s.rd fCVC_PS_STATUS_WAKING 0 = 1) ∧ (s.psState = 4) ∧ (t = s.hif.coWait.foldl (fun (u : State) (co : Nat) => u.wr fHIF_CO_ENABLE co 1) (((s.wr fCVC_PS_STATUS_STATE 0 0).wr fCVC_PS_STATUS_WAKING 0 0).bumpSat fCVC_PS_STATUS_WAKES 0 1)) ∧ (u = { t with hif := { t.hif with coWait := [] } }))) = true := by
  decide +kernel

theorem wit_DigestCommandsComplete :
    (let s : State := up; let fn : Nat := 0; let sl : Nat := 3; let alg : Nat := 1; let u : State := up.atSlot 0 3; let d : DgeSlot := up.dslot 0 3;
      decide ((s.dgeReaches fn = true) ∧ (sl < 16) ∧ (u = s.atSlot fn sl) ∧ (d = u.dslot fn sl) ∧ (d.st = 0) ∧ (1 ≤ lowBits 3 alg) ∧ (lowBits 3 alg ≤ 4) ∧ (u.ctxFree ≠ 0) ∧ (u.slotsHeld fn < min 16 (u.rd fDGE_FN_LIMIT fn)))) = true ∧
    (let s : State := (up.setDslot 0 3 { DgeSlot.blank with st := 1, alg := 1 }); let fn : Nat := 0; let sl : Nat := 3; let alg : Nat := 1; let u : State := (up.setDslot 0 3 { DgeSlot.blank with st := 1, alg := 1 }).atSlot 0 3; let d : DgeSlot := (up.setDslot 0 3 { DgeSlot.blank with st := 1, alg := 1 }).dslot 0 3;
      decide ((s.dgeReaches fn = true) ∧ (sl < 16) ∧ (u = s.atSlot fn sl) ∧ (d = u.dslot fn sl) ∧ (1 ≤ d.st) ∧ (d.st ≤ 3))) = true ∧
    (let s : State := (up.setDslot 0 3 { DgeSlot.blank with st := 4, alg := 1 }); let fn : Nat := 0; let sl : Nat := 3; let alg : Nat := 1; let u : State := (up.setDslot 0 3 { DgeSlot.blank with st := 4, alg := 1 }).atSlot 0 3; let d : DgeSlot := (up.setDslot 0 3 { DgeSlot.blank with st := 4, alg := 1 }).dslot 0 3;
      decide ((s.dgeReaches fn = true) ∧ (sl < 16) ∧ (u = s.atSlot fn sl) ∧ (d = u.dslot fn sl) ∧ (d.st = 4))) = true ∧
    (let s : State := up; let fn : Nat := 0; let sl : Nat := 3; let alg : Nat := 5; let u : State := up.atSlot 0 3; let d : DgeSlot := up.dslot 0 3;
      decide ((s.dgeReaches fn = true) ∧ (sl < 16) ∧ (u = s.atSlot fn sl) ∧ (d = u.dslot fn sl) ∧ (d.st = 0) ∧ ((lowBits 3 alg = 0 ∨ 4 < lowBits 3 alg)))) = true ∧
    (let s : State := allHeld; let fn : Nat := 0; let sl : Nat := 3; let alg : Nat := 1; let u : State := allHeld.atSlot 0 3; let d : DgeSlot := allHeld.dslot 0 3;
      decide ((s.dgeReaches fn = true) ∧ (sl < 16) ∧ (u = s.atSlot fn sl) ∧ (d = u.dslot fn sl) ∧ (d.st = 0) ∧ (1 ≤ lowBits 3 alg) ∧ (lowBits 3 alg ≤ 4) ∧ (u.ctxFree = 0))) = true ∧
    (let s : State := (up.wr fDGE_FN_LIMIT 0 0); let fn : Nat := 0; let sl : Nat := 3; let alg : Nat := 1; let u : State := (up.wr fDGE_FN_LIMIT 0 0).atSlot 0 3; let d : DgeSlot := (up.wr fDGE_FN_LIMIT 0 0).dslot 0 3;
      decide ((s.dgeReaches fn = true) ∧ (sl < 16) ∧ (u = s.atSlot fn sl) ∧ (d = u.dslot fn sl) ∧ (d.st = 0) ∧ (1 ≤ lowBits 3 alg) ∧ (lowBits 3 alg ≤ 4) ∧ (u.ctxFree ≠ 0) ∧ (min 16 (u.rd fDGE_FN_LIMIT fn) ≤ u.slotsHeld fn))) = true ∧
    (let s : State := (up.setDslot 0 3 { DgeSlot.blank with st := 1, alg := 1 }); let fn : Nat := 0; let sl : Nat := 3; let u : State := (up.setDslot 0 3 { DgeSlot.blank with st := 1, alg := 1 }).atSlot 0 3; let d : DgeSlot := (up.setDslot 0 3 { DgeSlot.blank with st := 1, alg := 1 }).dslot 0 3;
      decide ((s.dgeReaches fn = true) ∧ (sl < 16) ∧ (u = s.atSlot fn sl) ∧ (d = u.dslot fn sl) ∧ (1 ≤ d.st) ∧ (d.st ≤ 3))) = true ∧
    (let s : State := (up.setDslot 0 3 { DgeSlot.blank with st := 4, alg := 1 }); let fn : Nat := 0; let sl : Nat := 3; let u : State := (up.setDslot 0 3 { DgeSlot.blank with st := 4, alg := 1 }).atSlot 0 3; let d : DgeSlot := (up.setDslot 0 3 { DgeSlot.blank with st := 4, alg := 1 }).dslot 0 3;
      decide ((s.dgeReaches fn = true) ∧ (sl < 16) ∧ (u = s.atSlot fn sl) ∧ (d = u.dslot fn sl) ∧ ((d.st = 0 ∨ 4 ≤ d.st)))) = true ∧
    (let s : State := (up.setDslot 0 3 { DgeSlot.blank with st := 1, alg := 1 }); let fn : Nat := 0; let sl : Nat := 3; let u : State := (up.setDslot 0 3 { DgeSlot.blank with st := 1, alg := 1 }).atSlot 0 3; let d : DgeSlot := (up.setDslot 0 3 { DgeSlot.blank with st := 1, alg := 1 }).dslot 0 3;
      decide ((s.dgeReaches fn = true) ∧ (sl < 16) ∧ (u = s.atSlot fn sl) ∧ (d = u.dslot fn sl) ∧ (d.st = 1) ∧ (d.busy = 0) ∧ (d.buf = []))) = true ∧
    (let s : State := (up.setDslot 0 3 { DgeSlot.blank with st := 2, alg := 1 }); let fn : Nat := 0; let sl : Nat := 3; let u : State := (up.setDslot 0 3 { DgeSlot.blank with st := 2, alg := 1 }).atSlot 0 3; let d : DgeSlot := (up.setDslot 0 3 { DgeSlot.blank with st := 2, alg := 1 }).dslot 0 3;
      decide ((s.dgeReaches fn = true) ∧ (sl < 16) ∧ (u = s.atSlot fn sl) ∧ (d = u.dslot fn sl) ∧ (d.st ≠ 4) ∧ (¬ (d.st = 1 ∧ d.busy = 0 ∧ d.buf = [])))) = true ∧
    (let s : State := (up.setDslot 0 3 { DgeSlot.blank with st := 4, alg := 1 }); let fn : Nat := 0; let sl : Nat := 3; let u : State := (up.setDslot 0 3 { DgeSlot.blank with st := 4, alg := 1 }).atSlot 0 3; let d : DgeSlot := (up.setDslot 0 3 { DgeSlot.blank with st := 4, alg := 1 }).dslot 0 3;
      decide ((s.dgeReaches fn = true) ∧ (sl < 16) ∧ (u = s.atSlot fn sl) ∧ (d = u.dslot fn sl) ∧ (d.st = 4))) = true ∧
    (let s : State := (up.setDslot 0 3 { DgeSlot.blank with st := 1, alg := 1 }); let fn : Nat := 0; let sl : Nat := 3; let u : State := (up.setDslot 0 3 { DgeSlot.blank with st := 1, alg := 1 }).atSlot 0 3; let d : DgeSlot := (up.setDslot 0 3 { DgeSlot.blank with st := 1, alg := 1 }).dslot 0 3;
      decide ((s.dgeReaches fn = true) ∧ (sl < 16) ∧ (u = s.atSlot fn sl) ∧ (d = u.dslot fn sl) ∧ ((d.st = 1 ∨ d.st = 2)) ∧ (¬ (d.buf = [] ∧ d.wasLast = true)))) = true ∧
    (let s : State := (up.setDslot 0 3 { DgeSlot.blank with st := 2, alg := 1, wasLast := true }); let fn : Nat := 0; let sl : Nat := 3; let u : State := (up.setDslot 0 3 { DgeSlot.blank with st := 2, alg := 1, wasLast := true }).atSlot 0 3; let d : DgeSlot := (up.setDslot 0 3 { DgeSlot.blank with st := 2, alg := 1, wasLast := true }).dslot 0 3;
      decide ((s.dgeReaches fn = true) ∧ (sl < 16) ∧ (u = s.atSlot fn sl) ∧ (d = u.dslot fn sl) ∧ ((d.st = 1 ∨ d.st = 2)) ∧ (d.buf = []) ∧ (d.wasLast = true))) = true ∧
    (let s : State := (up.setDslot 0 3 { DgeSlot.blank with st := 4, alg := 1 }); let fn : Nat := 0; let sl : Nat := 3; let u : State := (up.setDslot 0 3 { DgeSlot.blank with st := 4, alg := 1 }).atSlot 0 3; let d : DgeSlot := (up.setDslot 0 3 { DgeSlot.blank with st := 4, alg := 1 }).dslot 0 3;
      decide ((s.dgeReaches fn = true) ∧ (sl < 16) ∧ (u = s.atSlot fn sl) ∧ (d = u.dslot fn sl) ∧ ((d.st = 0 ∨ d.st = 3 ∨ d.st = 4)))) = true ∧
    (let s : State := (up.setDslot 0 3 { DgeSlot.blank with st := 1, alg := 1 }); let fn : Nat := 0; let sl : Nat := 3; let u : State := (up.setDslot 0 3 { DgeSlot.blank with st := 1, alg := 1 }).atSlot 0 3; let d : DgeSlot := (up.setDslot 0 3 { DgeSlot.blank with st := 1, alg := 1 }).dslot 0 3;
      decide ((s.dgeReaches fn = true) ∧ (sl < 16) ∧ (u = s.atSlot fn sl) ∧ (d = u.dslot fn sl) ∧ ((d.st = 1 ∨ d.st = 2)) ∧ (d.busy = 0))) = true ∧
    (let s : State := (up.setDslot 0 3 { DgeSlot.blank with st := 4, alg := 1 }); let fn : Nat := 0; let sl : Nat := 3; let u : State := (up.setDslot 0 3 { DgeSlot.blank with st := 4, alg := 1 }).atSlot 0 3; let d : DgeSlot := (up.setDslot 0 3 { DgeSlot.blank with st := 4, alg := 1 }).dslot 0 3;
      decide ((s.dgeReaches fn = true) ∧ (sl < 16) ∧ (u = s.atSlot fn sl) ∧ (d = u.dslot fn sl) ∧ ((d.st = 0 ∨ d.st = 3 ∨ d.st = 4 ∨ d.busy ≠ 0)))) = true ∧
    (let s : State := (up.setDslot 0 3 { DgeSlot.blank with st := 1, alg := 1 }); let fn : Nat := 0; let sl : Nat := 3; let u : State := (up.setDslot 0 3 { DgeSlot.blank with st := 1, alg := 1 }).atSlot 0 3; let d : DgeSlot := (up.setDslot 0 3 { DgeSlot.blank with st := 1, alg := 1 }).dslot 0 3;
      decide ((s.dgeReaches fn = true) ∧ (sl < 16) ∧ (u = s.atSlot fn sl) ∧ (d = u.dslot fn sl) ∧ (d.st = 1) ∧ (d.keyed = false) ∧ (d.busy = 0) ∧ (d.buf = []))) = true ∧
    (let s : State := up; let fn : Nat := 0; let sl : Nat := 3; let u : State := up.atSlot 0 3; let d : DgeSlot := up.dslot 0 3;
      decide ((s.dgeReaches fn = true) ∧ (sl < 16) ∧ (u = s.atSlot fn sl) ∧ (d = u.dslot fn sl) ∧ (d.st = 0))) = true ∧
    (let s : State := (up.setDslot 0 3 { DgeSlot.blank with st := 2, alg := 1 }); let fn : Nat := 0; let sl : Nat := 3; let u : State := (up.setDslot 0 3 { DgeSlot.blank with st := 2, alg := 1 }).atSlot 0 3; let d : DgeSlot := (up.setDslot 0 3 { DgeSlot.blank with st := 2, alg := 1 }).dslot 0 3;
      decide ((s.dgeReaches fn = true) ∧ (sl < 16) ∧ (u = s.atSlot fn sl) ∧ (d = u.dslot fn sl) ∧ (d.st ≠ 0) ∧ (d.st ≠ 4) ∧ (¬ (d.st = 1 ∧ d.keyed = false ∧ d.busy = 0 ∧ d.buf = [])))) = true ∧
    (let s : State := (up.setDslot 0 3 { DgeSlot.blank with st := 4, alg := 1 }); let fn : Nat := 0; let sl : Nat := 3; let u : State := (up.setDslot 0 3 { DgeSlot.blank with st := 4, alg := 1 }).atSlot 0 3; let d : DgeSlot := (up.setDslot 0 3 { DgeSlot.blank with st := 4, alg := 1 }).dslot 0 3;
      decide ((s.dgeReaches fn = true) ∧ (sl < 16) ∧ (u = s.atSlot fn sl) ∧ (d = u.dslot fn sl) ∧ (d.st = 4))) = true ∧
    (let s : State := (up.setDslot 0 3 { DgeSlot.blank with st := 1, alg := 1 }); let fn : Nat := 0; let sl : Nat := 3; let u : State := (up.setDslot 0 3 { DgeSlot.blank with st := 1, alg := 1 }).atSlot 0 3; let d : DgeSlot := (up.setDslot 0 3 { DgeSlot.blank with st := 1, alg := 1 }).dslot 0 3;
      decide ((s.dgeReaches fn = true) ∧ (sl < 16) ∧ (u = s.atSlot fn sl) ∧ (d = u.dslot fn sl) ∧ (d.st ≠ 0) ∧ (d.st ≠ 4))) = true ∧
    (let s : State := (up.setDslot 0 3 { DgeSlot.blank with st := 4, alg := 1 }); let fn : Nat := 0; let sl : Nat := 3; let u : State := (up.setDslot 0 3 { DgeSlot.blank with st := 4, alg := 1 }).atSlot 0 3; let d : DgeSlot := (up.setDslot 0 3 { DgeSlot.blank with st := 4, alg := 1 }).dslot 0 3;
      decide ((s.dgeReaches fn = true) ∧ (sl < 16) ∧ (u = s.atSlot fn sl) ∧ (d = u.dslot fn sl) ∧ ((d.st = 0 ∨ d.st = 4)))) = true ∧
    (let s : State := (up.setDslot 0 3 { DgeSlot.blank with st := 1, alg := 1, busy := 2 }); let fn : Nat := 0; let sl : Nat := 3;
      decide ((s.running = true) ∧ (s.ready 12 = true) ∧ (sl < 16) ∧ ((s.dslot fn sl).busy = 2))) = true ∧
    (let s : State := (up.setDslot 0 3 { DgeSlot.blank with st := 1, alg := 1, busy := 3 }); let fn : Nat := 0; let sl : Nat := 3; let d : DgeSlot := (up.setDslot 0 3 { DgeSlot.blank with st := 1, alg := 1, busy := 3 }).dslot 0 3; let e : Nat × Nat := (((up.setDslot 0 3 { DgeSlot.blank with st := 1, alg := 1, busy := 3 }).importError 0 ((up.setDslot 0 3 { DgeSlot.blank with st := 1, alg := 1, busy := 3 }).dslot 0 3) ((up.setDslot 0 3 { DgeSlot.blank with st := 1, alg := 1, busy := 3 }).dslot 0 3).record).getD (0, 0));
      decide ((s.running = true) ∧ (s.ready 12 = true) ∧ (sl < 16) ∧ (d = s.dslot fn sl) ∧ (d.busy = 3) ∧ (s.importError fn d d.record = some e))) = true ∧
    (let s : State := (up.setDslot 0 3 { DgeSlot.blank with st := 1, alg := 1 }); let fn : Nat := 0; let sl : Nat := 3; let v : Nat := 5; let u : State := (up.setDslot 0 3 { DgeSlot.blank with st := 1, alg := 1 }).atSlot 0 3; let d : DgeSlot := (up.setDslot 0 3 { DgeSlot.blank with st := 1, alg := 1 }).dslot 0 3;
      decide ((s.dgeReaches fn = true) ∧ (sl < 16) ∧ (u = s.atSlot fn sl) ∧ (d = u.dslot fn sl) ∧ (d.st = 1) ∧ (d.busy = 0) ∧ (d.buf.length + 8 < algBlock d.alg))) = true ∧
    (let s : State := (up.setDslot 0 3 { DgeSlot.blank with st := 1, alg := 1, buf := List.replicate 56 0 }); let fn : Nat := 0; let sl : Nat := 3; let v : Nat := 5; let w : State := ((up.setDslot 0 3 { DgeSlot.blank with st := 1, alg := 1, buf := List.replicate 56 0 }).atSlot 0 3).setDslot 0 3 { { DgeSlot.blank with st := 1, alg := 1, buf := List.replicate 56 0 } with buf := [], busy := 1, last := false, wasLast := false }; let u : State := (up.setDslot 0 3 { DgeSlot.blank with st := 1, alg := 1, buf := List.replicate 56 0 }).atSlot 0 3; let d : DgeSlot := (up.setDslot 0 3 { DgeSlot.blank with st := 1, alg := 1, buf := List.replicate 56 0 }).dslot 0 3;
      decide ((s.dgeReaches fn = true) ∧ (sl < 16) ∧ (u = s.atSlot fn sl) ∧ (d = u.dslot fn sl) ∧ (d.st = 1) ∧ (d.busy = 0) ∧ (algBlock d.alg ≤ d.buf.length + 8) ∧ (w = u.setDslot fn sl { d with buf := [], busy := 1, last := false, wasLast := d.last }))) = true ∧
    (let s : State := up; let fn : Nat := 0; let sl : Nat := 3; let v : Nat := 5; let u : State := up.atSlot 0 3; let d : DgeSlot := up.dslot 0 3;
      decide ((s.dgeReaches fn = true) ∧ (sl < 16) ∧ (u = s.atSlot fn sl) ∧ (d = u.dslot fn sl) ∧ (d.st = 0))) = true ∧
    (let s : State := (up.setDslot 0 3 { DgeSlot.blank with st := 4, alg := 1 }); let fn : Nat := 0; let sl : Nat := 3; let v : Nat := 5; let u : State := (up.setDslot 0 3 { DgeSlot.blank with st := 4, alg := 1 }).atSlot 0 3; let d : DgeSlot := (up.setDslot 0 3 { DgeSlot.blank with st := 4, alg := 1 }).dslot 0 3;
      decide ((s.dgeReaches fn = true) ∧ (sl < 16) ∧ (u = s.atSlot fn sl) ∧ (d = u.dslot fn sl) ∧ ((d.st = 3 ∨ d.st = 4)))) = true ∧
    (let s : State := (up.setDslot 0 3 { DgeSlot.blank with st := 2, alg := 1 }); let fn : Nat := 0; let sl : Nat := 3; let v : Nat := 5; let u : State := (up.setDslot 0 3 { DgeSlot.blank with st := 2, alg := 1 }).atSlot 0 3; let d : DgeSlot := (up.setDslot 0 3 { DgeSlot.blank with st := 2, alg := 1 }).dslot 0 3;
      decide ((s.dgeReaches fn = true) ∧ (sl < 16) ∧ (u = s.atSlot fn sl) ∧ (d = u.dslot fn sl) ∧ ((d.st = 2 ∨ (d.st = 1 ∧ d.busy ≠ 0))))) = true ∧
    (let s : State := ({ ((up.setDslot 0 3 { DgeSlot.blank with st := 1, alg := 1, busy := 1, chain := algInit 1 })) with dge := { ((up.setDslot 0 3 { DgeSlot.blank with st := 1, alg := 1, busy := 1, chain := algInit 1 })).dge with ready := [(slotKey 0 3, List.replicate 64 0, false)] } } : State); let fn : Nat := 0; let sl : Nat := 3; let b : List Byte := List.replicate 64 0; let y : Nat := slotKey 0 3; let d : DgeSlot := ((up.setDslot 0 3 { DgeSlot.blank with st := 1, alg := 1, busy := 1, chain := algInit 1 })).dslot 0 3; let c : List Byte := algAbsorb 1 (algInit 1) (List.replicate 64 0); let u : State := (({ ((up.setDslot 0 3 { DgeSlot.blank with st := 1, alg := 1, busy := 1, chain := algInit 1 })) with dge := { ((up.setDslot 0 3 { DgeSlot.blank with st := 1, alg := 1, busy := 1, chain := algInit 1 })).dge with ready := [(slotKey 0 3, List.replicate 64 0, false)] } } : State).setDslot 0 3 { (((up.setDslot 0 3 { DgeSlot.blank with st := 1, alg := 1, busy := 1, chain := algInit 1 })).dslot 0 3) with chain := algAbsorb 1 (algInit 1) (List.replicate 64 0), blocks := (0 + 1) % 2 ^ 64, busy := 0 }).bumpWrap fDGE_BLOCKS_COUNT 0 1;
      decide ((s.digests fn sl = true) ∧ (s.psState = 0) ∧ (s.pipelined fn sl = some (y, b, false)) ∧ (d = s.dslot fn sl) ∧ (c = algAbsorb d.alg d.chain b) ∧ (u = (s.setDslot fn sl { d with chain := c, blocks := (d.blocks + 1) % 2 ^ 64, busy := 0 }).bumpWrap fDGE_BLOCKS_COUNT 0 1))) = true ∧
    (let s : State := ({ ((up.setDslot 0 3 { DgeSlot.blank with st := 1, alg := 1, busy := 1, chain := algInit 1 })) with dge := { ((up.setDslot 0 3 { DgeSlot.blank with st := 1, alg := 1, busy := 1, chain := algInit 1 })).dge with ready := [(slotKey 0 3, List.replicate 64 0, true)] } } : State); let fn : Nat := 0; let sl : Nat := 3; let b : List Byte := List.replicate 64 0; let y : Nat := slotKey 0 3; let d : DgeSlot := ((up.setDslot 0 3 { DgeSlot.blank with st := 1, alg := 1, busy := 1, chain := algInit 1 })).dslot 0 3; let c : List Byte := algAbsorb 1 (algInit 1) (List.replicate 64 0); let u : State := (({ ((up.setDslot 0 3 { DgeSlot.blank with st := 1, alg := 1, busy := 1, chain := algInit 1 })) with dge := { ((up.setDslot 0 3 { DgeSlot.blank with st := 1, alg := 1, busy := 1, chain := algInit 1 })).dge with ready := [(slotKey 0 3, List.replicate 64 0, true)] } } : State).setDslot 0 3 { (((up.setDslot 0 3 { DgeSlot.blank with st := 1, alg := 1, busy := 1, chain := algInit 1 })).dslot 0 3) with chain := algAbsorb 1 (algInit 1) (List.replicate 64 0), blocks := (0 + 1) % 2 ^ 64, busy := 0, st := 2, digest := (algAbsorb 1 (algInit 1) (List.replicate 64 0)).take (algDigest 1) }).bumpWrap fDGE_BLOCKS_COUNT 0 1;
      decide ((s.digests fn sl = true) ∧ (s.psState = 0) ∧ (s.pipelined fn sl = some (y, b, true)) ∧ (d = s.dslot fn sl) ∧ (c = algAbsorb d.alg d.chain b) ∧ (u = (s.setDslot fn sl { d with chain := c, blocks := (d.blocks + 1) % 2 ^ 64, busy := 0, st := 2, digest := c.take (algDigest d.alg) }).bumpWrap fDGE_BLOCKS_COUNT 0 1))) = true ∧
    (let s : State := (up.setDslot 0 3 { DgeSlot.blank with st := 1, alg := 1 }); let fn : Nat := 0; let sl : Nat := 3; let d : Bool := false;
      decide ((s.dgeReaches fn = true) ∧ (sl < 16) ∧ ((s.dslot fn sl).st ≠ 0) ∧ ((s.dslot fn sl).cmp d ≠ 3))) = true ∧
    (let s : State := (up.setDslot 0 3 { DgeSlot.blank with st := 2, alg := 1 }); let fn : Nat := 0; let sl : Nat := 3; let d : Bool := true;
      decide ((s.dgeReaches fn = true) ∧ (sl < 16) ∧ ((s.dslot fn sl).st ≠ 0) ∧ ((s.dslot fn sl).cmp d = 3))) = true ∧
    (let s : State := up; let fn : Nat := 0; let sl : Nat := 3; let d : Bool := false;
      decide ((s.dgeReaches fn = true) ∧ (sl < 16) ∧ ((s.dslot fn sl).st = 0))) = true ∧
    (let s : State := { up with dge := { up.dge with zeroing := [4, 5] } }; let a : Nat := 4; let rest : List Nat := [5];
      decide ((s.running = true) ∧ (s.dge.zeroing = a :: rest))) = true ∧
    (let s : State := (up.setDslot 0 3 { DgeSlot.blank with st := 1, alg := 1 }); let cause : Nat := 1;
      decide ((s.railsUp = true) ∧ (s.ready 12 = true) ∧ (cause < 4))) = true ∧
    (let s : State := (up.setDslot 0 3 { DgeSlot.blank with st := 1, alg := 1 }).wr fEXPERT_UNLOCK_UNLOCKED 12 1; let u : State := ((up.setDslot 0 3 { DgeSlot.blank with st := 1, alg := 1 }).wr fEXPERT_UNLOCK_UNLOCKED 12 1).atRegion 12 0x900;
      decide ((s.reaches 0 = true) ∧ (s.ready 12 = true) ∧ (u = s.atRegion 12 0x900) ∧ (u.rd fEXPERT_UNLOCK_UNLOCKED 12 = 1))) = true ∧
    (let s : State := up; let u : State := up.atRegion 12 0x900;
      decide ((s.reaches 0 = true) ∧ (s.ready 12 = true) ∧ (u = s.atRegion 12 0x900) ∧ (u.rd fEXPERT_UNLOCK_UNLOCKED 12 ≠ 1))) = true ∧
    (let s : State := (up.setDslot 0 3 { DgeSlot.blank with st := 1, alg := 1 }); let cause : Nat := 1;
      decide ((s.railsUp = true) ∧ (s.ready 12 = true) ∧ (cause < 4))) = true := by
  decide +kernel

theorem wit_MemoryCommandsComplete :
    (let s : State := up; let u : State := up.atRegion 6 0x94;
      decide ((s.reaches 0 = true) ∧ (s.ready 6 = true) ∧ (u = s.atRegion 6 0x94) ∧ (u.hmc.map = none))) = true ∧
    (let s : State := up; let u : State := up.atRegion 6 0x94;
      decide ((s.reaches 0 = true) ∧ (s.ready 6 = true) ∧ (u = s.atRegion 6 0x94) ∧ (u.hmc.map = none))) = true ∧
    (let s : State := up; let u : State := up.atRegion 6 0x94;
      decide ((s.reaches 0 = true) ∧ (s.ready 6 = true) ∧ (u = s.atRegion 6 0x94) ∧ (u.hmc.map = none))) = true ∧
    (let s : State := up; let u : State := up.atRegion 6 0x94;
      decide ((s.reaches 0 = true) ∧ (s.ready 6 = true) ∧ (u = s.atRegion 6 0x94) ∧ (u.hmc.map = none))) = true ∧
    (let s : State := ({ up with hmc := { up.hmc with map := some (up.mapArgs 1) } } : State); let u : State := ({ up with hmc := { up.hmc with map := some (up.mapArgs 1) } } : State).atRegion 6 0x94;
      decide ((s.reaches 0 = true) ∧ (s.ready 6 = true) ∧ (u = s.atRegion 6 0x94) ∧ (u.hmc.map ≠ none))) = true ∧
    (let s : State := ({ up with hmc := { up.hmc with map := some (up.mapArgs 1) } } : State); let u : State := ({ up with hmc := { up.hmc with map := some (up.mapArgs 1) } } : State).atRegion 6 0x94;
      decide ((s.reaches 0 = true) ∧ (s.ready 6 = true) ∧ (u = s.atRegion 6 0x94) ∧ (u.hmc.map ≠ none))) = true ∧
    (let s : State := ({ up with hmc := { up.hmc with map := some (up.mapArgs 1) } } : State); let u : State := ({ up with hmc := { up.hmc with map := some (up.mapArgs 1) } } : State).atRegion 6 0x94;
      decide ((s.reaches 0 = true) ∧ (s.ready 6 = true) ∧ (u = s.atRegion 6 0x94) ∧ (u.hmc.map ≠ none))) = true ∧
    (let s : State := ({ up with hmc := { up.hmc with map := some (up.mapArgs 1) } } : State); let u : State := ({ up with hmc := { up.hmc with map := some (up.mapArgs 1) } } : State).atRegion 6 0x94;
      decide ((s.reaches 0 = true) ∧ (s.ready 6 = true) ∧ (u = s.atRegion 6 0x94) ∧ (u.hmc.map ≠ none))) = true ∧
    (let s : State := { up with hmc := { up.hmc with map := some { up.mapArgs 1 with count := 0 } } }; let c : MapCmd := { up.mapArgs 1 with count := 0 };
      decide ((s.running = true) ∧ (s.psState < 3) ∧ (s.hmc.map = some c) ∧ (s.mapPinned c = false) ∧ (c.bad = true))) = true ∧
    (let s : State := { up with hmc := { up.hmc with map := some { up.mapArgs 4 with count := 1, fn := 0, vpn := 0 } } }; let c : MapCmd := { up.mapArgs 4 with count := 1, fn := 0, vpn := 0 }; let r : Nat × Nat × State := ({ up with hmc := { up.hmc with map := some { up.mapArgs 4 with count := 1, fn := 0, vpn := 0 } } } : State).doPages { up.mapArgs 4 with count := 1, fn := 0, vpn := 0 } 0 1;
      decide ((s.running = true) ∧ (s.psState < 3) ∧ (s.hmc.map = some c) ∧ (s.mapPinned c = false) ∧ (c.bad = false) ∧ (r = s.doPages c 0 c.count))) = true ∧
    (let s : State := scrubbing; let st : Nat := 0; let cells : Nat := 0; let line : Nat := 0;
      decide ((s.running = true) ∧ (s.ready 6 = true) ∧ (st < 8) ∧ (s.scrubOn st = true) ∧ (line = (st * stackBytes + s.rd fHMC_STACK_SCRUB_POS st) / 64) ∧ (s.scrubClass line cells = 0) ∧ (s.rd fHMC_STACK_SCRUB_POS st + 64 < stackBytes))) = true ∧
    (let s : State := scrubbing; let st : Nat := 0; let cells : Nat := 1; let line : Nat := 0;
      decide ((s.running = true) ∧ (s.ready 6 = true) ∧ (st < 8) ∧ (s.scrubOn st = true) ∧ (line = (st * stackBytes + s.rd fHMC_STACK_SCRUB_POS st) / 64) ∧ (s.scrubClass line cells = 1) ∧ (s.checkOf line = .good) ∧ (s.rd fHMC_STACK_SCRUB_POS st + 64 < stackBytes))) = true ∧
    (let s : State := scrubbing; let st : Nat := 0; let cells : Nat := 2; let line : Nat := 0;
      decide ((s.running = true) ∧ (s.ready 6 = true) ∧ (st < 8) ∧ (s.scrubOn st = true) ∧ (line = (st * stackBytes + s.rd fHMC_STACK_SCRUB_POS st) / 64) ∧ (s.scrubClass line cells = 2) ∧ (s.rd fHMC_STACK_SCRUB_POS st + 64 < stackBytes))) = true ∧
    (let s : State := (scrubbing.putLine 0 (scrubbing.lineData 0) .poison); let st : Nat := 0; let cells : Nat := 0; let line : Nat := 0;
      decide ((s.running = true) ∧ (s.ready 6 = true) ∧ (st < 8) ∧ (s.scrubOn st = true) ∧ (line = (st * stackBytes + s.rd fHMC_STACK_SCRUB_POS st) / 64) ∧ (s.scrubClass line cells = 3) ∧ (s.rd fHMC_STACK_SCRUB_POS st + 64 < stackBytes))) = true ∧
    (let s : State := scrubbing.wr fHMC_STACK_SCRUB_POS 0 (stackBytes - 64); let st : Nat := 0; let cells : Nat := 0; let line : Nat := (stackBytes - 64) / 64;
      decide ((s.running = true) ∧ (s.ready 6 = true) ∧ (st < 8) ∧ (s.scrubOn st = true) ∧ (line = (st * stackBytes + s.rd fHMC_STACK_SCRUB_POS st) / 64) ∧ (s.scrubClass line cells = 0) ∧ (stackBytes ≤ s.rd fHMC_STACK_SCRUB_POS st + 64))) = true ∧
    (let s : State := { up with board := { up.board with holdupOk := true }, darn := { up.darn with repairs := [(2, 1, 1, 5)] } }; let st : Nat := 2; let r : Nat × Nat × Nat × Nat := (2, 1, 1, 5);
      decide ((s.starts 15 = true) ∧ (s.board.holdupOk = true) ∧ (s.darn.repairs.find? (fun (x : Nat × Nat × Nat × Nat) => decide (x.1 = st)) = some r))) = true ∧
    (let s : State := ({ up with clk := { up.clk with tsu := 2 ^ 50 } } : State); let w : Nat := ({ up with clk := { up.clk with tsu := 2 ^ 50 } } : State).bucketTicks; let u : State := (List.range 8).foldl (fun s st => s.wr fHMC_STACK_BUCKET st (s.rd fHMC_STACK_BUCKET st - s.setting fHMC_BUCKET_CFG_LEAK 0)) ({ up with clk := { up.clk with tsu := 2 ^ 50 } } : State);
      decide ((s.running = true) ∧ (s.ready 6 = true) ∧ (s.bucketDue ≤ s.clk.tsu) ∧ (u = (List.range 8).foldl (fun s st => s.wr fHMC_STACK_BUCKET st (s.rd fHMC_STACK_BUCKET st - s.setting fHMC_BUCKET_CFG_LEAK 0)) s) ∧ (w = s.bucketTicks))) = true ∧
    (let s : State := testable; let u : State := testable.atRegion 6 0x908; let w : State := ((testable.atRegion 6 0x908).dropLine testable.testLine |>.putLine testable.testLine testable.testData (.raw (BitVec.ofNat 32 (testable.rd fHMC_TEST_CHECK_CHECK 0)))).wr fHMC_TEST_RESULT_REFUSED 0 0;
      decide ((s.reaches 0 = true) ∧ (s.ready 6 = true) ∧ (u = s.atRegion 6 0x908) ∧ (u.rd fEXPERT_UNLOCK_UNLOCKED 6 = 1) ∧ (u.testAllowed = true) ∧ (w = ((u.dropLine u.testLine).putLine u.testLine u.testData (.raw (BitVec.ofNat 32 (u.rd fHMC_TEST_CHECK_CHECK 0)))).wr fHMC_TEST_RESULT_REFUSED 0 0))) = true ∧
    (let s : State := (up.wr fEXPERT_UNLOCK_UNLOCKED 6 1); let u : State := (up.wr fEXPERT_UNLOCK_UNLOCKED 6 1).atRegion 6 0x908;
      decide ((s.reaches 0 = true) ∧ (s.ready 6 = true) ∧ (u = s.atRegion 6 0x908) ∧ (u.rd fEXPERT_UNLOCK_UNLOCKED 6 = 1) ∧ (u.testAllowed = false))) = true ∧
    (let s : State := up; let u : State := up.atRegion 6 0x908;
      decide ((s.reaches 0 = true) ∧ (s.ready 6 = true) ∧ (u = s.atRegion 6 0x908) ∧ (u.rd fEXPERT_UNLOCK_UNLOCKED 6 ≠ 1))) = true ∧
    (let s : State := testable; let u : State := testable.atRegion 6 0x908;
      decide ((s.reaches 0 = true) ∧ (s.ready 6 = true) ∧ (u = s.atRegion 6 0x908) ∧ (u.rd fEXPERT_UNLOCK_UNLOCKED 6 = 1) ∧ (u.testAllowed = true))) = true ∧
    (let s : State := testable;
      decide ((s.reaches 0 = true) ∧ (s.ready 6 = true) ∧ (s.rd fEXPERT_UNLOCK_UNLOCKED 6 = 1) ∧ (s.testAllowed = true))) = true ∧
    (let s : State := (up.wr fEXPERT_UNLOCK_UNLOCKED 6 1); let u : State := (up.wr fEXPERT_UNLOCK_UNLOCKED 6 1).atRegion 6 0x908;
      decide ((s.reaches 0 = true) ∧ (s.ready 6 = true) ∧ (u = s.atRegion 6 0x908) ∧ (u.rd fEXPERT_UNLOCK_UNLOCKED 6 = 1) ∧ (u.testAllowed = false))) = true ∧
    (let s : State := up; let u : State := up.atRegion 6 0x908;
      decide ((s.reaches 0 = true) ∧ (s.ready 6 = true) ∧ (u = s.atRegion 6 0x908) ∧ (u.rd fEXPERT_UNLOCK_UNLOCKED 6 ≠ 1))) = true ∧
    (let s : State := poisoned; let line : Nat := 1;
      decide ((s.running = true) ∧ (s.ready 3 = true) ∧ (s.lineClass line = 3))) = true := by
  decide +kernel

theorem wit_TimeCommandsComplete :
    (let s : State := { up with tsu := { up.tsu with reorder := [⟨0, 3, 1, none, 5⟩] }, clk := { up.clk with tsu := 1600 } }; let e : LogRec := ⟨0, 3, 1, none, 5⟩; let rest : List LogRec := [];
      decide ((s.ticking = true) ∧ (s.logDue = true) ∧ (s.tsu.reorder = e :: rest))) = true ∧
    (let s : State := up; let detail : Nat := 5;
      decide ((s.reaches 0 = true) ∧ (s.ready 13 = true))) = true ∧
    (let s : State := { (up.setCfg 0 .ptmEnable 1).wr fTSU_PTM_CTRL_ENABLE 0 1 with clk := { up.clk with tsu := 2 ^ 50 } };
      decide ((s.running = true) ∧ (s.ready 13 = true) ∧ (s.cfg 0 .ptmEnable = 1) ∧ (s.setting fTSU_PTM_CTRL_ENABLE 0 = 1) ∧ (s.tsu.dialogue = none) ∧ (s.tsu.lastDialogue + s.ptmPeriod ≤ s.clk.tsu))) = true ∧
    (let s : State := { up with tsu := { up.tsu with dialogue := some 0 } }; let host : Nat := 9; let rate : Nat := 5; let v : State := (let w9 : State := { up with tsu := { up.tsu with dialogue := some 0 } }; ((((({ w9 with tsu := { w9.tsu with dialogue := none, lastSync := some (w9.clk.tsu, 9) } } : State).wr fTSU_PTM_LOCAL_LOCAL 0 w9.clk.tsu).wr fTSU_PTM_HOST_HOST 0 9).wr fTSU_PTM_RATE_RATE 0 5).wr fTSU_PTM_STATUS_VALID 0 1).bumpWrap fTSU_PTM_STATUS_SYNCS 0 1);
      decide ((s.running = true) ∧ (s.tsu.dialogue ≠ none) ∧ (s.clk.tsu < s.tsu.lastDialogue + ticksOfMs 10) ∧ (v = ((((({ s with tsu := { s.tsu with dialogue := none, lastSync := some (s.clk.tsu, host) } } : State).wr fTSU_PTM_LOCAL_LOCAL 0 s.clk.tsu).wr fTSU_PTM_HOST_HOST 0 host).wr fTSU_PTM_RATE_RATE 0 rate).wr fTSU_PTM_STATUS_VALID 0 1).bumpWrap fTSU_PTM_STATUS_SYNCS 0 1))) = true ∧
    (let s : State := { up with tsu := { up.tsu with dialogue := some 0 }, clk := { up.clk with tsu := ticksOfMs 10 } }; let inv : Bool := false;
      decide ((s.running = true) ∧ (s.tsu.dialogue ≠ none) ∧ ((inv = true ∨ s.tsu.lastDialogue + ticksOfMs 10 ≤ s.clk.tsu)))) = true := by
  decide +kernel

theorem wit_PowerCommandsComplete_10 :
    (let s : State := ({ up with clk := { up.clk with tsu := 8000 } } : State); let dw : Nat := 3000; let mv : Nat := 54000; let uj : Nat := 5; let ws : List Nat := (3000 :: ({ up with clk := { up.clk with tsu := 8000 } } : State).reef.windows).take 1000; let lim : Nat := ({ up with clk := { up.clk with tsu := 8000 } } : State).setting fPWR_LIMIT_LIMIT_W 0; let r : Nat × Nat := controllerStep (({ up with clk := { up.clk with tsu := 8000 } } : State).setting fPWR_LIMIT_LIMIT_W 0) (({ up with clk := { up.clk with tsu := 8000 } } : State).setting fPWR_LIMIT_HYST_W 0) ((3000 :: ({ up with clk := { up.clk with tsu := 8000 } } : State).reef.windows).take 1000) ({ up with clk := { up.clk with tsu := 8000 } } : State).demandController ({ up with clk := { up.clk with tsu := 8000 } } : State).reef.sinceRise; let u : State := cwU (({ up with clk := { up.clk with tsu := 8000 } } : State)) 3000 54000; let w : State := cwW (({ up with clk := { up.clk with tsu := 8000 } } : State)) 3000 54000 5;
      decide ((s.clocked = true) ∧ (s.reef.lastWindow < s.clk.tsu / 8000) ∧ (ws = (dw :: s.reef.windows).take 1000) ∧ (lim = s.setting fPWR_LIMIT_LIMIT_W 0) ∧ (r = controllerStep lim (s.setting fPWR_LIMIT_HYST_W 0) ws s.demandController s.reef.sinceRise) ∧ (u = (({ s with reef := { s.reef with windows := ws, sinceRise := r.2, lastWindow := s.reef.lastWindow + 1 }, board := { s.board with inputMv := mv } } : State).wr fPWR_REEF_STATUS_CONTROLLER 0 r.1).reefAgain) ∧ (w = ((((u.wr fPWR_INPUT_MILLIVOLTS 0 mv).wr fPWR_INPUT_WATTS_X10 0 dw).wr fPWR_INPUT_MEAN_10MS_X10 0 (windowSum 1000 ws / ws.length)).bumpWrap fPWR_ENERGY_MICROJOULES 0 uj).railPowers) ∧ (¬ (ws.length = 1000 ∧ windowSum 1000 ws > lim * 10 * 1000 ∧ r.1 = 3)))) = true := by
  exact decide_eq_true ⟨by decide +kernel, by decide +kernel, rfl, rfl, rfl, rfl, rfl, by decide +kernel⟩

theorem wit_PowerCommandsComplete_11 :
    (let s : State := overLimit; let dw : Nat := 9000; let mv : Nat := 54000; let uj : Nat := 5; let ws : List Nat := (9000 :: overLimit.reef.windows).take 1000; let lim : Nat := overLimit.setting fPWR_LIMIT_LIMIT_W 0; let r : Nat × Nat := controllerStep (overLimit.setting fPWR_LIMIT_LIMIT_W 0) (overLimit.setting fPWR_LIMIT_HYST_W 0) ((9000 :: overLimit.reef.windows).take 1000) overLimit.demandController overLimit.reef.sinceRise; let u : State := cwU (overLimit) 9000 54000; let w : State := cwW (overLimit) 9000 54000 5;
      decide ((s.clocked = true) ∧ (s.reef.lastWindow < s.clk.tsu / 8000) ∧ (ws = (dw :: s.reef.windows).take 1000) ∧ (lim = s.setting fPWR_LIMIT_LIMIT_W 0) ∧ (r = controllerStep lim (s.setting fPWR_LIMIT_HYST_W 0) ws s.demandController s.reef.sinceRise) ∧ (u = (({ s with reef := { s.reef with windows := ws, sinceRise := r.2, lastWindow := s.reef.lastWindow + 1 }, board := { s.board with inputMv := mv } } : State).wr fPWR_REEF_STATUS_CONTROLLER 0 r.1).reefAgain) ∧ (w = ((((u.wr fPWR_INPUT_MILLIVOLTS 0 mv).wr fPWR_INPUT_WATTS_X10 0 dw).wr fPWR_INPUT_MEAN_10MS_X10 0 (windowSum 1000 ws / ws.length)).bumpWrap fPWR_ENERGY_MICROJOULES 0 uj).railPowers) ∧ ((ws.length = 1000 ∧ windowSum 1000 ws > lim * 10 * 1000 ∧ r.1 = 3)))) = true := by
  exact decide_eq_true ⟨by decide +kernel, by decide +kernel, rfl, rfl, rfl, rfl, rfl, by decide +kernel⟩

theorem wit_PowerCommandsComplete :
    (let s : State := (up : State); let watts : Nat := 300; let hyst : Nat := 5; let d : State := (up : State).atRegion 14 0x80;
      decide ((s.reaches 0 = true) ∧ (s.ready 14 = true) ∧ (d = s.atRegion 14 0x80) ∧ (300 ≤ lowBits 10 watts) ∧ (lowBits 10 watts ≤ 800))) = true ∧
    (let s : State := (up : State); let watts : Nat := 299; let hyst : Nat := 5; let d : State := (up : State).atRegion 14 0x80;
      decide ((s.reaches 0 = true) ∧ (s.ready 14 = true) ∧ (d = s.atRegion 14 0x80) ∧ ((lowBits 10 watts < 300 ∨ 800 < lowBits 10 watts)))) = true ∧
    (let s : State := (up : State); let level : Nat := 2; let d : State := (up : State).atRegion 14 0x88;
      decide ((s.reaches 0 = true) ∧ (s.ready 14 = true) ∧ (d = s.atRegion 14 0x88))) = true ∧
    (let s : State := { (up.wr fPWR_REEF_STATUS_STEPPING 0 1).wr fPWR_REEF_STATUS_LEVEL 0 3 with clk := { up.clk with tsu := 2 ^ 50 } };
      decide ((s.clocked = true) ∧ (s.rd fPWR_REEF_STATUS_STEPPING 0 = 1) ∧ (s.reef.changedAt + ticksOfUs (max 20 (s.rd fPWR_STEP_DOWN_STEP_US 0)) ≤ s.clk.tsu))) = true ∧
    (let s : State := (up : State); let die : Nat := 111; let hbm : Nat := 40; let t : State := (((up : State).wr fPWR_TEMP_DIE_MAX_C 0 111).wr fPWR_TEMP_HBM_MAX_C 0 40);
      decide ((s.clocked = true) ∧ (t = (s.wr fPWR_TEMP_DIE_MAX_C 0 die).wr fPWR_TEMP_HBM_MAX_C 0 hbm) ∧ (s.warnC ≤ max die hbm))) = true ∧
    (let s : State := (up : State); let die : Nat := 40; let hbm : Nat := 40; let t : State := (((up : State).wr fPWR_TEMP_DIE_MAX_C 0 40).wr fPWR_TEMP_HBM_MAX_C 0 40);
      decide ((s.clocked = true) ∧ (t = (s.wr fPWR_TEMP_DIE_MAX_C 0 die).wr fPWR_TEMP_HBM_MAX_C 0 hbm) ∧ (max die hbm < s.warnC) ∧ (s.reef.thermal = false))) = true ∧
    (let s : State := ({ up with reef := { up.reef with thermal := true, coolSince := some 0 }, clk := { up.clk with tsu := ticksOfMs 1 } } : State); let die : Nat := 40; let hbm : Nat := 40; let t : State := ((({ up with reef := { up.reef with thermal := true, coolSince := some 0 }, clk := { up.clk with tsu := ticksOfMs 1 } } : State).wr fPWR_TEMP_DIE_MAX_C 0 40).wr fPWR_TEMP_HBM_MAX_C 0 40); let since : Nat := 0;
      decide ((s.clocked = true) ∧ (t = (s.wr fPWR_TEMP_DIE_MAX_C 0 die).wr fPWR_TEMP_HBM_MAX_C 0 hbm) ∧ (max die hbm < s.warnC) ∧ (s.reef.thermal = true) ∧ (max die hbm + t.setting fPWR_THERMAL_CFG_RELEASE_C 0 < s.warnC) ∧ (since = t.reef.coolSince.getD t.clk.tsu) ∧ (since + ticksOfMs 1 ≤ t.clk.tsu))) = true ∧
    (let s : State := ({ up with reef := { up.reef with thermal := true, coolSince := some 0 }, clk := { up.clk with tsu := ticksOfMs 0 } } : State); let die : Nat := 40; let hbm : Nat := 40; let t : State := ((({ up with reef := { up.reef with thermal := true, coolSince := some 0 }, clk := { up.clk with tsu := ticksOfMs 0 } } : State).wr fPWR_TEMP_DIE_MAX_C 0 40).wr fPWR_TEMP_HBM_MAX_C 0 40); let since : Nat := 0;
      decide ((s.clocked = true) ∧ (t = (s.wr fPWR_TEMP_DIE_MAX_C 0 die).wr fPWR_TEMP_HBM_MAX_C 0 hbm) ∧ (max die hbm < s.warnC) ∧ (s.reef.thermal = true) ∧ (max die hbm + t.setting fPWR_THERMAL_CFG_RELEASE_C 0 < s.warnC) ∧ (since = t.reef.coolSince.getD t.clk.tsu) ∧ (t.clk.tsu < since + ticksOfMs 1))) = true ∧
    (let s : State := ({ up with reef := { up.reef with thermal := true, coolSince := some 0 }, clk := { up.clk with tsu := ticksOfMs 0 } } : State); let die : Nat := 97; let hbm : Nat := 40; let t : State := ((({ up with reef := { up.reef with thermal := true, coolSince := some 0 }, clk := { up.clk with tsu := ticksOfMs 0 } } : State).wr fPWR_TEMP_DIE_MAX_C 0 97).wr fPWR_TEMP_HBM_MAX_C 0 40);
      decide ((s.clocked = true) ∧ (t = (s.wr fPWR_TEMP_DIE_MAX_C 0 die).wr fPWR_TEMP_HBM_MAX_C 0 hbm) ∧ (max die hbm < s.warnC) ∧ (s.reef.thermal = true) ∧ (s.warnC ≤ max die hbm + t.setting fPWR_THERMAL_CFG_RELEASE_C 0))) = true ∧
    (let s : State := { up with clk := { up.clk with tsu := 2 ^ 50 } }; let u : State := (List.range 544).foldl (fun s t => s.wr fDRN_TILE_WEAR_WINDOW_CORR t 0) ({ up with clk := { up.clk with tsu := 2 ^ 50 } } : State);
      decide ((s.running = true) ∧ (s.darn.wearWindow < s.clk.tsu / wearTicks) ∧ (u = (List.range 544).foldl (fun s t => s.wr fDRN_TILE_WEAR_WINDOW_CORR t 0) s))) = true ∧
    (let s : State := { up with darn := { up.darn with current := some ⟨0, 4, 1, 0, 0⟩ } }; let m : Swap := ⟨0, 4, 1, 0, 0⟩;
      decide ((s.running = true) ∧ ((s.ready 15 = true ∨ (15 ∈ s.softPending ∧ s.darn.current ≠ none))) ∧ (s.ready 4 = true) ∧ (s.darn.current = some m) ∧ (s.tileTask m.unit = none))) = true ∧
    (let s : State := { (up.wr fOCA_TILE_STATE 4 tsService) with darn := { up.darn with marks := [⟨0, 4, 1, 0, 0⟩] } }; let m : Swap := ⟨0, 4, 1, 0, 0⟩;
      decide ((s.running = true) ∧ ((s.ready 15 = true ∨ (15 ∈ s.softPending ∧ s.darn.current ≠ none))) ∧ (s.ready 4 = true) ∧ (s.starts 15 = true) ∧ (s.darn.current = none) ∧ (s.tileMarked = some m))) = true ∧
    (let s : State := { tileUp with darn := { up.darn with current := some ⟨0, 3, 1, 0, 0⟩ }, clk := { up.clk with tsu := 2 ^ 50 } }; let m : Swap := ⟨0, 3, 1, 0, 0⟩; let kx : Nat × Task := (1, tileTask0);
      decide ((s.running = true) ∧ ((s.ready 15 = true ∨ (15 ∈ s.softPending ∧ s.darn.current ≠ none))) ∧ (s.darn.current = some m) ∧ (s.tileTask m.unit = some kx) ∧ (m.since + ticksOfUs (s.setting1 fDRN_POLICY_DRAIN_US 0) ≤ s.clk.tsu))) = true ∧
    (let s : State := (up : State); let kind : Nat := 3; let unit : Nat := 4; let d : State := (up : State).atRegion 15 0x84;
      decide ((s.reaches 0 = true) ∧ (s.ready 15 = true) ∧ (d = s.atRegion 15 0x84) ∧ (d.swappable kind unit = false))) = true ∧
    (let s : State := (up.wr fMGL_ENGINE_STATE 4 0 : State); let unit : Nat := 4; let d : State := (up.wr fMGL_ENGINE_STATE 4 0 : State).atRegion 15 0x84;
      decide ((s.reaches 0 = true) ∧ (s.ready 15 = true) ∧ (d = s.atRegion 15 0x84) ∧ (d.swappable 2 unit = true))) = true ∧
    (let s : State := ((up.wr fOCA_TILE_STATE 4 tsService).wr fOCA_TILE_LOGICAL 4 4 : State); let unit : Nat := 4; let d : State := ((up.wr fOCA_TILE_STATE 4 tsService).wr fOCA_TILE_LOGICAL 4 4 : State).atRegion 15 0x84;
      decide ((s.reaches 0 = true) ∧ (s.ready 15 = true) ∧ (d = s.atRegion 15 0x84) ∧ (d.swappable 0 unit = true))) = true ∧
    (let s : State := ((up.wr fAMU_BANK_STATE 5 0) : State); let unit : Nat := 5; let v : State := (((up.wr fAMU_BANK_STATE 5 0).atRegion 15 0x84).mark 1 5 3).wr fAMU_BANK_RETIRE_MARK 5 1; let d : State := ((up.wr fAMU_BANK_STATE 5 0) : State).atRegion 15 0x84;
      decide ((s.reaches 0 = true) ∧ (s.ready 15 = true) ∧ (d = s.atRegion 15 0x84) ∧ (d.swappable 1 unit = true) ∧ (v = (d.mark 1 unit 3).wr fAMU_BANK_RETIRE_MARK unit 1) ∧ (v.rd fAMU_BANK_STATE unit = 0))) = true ∧
    (let s : State := ((up.wr fAMU_BANK_STATE 5 2) : State); let unit : Nat := 5; let v : State := (((up.wr fAMU_BANK_STATE 5 2).atRegion 15 0x84).mark 1 5 3).wr fAMU_BANK_RETIRE_MARK 5 1; let d : State := ((up.wr fAMU_BANK_STATE 5 2) : State).atRegion 15 0x84;
      decide ((s.reaches 0 = true) ∧ (s.ready 15 = true) ∧ (d = s.atRegion 15 0x84) ∧ (d.swappable 1 unit = true) ∧ (v = (d.mark 1 unit 3).wr fAMU_BANK_RETIRE_MARK unit 1) ∧ (v.rd fAMU_BANK_STATE unit ≠ 0))) = true ∧
    (let s : State := up.wr fDRN_POLICY_LINK_REPAIR 0 0; let l : Nat := 0; let g : Nat := 0; let n : Nat := 1;
      decide ((s.running = true) ∧ (s.ready 5 = true) ∧ (l < 224) ∧ (s.groupUsed l g = true) ∧ (n = getD 0 s.darn.groupErr (l * 64 + g) + 1) ∧ (¬ (s.setting1 fDRN_THRESH_LINK_ERR 0 ≤ n ∧ s.setting fDRN_POLICY_LINK_REPAIR 0 = 1)))) = true ∧
    (let s : State := { up.wr fDRN_POLICY_LINK_REPAIR 0 1 with darn := { up.darn with groupErr := [(0, 10000000)] } }; let l : Nat := 0; let g : Nat := 0; let n : Nat := 10000001;
      decide ((s.running = true) ∧ (s.ready 5 = true) ∧ (l < 224) ∧ (s.groupUsed l g = true) ∧ (n = getD 0 s.darn.groupErr (l * 64 + g) + 1) ∧ (s.setting1 fDRN_THRESH_LINK_ERR 0 ≤ n) ∧ (s.setting fDRN_POLICY_LINK_REPAIR 0 = 1))) = true := by
  decide +kernel

theorem wit_SidebandCommandsComplete_15 :
    (let s : State := off0; let req : List Byte := [1]; let u : State := (off0.drawn.emit (.sideband 0x101 rcOk (Config.pldmAnswer off0.draws [1]))).clearAlerts (fun f => off0.railsUp && Config.pldmClears f.lo [1]);
      decide ((s.auheundOn = true) ∧ (u = (s.drawn.emit (.sideband 0x101 rcOk (Config.pldmAnswer s.draws req))).clearAlerts (fun (f : Field) => s.railsUp && Config.pldmClears f.lo req)))) = true := by
  exact decide_eq_true ⟨by decide +kernel, rfl⟩

theorem wit_SidebandCommandsComplete :
    (let s : State := (up : State); let d : State := (up : State).atRegion 16 0xCC;
      decide ((s.reaches 0 = true) ∧ (s.ready 16 = true) ∧ (d = s.atRegion 16 0xCC) ∧ (d.rd fMGT_SNAP_PRESERVE_PRESERVE 0 ≠ 1))) = true ∧
    (let s : State := (up.wr fMGT_SNAP_PRESERVE_PRESERVE 0 1 : State); let d : State := (up.wr fMGT_SNAP_PRESERVE_PRESERVE 0 1 : State).atRegion 16 0xCC;
      decide ((s.reaches 0 = true) ∧ (s.ready 16 = true) ∧ (d = s.atRegion 16 0xCC) ∧ (d.rd fMGT_SNAP_PRESERVE_PRESERVE 0 = 1))) = true ∧
    (let s : State := (up : State); let d : State := (up : State).atRegion 16 0xCC;
      decide ((s.reaches 0 = true) ∧ (s.ready 16 = true) ∧ (d = s.atRegion 16 0xCC))) = true ∧
    (let s : State := off0;
      decide ((s.auheundOn = true))) = true ∧
    (let s : State := up; let sub : Nat := 16;
      decide ((s.auheundOn = true) ∧ (1 ≤ sub) ∧ (sub ≤ 16) ∧ (s.railsUp = true))) = true ∧
    (let s : State := off0; let sub : Nat := 16;
      decide ((s.auheundOn = true) ∧ (1 ≤ sub) ∧ (sub ≤ 16) ∧ (s.railsUp = false))) = true ∧
    (let s : State := off0; let kind : Nat := 1; let page : Nat := 0;
      decide ((s.auheundOn = true) ∧ (kind < 4))) = true ∧
    (let s : State := off0;
      decide ((s.auheundOn = true))) = true ∧
    (let s : State := up;
      decide ((s.auheundOn = true) ∧ (s.clocked = true))) = true ∧
    (let s : State := up;
      decide ((s.auheundOn = true) ∧ (s.clocked = true))) = true ∧
    (let s : State := off0;
      decide ((s.auheundOn = true) ∧ (s.clocked = false))) = true ∧
    (let s : State := off0; let first : Nat := 0;
      decide ((s.auheundOn = true) ∧ (first < 642))) = true ∧
    (let s : State := off0; let on : Bool := true;
      decide ((s.auheundOn = true))) = true ∧
    (let s : State := off0; let req : List Byte := [1];
      decide ((s.auheundOn = true))) = true ∧
    (let s : State := off0; let req : List Byte := [1];
      decide ((s.auheundOn = true))) = true ∧
    (let s : State := off0;
      decide ((s.auheundOn = true) ∧ ((s.health = s.store.health ∨ s.store.eventsOn = false)))) = true ∧
    (let s : State := { off0 with store := { off0.store with eventsOn := true, health := off0.health + 1 } };
      decide ((s.auheundOn = true) ∧ (s.health ≠ s.store.health) ∧ (s.store.eventsOn = true))) = true ∧
    (let s : State := up; let a : Access := { fn := 0, space := .bar0, off := 0x40000, size := 4 };
      decide ((s.reaches a.fn = true) ∧ (accessOk a = true))) = true := by
  decide +kernel

theorem wit_TwoSourceResults :
    (([(encAdd, 0x00400000), (encSub, 0x00400001), (encAnd, 0x00400002), (encOr, 0x00400003),
        (encXor, 0x00400004), (encAndn, 0x00400005), (encOrn, 0x00400006), (encXnor, 0x00400007),
        (encSll, 0x00400008), (encSrl, 0x00400009), (encSra, 0x0040000A), (encRol, 0x0040000B),
        (encRor, 0x0040000C), (encMin, 0x00400010), (encMax, 0x00400011), (encMinu, 0x00400012)] ++
      [(encMaxu, 0x00400013), (encAddw, 0x00400028), (encSubw, 0x00400029), (encSllw, 0x0040002A),
        (encSrlw, 0x0040002B), (encCrc32cb, 0x00400030), (encCrc32ch, 0x00400031), (encCrc32cw, 0x00400032),
        (encCrc32cd, 0x00400033), (encMul, 0x00800000), (encMulh, 0x00800001), (encMulhu, 0x00800002),
        (encMulhsu, 0x00800003), (encMulw, 0x00800004), (encDiv, 0x00800008), (encDivu, 0x00800009)] ++
      [(encRem, 0x0080000A), (encRemu, 0x0080000B), (encDivw, 0x0080000C), (encDivuw, 0x0080000D),
        (encRemw, 0x0080000E), (encRemuw, 0x0080000F)] : List (Enc × Nat)).all
      (fun p => issuesB maint 3 (BitVec.ofNat 32 p.2) p.1 [wB (BitVec.ofNat 32 p.2), wC (BitVec.ofNat 32 p.2)]) = true) := by
  decide +kernel

theorem wit_OneSourceResults :
    (([(encClz, 0x00400018), (encCtz, 0x00400019), (encPopc, 0x0040001A), (encBswap, 0x0040001B),
        (encSextb, 0x00400020), (encSexth, 0x00400021), (encSextw, 0x00400022), (encZextb, 0x00400023),
        (encZexth, 0x00400024), (encZextw, 0x00400025), (encAddi, 0x01800000), (encAndi, 0x01C00000),
        (encOri, 0x02000000), (encXori, 0x02400000), (encSlli, 0x02800000), (encSrli, 0x02800040)] ++
      [(encSrai, 0x02800080), (encRoli, 0x028000C0), (encRori, 0x02800100)] : List (Enc × Nat)).all
      (fun p => issuesB maint 3 (BitVec.ofNat 32 p.2) p.1 [wB (BitVec.ofNat 32 p.2)]) = true) := by
  decide +kernel

theorem wit_ImmediateResults :
    (([(encLui, 0x02C00000), (encAddpc, 0x03000000), (encRdcnt, 0x00000004), (encVrdvl, 0x08000001),
        (encMaintenanceOp, 0x07400000)] : List (Enc × Nat)).all
      (fun p => issuesB maint 3 (BitVec.ofNat 32 p.2) p.1 []) = true) ∧
    (([(encPtox, 0x01400010)] : List (Enc × Nat)).all
      (fun p => issuesB maint 3 (BitVec.ofNat 32 p.2) p.1 ((List.range 8).map predWord)) = true) ∧
    (([(encMaintenanceOp, 0x07400000)] : List (Enc × Nat)).all
      (fun p => issuesB (serving p.2) 3 (BitVec.ofNat 32 p.2) p.1 []) = true) := by
  decide +kernel

theorem wit_PredicateResults :
    (([(encCmp, 0x00C00000)] : List (Enc × Nat)).all
      (fun p => issuesB maint 3 (BitVec.ofNat 32 p.2) p.1 [wB (BitVec.ofNat 32 p.2), wC (BitVec.ofNat 32 p.2)]) = true) ∧
    (([(encCmpi, 0x01000000)] : List (Enc × Nat)).all
      (fun p => issuesB maint 3 (BitVec.ofNat 32 p.2) p.1 [wBits (BitVec.ofNat 32 p.2) 11 5]) = true) ∧
    (([(encPand, 0x01400000), (encPor, 0x01400001), (encPxor, 0x01400002), (encPandn, 0x01400003)] : List (Enc × Nat)).all
      (fun p => issuesB maint 3 (BitVec.ofNat 32 p.2) p.1 [predWord (wBits (BitVec.ofNat 32 p.2) 14 3), predWord (wBits (BitVec.ofNat 32 p.2) 11 3)]) = true) ∧
    (([(encXtop, 0x01400011)] : List (Enc × Nat)).all
      (fun p => issuesB maint 3 (BitVec.ofNat 32 p.2) p.1 [wB (BitVec.ofNat 32 p.2)]) = true) := by
  decide +kernel

theorem wit_ControlCompletes :
    (([(encNop, 0x00000000), (encFence, 0x00000003), (encEnd, 0x00000001), (encTrap, 0x00000002),
        (encBr, 0x03400000), (encCall, 0x03800000)] : List (Enc × Nat)).all
      (fun p => issuesB maint 3 (BitVec.ofNat 32 p.2) p.1 []) = true) ∧
    (([(encPrefetch, 0x05C00000), (encJr, 0x03C00000)] : List (Enc × Nat)).all
      (fun p => issuesB maint 3 (BitVec.ofNat 32 p.2) p.1 [wB (BitVec.ofNat 32 p.2)]) = true) := by
  decide +kernel

theorem wit_LoadsComplete :
    (([(encLb, 0x04000000), (encLh, 0x04400000), (encLw, 0x04800000), (encLd, 0x04C00000),
        (encLbu, 0x05000000), (encLhu, 0x05400000), (encLwu, 0x05800000)] : List (Enc × Nat)).all
      (fun p => issuesB maint 3 (BitVec.ofNat 32 p.2) p.1 [wB (BitVec.ofNat 32 p.2)]) = true) := by
  decide +kernel

theorem wit_StoresComplete :
    (([(encSb, 0x06000000), (encSh, 0x06400000), (encSw, 0x06800000), (encSd, 0x06C00000)] : List (Enc × Nat)).all
      (fun p => issuesB maint 3 (BitVec.ofNat 32 p.2) p.1 [wB (BitVec.ofNat 32 p.2), wA (BitVec.ofNat 32 p.2)]) = true) := by
  decide +kernel

theorem wit_AtomicsComplete :
    (([(encAtomicAdd, 0x07000002), (encAtomicAnd, 0x0700000A), (encAtomicOr, 0x07000012), (encAtomicXor, 0x0700001A),
        (encAtomicMin, 0x07000022), (encAtomicMax, 0x0700002A), (encAtomicMinu, 0x07000032), (encAtomicMaxu, 0x0700003A),
        (encAtomicSwap, 0x07000042)] : List (Enc × Nat)).all
      (fun p => issuesB maint 3 (BitVec.ofNat 32 p.2) p.1 [wB (BitVec.ofNat 32 p.2), wC (BitVec.ofNat 32 p.2)]) = true) ∧
    (([(encAtomicCas, 0x0700004A)] : List (Enc × Nat)).all
      (fun p => issuesB maint 3 (BitVec.ofNat 32 p.2) p.1 [wB (BitVec.ofNat 32 p.2), wC (BitVec.ofNat 32 p.2), wA (BitVec.ofNat 32 p.2)]) = true) := by
  decide +kernel

theorem wit_VectorQueued :
    (([(encMand, 0x08400000), (encMor, 0x08400001), (encMxor, 0x08400002), (encMandn, 0x08400003),
        (encMpopc, 0x08800000), (encMfirst, 0x08800001), (encMsetlt, 0x08800002), (encMmov, 0x08800003),
        (encVmv, 0x08C00000), (encVbcast, 0x08C00001), (encVextract, 0x08C00002), (encVinsert, 0x08C00003),
        (encVadd, 0x09000000), (encVsub, 0x09000001), (encVmin, 0x09000002), (encVmax, 0x09000003)] ++
      [(encVminu, 0x09800000), (encVmaxu, 0x09800001), (encVsaddu, 0x09800002), (encVssubu, 0x09800003),
        (encVand, 0x09C00000), (encVor, 0x09C00001), (encVxor, 0x09C00002), (encVandn, 0x09C00003),
        (encVsll, 0x0A400000), (encVsrl, 0x0A400001), (encVsra, 0x0A400002), (encVror, 0x0A400003),
        (encVmul, 0x0AC00000), (encVmulh, 0x0AC00001), (encVmulhu, 0x0AC00002), (encVmadd, 0x0AC00003)] ++
      [(encVcmp, 0x0B000000), (encVcmpx, 0x0B400000), (encVzext, 0x0BC00004), (encVsext, 0x0BC00005),
        (encVtrunc, 0x0BC00006), (encVsatnu, 0x0BC00007), (encVmerge, 0x0C000000), (encVcompress, 0x0C000001),
        (encVslidedn, 0x0C000002), (encVslideup, 0x0C000003), (encVredsum, 0x0C400000), (encVredmin, 0x0C400001),
        (encVredmax, 0x0C400002), (encVredminu, 0x0C400003), (encVredmaxu, 0x0C800000), (encVredand, 0x0C800001)] ++
      [(encVredor, 0x0C800002), (encVredxor, 0x0C800003), (encVfadd, 0x0CC00008), (encVfsub, 0x0CC00009),
        (encVfmul, 0x0CC0000A), (encVfmadd, 0x0CC0000B), (encVfmin, 0x0D000008), (encVfmax, 0x0D000009),
        (encVfredsum, 0x0D00000A), (encVfredmax, 0x0D00000B), (encVfcvtFI, 0x0D400008), (encVfcvtIF, 0x0D400009),
        (encVfwiden, 0x0D40000E), (encVfnarrow, 0x0D40000F), (encVfcmp, 0x0F000008), (encVcrc32c, 0x0D800008)] ++
      [(encVpopc, 0x0D800001), (encVclz, 0x0D800002), (encVctz, 0x0D800003), (encVid, 0x0DC00000),
        (encViota, 0x0DC00001), (encVld, 0x0E000000), (encVlds, 0x0E000001), (encVldx, 0x0E000082),
        (encVldxff, 0x0E000083), (encVst, 0x0E400000), (encVsts, 0x0E400001), (encVstx, 0x0E400002),
        (encVldff, 0x0E800000), (encVldsff, 0x0E800001), (encVldmask, 0x0E800002), (encVstmask, 0x0E800003)] ++
      [(encVlseg2, 0x0EC00000), (encVlseg3, 0x0EC00001), (encVlseg4, 0x0EC00002)] : List (Enc × Nat)).all
      (fun p => issuesB maint 3 (BitVec.ofNat 32 p.2) p.1 (scalarReads (BitVec.ofNat 32 p.2))) = true) ∧
    (([(encVlseg2, 0x0EC00000)] : List (Enc × Nat)).all
      (fun p => issuesB (serving p.2) 3 (BitVec.ofNat 32 p.2) p.1 (scalarReads (BitVec.ofNat 32 p.2))) = true) := by
  decide +kernel

theorem wit_VectorConfiguration :
    (([(encVsetvl, 0x08000000), (encVwrrs, 0x08000003)] : List (Enc × Nat)).all
      (fun p => issuesB maint 3 (BitVec.ofNat 32 p.2) p.1 [wB (BitVec.ofNat 32 p.2)]) = true) ∧
    (([(encVrdrs, 0x08000002)] : List (Enc × Nat)).all
      (fun p => issuesB maint 3 (BitVec.ofNat 32 p.2) p.1 []) = true) := by
  decide +kernel

/-- The word of a load or store: MAJOR, rd 5, rs1 1, immediate 0. -/
def memWord (major : Nat) : Dword := BitVec.ofNat 32 (major * 2 ^ 22 + 5 * 2 ^ 17 + 2 ^ 12)
theorem wit_LoadsComplete_clauses :
    (∀ s ∈ [maintX1 0xFFFF000000001000, lsError 0x200 false (maintX1 0xFFFF000000001000),
        lsError 0x200 true (maintX1 0xFFFF000000001000)],
      (let w := memWord 0x13
       issuesB s 3 w encLd [wB w] && decide (space ((s.core 3).getX (wB w) + wImm12 w) = .ls 0x1000 ∧ 0x1000 % 8 = 0 ∧
        (s.core 3).vectorBusy = false)) = true) ∧
    (∀ k ∈ lsWords 0x1000 8, find ((maintX1 0xFFFF000000001000).core 3).lsBad k = none) ∧
    (∀ b : Bool, let s := lsError 0x200 b (maintX1 0xFFFF000000001000); let w := memWord 0x13
      ((s.readRegs 3 w [wB w]).lsGet 3 0x1000 8).isSome = !b) ∧
    (let s := vecBusy (maintX1 0xFFFF000000001000); let w := memWord 0x13
     (issuesB s 3 w encLd [wB w] && decide (space ((s.core 3).getX (wB w) + wImm12 w) = .ls 0x1000 ∧
      (s.core 3).vectorBusy = true)) = true) ∧
    (let s := maintX1 0x1000; let w := memWord 0x13
     (issuesB s 3 w encLd [wB w] && decide (space ((s.core 3).getX (wB w) + wImm12 w) = .hbm 0x1000 ∧
      ((s.core 3).accs.filter MemAcc.isLoad).length < (s.readRegs 3 w [wB w]).maxLoads)) = true) ∧
    (let s := inFlight 16 (.load 8 false) (maintX1 0x1000); let w := memWord 0x13
     (issuesB s 3 w encLd [wB w] && decide (space ((s.core 3).getX (wB w) + wImm12 w) = .hbm 0x1000 ∧
      (s.readRegs 3 w [wB w]).maxLoads ≤ ((s.core 3).accs.filter MemAcc.isLoad).length)) = true) ∧
    (let s := maintX1 0x1004; let w := memWord 0x13
     (issuesB s 3 w encLd [wB w] && decide (space ((s.core 3).getX (wB w) + wImm12 w) = .hbm 0x1004 ∧ 0x1004 % 8 ≠ 0)) = true) ∧
    (let s := maintX1 0xFFFF000000040000; let w := memWord 0x13
     (issuesB s 3 w encLd [wB w] && decide (space ((s.core 3).getX (wB w) + wImm12 w) = .bad)) = true) := by
  decide +kernel
theorem wit_StoresComplete_clauses :
    (∀ s ∈ [maintX1 0xFFFF000000000800, vecBusy (maintX1 0xFFFF000000000800)],
      (let w := memWord 0x1B
       issuesB s 3 w encSd [wB w, wA w] && decide (space ((s.core 3).getX (wB w) + wImm12 w) = .ls 0x800 ∧
        lsProtected 0x800 = false)) = true) ∧
    ((maintX1 0xFFFF000000000800).core 3).vectorBusy = false ∧
    ((vecBusy (maintX1 0xFFFF000000000800)).core 3).vectorBusy = true ∧
    (∀ s ∈ [maintX1 0x1000, inFlight 16 (.store []) (maintX1 0x1000)],
      (let w := memWord 0x1B
       issuesB s 3 w encSd [wB w, wA w] && decide (space ((s.core 3).getX (wB w) + wImm12 w) = .hbm 0x1000)) = true) ∧
    ((maintX1 0x1000).core 3).storeRoom 0x1000 = true ∧
    ((inFlight 16 (.store []) (maintX1 0x1000)).core 3).storeRoom 0x1000 = false ∧
    (let s := maintX1 0xFFFF0000000007F8; let w := memWord 0x1B
     (issuesB s 3 w encSd [wB w, wA w] && decide (space ((s.core 3).getX (wB w) + wImm12 w) = .ls 0x7F8 ∧
      lsProtected 0x7F8 = true)) = true) ∧
    (let s := maintX1 0xFFFF000000000804; let w := memWord 0x1B
     (issuesB s 3 w encSd [wB w, wA w] && decide (space ((s.core 3).getX (wB w) + wImm12 w) = .ls 0x804 ∧ 0x804 % 8 ≠ 0)) = true) ∧
    (let s := maintX1 0x0001000000000000; let w := memWord 0x1B
     (issuesB s 3 w encSd [wB w, wA w] && decide (space ((s.core 3).getX (wB w) + wImm12 w) = .bad)) = true) := by
  decide +kernel
/-- ATOMIC.ADD of 8 bytes: MAJOR 0x1C, rd 5, rs1 1, rs2 0, size 3. -/
def addWord : Dword := BitVec.ofNat 32 (0x1C * 2 ^ 22 + 5 * 2 ^ 17 + 2 ^ 12 + 3)
theorem wit_AtomicsComplete_clauses :
    (∀ s ∈ [maintX1 0xFFFF000000000800, lsError 0x100 false (maintX1 0xFFFF000000000800),
        lsError 0x100 true (maintX1 0xFFFF000000000800)],
      (let w := addWord
       issuesB s 3 w encAtomicAdd [wB w, wC w] && decide (space ((s.core 3).getX (wB w)) = .ls 0x800 ∧ wBits w 0 3 = 3 ∧
        lsProtected 0x800 = false ∧ (s.core 3).vectorBusy = false ∧ (s.core 3).accs = [])) = true) ∧
    (∀ k ∈ lsWords 0x800 8, find ((maintX1 0xFFFF000000000800).core 3).lsBad k = none) ∧
    (∀ b : Bool, let s := lsError 0x100 b (maintX1 0xFFFF000000000800); let w := addWord
      ((s.readRegs 3 w [wB w, wC w]).lsGet 3 0x800 8).isSome = !b) ∧
    (let s := maintX1 0x1000; let w := addWord
     (issuesB s 3 w encAtomicAdd [wB w, wC w] && decide (space ((s.core 3).getX (wB w)) = .hbm 0x1000 ∧
      (s.core 3).vectorBusy = false ∧ (s.core 3).accs = [])) = true) ∧
    (∀ s ∈ [vecBusy (maintX1 0x1000), inFlight 1 (.load 8 false) (maintX1 0x1000)],
      (let w := addWord
       issuesB s 3 w encAtomicAdd [wB w, wC w] && decide (space ((s.core 3).getX (wB w)) = .hbm 0x1000 ∧
        ((s.core 3).vectorBusy = true ∨ (s.core 3).accs ≠ []))) = true) ∧
    (let s := maintX1 0xFFFF0000000007F8; let w := addWord
     (issuesB s 3 w encAtomicAdd [wB w, wC w] && decide (space ((s.core 3).getX (wB w)) = .ls 0x7F8 ∧
      lsProtected 0x7F8 = true)) = true) ∧
    (let s := maintX1 0x1004; let w := addWord
     (issuesB s 3 w encAtomicAdd [wB w, wC w] && decide (space ((s.core 3).getX (wB w)) = .hbm 0x1004 ∧ 0x1004 % 8 ≠ 0)) = true) ∧
    (let s := maintX1 0x0001000000000000; let w := addWord
     (issuesB s 3 w encAtomicAdd [wB w, wC w] && decide (space ((s.core 3).getX (wB w)) = .bad)) = true) := by
  decide +kernel
/-- JR x5, 0(x1). -/
def jrWord : Dword := BitVec.ofNat 32 (0x0F * 2 ^ 22 + 5 * 2 ^ 17 + 2 ^ 12)
/-- Tile 3 serves function 0, whose page 0 is mapped, with x1 = `v` and the code word `w`. -/
def servingX1 (w : Nat) (v : Qword) : State := (serving w).onCore 3 (fun c => { c with x := [(1, v)] })
theorem wit_ControlCompletes_clauses :
    (let s := maintX1 0x1000; let w := jrWord
     (issuesB s 3 w encJr [wB w] && decide (((s.core 3).getX (wB w) + wImm12 w).toNat % 4 = 0)) = true) ∧
    (let s := maintX1 0x1002; let w := jrWord
     (issuesB s 3 w encJr [wB w] && decide (((s.core 3).getX (wB w) + wImm12 w).toNat % 4 ≠ 0)) = true) ∧
    ((maint.core 3).vectorBusy = false ∧ (maint.core 3).accs = []) ∧
    (∀ s ∈ [vecBusy maint, inFlight 1 (.load 8 false) maint],
      (issuesB s 3 0x00000003 encFence [] && issuesB s 3 0x00000001 encEnd [] &&
        decide ((s.core 3).vectorBusy = true ∨ (s.core 3).accs ≠ [])) = true) ∧
    (let s := servingX1 0x05C01000 0x1000; let w : Dword := 0x05C01000
     (issuesB s 3 w encPrefetch [wB w] && decide (space ((s.core 3).getX (wB w) + wImm12 w) = .hbm 0x1000) &&
      (match (s.readRegs 3 w [wB w]).translate ((s.readRegs 3 w [wB w]).tileFn 3) 0x1000 .read with
        | .ok _ => true
        | .error _ => false)) = true) ∧
    (let s := maintX1 0xFFFF000000000000; let w : Dword := 0x05C01000
     (issuesB s 3 w encPrefetch [wB w] && decide (space ((s.core 3).getX (wB w) + wImm12 w) = .ls 0)) = true) := by
  decide +kernel
/-- A queued unit-stride load, and a first-fault load in progress. -/
def memVec (s : State) : State := s.onCore 3 (fun c => { c with vq := [⟨0x0E000000, 0, 0, 0, 0, 0, 0⟩] })
def ffLoad : VMem :=
  { word := 0, pc := 0, stamp := 0, load := true, firstFault := true, mask := false, dst := 1, fields := 1, width := 8,
    n := 1, vm := 0, first := 0, slots := [], stop := none }
def ffVec (s : State) : State := s.onCore 3 (fun c => { c with vmem := [ffLoad] })
theorem wit_VectorConfiguration_clauses :
    (maint.core 3).memQueued = false ∧ (maint.core 3).vmem = [] ∧ (maint.core 3).vq.length < 8 ∧
    maint.rd fOCA_TILE_STATE 3 = tsMaintenance ∧ (serving 0).rd fOCA_TILE_STATE 3 ≠ tsMaintenance ∧
    ((memVec maint).core 3).memQueued = true ∧ ((ffVec maint).core 3).vmem ≠ [] ∧
    ((ffVec maint).core 3).vmem.any VMem.firstFault = true ∧
    (∀ s ∈ [memVec maint, ffVec maint],
      (issuesB s 3 0x08000002 encVrdrs [] && issuesB s 3 0x08001003 encVwrrs [wB 0x08001003]) = true) := by
  decide +kernel
/-- Tile 3 with its vector instruction queue full. -/
def vecFull : State := maint.onCore 3 (fun c => { c with vq := List.replicate 8 ⟨0, 0, 0, 0, 0, 0, 0⟩ })
theorem wit_VectorQueued_full :
    8 ≤ (vecFull.core 3).vq.length ∧ vecFull.rd fOCA_TILE_STATE 3 = tsMaintenance ∧
    issuesB vecFull 3 0x0EC00000 encVlseg2 (scalarReads 0x0EC00000) = true := by
  decide +kernel
/-- An access in flight writes x1, which ADD x0, x1, x0 and its like read. -/
theorem wit_TwoSourceResults_waits :
    (let s := maint.onCore 3 (fun c => { c with accs := [{ acc0 with rd := 1 }] }); let w : Dword := 0x00401000
     s.canIssue 3 w = true ∧ legal w = true ∧ [wB w, wC w].any (s.core 3).awaits = true ∧
     [wB w].any (s.core 3).awaits = true) := by
  decide +kernel
theorem wit_IdleStepIsTick : up.pending = [] ∧ up.clocked = true ∧ up.clk.atBoundary = false ∧
    (let s : State := { up with clk := { up.clk with divReq := some 4, divAt := 2, tsu := 2 } };
      s.pending = [] ∧ s.clocked = true ∧ s.clk.atBoundary = true) ∧ off0.pending = [] ∧ off0.clocked = false := by
  decide +kernel
theorem wit_OnlyOvervoltageStops : overvoltage (.surge 80001 0) = true ∧ overvoltage (.surge 80000 0) = false := by
  decide
theorem wit_ClockRootKept : clockCommand (.release 1 0) = false := by decide
theorem wit_CoresReachOnlyTheirSide : coreWord (.nop 3 0) = some (3, 0, encNop) := rfl
theorem wit_DigestReachesOnlyItself : digestCommand (.release 1 0) = true := by decide
theorem wit_next : ∀ c ∈ ([.droopSample 0 1, .nop 3 0, .release 1 0] : List Instr), ∃ t, exec c up = .next t := by
  intro c h
  have : ∀ c ∈ ([.droopSample 0 1, .nop 3 0, .release 1 0] : List Instr), overvoltage c = false := by decide
  obtain ⟨t, e, _⟩ := exec_next c up (this c h)
  exact ⟨t, e⟩
/-- An error in predicate p1 of tile 3. -/
def guardError (bad : Bool) : State := maint.onCore 3 (fun c => { c with regBad := [(predWord 1, bad)] })
theorem wit_PredicateAndLegality :
    (maint.canIssue 3 0x07800000 = true ∧ legal 0x07800000 = false) ∧
    (∀ s ∈ [maint, guardError false, guardError true],
      s.canIssue 3 0x20000000 = true ∧ (s.core 3).accs = [] ∧ (s.core 3).vq = []) ∧
    (legal 0x20000000 = true ∧ encNop.has 0x20000000 = true ∧ (∀ r, (maint.core 3).awaits r = false) ∧
      predTest (maint.core 3).p 0x20000000 = false) ∧
    ((maint.core 3).badRead [predWord (wPsel 0x20000000)] = false ∧
      ((guardError false).core 3).badRead [predWord (wPsel 0x20000000)] = false ∧
      ((guardError true).core 3).badRead [predWord (wPsel 0x20000000)] = true) ∧
    (wPsel 0x10000000 = 0 ∧ wPinv 0x10000000 = true) := by
  refine ⟨by decide +kernel, by decide +kernel, ⟨by decide +kernel, by decide +kernel, fun r => ?_, by decide +kernel⟩,
    by decide +kernel, by decide +kernel⟩
  have h : (maint.core 3).accs = [] ∧ (maint.core 3).vq = [] := by decide +kernel
  simp [Core.awaits, h.1, h.2]
theorem wit_EncodingsDisjoint : 0 < encodings.length ∧ (encodings.getD 0 encNop).has 0 = true := by decide +kernel
theorem wit_ClockLegalKept : ∃ t, step State.reset = .next t := by
  unfold step; exact ⟨_, rfl⟩
theorem wit_ResultWritten : (serving 0).stays 3 (((serving 0).core 3).pc + 4) := by
  have h : ((serving 0).tileTask 3).all (fun kx => (serving 0).inBlob kx.2 (((serving 0).core 3).pc + 4)) = true := by
    decide +kernel
  intro kx e
  rw [e] at h
  exact h
theorem wit_HbmLineWritten : State.reset.checkOf (4096 / 64) = .good ∧ State.reset.hbm.wf = true := by decide +kernel
/-- A staged task stands in peg A of tile 3. -/
def ready3 : State := withG3 (withT 1 { task0 with node := 0, state := .pegged, place := .pegA 3, staged := true }
  (withR 7 { run0 with started := true } up3))
theorem wit_StartedTaskRegisters :
    (match exec (.taskStart 3) ready3 with
      | .next u => decide ((ready3.core 3).task = none ∧ (u.core 3).task ≠ none)
      | _ => false) = true := by
  decide +kernel
def inDialogue : State := { up with tsu := { up.tsu with dialogue := some 0 } }
theorem wit_PtmTimeoutFails :
    (inDialogue.running = true ∧ inDialogue.tsu.dialogue.isSome = true) ∧
    (let s : State := { inDialogue with clk := { up.clk with tsu := ticksOfMs 10 } };
      s.running = true ∧ s.tsu.lastDialogue + ticksOfMs 10 ≤ s.clk.tsu) ∧
    (let s : State := { (up.setCfg 0 .ptmEnable 1).wr fTSU_PTM_CTRL_ENABLE 0 1 with clk := { up.clk with tsu := ticksOfMs 4000 } };
      s.running = true ∧ s.ready 13 = true ∧ s.cfg 0 .ptmEnable = 1 ∧ s.setting fTSU_PTM_CTRL_ENABLE 0 = 1 ∧
      s.tsu.dialogue = none ∧ s.tsu.lastDialogue + s.ptmPeriod ≤ s.clk.tsu) ∧
    (inDialogue.clk.tsu < inDialogue.tsu.lastDialogue + ticksOfMs 10) := by
  decide +kernel
def unlocked10 : State := up.wr fEXPERT_UNLOCK_UNLOCKED 10 1
theorem wit_ReservationSumBounded :
    unlocked10.reaches 0 = true ∧ unlocked10.ready 10 = true ∧ unlocked10.rd fEXPERT_UNLOCK_UNLOCKED 10 = 1 ∧
    512 < unlocked10.lockResvSum - unlocked10.rd fCVC_FN_RESV 3 + lowBits 10 513 ∧
    unlocked10.lockResvSum - unlocked10.rd fCVC_FN_RESV 3 + lowBits 10 512 ≤ 512 := by
  decide +kernel
/-- A queued VADD.VV v3, v1, v2 on 8-bit elements, 4 of them. -/
def vadd : VEntry := ⟨0x09060100, 0, 0, 0, 4, 0, 0⟩
theorem wit_VectorElements : 0 < maxEl vadd.width ∧ wMajor vadd.word = 0x24 := by decide +kernel
theorem wit_DigestSlotsIsolated :
    (match exec (.release 1 0) (up.setCfg 1 .memorySpace 1) with | .next _ => true | _ => false) = true := by
  decide +kernel
theorem wit_PlainWriteFrame :
    (regTable.any (fun d => (writers.find? (fun w => w.1.id = d.head)).isNone &&
      d.fields.any (fun f => decide (f.acc = .rw)))) = true := by
  decide +kernel
theorem wit_WearKept :
    (match exec .railsUp starting0 with | .next _ => true | _ => false) = true ∧
    (match exec .resetRelease { up with board := { up.board with phase := .warm } } with | .next _ => true | _ => false) = true := by
  decide +kernel

/-- CREATE_QUEUE of queue 9 of PF0, with `n` dynamic queues in use. -/
def create9 : Entry := ⟨1, ln [1, 0, 0, 0, 9, 0, 1, 4, 4], .handed⟩
def crowded (n : Nat) : State :=
  { up with qmg := { up.qmg with queues := (0, { aq with fetched := [create9] }) :: List.replicate n (40969, gq) } }
theorem find_replicate (n k q : Nat) (h : k ≠ q) : find (List.replicate n (k, gq)) q = none := by
  induction n with
  | zero => rfl
  | succ n ih => simp [List.replicate_succ, find, Ne.symm h, ih]
theorem wit_AdminCommandsComplete_pool (n : Nat) (hn : 15351 ≤ n) :
    (crowded n).running = true ∧ (crowded n).ready 2 = true ∧ (crowded n).adminNext 0 1 = some create9 ∧
    (crowded n).createError 0 create9.line = some (0x10, 0x07) := by
  have e : ∀ (u : State) (q : Qmg), ({ u with qmg := q } : State).running = u.running ∧ ({ u with qmg := q } : State).ready 2 = u.ready 2 ∧
      ({ u with qmg := q } : State).rd fQMG_FN_QLIMIT_LIMIT 0 = u.rd fQMG_FN_QLIMIT_LIMIT 0 := fun _ _ => ⟨rfl, rfl, rfl⟩
  have hm : (crowded n).qmg.queues = (0, { aq with fetched := [create9] }) :: List.replicate n (40969, gq) := rfl
  obtain ⟨e1, e2, e3⟩ : (crowded n).running = true ∧ (crowded n).ready 2 = true ∧ (crowded n).rd fQMG_FN_QLIMIT_LIMIT 0 = 1015 := by
    obtain ⟨a, b, c⟩ := e up { up.qmg with queues := (0, { aq with fetched := [create9] }) :: List.replicate n (40969, gq) }
    exact ⟨a.trans (by decide +kernel), b.trans (by decide +kernel), c.trans (by decide +kernel)⟩
  have h0 : (crowded n).queue 0 0 = some { aq with fetched := [create9] } := by
    unfold State.queue; rw [hm]; rfl
  have hq : (crowded n).queue 0 9 = none := by
    unfold State.queue; rw [hm]
    exact (rfl : find _ 9 = find (List.replicate n (40969, gq)) 9).trans (find_replicate _ _ _ (by decide))
  have ho : (crowded n).dynamicOf 0 = 0 := by
    unfold State.dynamicOf
    rw [hm, List.filter_cons_of_neg (by decide), List.filter_replicate, if_neg (by decide)]; rfl
  have ha : (crowded n).dynamicAll = n := by
    unfold State.dynamicAll
    rw [hm, List.filter_cons_of_neg (by decide), List.filter_replicate, if_pos (by decide), List.length_replicate]
  have i9 : entryBytes create9.line 4 2 = 9 := by decide +kernel
  have c1 : entryBytes create9.line 6 1 = 1 := by decide +kernel
  refine ⟨e1, e2, ?_, ?_⟩
  · unfold State.adminNext
    rw [h0]
    decide +kernel
  unfold State.createError
  simp only [i9, c1, hq, ho, ha, e3]
  rw [if_neg (by decide +kernel), if_neg (by decide), if_neg (by decide), if_neg (by decide), if_neg (by simp),
    if_neg (by simp), if_neg (by decide +kernel), if_neg (by decide +kernel), if_neg (by decide +kernel), if_neg (by decide),
    if_pos ⟨by decide, hn⟩]
theorem recPre_length : recPre.length = 248 := by decide +kernel
theorem leNat_leBytes4 (n : Nat) (h : n < 2 ^ 32) : leNat (leBytes 4 n) = n := by
  simp only [leBytes, leNat, BitVec.toNat_ofNat]; omega
theorem recOf_crc (n : Nat) (h : n < 2 ^ 32) : (recOf n).take 248 = recPre ∧ fieldAt (recOf n) 248 4 = n := by
  unfold recOf fieldAt
  have l := recPre_length
  refine ⟨by simp [← l], ?_⟩
  rw [List.append_assoc, List.drop_append_of_le_length (by omega), List.drop_eq_nil_of_le (by omega), List.nil_append,
    List.take_append_of_le_length (by simp [leBytes])]
  exact (congrArg leNat (List.take_of_length_le (by simp [leBytes]))).trans (leNat_leBytes4 n h)
theorem fieldAt_recOf (n o k : Nat) (h : o + k ≤ 248) : fieldAt (recOf n) o k = fieldAt recPre o k := by
  have l := recPre_length
  unfold fieldAt recOf
  rw [List.append_assoc, List.drop_append_of_le_length (by omega),
    List.take_append_of_le_length (by rw [List.length_drop]; omega)]
theorem wit_DigestCommandsComplete_record :
    sealedIn.running = true ∧ sealedIn.ready 12 = true ∧ (sealedIn.dslot 0 3).busy = 3 ∧
    sealedIn.importError 0 (sealedIn.dslot 0 3) (sealedIn.dslot 0 3).record = none := by
  have e : sealedIn.dslot 0 3 = sealedSlot :=
    (fun u : State => (getD_setD_same DgeSlot.blank u.dge.slots (slotKey 0 3) sealedSlot :
      (u.setDslot 0 3 sealedSlot).dslot 0 3 = sealedSlot)) up
  have l : (recOf (crc32c recPre).toNat).length = 256 := by simp [recOf, recPre_length, leBytes]
  have hd : (sealedIn.dslot 0 3).record = recOf (crc32c recPre).toNat := by
    rw [e]; unfold DgeSlot.record sealedSlot
    dsimp only
    rw [l]; exact List.append_nil _
  refine ⟨by decide +kernel, by decide +kernel, by decide +kernel, ?_⟩
  rw [hd]
  have lt : (crc32c recPre).toNat < 2 ^ 32 := (crc32c recPre).isLt
  obtain ⟨a, b⟩ := recOf_crc _ lt
  have k : ∀ n, nonzeroAt (recOf n) 252 256 = false := fun n => rfl
  have h1 : ∀ n, recordReservedBits (recOf n) = false ∧ fieldAt (recOf n) 0 4 = 0x54534744 ∧ fieldAt (recOf n) 4 1 = 1 ∧
      fieldAt (recOf n) 6 2 = 0 ∧ bitsAt (recOf n) 5 1 1 = 0 := fun n => by
    unfold recordReservedBits bitsAt
    rw [k]
    simp only [fieldAt_recOf n 4 8 (by decide), fieldAt_recOf n 5 8 (by decide), fieldAt_recOf n 6 8 (by decide),
      fieldAt_recOf n 0 4 (by decide), fieldAt_recOf n 4 1 (by decide), fieldAt_recOf n 6 2 (by decide)]
    decide +kernel
  obtain ⟨h1, h2, h3, h4, h5⟩ := h1 (crc32c recPre).toNat
  have ha : (sealedIn.dslot 0 3).alg = 1 := by rw [e]; rfl
  unfold State.importError
  simp only [h1, h2, h3, h4, h5, a, b, ha]
  simp
/-! ### Well-formedness: an ill-formed command for each check -/

theorem test_illformed_parts :
    Instr.wf (.flr 1025) = false ∧ Instr.wf (.nop 544 0) = false ∧ Instr.wf (.mastReady 32 0) = false ∧
    Instr.wf (.stackTrained 8) = false ∧ Instr.wf (.drivePerstRelease 8) = false ∧ Instr.wf (.carveOutEnable 64) = false ∧
    Instr.wf (.stop 64) = false ∧ Instr.wf (.release 0 16) = false ∧ Instr.wf (.droopSample 6 0) = false ∧
    Instr.wf (.moderationTimer 1 6144) = false ∧ Instr.wf (.bankClearDone 68) = false ∧ Instr.wf (.mglInject 18) = false ∧
    Instr.wf (.subsystemReady 0 0) = false ∧ Instr.wf (.subsystemReady 17 0) = false ∧
    Instr.wf (.doeRequest 3 []) = false ∧ Instr.wf (.vfEnable 65536) = false ∧ Instr.wf (.mgtWarmReset (2 ^ 32)) = false ∧
    Instr.wf (.cxlMemRead 0 65) = false ∧ Instr.wf (.cxlMemRead 0 0) = false ∧ Instr.wf (.msixUnmask 1 64) = false := by
  decide
theorem test_illformed_access :
    Instr.wf (.registerWrite ⟨0, .bar0, 2, 3, false⟩ 0) = false ∧ Instr.wf (.registerWrite ⟨0, .window, 2 ^ 17 - 2, 4, false⟩ 0) = false ∧
    Instr.wf (.registerWrite ⟨0, .bar0, 0x400000, 4, true⟩ 0) = true ∧
    DriveInfo.wf { drive0 with width := 3 } = false := by
  decide

/-! ### Worked examples -/

/-- spec/04_register_pages_and_address_map.md, "Example: locating registers", 1 and 2. -/
theorem test_id_registers :
    up.dwordAt (placeAt 0 .bar0 0x400000) = 0x54474D10 ∧ up.dwordAt (placeAt 0 .bar0 0x40000) = 0x46494801 := by
  decide +kernel
/-- The same example, 4. -/
theorem test_doorbell_block : doorbellAt 37 .window 0x80C0 = some (some 12, 0) := by decide
/-- spec/14_column_volume.md R369 by hand: five members with parity, chunks of 16 blocks. -/
theorem test_stripe_place :
    let v : Volume := { vol0 with members := 5, parity := true, chunkLog := 4 }
    v.parityOf 16 = 3 ∧ (v.place 1030 1).stripe = 16 ∧ (v.place 1030 1).member = 4 ∧ (v.place 1030 1).block = 518 := by
  decide
/-- spec/17_time_and_events.md, "Example: equal stamps in one run". -/
theorem test_event_order :
    let m : LogRec := ⟨256000000, 9, 5, some 6, 0⟩; let t : LogRec := ⟨256000000, 0x52C, 5, some 6, 0⟩
    let h : LogRec := ⟨256000001, 7, 5, some 6, 0⟩
    eventBefore m t = true ∧ eventBefore t h = true ∧ eventBefore h m = false := by
  decide
/-- spec/13_halyard_dma.md, "Example: a paced field extraction": bursts 576 ticks apart. -/
theorem test_burst_spacing :
    (up.wr fHAL_CH_RATE_SHARE 9 16).burstSpacing 9
      { src := 0, dst := 65536, count := 4096, sw := 2, dw := 8, sstride := 16, dstride := 8, srcHost := false,
        dstHost := false, cxl := false } 0 1024 = 576 := by
  decide +kernel
/-- spec/11_associative_match.md, R306: 0x9A3C of a hash with four banks has home position 2. -/
theorem test_home_position : 0x9A3C * 4 / 2 ^ 16 = 2 ∧ homePos 4 [] = 0 := by decide +kernel
/-- CRC-32C of "123456789" (the check value of the Castagnoli polynomial). -/
theorem test_crc32c :
    crc32c [0x31, 0x32, 0x33, 0x34, 0x35, 0x36, 0x37, 0x38, 0x39] = 0xE3069283#32 := by
  decide +kernel
/-- SHA-256 of "abc" (FIPS 180-4). -/
theorem test_sha256 :
    algAbsorb 1 (algInit 1) ([0x61, 0x62, 0x63, 0x80] ++ List.replicate 59 0 ++ [0x18]) =
      beBytes ([0xba7816bf, 0x8f01cfea, 0x414140de, 0x5dae2223, 0xb00361a3, 0x96177a9c, 0xb410ff61, 0xf20015ad].map
        (BitVec.ofNat 32)) := by
  decide +kernel
/-- R242, R244: ADD x5, x1, x2 is MAJOR 0x01 in [27:22], rd in [21:17], rs1 in [16:12], rs2 in [11:7], FN 0. -/
theorem test_add_word :
    let w : Dword := 0b0000_000001_00101_00001_00010_0000000
    encAdd.has w = true ∧ legal w = true ∧ wA w = 5 ∧ wB w = 1 ∧ wC w = 2 := by
  decide +kernel
/-- R244: ADD wraps, and x5 holds the result. -/
theorem test_add_wraps :
    (match exec (.add 3 0b0000_000001_00101_00001_00010_0000000)
        (maint.onCore 3 (fun c => { c with x := [(1, 0xFFFFFFFFFFFFFFFF), (2, 2)] })) with
      | .next t => (t.core 3).getX 5
      | _ => 0) = 1 := by
  decide +kernel
/-- R245: DIV by zero gives all ones, and REM by zero the dividend. -/
theorem test_div_by_zero :
    (match exec (.div 3 0b0000_000010_00101_00001_00010_0001000) (maintX1 7) with
      | .next t => (t.core 3).getX 5 | _ => 0) = 0xFFFFFFFFFFFFFFFF ∧
    (match exec (.rem 3 0b0000_000010_00101_00001_00010_0001010) (maintX1 7) with
      | .next t => (t.core 3).getX 5 | _ => 0) = 7 := by
  decide +kernel

end Sys2Proof.Machine.Tests
end

/-!
### Scope (spec/00_scope.md): the register store

What the write of a plain register leaves alone, which fields a reset of the whole device
leaves alone, and the state right after reset.
-/

namespace Sys2Proof.Machine

/-! #### Writes of plain registers (R7, R94, R97) -/

/-- A field that software's write can change under its access code (R7). -/
def Field.Writable (f : Field) : Prop := f.acc = .rw ∨ f.acc = .w1c ∨ f.acc = .w1s

/-- A write to a field changes that field alone, in the element written, and only where the field is writable (R7). -/
theorem State.rd_writeField_other {s : State} {f g : Field} {i j v : Nat} (hi : i < 65536) (hj : j < 65536)
    (h : f.Writable → f.id ≠ g.id ∨ i ≠ j) : (s.writeField f i v).rd g j = s.rd g j := by
  unfold State.writeField
  split
  case h_1 a => exact State.rd_wr_other hi hj (h (.inl a))
  case h_2 a => exact State.rd_wr_other hi hj (h (.inr (.inl a)))
  case h_3 a => exact State.rd_wr_other hi hj (h (.inr (.inr a)))
  all_goals rfl

/-- An expert-only write reaches what the write reaches and, in a locked page, DENIED (R94). -/
theorem State.rd_expertWrite_other {s : State} {F : State → State} {sub : Nat} {g : Field} {j : Nat} (hs : sub < 65536)
    (hj : j < 65536) (hd : g.id ≠ fEXPERT_UNLOCK_DENIED.id) (h : (F s).rd g j = s.rd g j) :
    (s.expertWrite sub F).rd g j = s.rd g j := by
  unfold State.expertWrite
  split
  · exact h
  · exact State.rd_wr_other hs hj (.inl (Ne.symm hd))

theorem State.rd_writeGuarded_other {s : State} {sub : Nat} {f g : Field} {i j v : Nat} (hs : sub < 65536)
    (hi : i < 65536) (hj : j < 65536) (hd : g.id ≠ fEXPERT_UNLOCK_DENIED.id) (h : f.Writable → f.id ≠ g.id ∨ i ≠ j) :
    (s.writeGuarded sub f i v).rd g j = s.rd g j := by
  unfold State.writeGuarded
  split
  · exact State.rd_expertWrite_other hs hj hd (State.rd_writeField_other hi hj h)
  · exact State.rd_writeField_other hi hj h

theorem State.rd_writeFields_other {s : State} {sub : Nat} {fs : List Field} {g : Field} {i j v : Nat}
    (hs : sub < 65536) (hi : i < 65536) (hj : j < 65536) (hd : g.id ≠ fEXPERT_UNLOCK_DENIED.id)
    (h : ∀ f ∈ fs, f.Writable → f.id ≠ g.id ∨ i ≠ j) : (s.writeFields sub fs i v).rd g j = s.rd g j := by
  induction fs generalizing s with
  | nil => rfl
  | cons f fs ih =>
    obtain ⟨hf, hfs⟩ := List.forall_mem_cons.mp h
    calc ((s.writeGuarded sub f i v).writeFields sub fs i v).rd g j
        = (s.writeGuarded sub f i v).rd g j := ih hfs
      _ = s.rd g j := State.rd_writeGuarded_other hs hi hj hd hf

/-- A register that has no writer takes its fields one by one, each under its access code. -/
theorem State.writeReg_plain {d : RegDesc} (h : writers.find? (fun w => w.1.id = d.head) = none) (s : State)
    (sub i v : Nat) : s.writeReg d sub i v = s.writeFields sub d.fields i v := by
  simp only [State.writeReg, h]

/-- Settles O53: a plain write is a fold of guarded field writes, each of which leaves the other fields and elements. -/
theorem plainWriteFrame : Obligations.PlainWriteFrame := by
  intro s d sub i v hplain hs hi g j hj hd h
  rw [State.writeReg_plain hplain]
  refine State.rd_writeFields_other hs hi hj hd fun f hf hw => ?_
  obtain hji | hid := h
  · exact .inr (Ne.symm hji)
  · exact .inl (hid f hf hw)

/-! #### Fields that the resets of the device keep (R9, R72, R468) -/

/-- The fields that a reset of the device writes in element 0 once the main domain is reset: the counts that it loads or
steps, the reef level, and the alert causes that persist. What its interrupt causes and event records write beside them
is the business of `Field.quiet`. -/
def resetWrites : List Field :=
  [fMGT_LAST_STOP_CAUSE, fMGT_BOOT_COUNT_COUNT, fDRN_SRAM_APPLIED, fDRN_HISTORY_TOTAL_TOTAL, fPWR_REEF_STATUS_STEPPING,
   fPWR_REEF_STATUS_LEVEL] ++ alertFields.map Prod.fst

/-- A persistent field that nothing in a reset writes. -/
structure Field.SurvivesReset (f : Field) : Prop where
  persistent : f ∈ persistentFields
  quiet : f.quiet = true
  unwritten : ∀ g ∈ resetWrites, g.id ≠ f.id

theorem Field.SurvivesReset.not_alert {f : Field} (h : f.SurvivesReset) : ∀ p ∈ alertFields, p.1.id ≠ f.id :=
  fun _ hp => h.unwritten _ (List.mem_append_right _ (List.mem_map_of_mem hp))

/-- Such a field reads as before after a write of what a reset writes. -/
theorem Field.SurvivesReset.rd_wr {f g : Field} {i v : Nat} {s : State} (h : f.SurvivesReset) (hi : i < 65536)
    (hg : g ∈ resetWrites) : (s.wr g 0 v).rd f i = s.rd f i :=
  State.rd_wr_other (by decide) hi (.inl (h.unwritten g hg))

/-- The replacement of rows on the repair list (R466) writes its two counts alone. -/
theorem State.rd_applyRows {s : State} {f : Field} {i : Nat} (h : f.SurvivesReset) (hi : i < 65536) :
    s.applyRows.rd f i = s.rd f i :=
  s.applyRows_keeps (fun u => u.rd f i)
    (fun _ _ => h.rd_wr hi (g := fDRN_HISTORY_TOTAL_TOTAL) (by decide))
    (fun _ _ => h.rd_wr hi (g := fDRN_SRAM_APPLIED) (by decide))

theorem State.rd_reefAgain_running {s : State} {f : Field} {i : Nat} (hr : s.clocked = true) (h : f.SurvivesReset)
    (hi : i < 65536) : s.reefAgain.rd f i = s.rd f i := by
  have hnow : s.reefNow = s.reefAgain := if_pos hr
  rw [← hnow]
  exact State.rd_reefNow hi h.quiet (h.unwritten _ (by decide)) (h.unwritten _ (by decide))

@[simp] theorem State.rd_newDeviceKey (s : State) (f : Field) (i : Nat) : s.newDeviceKey.rd f i = s.rd f i := rfl

@[simp] theorem State.rd_shutDrives (s : State) (shn : Nat) (f : Field) (i : Nat) :
    (s.shutDrives shn).rd f i = s.rd f i := by
  unfold State.shutDrives
  exact foldl_keeps (fun u => u.rd f i) (fun u p => u.emit (.driveShutdown p shn)) (fun u _ => u.rd_emit _ f i) _ s

theorem State.rd_warmClear {s : State} {f : Field} {i : Nat} (h : f.SurvivesReset) (hi : i < 65536) :
    s.warmClear.rd f i = s.rd f i := by
  unfold State.warmClear
  rw [State.rd_newDeviceKey, State.rd_applyRows h hi]
  exact s.rd_mainReset s.clk.tsu (List.mem_append_left _ h.persistent) hi

theorem State.rd_coldReset {s : State} {f : Field} {i : Nat} (h : f.SurvivesReset) (hi : i < 65536) :
    s.coldReset.rd f i = s.rd f i := by
  unfold State.coldReset
  rw [State.rd_alertsAgain hi h.quiet h.not_alert, State.rd_newDeviceKey]
  refine (State.rd_applyRows h hi).trans ?_
  rw [State.bumpSat, h.rd_wr hi (by decide), h.rd_wr hi (by decide), s.rd_mainReset 0 h.persistent hi]

theorem State.rd_resetRelease {s : State} {f : Field} {i : Nat} (h : f.SurvivesReset) (hi : i < 65536) :
    s.resetRelease.rd f i = s.rd f i := by
  unfold State.resetRelease State.releaseEvent
  rw [State.rd_alertsAgain hi h.quiet h.not_alert, State.rd_record hi h.quiet, State.rd_reefAgain_running rfl h hi]
  refine (State.rd_warmClear h hi).trans ?_
  exact State.rd_shutDrives s.drawn 1 f i

/-- What the effect of a command leaves of a field, the command leaves, whether or not its condition holds. -/
theorem rd_of_enabled {c : Bool} {F : State → State} {s t : State} {f : Field} {i : Nat} (e : enabled c F s = .next t)
    (h : (F s).rd f i = s.rd f i) : t.rd f i = s.rd f i := by
  cases c with
  | false => rw [enabled_off rfl] at e; cases e; rfl
  | true => rw [enabled_on rfl] at e; cases e; exact h

/-- The wear counters of R468. -/
def wearCounters : List Field :=
  [fDRN_TILE_WEAR_CORRECTED, fDRN_TILE_WEAR_UNCORR, fDRN_TILE_WEAR_RETIRED, fDRN_STACK_PPR_USED,
   fDRN_STACK_UNREPAIRABLE, fDRN_LINK_GROUP_SWAPPED, fDRN_LINK_DEGRADED, fAMU_BANK_FALSE_HITS, fAMU_BANK_SCRUB_FIXED,
   fMGL_ENGINE_VERIFY_FAILS]

theorem wearCounters_surviveReset : ∀ f ∈ wearCounters, f.SurvivesReset := by
  have persistent : ∀ f ∈ wearCounters, f ∈ persistentFields := by decide
  have quiet : ∀ f ∈ wearCounters, f.quiet = true := by decide
  have unwritten : ∀ f ∈ wearCounters, ∀ g ∈ resetWrites, g.id ≠ f.id := by decide
  exact fun f hf => ⟨persistent f hf, quiet f hf, unwritten f hf⟩

/-- Settles O54: the wear counters are persistent fields, and nothing that a reset writes afterwards is one of them. -/
theorem wearKept : Obligations.WearKept := by
  intro s t e f hf i hi
  have h : f.SurvivesReset := wearCounters_surviveReset f hf
  obtain cold | warm := e
  · exact rd_of_enabled cold (State.rd_coldReset h hi)
  · exact rd_of_enabled warm (State.rd_resetRelease h hi)

/-! #### The state right after reset (R9, R41, R67, R71) -/

/-- A register store that holds nothing reads the reset value of every field (R9). -/
theorem State.rd_of_regs_nil {s : State} (h : s.regs = []) (f : Field) (i : Nat) : s.rd f i = f.resetAt i := by
  unfold State.rd; rw [h]; rfl

/-- Settles O55: registers, queues and digest slots are read from empty maps; the rest are the fields of the reset
state. -/
theorem resetState : Obligations.ResetState := by
  have regs : ∀ (f : Field) (i : Nat), State.reset.rd f i = f.resetAt i := State.rd_of_regs_nil rfl
  have queues : ∀ fn qid, State.reset.queue fn qid = none := fun _ _ => rfl
  have slots : ∀ fn sl, (State.reset.dslot fn sl).st = 0 := fun _ _ => rfl
  exact ⟨regs, rfl, rfl, rfl, rfl, rfl, rfl, rfl, rfl, rfl, rfl, rfl, rfl, rfl, queues, slots, rfl⟩

end Sys2Proof.Machine

/-!
### Architecture (spec/01_architecture.md): homes and reach

The home stacks of tiles and masts, and what no instruction of an operator core reaches.
-/

namespace Sys2Proof.Machine

/-! #### Home stacks (R13) -/

/-- Settles O49: the home of a tile is by definition that of its mast, and the masts of one home stack are those whose
number has the stack as its quotient by 4. -/
theorem mastHomes : Obligations.MastHomes := by
  refine ⟨fun t => rfl, fun m s => ?_⟩
  constructor
  · rintro rfl
    exact ⟨Nat.mul_div_le m 4, by omega⟩
  · rintro ⟨first, last⟩
    exact Nat.div_eq_of_lt_le (by omega) (by omega)

/-! #### The reach of an operator core (R19, R250, R258) -/

/-- A command that goes through the gate of the tiles reaches nothing outside the operator cores, whether or not its
condition holds. -/
theorem outsideCores_of_coreStep {b : Bool} {f : State → State} {s t : State} (e : coreStep b f s = .next t) :
    t = s.outsideCores t := by
  obtain ⟨u, answer, frame⟩ := coreStep_next b f s
  obtain rfl : u = t := Host.Outcome.next.inj (answer.symm.trans e)
  exact frame

/-- Settles O36: every command that carries an instruction word goes through the gate of the tiles. -/
theorem coresReachOnlyTheirSide : Obligations.CoresReachOnlyTheirSide := by
  intro c x s t word e
  obtain ⟨b, f, gate⟩ := exec_coreWord c s word
  exact outsideCores_of_coreStep (gate.symm.trans e)

end Sys2Proof.Machine

/-!
### Module power and pins (spec/02_module_power_and_pins.md): commands that take effect

Each command of the supplies, the reef, the resets, the drive ports and the sideband goes through a gate of
Machine/Ops.lean. A clause follows from three things: the gate, its condition, and what the effect is.
-/

namespace Sys2Proof.Machine

/-! #### From a gate to the next state -/

theorem leads_of_steady {c : Instr} {b : Bool} {f : State → State} {s u : State} (gate : exec c s = steady b f s)
    (met : b = true) (effect : s.kept (f s) = u) : Leads c s u := by
  rw [Leads, gate, steady_on met, effect]

theorem leads_of_enabled {c : Instr} {b : Bool} {f : State → State} {s u : State} (gate : exec c s = enabled b f s)
    (met : b = true) (effect : s.queued (f s) = u) : Leads c s u := by
  rw [Leads, gate, enabled_on met, effect]

theorem completes_of_steady {c : Instr} {b : Bool} {f : State → State} {s : State} {P : State → Prop}
    (gate : exec c s = steady b f s) (met : b = true) (effect : P (s.kept (f s))) : Completes c s P :=
  ⟨_, gate.trans (steady_on met), effect⟩

theorem completes_of_enabled {c : Instr} {b : Bool} {f : State → State} {s : State} {P : State → Prop}
    (gate : exec c s = enabled b f s) (met : b = true) (effect : P (s.queued (f s))) : Completes c s P :=
  ⟨_, gate.trans (enabled_on met), effect⟩

@[simp] theorem State.queued_board (s u : State) : (s.queued u).board = u.board := rfl
@[simp] theorem State.queued_clk (s u : State) : (s.queued u).clk = u.clk := rfl
@[simp] theorem State.queued_store (s u : State) : (s.queued u).store = u.store := rfl
@[simp] theorem State.queued_bsn (s u : State) : (s.queued u).bsn = u.bsn := rfl
@[simp] theorem State.queued_qmg (s u : State) : (s.queued u).qmg = u.qmg := rfl

/-! #### Refusals and stops (R45) -/

/-- Settles O34: a command above 80 V stops before its gate, every other one goes through a gate, and no gate answers
anything but a next state. -/
theorem onlyOvervoltageStops : Obligations.OnlyOvervoltageStops := by
  intro c s
  refine ⟨exec_overvoltage c s, fun below => ?_⟩
  obtain ⟨t, answer, -⟩ := exec_next c s below
  exact ⟨t, answer⟩

/-! #### Cold reset and stops (R33, R41 to R52, R71) -/

theorem State.coldReset_board (s : State) :
    s.coldReset.board = { s.board with phase := .unlocked, pwrGood := true, perstN := false, drvPerstN := 0 } := by
  simp only [State.coldReset, State.newDeviceKey, State.alertsAgain_board, State.drawn_board, State.applyRows_board]
  rfl

theorem State.coldReset_clk (s : State) :
    s.coldReset.clk = { Clocks.reset with now := s.clk.now, releaseAt := s.clk.now } := by
  simp only [State.coldReset, State.newDeviceKey, State.alertsAgain_clk, State.drawn_clk]

theorem State.coldReset_bsn (s : State) : s.coldReset.bsn = Bosun.reset := by
  simp only [State.coldReset, State.newDeviceKey, State.alertsAgain_bsn, State.drawn_bsn, State.applyRows_bsn]
  rfl

theorem State.coldReset_qmg (s : State) : s.coldReset.qmg = Qmg.reset := by
  simp only [State.coldReset, State.newDeviceKey, State.alertsAgain_qmg, State.drawn_qmg, State.applyRows_qmg]
  rfl

/-- A stop with no record to leave keeps the record of an earlier one. -/
theorem State.leaveNone_railsOff_powerLoss (s : State) (cause : Nat) :
    ((s.leaveRecord none).railsOff cause).store.powerLoss = s.store.powerLoss :=
  ((s.leaveRecord none).railsOff_keeps cause).1

/-- PWR_EN falls while the derived clocks run or the PLL has not locked yet: the orderly stop, all five steps (R50,
R57). -/
theorem State.pwrEnFall_timed {s : State} (h : s.board.phase ∈ [.run, .warm, .unlocked]) :
    s.pwrEnFall.board.phase = .off ∧ s.pwrEnFall.board.pwrGood = false ∧ s.pwrEnFall.board.pwrEn = false ∧
      s.pwrEnFall.board.stopLatch = 1 ∧ s.pwrEnFall.store.powerLoss.isSome = true ∧ s.pwrEnFall.store.lastStop = 1 := by
  have notStarting : s.board.phase ≠ .starting := by rintro e; simp [e] at h
  have notLost : ¬(s.board.phase = .pllLost ∨ s.board.phase = .pllFailed) := by rintro (e | e) <;> simp [e] at h
  have stop : ∃ (u : State) (a b : Nat), s.pwrEnFall = u.orderlyStop 1 5 a b ∧ u.board.pwrEn = false :=
    ⟨_, _, _, (if_neg notStarting).trans (if_neg notLost), rfl⟩
  obtain ⟨u, a, b, stop, low⟩ := stop
  obtain ⟨phase, good, latch, last⟩ := u.orderlyStop_off 1 5 a b
  rw [stop]
  exact ⟨phase, good, (u.orderlyStop_pwrEn 1 5 a b).trans low, latch,
    by rw [u.orderlyStop_record 1 5 a b (by decide)]; rfl, last⟩

/-- PWR_EN falls without derived clocks: the rails go off without a stop, and no record is left (R70). -/
theorem State.pwrEnFall_untimed {s : State} (h : s.board.phase ∈ [.pllLost, .pllFailed]) :
    s.pwrEnFall.board.phase = .off ∧ s.pwrEnFall.board.pwrGood = false ∧ s.pwrEnFall.board.pwrEn = false ∧
      s.pwrEnFall.board.stopLatch = 1 ∧ s.pwrEnFall.store.powerLoss = s.store.powerLoss ∧
      s.pwrEnFall.store.lastStop = 1 := by
  have lost : s.board.phase = .pllLost ∨ s.board.phase = .pllFailed := by simpa using h
  have notStarting : s.board.phase ≠ .starting := by rintro e; simp [e] at h
  have stop : ∃ u : State, s.pwrEnFall = u.railsOff 1 ∧ u.board.pwrEn = false ∧ u.store.powerLoss = s.store.powerLoss :=
    ⟨_, (if_neg notStarting).trans (if_pos lost), rfl, rfl⟩
  obtain ⟨u, stop, low, kept⟩ := stop
  obtain ⟨phase, good, latch, last⟩ := u.railsOff_off 1
  obtain ⟨record, _, pin, _, _⟩ := u.railsOff_keeps 1
  rw [stop]
  exact ⟨phase, good, pin.trans low, latch, record.trans kept, last⟩

theorem State.inputWatched_of {s : State} (h : s.board.phase ≠ .off) : s.inputWatched = true := by
  simp [State.inputWatched, h]

/-- Settles O1, clause by clause: each gate is met, and a stop ends with the rails off, with its record or without. -/
theorem supplyCommandsComplete : Obligations.SupplyCommandsComplete := by
  refine ⟨?_, ?_, ?_, ?_, ?_, ?_, ?_, ?_, ?_, ?_, ?_, ?_⟩
  · intro s auxMs mv lowMs removed off aux settled volts free
    exact leads_of_steady (show _ = execMainRailsStart auxMs mv lowMs removed s from rfl)
      (by simpa [off, aux, settled, volts, or_assoc] using free) rfl
  · intro s starting
    refine completes_of_enabled (show _ = execRailsUp s from rfl) (by simp [starting]) ?_
    simp [s.coldReset_board, s.coldReset_clk, s.coldReset_bsn, s.coldReset_qmg]
  · intro s mv on noFault volts
    exact leads_of_steady (show _ = execHoldupCharged mv s from rfl) (by simp [on, noFault, volts]) rfl
  · intro s celsius on hot
    obtain ⟨phase, good, latch, stop⟩ := (s.leaveRecord none).railsOff_off 3
    exact completes_of_enabled (show _ = execThermTrip celsius s from rfl) (by simp [on, hot])
      ⟨phase, good, rfl, latch, stop, s.leaveNone_railsOff_powerLoss 3⟩
  · intro s timed en
    have on : s.board.phase ≠ .off := by rintro off; simp [off] at timed
    exact completes_of_enabled (show _ = execPwrEnFall s from rfl) (by simp [on, en]) (State.pwrEnFall_timed timed)
  · intro s untimed en
    have on : s.board.phase ≠ .off := by rintro off; simp [off] at untimed
    exact completes_of_enabled (show _ = execPwrEnFall s from rfl) (by simp [on, en]) (State.pwrEnFall_untimed untimed)
  · intro s mv straps lost low high
    exact leads_of_steady (show _ = execAuxPowerUp mv straps s from rfl) (by simp [lost, low, high]) rfl
  · intro s mv aux good bad
    exact leads_of_steady (show _ = execAuxLoss mv s from rfl) (by simpa [aux, good, auxBad] using bad) rfl
  · intro s mv us on low high long
    exact leads_of_steady (show _ = execSupplyLow mv us s from rfl)
      (by simp [State.inputWatched_of on, low, high, long]) rfl
  · intro s mv us on low high long
    exact leads_of_steady (show execSupplyHigh mv us s = _ from if_neg (Nat.not_lt.mpr high))
      (by simp [State.inputWatched_of on, low, long]) rfl
  · intro s rail mv up good main
    exact leads_of_steady (show _ = execRailOutOfLimits rail mv s from rfl) (by simp [up, good, main]) rfl
  · intro s down aux
    exact completes_of_steady (show _ = execAuxSupplyRemoved s from rfl) (by simp [down, aux]) ⟨rfl, rfl, rfl, rfl, rfl⟩

end Sys2Proof.Machine

namespace Sys2Proof.Machine

/-! #### Input faults, surges, recovery and brown-out (R45 to R52) -/

/-- The response of R47: the switches, the time of the fault, the latched cause and the demand of SUPPLY_LOSS. -/
theorem State.inputFault_response (s : State) (mv : Nat) :
    (s.inputFault mv).board = { s.board with
        inputMv := mv, inputSwitch := false, holdupSwitch := true, faultAt := some s.clk.now, faultTs := s.clk.tsu,
        faultHoldup := s.board.holdupOk } ∧
      (s.inputFault mv).rd fPWR_ALERT_STATUS_SUPPLY_LOSS 0 = 1 ∧ (s.inputFault mv).demandSupply = 3 := by
  have board : (s.inputFault mv).board = _ := (State.reefNow_board _).trans (State.alert_board _ _)
  refine ⟨board, ?_, ?_⟩
  · rw [State.inputFault, State.rd_reefNow (by decide) (by decide) (by decide) (by decide),
      State.rd_alert_same (by decide)]
    rfl
  · rw [State.demandSupply, board]; rfl

@[simp] theorem State.queued_demandSupply (s u : State) : (s.queued u).demandSupply = u.demandSupply := rfl

/-- A surge that is too long, or comes too soon after one that was ridden through, is an input fault (R46). -/
theorem surge_fault {s : State} {us t0 : Nat}
    (h : 100 < us ∨ (s.board.surgeAt = some t0 ∧ s.clk.now < t0 + ticksOfMs 100)) :
    s.board.surgeAt.any (fun t => s.clk.now < t + ticksOfMs 100) = true ∨ 100 < us := by
  obtain long | ⟨before, soon⟩ := h
  · exact .inr long
  · exact .inl (any_within before soon)

/-- Settles O2, clause by clause: a surge is ridden through or answered as an input fault, and a brown-out is an orderly
stop whose steps depend on the bank. -/
theorem inputFaultCommandsComplete : Obligations.InputFaultCommandsComplete := by
  refine ⟨?_, ?_, ?_, ?_, ?_, ?_⟩
  · intro s mv us on noFault high bounded short rested
    have ridden : ¬(s.board.surgeAt.any (fun t => s.clk.now < t + ticksOfMs 100) = true ∨ 100 < us) := by
      simpa [any_recent rested] using short
    exact leads_of_enabled (show execSurge mv us s = _ from if_neg (Nat.not_lt.mpr bounded))
      (by simp [State.inputWatched_of on, noFault, high]) (congrArg s.queued (if_neg ridden))
  · intro s mv us t0 on noFault high bounded surge
    refine completes_of_enabled (show execSurge mv us s = _ from if_neg (Nat.not_lt.mpr bounded))
      (by simp [State.inputWatched_of on, noFault, high]) ?_
    rw [if_pos (surge_fault surge)]
    obtain ⟨board, alert, demand⟩ := s.inputFault_response mv
    simpa [board] using And.intro alert demand
  · intro s mv us on noFault outside
    have bounded : ¬80000 < mv := by omega
    refine completes_of_enabled (show execInputFault mv us s = _ from if_neg bounded) ?_ ?_
    · simp only [State.inputWatched_of on, noFault, Option.isNone_none, Bool.and_self, Bool.true_and, Bool.or_eq_true,
        Bool.and_eq_true, decide_eq_true_eq]
      omega
    obtain ⟨board, alert, demand⟩ := s.inputFault_response mv
    simpa [board] using And.intro alert demand
  · intro s mv us t0 on low high long holdup fault early
    refine completes_of_enabled (show _ = execInputRecovery mv us s from rfl)
      (by simp [State.inputWatched_of on, low, high, long, holdup, any_within fault early]) ?_
    simp only [State.queued_board, State.reefNow_board, State.drawn_board, Bool.and_eq_true, true_and]
    exact fun full => full.1
  · intro s t0 on holdup fault late
    refine completes_of_enabled (show _ = execBrownOut s from rfl)
      (by simp [State.inputWatched_of on, holdup, any_past fault late]) ?_
    have stop : s.brownOut = s.orderlyStop 2 5 s.board.faultTs s.clk.tsu := if_pos holdup
    obtain ⟨phase, good, latch, last⟩ := s.orderlyStop_off 2 5 s.board.faultTs s.clk.tsu
    rw [stop]
    exact ⟨phase, good, latch, last, s.orderlyStop_record 2 5 _ _ (by decide)⟩
  · intro s t0 on holdup fault
    refine completes_of_enabled (show _ = execBrownOut s from rfl)
      (by simp [State.inputWatched_of on, holdup, fault]) ?_
    have stop : ∃ (u : State) (cause steps a b : Nat), s.brownOut = u.orderlyStop cause steps a b :=
      ⟨_, _, _, _, _, if_neg (by simp [holdup])⟩
    obtain ⟨u, cause, steps, a, b, stop⟩ := stop
    obtain ⟨phase, good, -, -⟩ := u.orderlyStop_off cause steps a b
    rw [stop]
    exact ⟨phase, good⟩

end Sys2Proof.Machine

namespace Sys2Proof.Machine

/-! #### Droop, the throttle pin and the CCLK divider (R53, R54, R68, R450 to R457) -/

/-- What DROOP_SAMPLE does once its reading is written (R452, R457). -/
def State.droopSampled (s : State) (rail mv : Nat) : State :=
  let t := s.wr fPWR_RAIL_MILLIVOLTS rail mv
  if mv * 100 < s.railDroop rail then (t.railLow rail).reefAgain
  else
    match find t.board.droopRails rail with
    | none => t
    | some since =>
      if s.railGood rail mv then t.railRecovers rail since
      else { t with board := { t.board with droopRails := put t.board.droopRails rail 0 } }

theorem droopSample_leads {s u : State} {rail mv : Nat} (clocked : s.clocked = true) (main : rail < 6)
    (effect : s.droopSampled rail mv = u) : Leads (.droopSample rail mv) s (s.queued u) :=
  leads_of_enabled (show _ = execDroopSample rail mv s from rfl) (by simp [clocked, main])
    (congrArg s.queued effect)

section
variable {s : State} {rail mv : Nat}

theorem State.droopSampled_low (low : mv * 100 < s.railDroop rail) :
    s.droopSampled rail mv = ((s.wr fPWR_RAIL_MILLIVOLTS rail mv).railLow rail).reefAgain := if_pos low

/-- A reading that is not low leaves a rail without a part in the demand alone. -/
theorem State.droopSampled_free (high : s.railDroop rail ≤ mv * 100) (free : find s.board.droopRails rail = none) :
    s.droopSampled rail mv = s.wr fPWR_RAIL_MILLIVOLTS rail mv := by
  simp [State.droopSampled, Nat.not_lt.mpr high, free]

theorem State.droopSampled_between {since : Nat} (high : s.railDroop rail ≤ mv * 100)
    (part : find s.board.droopRails rail = some since) (bad : s.railGood rail mv = false) :
    s.droopSampled rail mv = { s.wr fPWR_RAIL_MILLIVOLTS rail mv with
      board := { s.board with droopRails := put s.board.droopRails rail 0 } } := by
  simp [State.droopSampled, Nat.not_lt.mpr high, part, bad]

theorem State.droopSampled_good {since : Nat} (high : s.railDroop rail ≤ mv * 100)
    (part : find s.board.droopRails rail = some since) (good : s.railGood rail mv = true) :
    s.droopSampled rail mv = (s.wr fPWR_RAIL_MILLIVOLTS rail mv).railRecovers rail since := by
  simp [State.droopSampled, Nat.not_lt.mpr high, part, good]

end

/-- The 10 µs of good readings have not passed, or have passed (R452). -/
theorem State.railRecovers_early {s : State} {rail since : Nat} (begun : 0 < since)
    (early : s.clk.now < since - 1 + ticksOfUs 10) : s.railRecovers rail since = s :=
  (if_neg begun.ne').trans (if_neg (Nat.not_le.mpr early))

theorem State.railRecovers_done {s : State} {rail since : Nat} (begun : 0 < since)
    (done : since - 1 + ticksOfUs 10 ≤ s.clk.now) :
    s.railRecovers rail since = ({ s with board := { s.board with
        droopRails := del s.board.droopRails rail,
        droopAt := if del s.board.droopRails rail = [] then none else s.board.droopAt } } : State).reefAgain :=
  (if_neg begun.ne').trans (if_pos done)

theorem throttleNFall_gate (s : State) (ns : Nat) :
    exec (.throttleNFall ns) s = enabled s.auheundOn (fun u =>
      let t := if 50 ≤ ns ∧ ns < 100 then u.drawn else u
      if 100 ≤ ns ∨ (50 ≤ ns ∧ s.free % 2 = 1) then
        ({ t with board := { t.board with throttleLow := true, throttleRise := none } } : State).reefNow
      else t) s := rfl

/-- More than `n` ticks have passed. -/
theorem any_longPast {o : Option Nat} {now n t0 : Nat} (h : o = some t0) (g : t0 + n < now) :
    o.any (fun t => decide (t + n < now)) = true := by
  subst h; exact decide_eq_true g

/-- Settles O3, clause by clause: the five things that a sample of a rail can mean, the pin, and the divider. -/
theorem reefCommandsComplete : Obligations.ReefCommandsComplete := by
  refine ⟨?_, ?_, ?_, ?_, ?_, ?_, ?_, ?_, ?_, ?_, ?_, ?_, ?_⟩
  · intro s rail mv clocked main low
    exact droopSample_leads clocked main (State.droopSampled_low low)
  · intro s rail mv clocked main high free
    exact droopSample_leads clocked main (State.droopSampled_free high free)
  · intro s rail mv since clocked main high part bad
    exact droopSample_leads clocked main (State.droopSampled_between high part bad)
  · intro s rail mv clocked main high part good
    exact droopSample_leads clocked main ((State.droopSampled_good high part good).trans (if_pos rfl))
  · intro s rail mv since clocked main high part begun good early
    exact droopSample_leads clocked main
      ((State.droopSampled_good high part good).trans (State.railRecovers_early begun early))
  · intro s rail mv since clocked main high part begun good done
    exact droopSample_leads clocked main
      ((State.droopSampled_good high part good).trans (State.railRecovers_done begun done))
  · intro s t0 clocked quiet droop late
    exact leads_of_steady (show _ = execDroopAlert s from rfl) (by simp [clocked, quiet, any_longPast droop late]) rfl
  · intro s ns on long
    refine leads_of_enabled (throttleNFall_gate s ns) on (congrArg s.queued ?_)
    have wide : ¬(50 ≤ ns ∧ ns < 100) := by omega
    simp only [if_neg wide, long, true_or, if_true]
  · intro s ns on short
    refine leads_of_enabled (throttleNFall_gate s ns) on ?_
    have narrow : ¬(50 ≤ ns ∧ ns < 100) ∧ ¬(100 ≤ ns ∨ (50 ≤ ns ∧ s.free % 2 = 1)) := by omega
    simp only [if_neg narrow.1, if_neg narrow.2]
    rfl
  · intro s ns on long short
    refine completes_of_enabled (throttleNFall_gate s ns) on ?_
    simp only [if_pos (And.intro long short)]
    split
    · exact .inl (State.reefNow_board _)
    · exact .inr rfl
  · intro s on low
    exact leads_of_steady (show _ = execThrottleNRise s from rfl) (by simp [on, low]) rfl
  · intro s t0 on rise held
    exact leads_of_enabled (show _ = execThrottleHoldEnd s from rfl) (by simp [on, any_past rise held]) rfl
  · intro s d clocked req boundary
    refine leads_of_enabled (show _ = execCclkDividerChange s from rfl) ?_ ?_
    · simp [clocked, Clocks.atBoundary, req, boundary]
    · simp [Clocks.divided, req]; rfl

end Sys2Proof.Machine

namespace Sys2Proof.Machine

/-! #### Loss of the PLL's lock (R70, R410) -/

/-- The device once the loss of lock is logged and reported, without a snapshot (R70). -/
def State.lockReported (s : State) : State :=
  (((((s.wr fMGT_RESET_CAUSE_FATAL_AUTO 0 1).writeLog 16 { s.entry 16 4 with unit := 0xFFFF }).noteClass 4 16).pageFault
    16).alert fPWR_ALERT_STATUS_DEVICE_FAULT).aer true

/-- The same once the digest contexts are cleared (R410). -/
def State.lockCleared (s : State) : State :=
  if s.lockReported.ready 12 then s.lockReported.clearContexts 3 else s.lockReported

theorem State.lockLost_phase (s : State) : s.lockLost.board.phase = .pllLost := rfl
theorem State.lockLost_store (s : State) : s.lockLost.store = s.lockCleared.store := rfl
theorem State.rd_lockLost (s : State) (f : Field) (i : Nat) : s.lockLost.rd f i = s.lockCleared.rd f i := rfl

/-- A corrected fault is logged and counted, and reported no further (R473). -/
theorem State.fault_corrected {s : State} {sub : Nat} {e : ErrEntry} (h : e.cls = 1) :
    s.fault sub e = (s.writeLog sub e).noteClass 1 e.source := by
  rw [State.fault_minor s sub e (by omega) (by omega) (by omega), h]

/-- Clearing the digest contexts is a corrected fault: it leaves no snapshot and no record. -/
theorem State.clearContexts_store (s : State) (cause : Nat) : (s.clearContexts cause).store = s.store := by
  unfold State.clearContexts
  dsimp only
  rw [State.fault_corrected rfl, State.noteClass_store, State.writeLog_store,
    State.bumpSat_store, State.wr_store]
  rfl

/-- The clear of a fatal error touches its cause and its count, and what a corrected fault touches. -/
theorem State.rd_clearContexts_fatal {s : State} {f : Field} {i : Nat} (hi : i < 65536) (q : f.quiet = true)
    (n : f.id ∉ [fERR_LOG_PTR_NEXT, fERR_LOG_PTR_WRAPPED, fERR_COUNT_COUNT, fMGT_FAULT_STATUS_FIRST_SOURCE,
      fMGT_FAULT_STATUS_WORST, fMGT_FAULT_STATUS_CONTAINED, fDGE_CLEAR_CAUSE_ALARM_FATAL,
      fDGE_CLEAR_CAUSE_COUNT].map Field.id) : (s.clearContexts 3).rd f i = s.rd f i := by
  simp only [List.map_cons, List.map_nil, List.mem_cons, List.not_mem_nil, or_false, not_or] at n
  obtain ⟨next, wrapped, count, first, worst, contained, cause, clears⟩ := n
  unfold State.clearContexts
  dsimp only
  rw [State.fault_corrected rfl, State.rd_noteClass_of hi first worst contained,
    State.rd_writeLog (by decide) hi q next wrapped count, State.bumpSat,
    State.rd_wr_other (by decide) hi (.inl (Ne.symm clears))]
  exact State.rd_wr_other (by decide) hi (.inl (Ne.symm cause))

theorem State.lockReported_store (s : State) : s.lockReported.store = s.store := by
  simp [State.lockReported]

theorem State.lockCleared_store (s : State) : s.lockCleared.store = s.store := by
  unfold State.lockCleared
  split
  · rw [State.clearContexts_store, State.lockReported_store]
  · exact s.lockReported_store

theorem State.lockCleared_fatalAuto (s : State) : s.lockCleared.rd fMGT_RESET_CAUSE_FATAL_AUTO 0 = 1 := by
  have reported : s.lockReported.rd fMGT_RESET_CAUSE_FATAL_AUTO 0 = 1 := by
    rw [State.lockReported, State.rd_aer, State.rd_alert_other (by decide) (by decide) (by decide),
      State.rd_pageFault (by decide) (by decide) (by decide), State.rd_noteClass (by decide) (by decide),
      State.rd_writeLog (by decide) (by decide) (by decide) (by decide) (by decide) (by decide), State.rd_wr_same]
    rfl
  unfold State.lockCleared
  split
  · rw [State.rd_clearContexts_fatal (by decide) (by decide) (by decide), reported]
  · exact reported

theorem State.lockCleared_deviceFault (s : State) : s.lockCleared.rd fPWR_ALERT_STATUS_DEVICE_FAULT 0 = 1 := by
  have reported : s.lockReported.rd fPWR_ALERT_STATUS_DEVICE_FAULT 0 = 1 := by
    rw [State.lockReported, State.rd_aer, State.rd_alert_same (by decide)]; rfl
  unfold State.lockCleared
  split
  · rw [State.rd_clearContexts_fatal (by decide) (by decide) (by decide), reported]
  · exact reported

/-! #### Reset conditions of the host link (R73, R77) -/

theorem State.startWarm_merged {s : State} (cause : Field) (h : s.board.phase = .warm) :
    (s.startWarm cause).clk = { s.clk with held := true } := by
  rw [State.startWarm, if_pos h]; rfl

theorem State.warm_of_clocked {s : State} (h : s.board.phase = .warm) : s.clocked = true := by simp [State.clocked, h]

theorem State.clocked_of_running {s : State} (h : s.running = true) : s.clocked = true := by simp [State.clocked, h]

theorem State.railsUp_of_running {s : State} (h : s.running = true) : s.railsUp = true := by
  have run : s.board.phase = .run := by simpa [State.running] using h
  simp [State.railsUp, run]

theorem State.not_warm_of_running {s : State} (h : s.running = true) : s.board.phase ≠ .warm := by
  have run : s.board.phase = .run := by simpa [State.running] using h
  simp [run]

theorem State.running_of_reaches {s : State} {fn : Nat} (h : s.reaches fn = true) : s.running = true := by
  simp only [State.reaches, State.live, Bool.and_eq_true] at h
  exact h.1.1.1.1

@[simp] theorem State.dropLink_board (s : State) : s.dropLink.board = s.board := rfl

/-- A hot reset and a link down start a warm reset with the link down, or merge with the one in progress. -/
theorem State.linkReset_warm (s : State) :
    (s.startWarm fMGT_RESET_CAUSE_HOT_RESET).dropLink.board.phase = .warm ∧
      (s.startWarm fMGT_RESET_CAUSE_HOT_RESET).dropLink.hif.linkUp = false ∧
      (s.startWarm fMGT_RESET_CAUSE_HOT_RESET).dropLink.rd fMGT_RESET_CAUSE_HOT_RESET 0 = 1 :=
  ⟨s.startWarm_phase _, rfl, s.startWarm_cause _⟩

theorem State.linkReset_new {s : State} (h : s.running = true) :
    (s.startWarm fMGT_RESET_CAUSE_HOT_RESET).dropLink.clk.warmAt = s.clk.tsu ∧
      (s.startWarm fMGT_RESET_CAUSE_HOT_RESET).dropLink.clk.held = false :=
  (s.startWarm_new _ (State.not_warm_of_running h)).2

theorem State.linkReset_merged {s : State} (h : s.board.phase = .warm) :
    (s.startWarm fMGT_RESET_CAUSE_HOT_RESET).dropLink.clk = { s.clk with held := true } := State.startWarm_merged _ h

/-! #### The release of a warm reset (R71, R74) -/

theorem State.warmClear_board (s : State) : s.warmClear.board = { s.board with drvPerstN := 0 } := by
  simp only [State.warmClear, State.newDeviceKey, State.drawn_board, State.applyRows_board]
  rfl

theorem State.warmClear_store (s : State) : s.warmClear.store = s.store := by
  simp only [State.warmClear, State.newDeviceKey, State.drawn_store, State.applyRows_store]
  rfl

theorem State.warmClear_bsn (s : State) : s.warmClear.bsn = Bosun.reset := by
  simp only [State.warmClear, State.newDeviceKey, State.drawn_bsn, State.applyRows_bsn]
  rfl

theorem State.warmClear_qmg (s : State) : s.warmClear.qmg = Qmg.reset := by
  simp only [State.warmClear, State.newDeviceKey, State.drawn_qmg, State.applyRows_qmg]
  rfl

@[simp] theorem State.reefAgain_releaseAt (s : State) : s.reefAgain.clk.releaseAt = s.clk.releaseAt := by
  obtain h | ⟨l, n, h⟩ := s.reefAgain_clk <;> rw [h]

theorem State.requestDiv_frame (s : State) (d : Nat) :
    (s.requestDiv d).board = s.board ∧ (s.requestDiv d).store = s.store ∧ (s.requestDiv d).bsn = s.bsn ∧
      (s.requestDiv d).qmg = s.qmg ∧ (s.requestDiv d).clk.assembled = s.clk.assembled ∧
      (s.requestDiv d).clk.releaseAt = s.clk.releaseAt ∧ (s.requestDiv d).clk.tsu = s.clk.tsu :=
  ⟨rfl, rfl, rfl, rfl, rfl, rfl, rfl⟩

theorem State.resetRelease_released (s : State) :
    s.resetRelease.board.phase = .run ∧ s.resetRelease.board.drvPerstN = 0 ∧ s.resetRelease.clk.assembled = false ∧
      s.resetRelease.clk.releaseAt = s.clk.now ∧ s.resetRelease.clk.tsu = s.clk.tsu ∧
      s.resetRelease.store.resetRec.isSome = true ∧ s.resetRelease.bsn = Bosun.reset ∧
      s.resetRelease.qmg = Qmg.reset := by
  simp [State.resetRelease, State.releaseEvent, State.requestDiv_frame, State.warmClear_board, State.warmClear_store,
    State.warmClear_bsn, State.warmClear_qmg]

/-- Settles O4, clause by clause: losing and regaining the lock, the reset conditions, each new or merged, and the
release. -/
theorem resetCommandsComplete : Obligations.ResetCommandsComplete := by
  refine ⟨?_, ?_, ?_, ?_, ?_, ?_, ?_, ?_, ?_, ?_, ?_, ?_, ?_, ?_, ?_, ?_⟩
  · intro s unlocked
    exact leads_of_enabled (show _ = execPllLock s from rfl) (by simp [unlocked]) rfl
  · intro s clocked
    refine completes_of_enabled (show _ = execPllLockLoss s from rfl) clocked ?_
    simp [State.lockLost_phase, State.lockLost_store, State.lockCleared_store, State.rd_lockLost,
      State.lockCleared_fatalAuto, State.lockCleared_deviceFault, State.lockLost_clk]
  · intro s lost early
    have inTime : s.lockGone = false := decide_eq_false (Nat.not_le.mpr early)
    exact leads_of_enabled (show _ = execPllRelock s from rfl) (by simp [lost, inTime]) rfl
  · intro s lost late
    have gone : s.lockGone = true := decide_eq_true late
    exact leads_of_steady (show _ = execPllRelockTimeout s from rfl) (by simp [lost, gone]) rfl
  · intro s up high clocked
    refine completes_of_enabled (show _ = execPerstNLow s from rfl) (by simp [up, high]) ?_
    have warm : s.perstLow = (({ s with board := { s.board with perstN := false, drvPerstN := 0 } } : State).startWarm
      fMGT_RESET_CAUSE_PERST).dropLink := if_pos clocked
    rw [warm]
    have board := State.startWarm_board ({ s with board := { s.board with perstN := false, drvPerstN := 0 } } : State)
      fMGT_RESET_CAUSE_PERST
    exact ⟨by simp [board], by simp [board], rfl, State.startWarm_phase _ _, State.startWarm_cause _ _⟩
  · intro s up high unclocked
    refine completes_of_enabled (show _ = execPerstNLow s from rfl) (by simp [up, high]) ?_
    have plain : s.perstLow = ({ s with board := { s.board with perstN := false, drvPerstN := 0 } } : State).dropLink :=
      if_neg (by simp [unclocked])
    rw [plain]
    exact ⟨rfl, rfl⟩
  · intro s up good low held
    exact leads_of_enabled (show _ = execPerstNRise s from rfl) (by simp [up, good, low])
      (congrArg s.queued (if_neg (by simp [held])))
  · intro s running good low held
    refine leads_of_enabled (show _ = execPerstNRise s from rfl)
      (by simp [State.railsUp_of_running running, good, low]) ?_
    simp only [State.perstRise, held, running, if_true]
    rfl
  · intro s up idle good low held
    refine leads_of_enabled (show _ = execPerstNRise s from rfl) (by simp [up, good, low]) ?_
    simp only [State.perstRise, held, idle, if_true]
    rfl
  · intro s running good link
    obtain ⟨phase, down, cause⟩ := s.linkReset_warm
    exact completes_of_enabled (show _ = execHotReset s from rfl) (by simp [State.clocked_of_running running, good, link])
      ⟨phase, down, cause, State.linkReset_new running⟩
  · intro s warm good link
    obtain ⟨phase, down, cause⟩ := s.linkReset_warm
    exact completes_of_enabled (show _ = execHotReset s from rfl) (by simp [State.warm_of_clocked warm, good, link])
      ⟨phase, down, cause, State.linkReset_merged warm⟩
  · intro s running link
    obtain ⟨phase, down, cause⟩ := s.linkReset_warm
    exact completes_of_enabled (show _ = execLinkDown s from rfl) (by simp [State.clocked_of_running running, link])
      ⟨phase, down, cause, State.linkReset_new running⟩
  · intro s warm link
    obtain ⟨phase, down, cause⟩ := s.linkReset_warm
    exact completes_of_enabled (show _ = execLinkDown s from rfl) (by simp [State.warm_of_clocked warm, link])
      ⟨phase, down, cause, State.linkReset_merged warm⟩
  · intro s key reach ready keyed
    refine completes_of_enabled (show _ = execMgtWarmReset key s from rfl) (by simp [reach, ready]) ?_
    have warm : (s.atRegion 16 0xA8).writeWarmReset (lowBits 16 key) =
      (s.atRegion 16 0xA8).startWarm fMGT_RESET_CAUSE_WARM_REG := if_pos keyed
    rw [warm]
    exact ⟨State.startWarm_phase _ _, State.startWarm_cause _ _⟩
  · intro s key reach ready other
    exact leads_of_enabled (show _ = execMgtWarmReset key s from rfl) (by simp [reach, ready])
      (congrArg s.queued (if_neg other))
  · intro s warm quiet
    exact completes_of_enabled (show _ = execResetRelease s from rfl) (by simp [warm, quiet])
      (by simpa using s.resetRelease_released)

end Sys2Proof.Machine

namespace Sys2Proof.Machine

/-! #### Drive ports (R58, R63, R390, R391) -/

@[simp] theorem State.setPort_board (s : State) (p st : Nat) : (s.setPort p st).board = s.board := by
  unfold State.setPort
  split
  · rfl
  · simp

section
variable {s : State} {p : Nat}

theorem State.driveInsertion_trains (running : s.running = true) (ready : s.ready 11 = true)
    (inUse : s.rd fDSP_PORT_DISABLE p = 0) (due : s.drvReleaseAt p ≤ s.clk.now) (high : s.board.perstN = true) :
    s.driveInsertion p =
      (({ s with board := { s.board with drvPresent := withBit s.board.drvPresent p } } : State).drvPerst p true).setPort
        p 1 :=
  (if_pos ⟨running, ready, inUse, due⟩).trans (if_pos high)

/-- Where one of the conditions fails, PERST_N among them, the drive waits (R58, R391). -/
theorem State.driveInsertion_waits
    (held : ¬(s.running = true ∧ s.ready 11 = true ∧ s.rd fDSP_PORT_DISABLE p = 0 ∧ s.drvReleaseAt p ≤ s.clk.now ∧
      s.board.perstN = true)) :
    s.driveInsertion p = { s with board := { s.board with drvPresent := withBit s.board.drvPresent p } } := by
  by_cases due : s.running = true ∧ s.ready 11 = true ∧ s.rd fDSP_PORT_DISABLE p = 0 ∧ s.drvReleaseAt p ≤ s.clk.now
  · obtain ⟨running, ready, inUse, time⟩ := due
    exact (if_pos ⟨running, ready, inUse, time⟩).trans (if_neg fun high => held ⟨running, ready, inUse, time, high⟩)
  · exact if_neg due

theorem State.enablePort_present (disabled : s.rd fDSP_PORT_DISABLE p ≠ 0) (here : s.drvHere p = true) :
    s.enablePort p = ((s.wr fDSP_PORT_DISABLE p 0).setPort p 0).trainArrived p := by
  have still : ((s.wr fDSP_PORT_DISABLE p 0).setPort p 0).drvHere p = true := by
    rw [State.drvHere, State.setPort_board]; exact here
  exact (if_neg disabled).trans (if_pos still)

theorem State.enablePort_absent (disabled : s.rd fDSP_PORT_DISABLE p ≠ 0) (gone : s.drvHere p = false) :
    s.enablePort p = (s.wr fDSP_PORT_DISABLE p 0).setPort p 0 := by
  have still : ((s.wr fDSP_PORT_DISABLE p 0).setPort p 0).drvHere p = false := by
    rw [State.drvHere, State.setPort_board]; exact gone
  exact (if_neg disabled).trans (if_neg (by simp [still]))

end

/-! #### DRIVE_ADMIN and FW_ACTIVATE (R394 to R397) -/

theorem driveAdmin_leads {s u : State} {e : Entry} (running : s.running = true) (qmg : s.ready 2 = true)
    (cvc : s.ready 10 = true) (idle : s.cvc.admin = none) (next : s.adminNext 0 0x20 = some e)
    (effect : s.driveAdmin = u) : Leads .driveAdmin s (s.kept u) :=
  leads_of_steady (show _ = execDriveAdmin s from rfl) (by simp [State.adminReady_of running qmg next, cvc, idle])
    (congrArg s.kept effect)

/-- An FW_ACTIVATE is in progress, or one is next in its queue. -/
theorem fwActivate_leads {s u : State} {ok : Nat} (running : s.running = true) (qmg : s.ready 2 = true)
    (cvc : s.ready 10 = true) (job : s.cvc.fw.isSome = true ∨ (s.adminNext 0 0x21).isSome = true)
    (effect : s.fwActivate ok = u) : Leads (.fwActivate ok) s (s.kept u) :=
  leads_of_steady (show _ = execFwActivate ok s from rfl) (by simpa [running, qmg, cvc] using job)
    (congrArg s.kept effect)

/-- While a command that the activation ends is still in CVC, the activation goes no further (R397). -/
theorem State.fwActivate_waits {s : State} {ok : Nat} (job : s.cvc.fw ≠ none) (waits : s.fwWaits = true) :
    s.fwActivate ok = s := by
  obtain ⟨j, hj⟩ := Option.ne_none_iff_exists'.mp job
  simp [State.fwActivate, hj, waits]

/-! #### Power states (R398, R399) -/

/-- In PS4 each drive is told the deepest power state that it has (R399). -/
theorem State.psEntry_deepest (s : State) :
    s.psEntry 4 = (List.range 8).foldl (fun (u : State) p => u.drivePs p (u.drive p).deepState)
      (s.wr fCVC_PS_STATUS_STATE 0 4) := rfl

/-- Settles O15, clause by clause: the ports, the two admin commands that reach drives, and the power states. -/
theorem driveCommandsComplete : Obligations.DriveCommandsComplete := by
  refine ⟨?_, ?_, ?_, ?_, ?_, ?_, ?_, ?_, ?_, ?_, ?_, ?_, ?_, ?_, ?_, ?_, ?_, ?_, ?_, ?_, ?_⟩
  · intro s p port here running
    exact leads_of_steady (show _ = execDriveRemoval p s from rfl) (by simp [port, here])
      (congrArg s.kept (if_pos running))
  · intro s p port here stopped
    exact leads_of_steady (show _ = execDriveRemoval p s from rfl) (by simp [port, here])
      (congrArg s.kept (if_neg (ne_true_of_eq_false stopped)))
  · intro s p port absent running ready inUse due high
    exact leads_of_steady (show _ = execDriveInsertion p s from rfl) (by simp [port, absent])
      (congrArg s.kept (State.driveInsertion_trains running ready inUse due high))
  · intro s p port absent held
    exact leads_of_steady (show _ = execDriveInsertion p s from rfl) (by simp [port, absent])
      (congrArg s.kept (State.driveInsertion_waits held))
  · rintro s p d reach ready port rfl up
    exact leads_of_steady (show _ = execRetrain p s from rfl) (by simp [reach, ready, port])
      (congrArg s.kept (if_pos up))
  · rintro s p d reach ready port rfl down
    exact leads_of_steady (show _ = execRetrain p s from rfl) (by simp [reach, ready, port])
      (congrArg s.kept (if_neg (ne_true_of_eq_false down)))
  · rintro s p d reach ready port rfl inUse
    exact leads_of_steady (show _ = execDisable p s from rfl) (by simp [reach, ready, port])
      (congrArg s.kept (if_neg inUse))
  · rintro s p d reach ready port rfl disabled
    exact leads_of_steady (show _ = execDisable p s from rfl) (by simp [reach, ready, port])
      (congrArg s.kept (if_pos disabled))
  · rintro s p d reach ready port rfl disabled here
    exact leads_of_steady (show _ = execDisableClear p s from rfl) (by simp [reach, ready, port])
      (congrArg s.kept (State.enablePort_present disabled here))
  · rintro s p d reach ready port rfl disabled gone
    exact leads_of_steady (show _ = execDisableClear p s from rfl) (by simp [reach, ready, port])
      (congrArg s.kept (State.enablePort_absent disabled gone))
  · rintro s p d reach ready port rfl inUse
    exact leads_of_steady (show _ = execDisableClear p s from rfl) (by simp [reach, ready, port])
      (congrArg s.kept (if_pos inUse))
  · intro s e x running qmg cvc idle next error
    exact driveAdmin_leads running qmg cvc idle next (by simp only [State.driveAdmin, next, error])
  · intro s e running qmg cvc idle next accepted
    exact driveAdmin_leads running qmg cvc idle next (by simp only [State.driveAdmin, next, accepted])
  · intro s ok e running qmg cvc idle next
    exact fwActivate_leads running qmg cvc (.inr (by simp [next])) (by simp only [State.fwActivate, idle, next])
  · intro s ok j running qmg cvc job free
    exact fwActivate_leads running qmg cvc (.inl (by simp [job])) (by simp [State.fwActivate, job, free])
  · intro s ok running qmg cvc job waits
    exact fwActivate_leads running qmg cvc (.inl (Option.isSome_iff_ne_none.mpr job)) (State.fwActivate_waits job waits)
  · intro s n running cvc may shallow
    exact leads_of_steady (show _ = execPsEntry n s from rfl) (by simp [running, cvc, may])
      (congrArg s.kept (if_neg shallow))
  · intro s running cvc may
    exact leads_of_steady (show _ = execPsEntry 4 s from rfl) (by simp [running, cvc, may])
      (congrArg s.kept s.psEntry_deepest)
  · intro s running woken
    exact leads_of_steady (show _ = execPsWake s from rfl) (by simp [running, woken]) rfl
  · rintro s t u running waking shallow rfl rfl
    exact leads_of_steady (show _ = execPsExit s from rfl) (by simp [running, waking])
      (congrArg s.kept (if_neg shallow))
  · rintro s t u running waking deep rfl rfl
    exact leads_of_steady (show _ = execPsExit s from rfl) (by simp [running, waking])
      (congrArg s.kept (if_pos deep))

end Sys2Proof.Machine

namespace Sys2Proof.Machine

/-! #### Records and the sideband (R484 to R486) -/

/-- Settles O20, clause by clause: what a record's clearing and each answer of Auheund leave. -/
theorem sidebandCommandsComplete : Obligations.SidebandCommandsComplete := by
  refine ⟨?_, ?_, ?_, ?_, ?_, ?_, ?_, ?_, ?_, ?_, ?_, ?_, ?_, ?_, ?_, ?_, ?_, ?_, ?_⟩
  · rintro s d reach ready rfl free
    exact leads_of_steady (show _ = execSnapCtrlClear s from rfl) (by simp [reach, ready])
      (congrArg s.kept (if_neg free))
  · rintro s d reach ready rfl preserved
    exact leads_of_steady (show _ = execSnapCtrlClear s from rfl) (by simp [reach, ready])
      (congrArg s.kept (if_pos preserved))
  · rintro s d reach ready rfl
    exact leads_of_steady (show _ = execClearRecords s from rfl) (by simp [reach, ready]) rfl
  · intro s on
    exact leads_of_steady (show _ = execGetHealth s from rfl) on rfl
  · intro s sub on first last up
    exact leads_of_steady (show _ = execReadLog sub s from rfl) (by simp [on, first, last])
      (congrArg s.kept (if_pos up))
  · intro s sub on first last down
    exact leads_of_steady (show _ = execReadLog sub s from rfl) (by simp [on, first, last])
      (congrArg s.kept (if_neg (ne_true_of_eq_false down)))
  · intro s kind page on known
    exact leads_of_steady (show _ = execReadRecord kind page s from rfl) (by simp [on, known]) rfl
  · intro s on
    exact leads_of_steady (show _ = execClearSnapshot s from rfl) on rfl
  · intro s on clocked
    exact leads_of_enabled (show _ = execWarmReset s from rfl) on (congrArg s.queued (if_pos clocked))
  · intro s on clocked
    refine completes_of_enabled (show _ = execWarmReset s from rfl) on ?_
    have warm : s.sidebandReset = (s.answer 0x05 []).startWarm fMGT_RESET_CAUSE_WARM_SIDEBAND := if_pos clocked
    rw [warm]
    exact ⟨State.startWarm_phase _ _, State.startWarm_cause _ _⟩
  · intro s on stopped
    exact leads_of_enabled (show _ = execWarmReset s from rfl) on
      (congrArg s.queued (if_neg (ne_true_of_eq_false stopped)))
  · intro s first on known
    exact leads_of_steady (show _ = execReadIdentity first s from rfl) (by simp [on, known]) rfl
  · intro s preserve on
    exact leads_of_steady (show _ = execSetPreserve preserve s from rfl) on rfl
  · intro s req on
    exact leads_of_steady (show _ = execMctpControlMessage req s from rfl) on rfl
  · rintro s req u on rfl
    exact leads_of_steady (show _ = execPldmMessage req s from rfl) on rfl
  · intro s req on
    exact leads_of_steady (show _ = execSpdmMessage req s from rfl) on rfl
  · intro s on silent
    have unreported : ¬(s.health ≠ s.store.health ∧ s.store.eventsOn = true) := by
      rintro ⟨changed, events⟩
      obtain same | off := silent
      · exact changed same
      · exact ne_true_of_eq_false off events
    exact leads_of_steady (show _ = execSensorRefresh s from rfl) on (congrArg s.kept (if_neg unreported))
  · intro s on changed events
    exact leads_of_steady (show _ = execSensorRefresh s from rfl) on
      (congrArg s.kept (if_pos (And.intro changed events)))
  · intro s a reach ok
    exact leads_of_steady (show _ = execRegisterRead a s from rfl) (by simp [reach, ok]) rfl

end Sys2Proof.Machine

/-!
### Clocks, reset and bring-up (spec/03_clocks_reset_bringup.md): the clock root

What a tick counts, which commands reach the clock root, and that every step keeps it legal.
-/

namespace Sys2Proof.Machine

/-! #### The clock root (R66, R68, R436, R449) -/

/-- Settles O41: the divider of level OPEN is in force, none is requested, and the TSU count is 0. -/
theorem clockLegalAtReset : Obligations.ClockLegalAtReset := Clocks.reset_legal

/-- Settles O35: a command outside the named families goes through a gate that puts the clock root back. -/
theorem clockRootKept : Obligations.ClockRootKept := fun c s _ other e => exec_clk c s other e

/-- Settles O32: an empty queue makes the step a tick, which counts between two boundaries and at one, or waits. -/
theorem idleStepIsTick : Obligations.IdleStepIsTick := by
  intro s idle
  have step_tick : step s = .next s.tick := by rw [step, idle]
  refine ⟨s.tick, step_tick, s.tick_pending.trans idle, fun clocked between => ?_, fun clocked boundary => ?_,
    fun stopped => ?_⟩
  · rw [s.tick_clk clocked, Clocks.counted_between between]
  · rw [s.tick_clk clocked, Clocks.counted, if_pos boundary]
    rfl
  · exact State.tick_still stopped

theorem State.linkReset_legal {s : State} (h : s.clk.Legal) :
    (s.startWarm fMGT_RESET_CAUSE_HOT_RESET).dropLink.clk.Legal := State.startWarm_legal h _

theorem State.sidebandReset_legal {s : State} (h : s.clk.Legal) : s.sidebandReset.clk.Legal := by
  unfold State.sidebandReset
  split
  · exact State.startWarm_legal (s := s.answer 0x05 []) h _
  · exact h

/-- A surge is an input fault, or is noted by the board (R46). -/
theorem execSurge_legal {s t : State} (h : s.clk.Legal) (mv us : Nat) (e : execSurge mv us s = .next t) :
    t.clk.Legal := by
  unfold execSurge at e
  split at e
  · cases e
  · refine enabled_legal h e ?_
    split
    · exact State.inputFault_legal h mv
    · exact h

theorem execInputFault_legal {s t : State} (h : s.clk.Legal) (mv us : Nat) (e : execInputFault mv us s = .next t) :
    t.clk.Legal := by
  unfold execInputFault at e
  split at e
  · cases e
  · exact enabled_legal h e (State.inputFault_legal h mv)

theorem execRegisterWrite_legal {s t : State} (h : s.clk.Legal) (a : Access) (v : Nat)
    (e : execRegisterWrite a v s = .next t) : t.clk.Legal := by
  refine enabled_legal h e ?_
  split
  · rw [State.poisonedWrite, State.fault_clk]; exact h
  · exact State.busWrite_legal h a _

theorem State.lockLost_legal {s : State} (h : s.clk.Legal) : s.lockLost.clk.Legal := by
  rw [s.lockLost_clk]; exact h.keep rfl rfl rfl

theorem State.relock_legal {s : State} (h : s.clk.Legal) : s.relock.clk.Legal := by
  rw [s.relock_clk]; exact h.keep rfl rfl rfl

/-- The PLL locks: the levels are compared again, and the release is recorded (R67). -/
theorem State.locked_legal {s : State} (h : s.clk.Legal) :
    ({ s with board := { s.board with phase := .run } } : State).reefAgain.releaseEvent.clk.Legal := by
  rw [State.releaseEvent, State.record_clk]
  exact State.reefAgain_legal h

/-- Every command keeps the clock root legal. Of those that it sees, the commands of bring-up move only its notes, and
the others request the divider of a level, put the latest request in force, or reset the root. -/
theorem exec_legal (c : Instr) {s t : State} (h : s.clk.Legal) (e : exec c s = .next t) : t.clk.Legal := by
  cases seen : clockCommand c with
  | false => rw [exec_clk c s seen e]; exact h
  | true =>
  cases c
  case railsUp => exact enabled_legal h (show execRailsUp s = _ from e) s.coldReset_legal
  case thermTrip celsius => exact enabled_legal h (show execThermTrip celsius s = _ from e) (State.railsOff_legal _ 3)
  case pwrEnFall => exact execPwrEnFall_legal h e
  case surge mv us => exact execSurge_legal h mv us e
  case inputFault mv us => exact execInputFault_legal h mv us e
  case inputRecovery mv us => exact enabled_legal h (show execInputRecovery mv us s = _ from e) (State.reefNow_legal h)
  case brownOut => exact execBrownOut_legal h e
  case droopSample rail mv => exact execDroopSample_legal h rail mv e
  case throttleNFall ns => exact execThrottleNFall_legal h ns e
  case throttleHoldEnd => exact enabled_legal h (show execThrottleHoldEnd s = _ from e) (State.reefNow_legal h)
  case pllLock => exact enabled_legal h (show execPllLock s = _ from e) (State.locked_legal h)
  case pllLockLoss => exact enabled_legal h (show execPllLockLoss s = _ from e) (State.lockLost_legal h)
  case pllRelock => exact enabled_legal h (show execPllRelock s = _ from e) (State.relock_legal h)
  case cclkDividerChange => exact enabled_legal h (show execCclkDividerChange s = _ from e) h.divided
  case perstNLow => exact enabled_legal h (show execPerstNLow s = _ from e) (State.perstLow_legal h)
  case perstNRise => exact enabled_legal h (show execPerstNRise s = _ from e) (State.perstRise_legal h)
  case hotReset => exact enabled_legal h (show execHotReset s = _ from e) (State.linkReset_legal h)
  case linkDown => exact enabled_legal h (show execLinkDown s = _ from e) (State.linkReset_legal h)
  case mgtWarmReset key => exact enabled_legal h (show execMgtWarmReset key s = _ from e) (State.writeWarmReset_legal (s := s.atRegion 16 0xA8) h _)
  case resetRelease => exact execResetRelease_legal h e
  case mastReady m mask => exact paced_legal h (show execMastReady m mask s = _ from e)
  case mastTimeout m => exact paced_legal h (show execMastTimeout m s = _ from e)
  case stackTrained st => exact paced_legal h (show execStackTrained st s = _ from e)
  case stackTimeout st => exact paced_legal h (show execStackTimeout st s = _ from e)
  case driveEnumerated p i => exact paced_legal h (show execDriveEnumerated p i s = _ from e)
  case driveReadyTimeout p => exact paced_legal h (show execDriveReadyTimeout p s = _ from e)
  case volumeAssembly => exact paced_legal h (show execVolumeAssembly s = _ from e)
  case registerWrite a v => exact execRegisterWrite_legal h a v e
  case controllerWindowEnd dw mv uj => exact execControllerWindowEnd_legal h dw mv uj e
  case thermalSample die hbm => exact execThermalSample_legal h die hbm e
  case stepDown => exact enabled_legal h (show execStepDown s = _ from e) (State.reefAgain_legal (State.setLevel_legal h _))
  case pwrReefFloor level => exact enabled_legal h (show execPwrReefFloor level s = _ from e) (State.reefAgain_legal h)
  case warmReset => exact enabled_legal h (show execWarmReset s = _ from e) (State.sidebandReset_legal h)
  all_goals cases seen

/-- Settles O40: a step runs a command, or is a tick, and both keep the clock root legal. -/
theorem clockLegalKept : Obligations.ClockLegalKept := by
  intro s t h e
  unfold step at e
  split at e
  · cases e; exact State.tick_legal h
  · next c rest queue => exact exec_legal c (s := { s with pending := rest }) h e

end Sys2Proof.Machine

namespace Sys2Proof.Machine

/-! #### From a gate to the next state -/

theorem leads_of_paced {c : Instr} {b : Bool} {f : State → State} {s u : State} (gate : exec c s = paced b f s)
    (met : b = true) (effect : s.timed (f s) = u) : Leads c s u := by
  rw [Leads, gate, paced_on met, effect]

theorem completes_of_paced {c : Instr} {b : Bool} {f : State → State} {s : State} {P : State → Prop}
    (gate : exec c s = paced b f s) (met : b = true) (effect : P (s.timed (f s))) : Completes c s P :=
  ⟨_, gate.trans (paced_on met), effect⟩

theorem leads_of_coreStep {c : Instr} {b : Bool} {f : State → State} {s u : State} (gate : exec c s = coreStep b f s)
    (met : b = true) (effect : s.outsideCores (f s) = u) : Leads c s u := by
  rw [Leads, gate, coreStep_on met, effect]

/-! #### Bring-up (R78 to R84, R388, R391, R392) -/

@[simp] theorem State.rd_timed (s u : State) (f : Field) (i : Nat) : (s.timed u).rd f i = u.rd f i := rfl

/-- A bit that a register is written with reads as set. -/
theorem State.rd_wr_withBit {s : State} {f : Field} {i v b : Nat} (h : b < f.len) :
    ((s.wr f i (withBit v b)).rd f i).testBit b = true := by
  simp [lowBits, withBit, Nat.testBit_mod_two_pow, h]

/-- The end of bring-up leaves the maps of what is ready and what has failed (R83). -/
theorem State.rd_checkDone_map {s : State} {f : Field}
    (h : f ∈ [fMGT_READY_MAP_MAST_MAST_READY, fMGT_FAIL_MAP_MAST_MAST_FAIL, fMGT_READY_MAP_MEM_STACK_READY,
      fMGT_FAIL_MAP_MEM_STACK_FAIL]) : s.checkDone.rd f 0 = s.rd f 0 := by
  simp only [List.mem_cons, List.not_mem_nil, or_false] at h
  obtain rfl | rfl | rfl | rfl := h <;> exact State.rd_checkDone (by decide) (by decide) (by decide)

theorem State.failMast_failed {s : State} {m : Nat} (h : m < 32) : (s.failMast m).mastFailed m = true := by
  rw [State.mastFailed, State.failMast, State.rd_fault (by decide) (by decide) (by decide)]
  exact State.rd_wr_withBit h

theorem State.checkDone_mastFailed (s : State) (m : Nat) : s.checkDone.mastFailed m = s.mastFailed m := by
  rw [State.mastFailed, State.rd_checkDone_map (by decide)]; rfl

/-- A mast with at most one failed tile is ready after its self-test (R80). -/
theorem State.mastTested_ready {s : State} {m mask : Nat} (h : m < 32)
    (few : ((mastTiles m).filter (s.tileBad m mask)).length ≤ 1) : (s.mastTested m mask).mastReady m = true := by
  simp only [State.mastTested, if_pos few, State.mastReady, State.rd_checkDone_map (f := fMGT_READY_MAP_MAST_MAST_READY)
    (by decide)]
  exact State.rd_wr_withBit h

/-- A mast with more failed tiles has failed after its self-test (R80). -/
theorem State.mastTested_failed {s : State} {m mask : Nat} (h : m < 32)
    (many : 1 < ((mastTiles m).filter (s.tileBad m mask)).length) : (s.mastTested m mask).mastFailed m = true := by
  simp only [State.mastTested, if_neg (Nat.not_le.mpr many), State.checkDone_mastFailed]
  exact State.failMast_failed h

theorem State.stackUp_ready {s : State} {st : Nat} (h : st < 8) : (s.stackUp st).stackReady st = true := by
  rw [State.stackReady, State.stackUp, State.rd_checkDone_map (by decide)]
  exact State.rd_wr_withBit h

theorem State.stackUp_next (s : State) (st : Nat) : (s.stackUp st).clk.stackNext = s.clk.stackNext + 1 := by
  rw [State.stackUp, State.checkDone_clk]; rfl

theorem State.stackDown_failed {s : State} {st : Nat} (h : st < 8) : (s.stackDown st).stackFailed st = true := by
  rw [State.stackFailed, State.stackDown, State.rd_checkDone_map (by decide)]
  have kept : ∀ u : State, ∀ e, (u.fault 6 e).nextStack.rd fMGT_FAIL_MAP_MEM_STACK_FAIL 0 =
      u.rd fMGT_FAIL_MAP_MEM_STACK_FAIL 0 := fun _ _ => State.rd_fault (by decide) (by decide) (by decide)
  rw [kept]
  exact State.rd_wr_withBit h

theorem State.stackDown_next (s : State) (st : Nat) : (s.stackDown st).clk.stackNext = s.clk.stackNext + 1 := by
  rw [State.stackDown, State.checkDone_clk, State.nextStack, State.fault_clk]; rfl

/-- A subsystem that is made ready is ready (R79). -/
theorem State.ready_wr (s : State) (sub : Nat) : (s.wr fSTATUS_READY sub 1).ready sub = true := by
  rw [State.ready, State.rd_wr_same]; rfl

theorem State.mast_of_open {s : State} {m : Nat} (h : s.mastOpen m = true) : m < 32 := by
  simp only [State.mastOpen, Bool.and_eq_true, decide_eq_true_eq] at h
  exact h.1.1.2

theorem State.stack_of_trains {s : State} {st : Nat} (h : s.stackTrains st = true) : st < 8 ∧ s.clk.stackNext = st := by
  simp only [State.stackTrains, Bool.and_eq_true, decide_eq_true_eq] at h
  exact ⟨h.1.2, h.2⟩

theorem driveEnumerated_leads {s u : State} {port : Nat} {info : DriveInfo} (bringing : s.bringing = true)
    (good : s.board.pwrGood = true) (ready : s.ready 11 = true) (inRange : port < 8) (here : s.drvHere port = true)
    (trains : s.rd fDSP_PORT_STATE port ∈ [1, 2, 4]) (time : s.elapsed 1000 = true)
    (effect : s.enumerated port info = u) : Leads (.driveEnumerated port info) s (s.timed u) :=
  leads_of_paced (show _ = execDriveEnumerated port info s from rfl)
    (by simp only [bringing, good, ready, inRange, here, List.contains_iff_mem.mpr trains, time, decide_true,
      Bool.and_self])
    (congrArg s.timed effect)

/-- Settles O5, clause by clause: each part of the device settles by a gate of bring-up, whose condition is the clause's
own. -/
theorem bringupCommandsComplete : Obligations.BringupCommandsComplete := by
  refine ⟨?_, ?_, ?_, ?_, ?_, ?_, ?_, ?_, ?_, ?_, ?_⟩
  · intro s sub failed bringing first last unready cond
    exact completes_of_steady (show _ = execSubsystemReady sub failed s from rfl)
      (by simp [bringing, first, last, unready, cond]) ⟨State.ready_wr _ sub, rfl⟩
  · intro s mast failMask opened time
    exact completes_of_paced (show _ = execMastReady mast failMask s from rfl) (by simp [opened, time])
      ⟨State.mastTested_ready (State.mast_of_open opened), State.mastTested_failed (State.mast_of_open opened), rfl⟩
  · intro s mast opened time
    exact completes_of_paced (show _ = execMastTimeout mast s from rfl) (by simp [opened, time])
      ⟨((s.failMast mast).checkDone_mastFailed mast).trans (State.failMast_failed (State.mast_of_open opened)), rfl⟩
  · intro s stack trains time
    obtain ⟨inRange, next⟩ := State.stack_of_trains trains
    exact completes_of_paced (show _ = execStackTrained stack s from rfl) (by simp [trains, time])
      ⟨State.stackUp_ready inRange, (s.stackUp_next stack).trans (congrArg (· + 1) next), rfl⟩
  · intro s stack trains late
    obtain ⟨inRange, next⟩ := State.stack_of_trains trains
    exact completes_of_paced (show _ = execStackTimeout stack s from rfl) (by simp [trains, late])
      ⟨State.stackDown_failed inRange, (s.stackDown_next stack).trans (congrArg (· + 1) next), rfl⟩
  · intro s port bringing ready inRange here absent inUse high due
    exact leads_of_steady (show _ = execDrivePerstRelease port s from rfl)
      (by simp [bringing, ready, inRange, here, absent, inUse, high, due]) rfl
  · intro s port info bringing good ready inRange here trains time supported
    exact driveEnumerated_leads bringing good ready inRange here trains time
      (congrArg State.checkDone (if_pos supported))
  · intro s port info bringing good ready inRange here trains time unsupported
    exact driveEnumerated_leads bringing good ready inRange here trains time
      (congrArg State.checkDone (if_neg (ne_true_of_eq_false unsupported)))
  · intro s port bringing ready inRange here waits time
    exact leads_of_steady (show _ = execDriveLate port s from rfl)
      (by simp only [bringing, ready, inRange, here, List.contains_iff_mem.mpr waits, time, decide_true,
        Bool.and_self]) rfl
  · intro s port bringing ready inRange late
    exact leads_of_paced (show _ = execDriveReadyTimeout port s from rfl) (by simp [bringing, ready, inRange, late]) rfl
  · intro s bringing ready unassembled time settled
    exact completes_of_paced (show _ = execVolumeAssembly s from rfl)
      (by simpa only [bringing, ready, unassembled, time, Bool.not_false, Bool.and_self, Bool.true_and,
        Bool.or_eq_true] using settled)
      ⟨State.ready_wr _ 10, rfl, rfl⟩

end Sys2Proof.Machine

namespace Sys2Proof.Machine

/-! #### Register pages: soft reset, ENABLE, causes and the expert key (R76, R91 to R94) -/

/-- READY and ENABLE of a page at 0: what a soft reset does at once (R76, R93). -/
def State.softTaken (s : State) (sub : Nat) : State := (s.wr fSTATUS_READY sub 0).wr fCONTROL_ENABLE sub 0

theorem State.softReset_ignored {s : State} {sub : Nat} (h : softResets sub = false) : s.softReset sub = s :=
  if_pos (by simp [h])

theorem State.softReset_acts {s : State} {sub : Nat} (h : softResets sub = true) (now : softWaits sub = false)
    (other : sub ≠ 12) : s.softReset sub = ((s.softTaken sub).softWork sub).softRegs sub := by
  simp only [State.softReset, h, now, other, State.softTaken, Bool.not_true, Bool.false_eq_true, if_false]

/-- The soft reset of DGE clears its registers first: the count of the clears that follow stays (R76). -/
theorem State.softReset_dge (s : State) : s.softReset 12 = ((s.softTaken 12).softRegs 12).softWork 12 := rfl

theorem State.softReset_waits {s : State} {sub : Nat} (h : softResets sub = true) (waits : softWaits sub = true)
    (new : sub ∉ s.softPending) :
    s.softReset sub = { s.softTaken sub with softPending := s.softPending ++ [sub] } := by
  have absent : s.softPending.contains sub = false := by simpa using new
  simp only [State.softReset, h, waits, State.wr_softPending, absent, Bool.not_true, Bool.false_eq_true, if_false,
    if_true, State.softTaken]

theorem softReset_leads {s u : State} {sub : Nat} {e : Bool} (reach : s.reaches 0 = true) (first : 1 ≤ sub)
    (last : sub ≤ 16) (effect : (s.atRegion sub 0x10).softReset sub = u) : Leads (.softReset sub e) s (s.kept u) :=
  leads_of_steady (show _ = execSoftReset sub e s from rfl) (by simp [reach, first, last]) (congrArg s.kept effect)

theorem enable_leads {s u : State} {sub : Nat} {on : Bool} (reach : s.reaches 0 = true) (first : 1 ≤ sub)
    (last : sub ≤ 16) (effect : (s.atRegion sub 0x10).writeEnable sub on = u) : Leads (.enable sub on) s (s.kept u) :=
  leads_of_steady (show _ = execEnable sub on s from rfl) (by simp [reach, first, last]) (congrArg s.kept effect)

theorem State.writeEnable_ignored {s : State} {sub : Nat} {on : Bool} (h : softResets sub = false) :
    s.writeEnable sub on = s := if_pos (by simp [h])

theorem State.writeEnable_plain {s : State} {sub : Nat} {on : Bool} (h : softResets sub = true) (other : sub ≠ 12) :
    s.writeEnable sub on = s.wr fCONTROL_ENABLE sub (bit on) := by
  simp only [State.writeEnable, h, other, Bool.not_true, Bool.false_eq_true, if_false]

/-- ENABLE of DGE: the blocks that have begun are noted, the slots and their queue stay (R93). -/
theorem State.writeEnable_dge (s : State) (on : Bool) :
    (s.writeEnable 12 on).rd fCONTROL_ENABLE 12 = bit on ∧ (s.writeEnable 12 on).dge.slots = s.dge.slots ∧
      (s.writeEnable 12 on).dge.ready = s.dge.ready := by
  refine ⟨(State.rd_wr_same _ _ _ _).trans ?_, rfl, rfl⟩
  cases on <;> rfl

/-- Settles O7, clause by clause: the write by address, the soft resets that act at once, wait or are ignored, and the
header of a page. -/
theorem registerCommandsComplete : Obligations.RegisterCommandsComplete := by
  refine ⟨?_, ?_, ?_, ?_, ?_, ?_, ?_, ?_, ?_, ?_, ?_, ?_, ?_⟩
  · intro s a v reach ok clean
    exact leads_of_enabled (show _ = execRegisterWrite a v s from rfl) (by simp [reach, ok])
      (congrArg s.queued (if_neg (ne_true_of_eq_false clean)))
  · intro s a v reach ok poisoned
    exact leads_of_enabled (show _ = execRegisterWrite a v s from rfl) (by simp [reach, ok])
      (congrArg s.queued (if_pos poisoned))
  · rintro s sub e d reach acts rfl
    have page : ∀ p ∈ [4, 7, 8, 9], 1 ≤ p ∧ p ≤ 16 ∧ softResets p = true ∧ softWaits p = false ∧ p ≠ 12 := by decide
    obtain ⟨first, last, soft, now, other⟩ := page sub acts
    exact softReset_leads reach first last (State.softReset_acts soft now other)
  · intro s e reach
    exact softReset_leads reach (by decide) (by decide) (State.softReset_dge _)
  · rintro s sub e d reach waits new rfl
    have page : ∀ p ∈ [10, 11, 15], 1 ≤ p ∧ p ≤ 16 ∧ softResets p = true ∧ softWaits p = true := by decide
    obtain ⟨first, last, soft, later⟩ := page sub waits
    exact softReset_leads reach first last (State.softReset_waits (s := s.atRegion sub 0x10) soft later new)
  · intro s sub e reach first last none
    exact softReset_leads reach first last (State.softReset_ignored none)
  · intro s sub on reach first last other soft
    exact enable_leads reach first last (State.writeEnable_plain soft other)
  · intro s on reach
    exact completes_of_steady (show _ = execEnable 12 on s from rfl) (by simp [reach])
      ((s.atRegion 12 0x10).writeEnable_dge on)
  · intro s sub on reach first last none
    exact enable_leads reach first last (State.writeEnable_ignored none)
  · intro s sub v page
    exact leads_of_steady (show _ = execIrqSet sub v s from rfl) page rfl
  · intro s sub v page
    exact leads_of_steady (show _ = execIrqStatusWrite sub v s from rfl) page rfl
  · intro s sub v page
    exact leads_of_steady (show _ = execIrqEnableWrite sub v s from rfl) page rfl
  · intro s sub key page
    exact leads_of_steady (show _ = execExpertUnlock sub key s from rfl) page rfl

end Sys2Proof.Machine

namespace Sys2Proof.Machine

/-! #### Configuration requests (R85, R116) -/

theorem configRequest_leads {s u : State} {fn : Nat} {item : CfgItem} {wr : Option Nat}
    (on : s.clocked = true ∨ s.board.phase = .unlocked) (good : s.board.pwrGood = true) (high : s.board.perstN = true)
    (known : fn ≤ 1024) (effect : s.cfgRequest fn item wr = u) : Leads (.configRequest fn item wr) s (s.kept u) :=
  leads_of_steady (show _ = execConfigRequest fn item wr s from rfl) (by simpa [good, high, known] using on)
    (congrArg s.kept effect)

section
variable {s : State} {fn : Nat} {item : CfgItem}

theorem State.cfgRequest_retry {wr : Option Nat} (unready : s.running = false ∨ s.ready 1 = false) :
    s.cfgRequest fn item wr = s.emit (.requestRetry fn) := by
  have held : (s.running && s.ready 1) = false := by
    obtain h | h := unready <;> simp [h]
  simp [State.cfgRequest, held]

theorem State.cfgRequest_absent {wr : Option Nat} (running : s.running = true) (ready : s.ready 1 = true)
    (absent : s.present fn = false) : s.cfgRequest fn item wr = s := by
  simp [State.cfgRequest, running, ready, absent]

theorem State.cfgRequest_read (running : s.running = true) (ready : s.ready 1 = true) (here : s.present fn = true) :
    s.cfgRequest fn item none = s.emit (.cfgDone fn (s.cfg fn item)) := by
  simp [State.cfgRequest, running, ready, here]

theorem State.cfgRequest_write {v : Nat} (running : s.running = true) (ready : s.ready 1 = true)
    (here : s.present fn = true) :
    s.cfgRequest fn item (some v) = (s.cfgWrite fn item v).emit (.cfgDone fn 0) := by
  simp [State.cfgRequest, running, ready, here]

end

/-! #### The link and the functions (R109 to R111, R116, R131) -/

theorem linkTrained_leads {s u : State} {speed width : Nat} {flit cxl reversed : Bool} (running : s.running = true)
    (good : s.board.pwrGood = true) (high : s.board.perstN = true) (free : s.clk.held = false)
    (down : s.hif.linkUp = false) (effect : s.trainLink speed width flit cxl reversed = u) :
    Leads (.linkTrained speed width flit cxl reversed) s (s.kept u) :=
  leads_of_steady (show _ = execLinkTrained speed width flit cxl reversed s from rfl)
    (by simp [running, good, high, free, down]) (congrArg s.kept effect)

/-- A width or a rate that the two ports do not have in common fails the training (R109, R110). -/
theorem linkMismatch {width v : Nat} (bad : linkWidthOk width = false ∨ v = 0 ∨ 4 < v) :
    ¬(linkWidthOk width = true ∧ 1 ≤ v ∧ v ≤ 4) := by
  rintro ⟨ok, low, high⟩
  obtain wide | zero | fast := bad
  · exact ne_true_of_eq_false wide ok
  · omega
  · omega

/-! #### MSI-X masks (R118) -/

/-- A function's write of an MSI-X table entry: what was latched of its page is taken (R105). -/
theorem msixUnmask_leads {s u : State} {fn vec : Nat} (reach : s.reaches fn = true) (known : vec < vectorsOf fn)
    (effect : (if fn = 0 then s.atRegion 1 (0x10000 + 16 * vec) else s.atWindow fn (0x1000 + 16 * vec)).setMsix fn vec
      { s.msixEntry fn vec with masked := false } = u) : Leads (.msixUnmask fn vec) s (s.kept u) :=
  leads_of_steady (show _ = execMsixUnmask fn vec s from rfl) (by simp [reach, known]) (congrArg s.kept effect)

/-- Where no message is owed, clearing a mask sends none. -/
theorem State.sendOwed_none {s : State} {fn vec : Nat} (none : s.msixPending fn vec = false) : s.sendOwed fn vec = s :=
  if_neg (by simp [none])

theorem State.sendOwed_sends {s : State} {fn vec : Nat} (owed : s.msixPending fn vec = true)
    (unmasked : s.vecMasked fn vec = false) (enabled : s.cfg fn .msixEnable = 1) (running : s.running = true)
    (good : s.board.pwrGood = true) (ready : s.ready 1 = true) :
    s.sendOwed fn vec = (s.setPending fn vec false).message fn vec :=
  if_pos (by simp [owed, unmasked, enabled, running, good, ready])

/-- An access to a page leaves the pending bits. -/
theorem State.atTable_pending (s : State) (fn region window : Nat) :
    (if fn = 0 then s.atRegion 1 region else s.atWindow fn window).hif.pba = s.hif.pba := by
  split <;> rfl

/-! #### ATS invalidations (R132) -/

theorem atsInvalidate_leads {s u : State} {fn addr len : Nat} (live : s.live fn = true) (up : s.hif.linkUp = true)
    (room : (s.hif.atsWait.filter (fun w => w.1 = fn)).length < 32) (effect : s.atsInvalidate fn addr len = u) :
    Leads (.atsInvalidate fn addr len) s (s.kept u) :=
  leads_of_steady (show _ = execAtsInvalidate fn addr len s from rfl) (by simp [live, up, room])
    (congrArg s.kept effect)

/-! #### CXL.mem and carve-outs (R134 to R136, R399) -/

theorem State.hdmLook_cxlUse (s : State) (tx : Bool) (n hpa : Nat) (l : List (Fin 4)) (dpa : Nat) :
    (s.cxlUse tx n).hdmLook hpa l dpa = s.hdmLook hpa l dpa := by
  have cfg : ∀ item, (s.cxlUse tx n).cfg 0 item = s.cfg 0 item := fun _ => by cases tx <;> rfl
  induction l generalizing dpa with
  | nil => rfl
  | cons i rest ih => simp only [State.hdmLook, cfg, ih]

@[simp] theorem State.cxlAddr_cxlUse (s : State) (tx : Bool) (n hpa len : Nat) :
    (s.cxlUse tx n).cxlAddr hpa len = s.cxlAddr hpa len := by
  have reaches : ∀ dpa, (s.cxlUse tx n).cxlReaches dpa len = s.cxlReaches dpa len := fun _ => by cases tx <;> rfl
  simp only [State.cxlAddr, State.hdmDpa, State.hdmLook_cxlUse, reaches]

theorem State.cxlAddr_of {s : State} {hpa len dpa : Nat} (decoded : s.hdmDpa hpa = some dpa)
    (reach : s.cxlReaches dpa len = true) : s.cxlAddr hpa len = some dpa := by
  simp [State.cxlAddr, decoded, reach]

theorem cxlMemRead_leads {s u : State} {hpa len : Nat} (up : s.cxlUp = true) (turn : s.cxlTurn true = true)
    (effect : (s.cxlUse true len).cxlRead hpa len = u) : Leads (.cxlMemRead hpa len) s (s.kept u) :=
  leads_of_steady (show _ = execCxlMemRead hpa len s from rfl) (by simp [up, turn]) (congrArg s.kept effect)

theorem cxlMemWrite_leads {s u : State} {hpa : Nat} {data : List Byte} (up : s.cxlUp = true)
    (turn : s.cxlTurn false = true) (effect : (s.cxlUse false data.length).cxlWrite hpa data = u) :
    Leads (.cxlMemWrite hpa data) s (s.kept u) :=
  leads_of_steady (show _ = execCxlMemWrite hpa data s from rfl) (by simp [up, turn]) (congrArg s.kept effect)

theorem carveOutEnable_leads {s u : State} {co : Nat} (reach : s.reaches 0 = true) (known : co < 64)
    (effect : (s.atRegion 1 (0x30000 + 16 * co)).coEnable co = u) : Leads (.carveOutEnable co) s (s.kept u) :=
  leads_of_steady (show _ = execCarveOutEnable co s from rfl) (by simp [reach, known]) (congrArg s.kept effect)

section
variable {s : State} {co : Nat}

theorem State.coEnable_now (off : s.coOn co = false) (may : s.coAllowed co = true) (shallow : s.psState < 3) :
    s.coEnable co = s.wr fHIF_CO_ENABLE co 1 := by
  simp [State.coEnable, off, may, Nat.not_le.mpr shallow]

theorem State.coEnable_later (off : s.coOn co = false) (may : s.coAllowed co = true) (deep : 3 ≤ s.psState) :
    s.coEnable co = { s with hif := { s.hif with coWait := s.hif.coWait ++ [co] } } := by
  simp [State.coEnable, off, may, deep]

theorem State.coEnable_refused (off : s.coOn co = false) (bad : s.coAllowed co = false) :
    s.coEnable co = s.notice 1 0xFFFF := by
  simp [State.coEnable, off, bad]

end

/-- Settles O6, clause by clause: configuration requests, the link, functions and their interrupts, link services, and
the carve-outs. -/
theorem hostCommandsComplete : Obligations.HostCommandsComplete := by
  refine ⟨?_, ?_, ?_, ?_, ?_, ?_, ?_, ?_, ?_, ?_, ?_, ?_, ?_, ?_, ?_, ?_, ?_, ?_, ?_, ?_, ?_, ?_, ?_, ?_, ?_, ?_, ?_, ?_⟩
  · intro s fn item running good high ready here known
    exact configRequest_leads (.inl (State.clocked_of_running running)) good high known
      (State.cfgRequest_read running ready here)
  · intro s fn v running good high ready here known
    exact configRequest_leads (.inl (State.clocked_of_running running)) good high known
      (State.cfgRequest_write running ready here)
  · intro s fn item v running good high ready here known
    exact configRequest_leads (.inl (State.clocked_of_running running)) good high known
      (State.cfgRequest_write running ready here)
  · intro s fn item wr running good high ready absent known
    exact configRequest_leads (.inl (State.clocked_of_running running)) good high known
      (State.cfgRequest_absent running ready absent)
  · intro s fn item wr on good high unready known
    exact configRequest_leads on good high known (State.cfgRequest_retry unready)
  · rintro s speed width flit cxl reversed t running good high free down ok low fast rfl
    exact linkTrained_leads running good high free down (if_pos ⟨ok, low, fast⟩)
  · intro s speed width flit cxl reversed running good high free down bad
    exact linkTrained_leads running good high free down (if_neg (linkMismatch bad))
  · rintro s w t running good up rfl wide rfl
    exact leads_of_steady (show _ = execLaneFailure s from rfl) (by simp [running, good, up, wide]) rfl
  · intro s live
    exact leads_of_steady (show _ = execD3hotEntry s from rfl) live rfl
  · intro s live
    exact leads_of_steady (show _ = execD0Return s from rfl) live rfl
  · intro s n live off few
    refine leads_of_steady (show _ = execVfEnable n s from rfl) (by simp [live, off, few]) ?_
    rw [State.writeNumVfs, if_pos ⟨off, few⟩]
    rfl
  · intro s live on
    exact leads_of_steady (show _ = execVfDisable s from rfl) live (congrArg s.kept (if_pos on))
  · intro s fn live other
    exact leads_of_steady (show _ = execFlr fn s from rfl) live (congrArg s.kept (if_neg other))
  · intro s live
    exact leads_of_steady (show _ = execFlr 0 s from rfl) live rfl
  · rintro s fn vec d reach known rfl none
    refine msixUnmask_leads reach known (State.sendOwed_none ?_)
    exact (congrArg (getD false · _) (s.atTable_pending fn _ _)).trans none
  · rintro s fn vec d u reach known rfl rfl owed unmasked enabled running good ready
    exact msixUnmask_leads reach known (State.sendOwed_sends owed unmasked enabled running good ready)
  · intro s fn addr len live up room idle
    exact atsInvalidate_leads live up room (if_neg (ne_true_of_eq_false idle))
  · intro s fn addr len live up room busy
    exact atsInvalidate_leads live up room (if_pos busy)
  · intro s kind req live up known short
    exact leads_of_steady (show _ = execDoeRequest kind req s from rfl) (by simp [live, up, known, short]) rfl
  · intro s addr up
    exact leads_of_steady (show _ = execCxlSnoop addr s from rfl) up rfl
  · intro s hpa len dpa up turn decoded reach
    exact cxlMemRead_leads up turn
      (by simp only [State.cxlRead, State.cxlAddr_cxlUse, State.cxlAddr_of decoded reach])
  · intro s hpa len up turn outside
    exact cxlMemRead_leads up turn (by simp only [State.cxlRead, State.cxlAddr_cxlUse, outside])
  · intro s hpa data dpa up turn decoded reach
    exact cxlMemWrite_leads up turn
      (by simp only [State.cxlWrite, State.cxlAddr_cxlUse, State.cxlAddr_of decoded reach])
  · intro s hpa data up turn outside
    exact cxlMemWrite_leads up turn (by simp only [State.cxlWrite, State.cxlAddr_cxlUse, outside])
  · intro s co reach known off may shallow
    exact carveOutEnable_leads reach known (State.coEnable_now off may shallow)
  · rintro s co d reach known off may deep rfl
    exact carveOutEnable_leads reach known (State.coEnable_later off may deep)
  · intro s co reach known off bad
    exact carveOutEnable_leads reach known (State.coEnable_refused off bad)
  · rintro s co d reach known rfl
    exact leads_of_steady (show _ = execCarveOutDisable co s from rfl) (by simp [reach, known]) rfl

end Sys2Proof.Machine

namespace Sys2Proof.Machine

/-! #### Expert-only writes (R94) -/

theorem State.expertWrite_open {s : State} {sub : Nat} {f : State → State} (h : s.rd fEXPERT_UNLOCK_UNLOCKED sub = 1) :
    s.expertWrite sub f = f s := if_pos h

theorem State.expertWrite_locked {s : State} {sub : Nat} {f : State → State}
    (h : s.rd fEXPERT_UNLOCK_UNLOCKED sub ≠ 1) : s.expertWrite sub f = s.wr fEXPERT_UNLOCK_DENIED sub 1 := if_neg h

/-! #### From tokens to tasks (R200 to R211, R228) -/

theorem tokenForward_leads {s u : State} {r e : Nat} (running : s.running = true) (may : s.canForward r e = true)
    (effect : s.tokenForward r e = u) : Leads (.tokenForward r e) s (s.kept u) :=
  leads_of_steady (show _ = execTokenForward r e s from rfl) (by simp [running, may]) (congrArg s.kept effect)

theorem pegFill_leads {s u : State} {kind unit : Nat} (starts : s.starts 3 = true) (takes : s.unitTakes kind = true)
    (going : find s.bsn.halts (s.fillStop kind unit) = none) (effect : s.pegFill kind unit = u) :
    Leads (.pegFill kind unit) s (s.kept u) :=
  leads_of_steady (show _ = execPegFill kind unit s from rfl) (by simp [starts, takes, going]) (congrArg s.kept effect)

section
variable {s : State} {kind unit : Nat}

/-- A fill that is not struck: its stop is not armed, or it dispatches nothing. -/
theorem State.pegFill_fills
    (spared : s.fillStop kind unit ∉ s.bsn.inject ∨ (s.fillSlot kind unit).bsn.dispatches ≤ s.bsn.dispatches) :
    s.pegFill kind unit = s.fillSlot kind unit := by
  refine if_neg ?_
  rintro ⟨armed, dispatches⟩
  obtain unarmed | none := spared
  · exact unarmed (List.contains_iff_mem.mp armed)
  · exact Nat.not_lt.mpr none dispatches

theorem State.pegFill_strikes (armed : s.fillStop kind unit ∈ s.bsn.inject)
    (dispatches : s.bsn.dispatches < (s.fillSlot kind unit).bsn.dispatches) :
    s.pegFill kind unit = s.disagree (s.fillStop kind unit) :=
  if_pos ⟨List.contains_iff_mem.mpr armed, dispatches⟩

end

/-! #### Starting and ending a task (R210, R218, R220) -/

theorem taskStart_leads {s u : State} {t : Nat} (starts : s.starts 4 = true) (awake : s.psState < 2)
    (tile : s.tileOpen t = true) (effect : s.taskStart t = u) : Leads (.taskStart t) s (s.kept u) := by
  have shallow : s.rd fCVC_PS_STATUS_STATE 0 < 2 := awake
  exact leads_of_steady (show _ = execTaskStart t s from rfl) (by simp [starts, shallow, tile])
    (congrArg s.kept effect)

section
variable {s : State} {t peg k : Nat} {x : Task}

theorem State.taskStart_starts (idle : (s.core t).task = none) (next : s.nextPeg t = some (peg, k, x))
    (goes : s.runStopping x = false) (same : ∀ f ∈ s.tileHolds t, f = x.fn) (staged : x.staged = true) :
    s.taskStart t = s.startTask t peg k x := by
  have own : (s.tileHolds t).all (fun f => decide (f = x.fn)) = true := by
    cases h : s.tileHolds t with
    | none => rfl
    | some f => exact decide_eq_true (same f h)
  simp [State.taskStart, idle, next, goes, own, staged]

/-- The tile is scrubbed for the task's function, and stages the task again (R220). -/
theorem State.taskStart_scrubs {f : Nat} {y : Task} (idle : (s.core t).task = none)
    (next : s.nextPeg t = some (peg, k, x)) (goes : s.runStopping x = false) (holds : s.tileHolds t = some f)
    (other : f ≠ x.fn) (staged : (((s.scrub t).chargeCore x.fn s.scrubTicks).stage t peg k x).task k = some y) :
    s.taskStart t = (((s.scrub t).chargeCore x.fn s.scrubTicks).stage t peg k x).startTask t peg k y := by
  simp [State.taskStart, idle, next, goes, holds, other, staged]

theorem tokenPlace_leads {u : State} (running : s.running = true) (task : s.task t = some x) (ending : x.state = .ending)
    (effect : s.tryPlace t = u) : Leads (.tokenPlace t) s (s.kept u) :=
  leads_of_steady (show _ = execTokenPlace t s from rfl) (by simp [running, task, ending]) (congrArg s.kept effect)

end

/-! #### Injected disagreements and reservations (R31, R200, R233) -/

theorem injectWest_leads {s u : State} (reach : s.reaches 0 = true) (ready : s.ready 3 = true)
    (effect : (s.atRegion 3 0x900).injectStop 0 = u) : Leads .injectWest s (s.kept u) :=
  leads_of_steady (show _ = execInjectWest s from rfl) (by simp [reach, ready]) (congrArg s.kept effect)

theorem injectEast_leads {s u : State} (reach : s.reaches 0 = true) (ready : s.ready 3 = true)
    (effect : (s.atRegion 3 0x900).injectStop 1 = u) : Leads .injectEast s (s.kept u) :=
  leads_of_steady (show _ = execInjectEast s from rfl) (by simp [reach, ready]) (congrArg s.kept effect)

section
variable {s : State} {stop : Nat}

theorem State.injectStop_arms (unlocked : s.rd fEXPERT_UNLOCK_UNLOCKED 3 = 1) (new : stop ∉ s.bsn.inject) :
    s.injectStop stop = { s with bsn := { s.bsn with inject := s.bsn.inject ++ [stop] } } :=
  (State.expertWrite_open unlocked).trans (if_neg fun armed => new (List.contains_iff_mem.mp armed))

theorem State.injectStop_armed (unlocked : s.rd fEXPERT_UNLOCK_UNLOCKED 3 = 1) (armed : stop ∈ s.bsn.inject) :
    s.injectStop stop = s :=
  (State.expertWrite_open unlocked).trans (if_pos (List.contains_iff_mem.mpr armed))

theorem State.injectStop_locked (locked : s.rd fEXPERT_UNLOCK_UNLOCKED 3 ≠ 1) :
    s.injectStop stop = s.wr fEXPERT_UNLOCK_DENIED 3 1 := State.expertWrite_locked locked

end

theorem bsnFnResv_leads {s u : State} {fn v : Nat} (reach : s.reaches 0 = true) (ready : s.ready 3 = true)
    (known : fn ≤ 1024)
    (effect : (s.atRegion 3 (0x10000 + 16 * fn)).expertWrite 3 (fun s => s.writeResv fn (lowBits 12 v)) = u) :
    Leads (.bsnFnResv fn v) s (s.kept u) :=
  leads_of_steady (show _ = execBsnFnResv fn v s from rfl) (by simp [reach, ready, known]) (congrArg s.kept effect)

/-! #### Tiles in maintenance, core reset and ECC errors (R75, R263, R265 to R267) -/

theorem maintEnter_leads {s u : State} {t program : Nat} (reach : s.reaches 0 = true) (ready : s.ready 4 = true)
    (known : t < 544) (effect : (s.atRegion 4 (0x10004 + 32 * t)).maintEnter t program = u) :
    Leads (.maintEnter t program) s (s.kept u) :=
  leads_of_steady (show _ = execMaintEnter t program s from rfl) (by simp [reach, ready, known])
    (congrArg s.kept effect)

/-- A tile that is not SPARE, or a program that is not listed, leaves nothing but a notice (R266). -/
theorem State.maintEnter_refused {s : State} {t program : Nat}
    (bad : s.tileState t ≠ tsSpare ∨ program = 0 ∨ 3 < program) : s.maintEnter t program = s.notice 4 t := by
  refine if_neg ?_
  rintro ⟨spare, low, high⟩
  obtain other | zero | large := bad
  · exact other spare
  · omega
  · omega

theorem coreReset_leads {s u : State} {t : Nat} (reach : s.reaches 0 = true) (ready : s.ready 4 = true)
    (known : t < 544) (effect : (s.atRegion 4 (0x10004 + 32 * t)).coreReset t = u) :
    Leads (.coreReset t) s (s.kept u) :=
  leads_of_steady (show _ = execCoreReset t s from rfl) (by simp [reach, ready, known]) (congrArg s.kept effect)

section
variable {s : State} {t : Nat}

theorem State.coreReset_maintenance (maint : s.rd fOCA_TILE_STATE t = tsMaintenance) :
    s.coreReset t = (s.maintEnd t false).wr fOCA_TILE_STATE t tsSpare := if_pos maint

theorem State.coreReset_inUse (maint : s.rd fOCA_TILE_STATE t ≠ tsMaintenance) (up : s.rd fOCA_TILE_STATE t ≠ 0)
    (good : s.rd fOCA_TILE_STATE t ≠ tsFailed) :
    s.coreReset t = ((((s.endOnTile t 0x32 0x04 []).unpeg (.pegA t)).unpeg (.pegB t)).onCore t
      (fun c => { c with resetEnd := s.clk.tsu + s.cyclesToTicks 64 })).scrub t :=
  (if_neg maint).trans (if_neg (not_or.mpr ⟨up, good⟩))

/-- A tile that is DOWN or FAILED is not in maintenance, and its reset does nothing. -/
theorem State.coreReset_ignored (out : s.rd fOCA_TILE_STATE t = 0 ∨ s.rd fOCA_TILE_STATE t = tsFailed) :
    s.coreReset t = s := by
  have maint : s.rd fOCA_TILE_STATE t ≠ tsMaintenance := by
    obtain h | h := out <;> rw [h] <;> decide
  exact (if_neg maint).trans (if_pos out)

end

/-- What MAINT_PROGRAM_END does: a failed self-test fails the tile, every other end leaves it SPARE (R267). -/
def State.programEnd (s : State) (t : Nat) (pass : Bool) : State :=
  if !pass ∧ s.rd fOCA_TILE_MAINT_PROGRAM t = 1 then ((s.maintEnd t pass).wr fOCA_TILE_STATE t tsFailed).raise 4 3
  else (s.maintEnd t pass).wr fOCA_TILE_STATE t tsSpare

theorem maintProgramEnd_leads {s u : State} {t : Nat} {pass : Bool} (running : s.running = true)
    (maint : s.rd fOCA_TILE_STATE t = tsMaintenance) (effect : s.programEnd t (pass && !(s.core t).halted) = u) :
    Leads (.maintProgramEnd t pass) s (s.kept u) :=
  leads_of_steady (show _ = execMaintProgramEnd t pass s from rfl) (by simp [running, maint]) (congrArg s.kept effect)

theorem State.programEnd_spare {s : State} {t : Nat} {pass : Bool}
    (good : pass = true ∨ s.rd fOCA_TILE_MAINT_PROGRAM t ≠ 1) :
    s.programEnd t pass = (s.maintEnd t pass).wr fOCA_TILE_STATE t tsSpare := by
  refine if_neg ?_
  rintro ⟨fails, selfTest⟩
  obtain passed | other := good
  · simp [passed] at fails
  · exact other selfTest

theorem ocaEccInject_leads {s u : State} {t target : Nat} {double : Bool} (reach : s.reaches 0 = true)
    (ready : s.ready 4 = true)
    (effect : (s.atRegion 4 0x900).expertWrite 4 (fun s => s.eccInject t target double) = u) :
    Leads (.ocaEccInject t target double) s (s.kept u) :=
  leads_of_steady (show _ = execOcaEccInject t target double s from rfl) (by simp [reach, ready])
    (congrArg s.kept effect)

/-- Outside a tile in maintenance, or for no storage that there is, an injected error is noticed (R263). -/
theorem State.eccInject_refused {s : State} {t target : Nat} {double : Bool}
    (bad : s.rd fOCA_TILE_STATE t ≠ tsMaintenance ∨ 3 ≤ target) : s.eccInject t target double = s.notice 4 t := by
  refine if_neg ?_
  rintro ⟨maint, known⟩
  obtain other | large := bad
  · exact other maint
  · omega

/-- Settles O11, clause by clause, in the order of a task's life: made, pegged, staged, started, ended; then the stops,
the tiles in maintenance, and what a tile's fetches and accesses do. -/
theorem taskCommandsComplete : Obligations.TaskCommandsComplete := by
  refine ⟨?_, ?_, ?_, ?_, ?_, ?_, ?_, ?_, ?_, ?_, ?_, ?_, ?_, ?_, ?_, ?_, ?_, ?_, ?_, ?_, ?_, ?_, ?_, ?_, ?_, ?_, ?_, ?_,
    ?_, ?_, ?_, ?_, ?_, ?_, ?_, ?_, ?_, ?_, ?_⟩
  · intro s starts waiting
    exact leads_of_steady (show _ = execTaskMake s from rfl) (by simp [starts, waiting]) rfl
  · intro s r e x t running may run token inner
    exact tokenForward_leads running may (by simp only [State.tokenForward, run, token, if_neg inner])
  · intro s r e x t running may run token sink
    exact tokenForward_leads running may (by simp only [State.tokenForward, run, token, if_pos sink])
  · intro s kind unit starts takes going unarmed
    exact pegFill_leads starts takes going (State.pegFill_fills (.inl unarmed))
  · intro s kind unit starts takes going none
    exact pegFill_leads starts takes going (State.pegFill_fills (.inr none))
  · intro s kind unit starts takes going armed dispatches
    exact pegFill_leads starts takes going (State.pegFill_strikes armed dispatches)
  · intro s t peg k x running pegged unstaged clean
    refine leads_of_steady (show _ = execStagingDone t peg s from rfl) running (congrArg s.kept ?_)
    simp [pegged, unstaged, clean]
  · intro s t peg k x starts awake tile idle next goes same staged
    exact taskStart_leads starts awake tile (State.taskStart_starts idle next goes same staged)
  · intro s t peg k x f y starts awake tile idle next goes holds other staged
    exact taskStart_leads starts awake tile (State.taskStart_scrubs idle next goes holds other staged)
  · intro s k x running task runs late first
    refine leads_of_steady (show _ = execTaskTimeout k s from rfl) ?_ (congrArg s.kept ?_)
    · simpa [State.overdue, running, task, runs, late] using first
    · simp only [task]
  · intro s t x running task ending placed
    exact tokenPlace_leads running task ending (by simp only [State.tryPlace, task, if_pos placed])
  · intro s t x running task ending kept
    exact tokenPlace_leads running task ending (by simp only [State.tryPlace, task, if_neg kept])
  · intro s fl running good may
    exact leads_of_steady (show _ = execSlotRelease fl s from rfl) (by simp [running, good, may]) rfl
  · intro s stop running ready known good
    exact leads_of_steady (show _ = execLockstepDisagreement stop s from rfl) (by simp [running, ready, known, good]) rfl
  · intro s stop t0 running halted past
    exact leads_of_steady (show _ = execLockstepHaltEnd stop s from rfl) (by simp [running, halted, past]) rfl
  · rintro s u reach ready rfl unlocked new
    exact injectWest_leads reach ready (State.injectStop_arms unlocked new)
  · rintro s u reach ready rfl unlocked armed
    exact injectWest_leads reach ready (State.injectStop_armed unlocked armed)
  · rintro s u reach ready rfl locked
    exact injectWest_leads reach ready (State.injectStop_locked locked)
  · rintro s u reach ready rfl unlocked new
    exact injectEast_leads reach ready (State.injectStop_arms unlocked new)
  · rintro s u reach ready rfl unlocked armed
    exact injectEast_leads reach ready (State.injectStop_armed unlocked armed)
  · rintro s u reach ready rfl locked
    exact injectEast_leads reach ready (State.injectStop_locked locked)
  · rintro s fn v u reach ready known rfl unlocked fits
    exact bsnFnResv_leads reach ready known ((State.expertWrite_open unlocked).trans (if_pos fits))
  · rintro s fn v u reach ready known rfl unlocked large
    exact bsnFnResv_leads reach ready known ((State.expertWrite_open unlocked).trans (if_neg (Nat.not_le.mpr large)))
  · rintro s fn v u reach ready known rfl locked
    exact bsnFnResv_leads reach ready known (State.expertWrite_locked locked)
  · rintro s t program u reach ready known rfl spare low high
    exact maintEnter_leads reach ready known (if_pos ⟨spare, low, high⟩)
  · rintro s t program u reach ready known rfl bad
    exact maintEnter_leads reach ready known (State.maintEnter_refused bad)
  · rintro s t u reach ready known rfl maint
    exact coreReset_leads reach ready known (State.coreReset_maintenance maint)
  · rintro s t u reach ready known rfl maint up good
    exact coreReset_leads reach ready known (State.coreReset_inUse maint up good)
  · rintro s t u reach ready known rfl out
    exact coreReset_leads reach ready known (State.coreReset_ignored out)
  · intro s t pass running maint good
    exact maintProgramEnd_leads running maint (State.programEnd_spare good)
  · intro s t pass running maint fails selfTest
    exact maintProgramEnd_leads running maint (by simp only [State.programEnd, fails, selfTest]; rfl)
  · rintro s t target double u reach ready rfl unlocked maint known
    exact ocaEccInject_leads reach ready ((State.expertWrite_open unlocked).trans (if_pos ⟨maint, known⟩))
  · rintro s t target double u reach ready rfl unlocked bad
    exact ocaEccInject_leads reach ready ((State.expertWrite_open unlocked).trans (State.eccInject_refused bad))
  · rintro s t target double u reach ready rfl locked
    exact ocaEccInject_leads reach ready (State.expertWrite_locked locked)
  · intro s t i live fault
    exact leads_of_steady (show _ = execDeferredFault t i s from rfl) (by simp [live, fault]) rfl
  · intro s t found running bad
    exact leads_of_steady (show _ = execUncorrectableFetch t found s from rfl) (by simp [running, bad]) rfl
  · intro s t live ready
    exact leads_of_coreStep (show _ = execVectorStart t s from rfl) (by simp [live, ready]) rfl
  · intro s t i found live outstanding
    exact leads_of_coreStep (show _ = execHbmAccessPerformed t i found s from rfl) live
      (by simp only [if_pos outstanding])
  · intro s t i found live none
    exact leads_of_coreStep (show _ = execHbmAccessPerformed t i found s from rfl) live
      (by simp only [if_neg (Nat.not_lt.mpr none)])

end Sys2Proof.Machine

/-!
### Queues and rings (spec/06_queues_and_rings.md): what moves a queue on

Doorbells, fetching, handing on, the timers of a completion queue, the admin queue and the budgets of
spec/05_host_link_and_functions.md.
-/

namespace Sys2Proof.Machine

/-! #### Looking at a queue again (R119, R147, R150) -/

section
variable {s : State} {fn qid : Nat} {q : Queue}

theorem State.recheck_of (here : s.queue fn qid = some q) :
    s.recheck fn qid = s.drain fn qid (q.pend.length + q.waiting.length + 1) := by
  simp only [State.recheck, here]

/-- The message of a completion queue goes out where its interrupt is enabled (R119). -/
theorem State.signal_sends (here : s.queue fn qid = some q) (irq : q.irqEn = true) :
    s.signal fn qid = (s.setQueue fn qid { q with unsignalled := 0 }).message fn q.vector := by
  simp only [State.signal, here, irq, if_true]

theorem State.signal_silent (here : s.queue fn qid = some q) (irq : q.irqEn = false) :
    s.signal fn qid = s.setQueue fn qid { q with unsignalled := 0 } := by
  simp only [State.signal, here, irq, Bool.false_eq_true, if_false]

theorem moderationTimer_leads {u : State} (running : s.running = true) (here : s.queue fn qid = some q)
    (owed : q.unsignalled ≠ 0)
    (due : q.oldest + ticksOfUs (s.rd fHIF_FN_MOD_DELAY_US (fn * 16 + q.mod)) ≤ s.clk.tsu)
    (effect : s.signal fn qid = u) : Leads (.moderationTimer fn qid) s (s.kept u) :=
  leads_of_steady (show _ = execModerationTimer fn qid s from rfl) (by simp [running, here, owed, due])
    (congrArg s.kept effect)

end

/-! #### Handing on (R142, R154, R157) -/

/-- The failure with which an entry ends that may go on from its queue: one that its class gives every entry, or, in an
admin queue, that its command is PF0's alone. -/
def Queue.handOnFailure (q : Queue) (fn : Nat) (e : Entry) : Option (Nat × Nat) :=
  (handOnError q.cls e.line).orElse fun _ => if q.cls = 0 then pf0Only fn e.line else none

section
variable {s : State} {fn qid : Nat} {q : Queue} {e : Entry}

theorem Queue.handOnFailure_error {x : Nat × Nat} (error : handOnError q.cls e.line = some x) :
    q.handOnFailure fn e = some x := by
  rw [Queue.handOnFailure, error]; rfl

theorem Queue.handOnFailure_admin (admin : q.cls = 0) (good : handOnError q.cls e.line = none) :
    q.handOnFailure fn e = pf0Only fn e.line := by
  rw [Queue.handOnFailure, good]; exact if_pos admin

theorem Queue.handOnFailure_other (other : q.cls ≠ 0) (good : handOnError q.cls e.line = none) :
    q.handOnFailure fn e = none := by
  rw [Queue.handOnFailure, good]; exact if_neg other

theorem entryHandOn_leads {u : State} (running : s.running = true) (qmg : s.ready 2 = true)
    (effect : s.handOn fn qid = u) : Leads (.entryHandOn fn qid) s (s.kept u) :=
  leads_of_steady (show _ = execEntryHandOn fn qid s from rfl) (by simp [running, qmg]) (congrArg s.kept effect)

theorem State.handOn_completes {x : Nat × Nat} (here : s.queue fn qid = some q) (enabled : q.disabling = false)
    (next : q.nextHandOn = some e) (fails : q.handOnFailure fn e = some x) :
    s.handOn fn qid = s.complete ⟨fn, qid, e.tag⟩ x.1 x.2 0 0 := by
  rw [Queue.handOnFailure] at fails
  simp only [State.handOn, here, enabled, next, fails, Bool.false_eq_true, if_false]

theorem State.handOn_hands (here : s.queue fn qid = some q) (enabled : q.disabling = false)
    (next : q.nextHandOn = some e) (good : q.handOnFailure fn e = none) (takes : s.takes fn q.cls e.line = true) :
    s.handOn fn qid = s.setStage ⟨fn, qid, e.tag⟩ .handed := by
  rw [Queue.handOnFailure] at good
  simp only [State.handOn, here, enabled, next, good, takes, Bool.false_eq_true, if_false, if_true]

end

/-! #### The admin queue and the dynamic limit (R139, R152) -/

section
variable {s u : State} {fn : Nat}

theorem adminQueueEnable_leads (reach : s.reaches fn = true) (qmg : s.ready 2 = true)
    (effect : (s.atWindow fn 0x118).adminEnable fn = u) : Leads (.adminQueueEnable fn) s (s.kept u) :=
  leads_of_steady (show _ = execAdminQueueEnable fn s from rfl) (by simp [State.admReaches, reach, qmg])
    (congrArg s.kept effect)

theorem State.adminEnable_checks (absent : s.queue fn 0 = none) :
    s.adminEnable fn = ((s.wr fQMG_ADM_CONTROL_ENABLE fn 1).wr fQMG_ADM_STATUS_ERROR fn 0).adminCheck fn :=
  if_neg (by simp [absent])

/-- While ENABLED is 1 the write of ENABLE is kept and nothing is checked (R152). -/
theorem State.adminEnable_kept {q : Queue} (here : s.queue fn 0 = some q) :
    s.adminEnable fn = (s.wr fQMG_ADM_CONTROL_ENABLE fn 1).wr fQMG_ADM_STATUS_ERROR fn 0 :=
  if_pos (by simp [here])

theorem qmgFnQlimit_leads {limit : Nat} (reach : s.reaches 0 = true) (qmg : s.ready 2 = true) (known : fn ≤ 1024)
    (effect : (s.atRegion 2 (0x10000 + 4 * fn)).writeQlimit fn (lowBits 13 limit) = u) :
    Leads (.qmgFnQlimit fn limit) s (s.kept u) :=
  leads_of_steady (show _ = execQmgFnQlimit fn limit s from rfl) (by simp [reach, qmg, known]) (congrArg s.kept effect)

end

/-! #### The next window of the budgets (R120, R124) -/

theorem State.openWindow_of {s : State} {b : NMap Nat}
    (budgets : b = (List.range 1025).foldl (fun m fn => setD qosDefault m fn (s.qosWritten fn)) []) :
    s.openWindow = { s with
      hif := { s.hif with
        qosWindow := s.hif.qosWindow + 1, inForce := b, capCore := s.readyCores * 8000,
        capHbm := countBits 8 (s.rd fMGT_READY_MAP_MEM_STACK_READY 0) * 12288000, capLink := s.linkCapacity,
        cxlTx := 0, cxlRx := 0 } } := by
  rw [budgets, State.openWindow]

/-- Settles O8, clause by clause: the doorbells, fetching, handing on, the timers, the admin queue, the limit and the
end of a window of the budgets. -/
theorem queueCommandsComplete : Obligations.QueueCommandsComplete := by
  refine ⟨?_, ?_, ?_, ?_, ?_, ?_, ?_, ?_, ?_, ?_, ?_, ?_, ?_, ?_, ?_, ?_, ?_, ?_, ?_⟩
  · intro s fn qid tail reach owned
    exact leads_of_steady (show _ = execSqDoorbell fn qid tail s from rfl) reach (congrArg s.kept (if_pos owned))
  · intro s fn qid tail reach foreign
    exact leads_of_steady (show _ = execSqDoorbell fn qid tail s from rfl) reach
      (congrArg s.kept (if_neg (ne_true_of_eq_false foreign)))
  · intro s fn qid i q reach owned here
    exact leads_of_steady (show _ = execCqDoorbell fn qid i s from rfl) reach
      (congrArg s.kept ((if_pos owned).trans (State.recheck_of here)))
  · intro s fn qid i reach foreign
    exact leads_of_steady (show _ = execCqDoorbell fn qid i s from rfl) reach
      (congrArg s.kept (if_neg (ne_true_of_eq_false foreign)))
  · intro s fetches
    exact leads_of_steady (show _ = execSqFetch s from rfl) fetches rfl
  · intro s fn qid q e running qmg here enabled other next good takes
    exact entryHandOn_leads running qmg
      (State.handOn_hands here enabled next (Queue.handOnFailure_other other good) takes)
  · intro s fn q e running qmg here enabled admin next good may takes
    exact entryHandOn_leads running qmg
      (State.handOn_hands here enabled next ((Queue.handOnFailure_admin admin good).trans may) takes)
  · intro s fn q e x running qmg here enabled admin next good foreign
    exact entryHandOn_leads running qmg
      (State.handOn_completes here enabled next ((Queue.handOnFailure_admin admin good).trans foreign))
  · intro s fn qid q e x running qmg here enabled next error
    exact entryHandOn_leads running qmg
      (State.handOn_completes here enabled next (Queue.handOnFailure_error error))
  · intro s fn qid q running here pending due
    exact leads_of_steady (show _ = execCqRecheck fn qid s from rfl) (by simpa [running, here, due] using pending)
      (congrArg s.kept (State.recheck_of here))
  · intro s fn qid q running here irq owed due
    exact moderationTimer_leads running here owed due (State.signal_sends here irq)
  · intro s fn qid q running here irq owed due
    exact moderationTimer_leads running here owed due (State.signal_silent here irq)
  · intro s fn reach qmg absent
    exact adminQueueEnable_leads reach qmg (State.adminEnable_checks absent)
  · intro s fn q reach qmg here
    exact adminQueueEnable_leads reach qmg (State.adminEnable_kept here)
  · intro s fn reach qmg
    exact leads_of_steady (show _ = execAdminQueueDisable fn s from rfl) (by simp [State.admReaches, reach, qmg]) rfl
  · intro s fn q running here disabling idle
    exact leads_of_steady (show _ = execAdminDisableEnd fn s from rfl) (by simpa [running, here, disabling] using idle)
      rfl
  · intro s fn limit reach qmg known fits
    exact qmgFnQlimit_leads reach qmg known (if_pos fits)
  · intro s fn limit reach qmg known large
    exact qmgFnQlimit_leads reach qmg known (if_neg (Nat.not_le.mpr large))
  · rintro s t b running past rfl budgets
    exact leads_of_steady (show _ = execQosWindowEnd s from rfl) (by simp [running, past])
      (congrArg s.kept (congrArg State.pump (State.openWindow_of budgets)))

end Sys2Proof.Machine

/-!
### Time and events (spec/17_time_and_events.md): the event log and PTM

Each command of TSU goes through the steady gate; what it writes is in its effect.
-/

namespace Sys2Proof.Machine

/-! #### The event log (R442, R444) -/

/-- The first record of the reorder buffer in event order goes to the log (R444). -/
theorem State.logWrite_first {s : State} {e : LogRec} {rest : List LogRec} (records : s.tsu.reorder = e :: rest) :
    s.logWrite = ({ s with tsu := { s.tsu with
        reorder := s.tsu.reorder.erase (firstRecord e rest),
        log := put s.tsu.log (s.rd fTSU_LOG_TOTAL_TOTAL 0 % 4096) (firstRecord e rest) } } : State).wr
      fTSU_LOG_TOTAL_TOTAL 0 (s.rd fTSU_LOG_TOTAL_TOTAL 0 + 1) := by
  simp only [State.logWrite, records]

/-- Settles O18, clause by clause: the log, MARK, and the start, the answer and the failure of a PTM dialogue. -/
theorem timeCommandsComplete : Obligations.TimeCommandsComplete := by
  refine ⟨?_, ?_, ?_, ?_, ?_⟩
  · intro s e rest ticking due records
    exact leads_of_steady (show _ = execLogEntryWrite s from rfl) (by simp [ticking, due])
      (congrArg s.kept (State.logWrite_first records))
  · intro s detail reach ready
    exact leads_of_steady (show _ = execMark detail s from rfl) (by simp [reach, ready]) rfl
  · intro s running ready host on idle period
    exact leads_of_steady (show _ = execPtmDialogue s from rfl) (by simp [running, ready, host, on, idle, period]) rfl
  · rintro s host rate v running started inTime rfl
    exact leads_of_steady (show _ = execPtmResponse host rate s from rfl)
      (by simp [running, Option.isSome_iff_ne_none.mpr started, inTime]) rfl
  · intro s inv running started lost
    exact leads_of_steady (show _ = execPtmTimeout inv s from rfl)
      (by simpa [running, Option.isSome_iff_ne_none.mpr started] using lost) rfl

end Sys2Proof.Machine

/-!
### Host link (spec/05_host_link_and_functions.md): writes to host memory

Host memory is a byte memory of its own (R19), and a write of the device is a store into it; the rest is what `Mem.store`
keeps.
-/

namespace Sys2Proof.Machine

/-- The record of the transfer that goes out over the link leaves host memory as stored (R19). -/
@[simp] theorem State.hostWrite_hostMem (s : State) (a : Nat) (d : List Byte) :
    (s.hostWrite a d).hostMem = Mem.store s.hostMem a d := rfl

/-- Settles O45: the written bytes and those outside them by the rules of a store, the rest by the frame of the write. -/
theorem hostMemoryWritten : Obligations.HostMemoryWritten := by
  intro s a d
  refine ⟨?readBack, ?outside, State.hostWrite_hbm s a d, State.hostWrite_regs s a d, State.hostWrite_pending s a d,
    State.hostWrite_wf s a d⟩
  case readBack =>
    rw [State.hostWrite_hostMem]
    exact Mem.bytes_store s.hostMem a d
  case outside =>
    intro q away
    rw [State.hostWrite_hostMem]
    exact Mem.byte_store_outside s.hostMem a q d away

end Sys2Proof.Machine

/-!
### Queues and rings (spec/06_queues_and_rings.md): the admin commands

CREATE_QUEUE to RESET_QUEUE (R155 to R157, R162), GRAPH_LOAD and GRAPH_UNLOAD (R187 to R189) and CANCEL (R221 to R225).
An admin command takes its entry through `State.adminRun`, a CANCEL through `State.cancelWith`; a clause follows from
what the command answers to its entry.
-/

namespace Sys2Proof.Machine

/-! #### From an answer to the next state (R153, R156) -/

section
variable {s u : State} {fn op : Nat} {e : Entry} {c : Instr}

/-- An admin command that is next in its queue completes with what it answers, in the state it leaves. -/
theorem leads_of_adminRun {f : Line → State → Nat × Nat × Nat × Nat × State} {st sub len spec : Nat}
    (gate : exec c s = steady (s.adminReady fn op) (fun s => s.adminRun fn op f) s) (running : s.running = true)
    (qmg : s.ready 2 = true) (next : s.adminNext fn op = some e) (answer : f e.line s = (st, sub, len, spec, u)) :
    Leads c s (s.kept (u.complete ⟨fn, 0, e.tag⟩ st sub len spec)) :=
  leads_of_steady gate (State.adminReady_of running qmg next)
    (congrArg s.kept (by rw [State.adminRun_of next, answer]))

/-- A CANCEL that is handed on completes with what it answers; what follows its completion comes after (R224). -/
theorem leads_of_cancelWith {p : Nat → Bool} {f : State → Nat → Line → Cancelled} {r : Cancelled}
    (gate : exec c s = steady (s.cancelReady fn p) (fun s => s.cancelWith fn p f) s) (running : s.running = true)
    (qmg : s.ready 2 = true) (next : s.cancelNext fn p = some e) (answer : f s fn e.line = r) :
    Leads c s (s.kept (r.2.2 (r.2.1.complete ⟨fn, 0, e.tag⟩ r.1.1 r.1.2.1 0 r.1.2.2))) :=
  leads_of_steady gate (by simp [State.cancelReady, running, qmg, next])
    (congrArg s.kept (by simp only [State.cancelWith, next, answer]))

end

/-! #### DESTROY_QUEUE and RESET_QUEUE (R156, R157, R162) -/

section
variable {s : State} {fn : Nat} {l : Line}

theorem State.destroyQueue_refused {x : Nat × Nat} (error : s.tearError fn l = some x) :
    s.destroyQueue fn l = (x.1, x.2, 0, 0, s) := by
  simp only [State.destroyQueue, error]

theorem State.destroyQueue_tears (valid : s.tearError fn l = none) :
    s.destroyQueue fn l = (0, 0, 0,
      tornSpecific (s.tearSignalled fn (entryBytes l 4 2)).2.1 (s.tearSignalled fn (entryBytes l 4 2)).2.2,
      (s.tearSignalled fn (entryBytes l 4 2)).1.delQueue fn (entryBytes l 4 2)) := by
  simp only [State.destroyQueue, valid]

theorem State.resetQueue_refused {x : Nat × Nat} (error : s.tearError fn l = some x) :
    s.resetQueue fn l = (x.1, x.2, 0, 0, s) := by
  simp only [State.resetQueue, error]

theorem State.resetQueue_tears (valid : s.tearError fn l = none) :
    s.resetQueue fn l = (0, 0, 0,
      tornSpecific (s.tearSignalled fn (entryBytes l 4 2)).2.1 (s.tearSignalled fn (entryBytes l 4 2)).2.2,
      (s.tearSignalled fn (entryBytes l 4 2)).1.onQueue fn (entryBytes l 4 2) Queue.emptied) := by
  simp only [State.resetQueue, valid]

/-! #### GRAPH_UNLOAD (R189) -/

theorem State.graphUnload_reserved (bad : entryBits l 4 6 2 ≠ 0 ∨ entryNonzero l 5 60 = true) :
    s.graphUnload fn l = (0x10, 0x01, 0, 0, s) :=
  if_pos bad

/-- With its reserved fields 0, the command turns on whether the graph is loaded and on whether a RUN uses it. -/
theorem State.graphUnload_checked (bits : entryBits l 4 6 2 = 0) (rest : entryNonzero l 5 60 = false) :
    s.graphUnload fn l =
      if (s.graph fn (entryBits l 4 0 6)).isNone then (0x10, 0x2F, 0, 0, s)
      else if s.graphBusy fn (entryBits l 4 0 6) then (0x10, 0x2E, 0, 0, s)
      else (0, 0, 0, 0, { s with bsn := { s.bsn with graphs := del s.bsn.graphs (fn * 64 + entryBits l 4 0 6) } }) :=
  if_neg (by simp [bits, rest])

theorem State.graphUnload_absent (bits : entryBits l 4 6 2 = 0) (rest : entryNonzero l 5 60 = false)
    (absent : s.graph fn (entryBits l 4 0 6) = none) : s.graphUnload fn l = (0x10, 0x2F, 0, 0, s) :=
  (State.graphUnload_checked bits rest).trans (if_pos (by simp [absent]))

theorem State.graphUnload_loaded (bits : entryBits l 4 6 2 = 0) (rest : entryNonzero l 5 60 = false)
    (loaded : (s.graph fn (entryBits l 4 0 6)).isSome = true) :
    s.graphUnload fn l =
      if s.graphBusy fn (entryBits l 4 0 6) then (0x10, 0x2E, 0, 0, s)
      else (0, 0, 0, 0, { s with bsn := { s.bsn with graphs := del s.bsn.graphs (fn * 64 + entryBits l 4 0 6) } }) :=
  (State.graphUnload_checked bits rest).trans (if_neg (by simpa [Option.isSome_iff_ne_none] using loaded))

/-! #### CANCEL (R222 to R225) -/

theorem State.cancelTask_refused {x : Nat × Nat} (error : s.cancelError fn l = some x) :
    s.cancelTask fn l = ((x.1, x.2, 0), s, id) := by
  simp only [State.cancelTask, error]

/-- Nothing follows the completion of a CANCEL of TASK scope, refused or not (R223). -/
theorem State.cancelTask_ends (s : State) (fn : Nat) (l : Line) :
    s.cancelTask fn l = ((s.cancelTask fn l).1, (s.cancelTask fn l).2.1, id) := by
  cases error : s.cancelError fn l with
  | none => simp only [State.cancelTask, error]
  | some x => rw [State.cancelTask_refused error]

theorem State.cancelRunCmd_refused {x : Nat × Nat} (error : s.cancelError fn l = some x) :
    s.cancelRunCmd fn l = ((x.1, x.2, 0), s, id) := by
  simp only [State.cancelRunCmd, error]

theorem State.cancelRunCmd_named (valid : s.cancelError fn l = none) :
    s.cancelRunCmd fn l = s.cancelRuns 0x01 (s.namedRuns l) := by
  simp only [State.cancelRunCmd, valid]

theorem State.cancelFunctionCmd_refused {x : Nat × Nat} (error : s.cancelError fn l = some x) :
    s.cancelFunctionCmd fn l = ((x.1, x.2, 0), s, id) := by
  simp only [State.cancelFunctionCmd, error]

theorem State.cancelFunctionCmd_active (valid : s.cancelError fn l = none) :
    s.cancelFunctionCmd fn l = s.cancelRuns 0x02 (s.activeRuns (cancelFn l) (fun _ _ => true)) := by
  simp only [State.cancelFunctionCmd, valid]

end

/-! #### The commands, by their gates -/

section
variable {s u : State} {fn st sub len spec : Nat} {e : Entry}

theorem destroyQueue_leads (running : s.running = true) (qmg : s.ready 2 = true) (next : s.adminNext fn 0x2 = some e)
    (answer : s.destroyQueue fn e.line = (st, sub, len, spec, u)) :
    Leads (.destroyQueue fn) s (s.kept (u.complete ⟨fn, 0, e.tag⟩ st sub len spec)) :=
  leads_of_adminRun (show _ = execDestroyQueue fn s from rfl) running qmg next answer

theorem resetQueue_leads (running : s.running = true) (qmg : s.ready 2 = true) (next : s.adminNext fn 0x3 = some e)
    (answer : s.resetQueue fn e.line = (st, sub, len, spec, u)) :
    Leads (.resetQueue fn) s (s.kept (u.complete ⟨fn, 0, e.tag⟩ st sub len spec)) :=
  leads_of_adminRun (show _ = execResetQueue fn s from rfl) running qmg next answer

theorem graphUnload_leads (running : s.running = true) (qmg : s.ready 2 = true) (next : s.adminNext fn 0x11 = some e)
    (answer : s.graphUnload fn e.line = (st, sub, len, spec, u)) :
    Leads (.graphUnload fn) s (s.kept (u.complete ⟨fn, 0, e.tag⟩ st sub len spec)) :=
  leads_of_adminRun (show _ = execGraphUnload fn s from rfl) running qmg next answer

end

/-- Settles O9, clause by clause: the queue commands, the two graph commands and the CANCEL scopes, each with its failed
checks and its effect. -/
theorem adminCommandsComplete : Obligations.AdminCommandsComplete := by
  refine ⟨?_, ?_, ?_, ?_, ?_, ?_, ?_, ?_, ?_, ?_, ?_, ?_, ?_, ?_, ?_, ?_, ?_, ?_⟩
  · intro s fn e running qmg next valid
    exact leads_of_adminRun (show _ = execCreateQueue fn s from rfl) running qmg next (by simp only [valid])
  · intro s fn e st sub running qmg next error other
    exact leads_of_adminRun (show _ = execCreateQueue fn s from rfl) running qmg next
      (by simp only [error, if_neg other])
  · intro s fn e st running qmg next pool
    exact leads_of_adminRun (show _ = execCreateQueue fn s from rfl) running qmg next (by simp only [pool, if_true])
  · intro s fn e running qmg next valid
    exact destroyQueue_leads running qmg next (State.destroyQueue_tears valid)
  · intro s fn e x running qmg next error
    exact destroyQueue_leads running qmg next (State.destroyQueue_refused error)
  · intro s fn e running qmg next valid
    exact resetQueue_leads running qmg next (State.resetQueue_tears valid)
  · intro s fn e x running qmg next error
    exact resetQueue_leads running qmg next (State.resetQueue_refused error)
  · intro s fn e running qmg next
    exact leads_of_adminRun (show _ = execGraphLoad fn s from rfl) running qmg next rfl
  · intro s fn e running qmg next bits rest loaded idle
    exact graphUnload_leads running qmg next
      ((State.graphUnload_loaded bits rest loaded).trans (if_neg (ne_true_of_eq_false idle)))
  · intro s fn e running qmg next bits rest absent
    exact graphUnload_leads running qmg next (State.graphUnload_absent bits rest absent)
  · intro s fn e running qmg next bits rest loaded busy
    exact graphUnload_leads running qmg next ((State.graphUnload_loaded bits rest loaded).trans (if_pos busy))
  · intro s fn e running qmg next bad
    exact graphUnload_leads running qmg next (State.graphUnload_reserved bad)
  · intro s fn e x running qmg next error
    exact leads_of_cancelWith (show _ = execCancelTask fn s from rfl) running qmg next (State.cancelTask_refused error)
  · intro s fn e x running qmg next error
    exact leads_of_cancelWith (show _ = execCancelRun fn s from rfl) running qmg next (State.cancelRunCmd_refused error)
  · intro s fn e x running qmg next error
    exact leads_of_cancelWith (show _ = execCancelFunction fn s from rfl) running qmg next
      (State.cancelFunctionCmd_refused error)
  · intro s fn e running qmg next _
    exact leads_of_cancelWith (show _ = execCancelTask fn s from rfl) running qmg next
      (State.cancelTask_ends s fn e.line)
  · intro s fn e running qmg next valid
    exact leads_of_cancelWith (show _ = execCancelRun fn s from rfl) running qmg next (State.cancelRunCmd_named valid)
  · intro s fn e running qmg next valid
    exact leads_of_cancelWith (show _ = execCancelFunction fn s from rfl) running qmg next
      (State.cancelFunctionCmd_active valid)

end Sys2Proof.Machine

/-!
### Pipeline graphs (spec/07_pipeline_graphs.md): a RUN from its check to its end

A RUN is checked and held (R191), starts with its banks (R303), makes its morsels (R203), streams its SINKs (R193, R194)
and ends (R195); EXCHANGE, SINK and HOLD_READ tasks run when they are ready. Where a command's effect branches, a lemma
about that effect says what it is in each branch; the gates that two clauses share have a lemma of their own.
-/

namespace Sys2Proof.Machine

/-! #### The check of a RUN (R191) -/

section
variable {s u : State} {fn qid : Nat} {e : Entry}

theorem run_leads (running : s.running = true) (bsn : s.ready 3 = true) (handed : s.handedEntry fn qid 1 = some e)
    (effect : s.runCheck fn qid = u) : Leads (.run fn qid) s (s.kept u) :=
  leads_of_steady (show _ = execRun fn qid s from rfl) (by simp [running, bsn, handed]) (congrArg s.kept effect)

theorem State.runCheck_refused {x : Nat × Nat} (handed : s.handedEntry fn qid 1 = some e)
    (error : s.runError fn e.line = some x) : s.runCheck fn qid = s.complete ⟨fn, qid, e.tag⟩ x.1 x.2 0 0 := by
  simp only [State.runCheck, handed, error]

/-- A RUN that passes its check is held, and its record waits for flows and banks. -/
theorem State.runCheck_held (handed : s.handedEntry fn qid 1 = some e) (valid : s.runError fn e.line = none) :
    s.runCheck fn qid = { s.setStage ⟨fn, qid, e.tag⟩ .held with
      bsn := { (s.setStage ⟨fn, qid, e.tag⟩ .held).bsn with
        runs := put (s.setStage ⟨fn, qid, e.tag⟩ .held).bsn.runs e.tag (s.newRun fn qid e.line) } } := by
  simp only [State.runCheck, handed, valid]

end

/-! #### The end of a RUN (R184, R195, R225) -/

section
variable {s u : State} {r : Nat} {x : Run}

theorem runEnd_leads (running : s.running = true) (bsn : s.ready 3 = true) (here : s.run r = some x)
    (ends : (x.started = true ∧ x.stopping = true) ∨ s.runDone r x = true) (effect : s.runEnd r = u) :
    Leads (.runEnd r) s (s.kept u) :=
  leads_of_steady (show _ = execRunEnd r s from rfl) (by simpa [running, bsn, here] using ends) (congrArg s.kept effect)

theorem State.runEnd_failed {f : Nat × Nat × Nat × Nat} (here : s.run r = some x) (failed : x.first = some f) :
    s.runEnd r = s.finishRun r f.2.2.1 f.2.2.2 := by
  simp only [State.runEnd, here, failed]

theorem State.runEnd_success (here : s.run r = some x) (good : x.first = none) : s.runEnd r = s.finishRun r 0 0 := by
  simp only [State.runEnd, here, good]

end

/-- Settles O10, clause by clause: a RUN's check, start and claim on the banks, its morsels, its end and its streams;
then the tasks of EXCHANGE, SINK and HOLD_READ nodes. -/
theorem runCommandsComplete : Obligations.RunCommandsComplete := by
  refine ⟨?_, ?_, ?_, ?_, ?_, ?_, ?_, ?_, ?_, ?_, ?_⟩
  · intro s fn qid e x running bsn handed error
    exact run_leads running bsn handed (State.runCheck_refused handed error)
  · intro s fn qid e running bsn handed valid
    exact run_leads running bsn handed (State.runCheck_held handed valid)
  · intro s r host starts awake may
    have shallow : s.rd fCVC_PS_STATUS_STATE 0 < 3 := awake
    exact leads_of_steady (show _ = execRunStart r host s from rfl) (by simp [starts, shallow, may]) rfl
  · intro s r x running bsn free oldest waited
    exact leads_of_steady (show _ = execBankHold r s from rfl) (by simp [running, bsn, free, oldest, waited]) rfl
  · intro s r n host starts ready
    exact leads_of_steady (show _ = execSourceMorsel r n host s from rfl) (by simp [starts, ready]) rfl
  · intro s r x f running bsn here ends failed
    exact runEnd_leads running bsn here ends (State.runEnd_failed here failed)
  · intro s r x running bsn here ends good
    exact runEnd_leads running bsn here ends (State.runEnd_success here good)
  · intro s r x running here streams going
    refine leads_of_steady (show _ = execSegmentRecheck r s from rfl) ?_ rfl
    simpa [running, here, going, Option.isSome_iff_ne_none] using streams
  · intro s k ready
    exact leads_of_steady (show _ = execExchangeTask k s from rfl) ready rfl
  · intro s k ready turn
    exact leads_of_steady (show _ = execSinkTask k s from rfl) (by simp [ready, turn]) rfl
  · intro s k x awake starts noUpdate noEntry task pegged place going
    refine leads_of_steady (show _ = execHoldReadTask k s from rfl) ?_ rfl
    simp [awake, starts, noUpdate, noEntry, task, pegged, place, going]

end Sys2Proof.Machine

/-!
### Operator core (spec/09_operator_core.md): the register files and local store

The constant registers, a store to local store, the state that a written result leaves, and the registers of a task that
starts.
-/

namespace Sys2Proof.Machine

/-! #### Constant registers (R238, R268) -/

/-- Settles O50: each accessor reads its register 0 as the constant and drops a write to it before anything else. -/
theorem zeroRegisters : Obligations.ZeroRegisters := by
  intro c p v b k
  exact ⟨c.getX_zero, rfl, rfl, c.putX_zero v, rfl, rfl⟩

/-! #### Local store (R250, R251, R263) -/

/-- Of a core a store to local store reaches local store, the marks of its errors and the errors that are armed. -/
theorem Core.lsWrite_shape (c : Core) (off : Nat) (d : List Byte) :
    ∃ bad armed, c.lsWrite off d = { c with ls := Mem.store c.ls off d, lsBad := bad, armed := armed } := by
  unfold Core.lsWrite
  dsimp only
  split
  · exact ⟨_, _, rfl⟩
  · exact ⟨_, c.armed, rfl⟩

/-- Settles O43: the bytes by the rules of a store, the registers by what a store to local store reaches. -/
theorem localStoreWritten : Obligations.LocalStoreWritten := by
  intro c off d
  obtain ⟨bad, armed, shape⟩ := c.lsWrite_shape off d
  rw [shape]
  refine ⟨?readBack, ?outside, fun r => rfl, rfl, rfl, rfl, rfl, rfl⟩
  case readBack => exact Mem.bytes_store c.ls off d
  case outside => exact fun q away => Mem.byte_store_outside c.ls off q d away

/-! #### The state after a written result (R238, R244, R246) -/

/-- Reading registers leaves HBM as it is. -/
theorem State.readRegs_hbm (s : State) (t : Nat) (w : Dword) (reads : List Nat) :
    (s.readRegs t w reads).hbm = s.hbm := by
  unfold State.readRegs State.correctRegs
  exact foldl_keeps State.hbm _ (fun s r => by rw [State.tileCorrected_hbm]; rfl) _ s

/-- Once its registers are read an instruction stays in its code where it did before. -/
theorem State.readRegs_stays {s : State} {t : Nat} (w : Dword) (reads : List Nat)
    (h : s.stays t (((s.core t).pc + 4) % 2 ^ 64)) :
    (s.readRegs t w reads).stays t ((((s.readRegs t w reads).core t).pc + 4) % 2 ^ 64) := by
  obtain ⟨_, core⟩ := s.readRegs_core t w reads
  have bsn : (s.readRegs t w reads).bsn = s.bsn := s.correctRegs_bsn t _
  have task : ((s.readRegs t w reads).core t).task = (s.core t).task := by rw [core]
  intro kx running
  rw [State.tileTask_congr task bsn] at running
  rw [State.inBlob_congr bsn, core]
  exact h kx running

/-- A written scalar register keeps the code that the pc must lie in. -/
theorem State.putX_stays {s : State} {t pc : Nat} (r : Nat) (v : Qword) (h : s.stays t pc) :
    (s.onCore t (fun c => c.putX r v)).stays t pc := by
  have task : ((s.onCore t (fun c => c.putX r v)).core t).task = (s.core t).task := by
    rw [State.core_onCore]
    exact ((s.core t).putX_keeps r v).1
  intro kx running
  rw [State.tileTask_congr task rfl] at running
  rw [State.inBlob_congr rfl]
  exact h kx running

/-- An instruction that writes its result and stays in its code: the register is written, the core advances, and that is
all. -/
theorem State.writeBack_stays {s : State} {t rd : Nat} {v : Qword} (h : s.stays t (((s.core t).pc + 4) % 2 ^ 64)) :
    s.writeBack t rd v =
      (s.onCore t (fun c => c.putX rd v)).onCore t (fun c => c.advance ((c.pc + 4) % 2 ^ 64) false) := by
  refine State.nextPc_stays ?_
  have pc : ((s.onCore t (fun c => c.putX rd v)).core t).pc = (s.core t).pc := by
    rw [State.core_onCore]
    obtain ⟨-, pc, -⟩ := (s.core t).putX_keeps rd v
    exact pc
  rw [pc]
  exact State.putX_stays rd v h

/-- The core of the tile after a written result: the register is written and the core advances, on the core of before
with the errors of its registers corrected. -/
theorem State.writes_core {s : State} {t : Nat} {w : Dword} {reads : List Nat} {v : Qword}
    (h : s.stays t (((s.core t).pc + 4) % 2 ^ 64)) :
    ∃ bad, (s.writes t w reads v).core t =
      (({ s.core t with regBad := bad } : Core).putX (wA w) v).advance (((s.core t).pc + 4) % 2 ^ 64) false := by
  obtain ⟨bad, core⟩ := s.readRegs_core t w reads
  have stays := State.readRegs_stays w reads h
  obtain ⟨-, pc, -⟩ := ({ s.core t with regBad := bad } : Core).putX_keeps (wA w) v
  refine ⟨bad, ?_⟩
  simp only [State.writes, State.core_outsideCores, State.writeBack_stays stays, State.core_onCore, core, pc]

/-- A written result reaches no other tile, and neither HBM nor host memory nor the queue. -/
theorem State.writes_frame {s : State} {t : Nat} {w : Dword} {reads : List Nat} {v : Qword}
    (h : s.stays t (((s.core t).pc + 4) % 2 ^ 64)) :
    (∀ u, u ≠ t → (s.writes t w reads v).core u = s.core u) ∧ (s.writes t w reads v).hbm = s.hbm ∧
      (s.writes t w reads v).hostMem = s.hostMem ∧ (s.writes t w reads v).pending = s.pending := by
  have stays := State.readRegs_stays w reads h
  refine ⟨fun u other => ?_, ?_, rfl, rfl⟩
  · simp only [State.writes, State.core_outsideCores, State.writeBack_stays stays, State.core_onCore_other _ _ other]
    exact s.correctRegs_other t _ other
  · simp only [State.writes, State.writeBack_stays stays]
    exact s.readRegs_hbm t w reads

/-- Settles O42: the core of the tile is that of before with rd written, and advanced; the rest is the frame. -/
theorem resultWritten : Obligations.ResultWritten := by
  intro s t w reads v h
  obtain ⟨bad, core⟩ := State.writes_core (w := w) (reads := reads) (v := v) h
  obtain ⟨others, hbm, hostMem, pending⟩ := State.writes_frame (w := w) (reads := reads) (v := v) h
  obtain ⟨-, -, instret, p, vregs, m, vl, vrs, ls⟩ := ({ s.core t with regBad := bad } : Core).putX_keeps (wA w) v
  rw [core]
  refine ⟨?rd, fun r other => ?rest, rfl, congrArg (· + 1) instret, p, vregs, m, vl, vrs, ls, others, hbm, hostMem,
    pending⟩
  case rd =>
    by_cases zero : wA w = 0
    · rw [zero]; rfl
    · rw [if_neg zero]; exact Core.getX_putX _ _ v zero
  case rest => exact Core.getX_putX_other _ v other

/-! #### The registers of a task that starts (R239, R240, R269) -/

/-- A scrubbed tile holds no vector register (R213). -/
theorem State.scrub_v (s : State) (t : Nat) : ((s.scrub t).core t).v = [] := by
  have core : (s.scrub t).core t = { (s.core t).scrub with
      resetEnd := (s.core t).resetEnd, scrubEnd := max s.clk.tsu (s.core t).resetEnd + s.scrubTicks } :=
    State.core_setCore s t _
  rw [core]
  rfl

/-- A run that is not stopping is there. -/
theorem State.run_of_not_stopping {s : State} {x : Task} (h : s.runStopping x = false) :
    ∃ r, s.run x.run = some r := by
  cases run : s.run x.run with
  | none => simp [State.runStopping, run] at h
  | some r => exact ⟨r, rfl⟩

/-- The core `c` has begun task `k`, of node `node` of graph `g` in run `r`, with the vector registers `v`: what R239,
R240 and R269 say of its registers. -/
structure Core.Begun (c : Core) (g : Graph) (r : Run) (k node : Nat) (v : NMap VReg) : Prop where
  task : c.task = some k
  pc : c.pc = g.entry r node
  vl : c.vl = 0
  vrs : c.vrs = 0
  instret : c.instret = 0
  preds : c.p = 0
  masks : ∀ q, q ≠ 0 → c.getM q = 0
  x1 : c.getX 1 = 0xFFFF000000000000#64
  x2 : c.getX 2 = 0xFFFF000000000800#64
  x3 : c.getX 3 = BitVec.ofNat 64 (0xFFFF000000000800 + fieldAt (r.record (g.node node)) 4 4)
  x4 : c.getX 4 = BitVec.ofNat 64 (g.node node).lsBytes
  rest : ∀ q, 5 ≤ q → c.getX q = 0
  vregs : c.v = v

/-- x1 to x4 of a task that begins, and the other scalar registers (R240). -/
theorem Core.begin_getX (c : Core) (k pc const lsBytes cyc : Nat) (bank : Mem) :
    (c.begin k pc const lsBytes cyc bank).getX 1 = 0xFFFF000000000000#64 ∧
    (c.begin k pc const lsBytes cyc bank).getX 2 = 0xFFFF000000000800#64 ∧
    (c.begin k pc const lsBytes cyc bank).getX 3 = BitVec.ofNat 64 (0xFFFF000000000800 + const) ∧
    (c.begin k pc const lsBytes cyc bank).getX 4 = BitVec.ofNat 64 lsBytes ∧
    ∀ q, 5 ≤ q → (c.begin k pc const lsBytes cyc bank).getX q = 0 := by
  refine ⟨?_, ?_, ?_, ?_, fun q large => ?_⟩
  · simp [Core.getX, Core.begin, getD_setD_other]
  · simp [Core.getX, Core.begin, getD_setD_other]
  · simp [Core.getX, Core.begin, getD_setD_other]
  · simp [Core.getX, Core.begin]
  · obtain ⟨n0, n1, n2, n3, n4⟩ : q ≠ 0 ∧ q ≠ 1 ∧ q ≠ 2 ∧ q ≠ 3 ∧ q ≠ 4 := by omega
    have empty : getD (0 : Qword) [] q = 0 := rfl
    simpa [Core.getX, Core.begin, getD_setD_other, n0, n1, n2, n3, n4] using empty

/-- A task that starts finds its registers as R239, R240 and R269 say, and the vector registers of before. -/
theorem State.startTask_begun {s : State} {t peg k : Nat} {x : Task} {r : Run} (h : s.run x.run = some r) :
    ((s.startTask t peg k x).core t).Begun (s.graphOf r) r k x.node (s.core t).v := by
  obtain ⟨since, a, b, core⟩ := s.startTask_core t peg k x r h
  obtain ⟨x1, x2, x3, x4, rest⟩ := (s.core t).begin_getX k ((s.graphOf r).entry r x.node)
    (fieldAt (r.record ((s.graphOf r).node x.node)) 4 4) ((s.graphOf r).node x.node).lsBytes
    (s.clk.cyc + 12 * ((s.core t).scrubEnd - s.clk.tsu) / s.clk.div)
    (if peg = 0 then (s.core t).bankA else (s.core t).bankB)
  rw [core]
  exact ⟨rfl, rfl, rfl, rfl, rfl, rfl, fun q other => if_neg other, x1, x2, x3, x4, rest, rfl⟩

/-- Registers that begin a task on a run with the same parameters begin it on the other. -/
theorem Core.Begun.of_params {c : Core} {g : Graph} {r r' : Run} {k node : Nat} {v : NMap VReg}
    (h : c.Begun g r' k node v) (params : r'.params = r.params) : c.Begun g r k node v := by
  have record : ∀ n, r'.record n = r.record n := fun n => by unfold Run.record; rw [params]
  have entry : g.entry r' node = g.entry r node := by unfold Graph.entry; rw [record]
  exact { h with pc := h.pc.trans entry, x3 := by rw [← record]; exact h.x3 }

/-- A task whose function the tile does not hold starts on a scrubbed tile: its registers are those of its run, and the
vector registers are empty (R211, R213). -/
theorem State.startTask_scrubbed {s : State} {t peg k fn n : Nat} {x : Task} {r : Run} (h : s.run x.run = some r) :
    ∃ y, (((s.scrub t).chargeCore fn n).stage t peg k x).task k = some y ∧
      (((((s.scrub t).chargeCore fn n).stage t peg k x).startTask t peg k y).core t).Begun
        (s.graphOf r) r k x.node [] := by
  have run : ((s.scrub t).chargeCore fn n).run x.run = some r := h
  obtain ⟨y, r', task, sameRun, node, staged, params, graph⟩ := State.stage_run _ t peg k x r run
  obtain ⟨vregs, -⟩ := State.stage_core ((s.scrub t).chargeCore fn n) t peg k x
  have begun := State.startTask_begun (t := t) (peg := peg) (k := k) (x := y) (sameRun ▸ staged)
  have empty : (((s.scrub t).chargeCore fn n).core t).v = [] := s.scrub_v t
  rw [graph, node, vregs, empty] at begun
  exact ⟨y, task, begun.of_params params⟩

/-- TASK_START that leaves a task on an idle tile has begun the task of peg A, or of B where A is empty (R211). -/
theorem State.taskStart_begun {s : State} {t : Nat} (idle : (s.core t).task = none)
    (started : ((s.taskStart t).core t).task ≠ none) :
    ∃ peg k x r v, s.nextPeg t = some (peg, k, x) ∧ s.run x.run = some r ∧
      ((s.taskStart t).core t).Begun (s.graphOf r) r k x.node v ∧ (v = (s.core t).v ∨ v = []) := by
  cases next : s.nextPeg t with
  | none => simp [State.taskStart, idle, next] at started
  | some pkx =>
    obtain ⟨peg, k, x⟩ := pkx
    cases goes : s.runStopping x with
    | true => simp [State.taskStart, idle, next, goes] at started
    | false =>
      obtain ⟨r, run⟩ := State.run_of_not_stopping goes
      by_cases own : ∀ f ∈ s.tileHolds t, f = x.fn
      · cases staged : x.staged with
        | false =>
          have holds : (s.tileHolds t).all (fun f => decide (f = x.fn)) = true := by
            simpa [Option.all_eq_true] using own
          simp [State.taskStart, idle, next, goes, holds, staged] at started
        | true =>
          rw [State.taskStart_starts idle next goes own staged]
          exact ⟨peg, k, x, r, _, rfl, run, State.startTask_begun run, .inl rfl⟩
      · obtain ⟨f, holds, other⟩ : ∃ f, s.tileHolds t = some f ∧ f ≠ x.fn := by
          simpa using own
        obtain ⟨y, task, begun⟩ := State.startTask_scrubbed (t := t) (peg := peg) (k := k) (fn := x.fn)
          (n := s.scrubTicks) run
        rw [State.taskStart_scrubs idle next goes holds other task]
        exact ⟨peg, k, x, r, _, rfl, run, begun, .inr rfl⟩

/-- Settles O46: the step that starts a task went through its gate, and TASK_START begins the task of the next peg. -/
theorem startedTaskRegisters : Obligations.StartedTaskRegisters := by
  intro s u t step idle started
  have gate : exec (.taskStart t) s = execTaskStart t s := rfl
  rw [gate, execTaskStart] at step
  cases met : s.starts 4 && s.rd fCVC_PS_STATUS_STATE 0 < 2 && s.tileOpen t with
  | false =>
    rw [steady_off met] at step
    cases step
    exact absurd idle started
  | true =>
    rw [steady_on met] at step
    cases step
    obtain ⟨peg, k, x, r, v, next, run, begun, vregs⟩ := State.taskStart_begun idle started
    exact ⟨peg, k, x, r, next, run, begun.task, begun.pc, begun.vl, begun.vrs, begun.instret, begun.preds, begun.masks,
      begun.x1, begun.x2, begun.x3, begun.x4, begun.rest, begun.vregs ▸ vregs⟩

end Sys2Proof.Machine

/-!
### Operator core (spec/09_operator_core.md): instructions that issue

Every instruction word goes through `State.issue` with an effect of its own. A clause about an instruction follows from
two things: that its command is the issue of its encoding, which is how exec dispatches it, and what its effect is on
the core whose registers have been read.
-/

namespace Sys2Proof.Machine

/-! #### From the issue of a word to the next state (R236, R241, R246, R259, R263) -/

section
variable {c : Instr} {s v : State} {t : Nat} {w : Dword} {e : Enc} {reads : List Nat} {f : State → Core → Issued}

/-- The command is the issue of a word of encoding `e` that reads `reads` and has the effect `f`. -/
def IssuesAs (c : Instr) (s : State) (t : Nat) (w : Dword) (e : Enc) (reads : List Nat) (f : State → Core → Issued) :
    Prop :=
  exec c s = coreStep s.running (fun s => s.issue t w e reads f) s

/-- An instruction that goes on leaves the state that its effect makes of the core of before, with the errors of the
registers that it reads corrected (R263). -/
theorem IssuesAs.goes (gate : IssuesAs c s t w e reads f) (h : Issues s t w e reads)
    (effect : ∀ bad, f (s.readRegs t w reads) { s.core t with regBad := bad } = .goes v) :
    Leads c s (s.outsideCores v) := by
  obtain ⟨bad, core⟩ := s.readRegs_core t w reads
  refine leads_of_coreStep gate h.running (congrArg s.outsideCores ?_)
  rw [State.issue_of h, core, effect bad]

/-- An instruction that its effect makes wait changes nothing, the corrected errors included. -/
theorem IssuesAs.waits (gate : IssuesAs c s t w e reads f) (h : Issues s t w e reads)
    (effect : ∀ bad, f (s.readRegs t w reads) { s.core t with regBad := bad } = .wait) :
    Leads c s (s.outsideCores s) := by
  obtain ⟨bad, core⟩ := s.readRegs_core t w reads
  refine leads_of_coreStep gate h.running (congrArg s.outsideCores ?_)
  rw [State.issue_of h, core, effect bad]

/-- An instruction that faults raises its fault at its own word and pc (R259, R260). -/
theorem IssuesAs.raises {st sub addr trap : Nat} (gate : IssuesAs c s t w e reads f) (h : Issues s t w e reads)
    (effect : ∀ bad, f (s.readRegs t w reads) { s.core t with regBad := bad } = .raises st sub addr trap) :
    Leads c s (s.outsideCores
      ((s.readRegs t w reads).preciseFault t (.precise st sub w (s.core t).pc addr trap))) := by
  obtain ⟨bad, core⟩ := s.readRegs_core t w reads
  refine leads_of_coreStep gate h.running (congrArg s.outsideCores ?_)
  rw [State.issue_of h, core, effect bad]

/-- An instruction waits for a register that it reads (R236, R246). -/
theorem IssuesAs.awaits (gate : IssuesAs c s t w e reads f) (next : s.canIssue t w = true) (isLegal : legal w = true)
    (waits : reads.any (s.core t).awaits = true) : Leads c s (s.outsideCores s) :=
  leads_of_coreStep gate (State.running_of_canIssue next)
    (congrArg s.outsideCores (State.issue_wait f next isLegal waits))

end

/-! #### Predicates and legality (R241, R243, R244, R246, R263, R275, R282) -/

section
variable {c : Instr} {s : State} {t : Nat} {w : Dword} {e : Enc}

/-- A word leads to what its issue is, where that does not turn on the effect: a structure load has one effect in a tile
in MAINTENANCE and another elsewhere (R293). -/
theorem leads_of_issue {u : State} (word : coreWord c = some (t, w, e)) (next : s.canIssue t w = true)
    (issue : ∀ reads f, s.issue t w e reads f = u) : Leads c s (s.outsideCores u) := by
  have running := State.running_of_canIssue next
  obtain ⟨reads, f, gate⟩ | gate := exec_issue c s word
  · exact leads_of_coreStep gate running (congrArg s.outsideCores (issue reads f))
  · refine leads_of_coreStep gate running (congrArg s.outsideCores ?_)
    unfold State.segIssue
    split
    · exact issue (scalarReads w) _
    · exact issue (scalarReads w) _

end

/-- Settles O38: which of the four happens is decided before the effect of the instruction, in the order of R246; and a
word with p0 inverted is no instruction's. -/
theorem predicateAndLegality : Obligations.PredicateAndLegality := by
  refine ⟨fun c s t w e word next => ⟨?illegal, ?off, ?badGuard⟩, ?invertedP0⟩
  case illegal =>
    intro notLegal
    exact leads_of_issue word next fun _ f => State.issue_illegal f next notLegal
  case off =>
    intro isLegal has arrived good isOff
    exact leads_of_issue word next fun reads f =>
      State.issue_off f next isLegal has (Core.none_awaits arrived reads) isOff good
  case badGuard =>
    intro isLegal has arrived bad
    exact leads_of_issue word next fun reads f =>
      State.issue_badGuard f next isLegal has (Core.none_awaits arrived reads) bad
  case invertedP0 =>
    intro w p0 inverted
    simp [legal, p0, inverted]

/-! #### Integer instructions (R243 to R245) -/

section
variable {s : State} {t : Nat} {w : Dword} {c : Instr} {e : Enc}

/-- A row of two sources: its command writes `g` of them to rd, or waits for them. -/
theorem regReg_row {g : Qword → Qword → Qword}
    (gate : exec c s = coreStep s.running (fun s => s.regReg t w e g) s) :
    (Issues s t w e [wB w, wC w] →
      Leads c s (s.writes t w [wB w, wC w] (g ((s.core t).getX (wB w)) ((s.core t).getX (wC w))))) ∧
    (s.canIssue t w = true → legal w = true → [wB w, wC w].any (s.core t).awaits = true →
      Leads c s (s.outsideCores s)) := by
  have asIssue : IssuesAs c s t w e [wB w, wC w] _ := gate
  exact ⟨fun h => asIssue.goes h fun _ => rfl, asIssue.awaits⟩

/-- A row of one source: its command writes `g` of it to rd, or waits for it. -/
theorem regOne_row {g : Qword → Qword} (gate : exec c s = coreStep s.running (fun s => s.regOne t w e g) s) :
    (Issues s t w e [wB w] → Leads c s (s.writes t w [wB w] (g ((s.core t).getX (wB w))))) ∧
    (s.canIssue t w = true → legal w = true → [wB w].any (s.core t).awaits = true →
      Leads c s (s.outsideCores s)) := by
  have asIssue : IssuesAs c s t w e [wB w] _ := gate
  exact ⟨fun h => asIssue.goes h fun _ => rfl, asIssue.awaits⟩

end

/-- Settles O21: each row of the table is the function with which exec dispatches its command. -/
theorem twoSourceResults : Obligations.TwoSourceResults := by
  intro s t w p row
  have gate : exec (p.1 t w) s = coreStep s.running (fun s => s.regReg t w p.2.1 p.2.2) s := by
    fin_cases row <;> rfl
  exact regReg_row gate

/-- Settles O22: each row of the table is the function with which exec dispatches its command. -/
theorem oneSourceResults : Obligations.OneSourceResults := by
  intro s t w p row
  have gate : exec (p.1 t w) s = coreStep s.running (fun s => s.regOne t w p.2.1 (p.2.2 w)) s := by
    fin_cases row <;> rfl
  exact regOne_row gate

/-! #### Instructions that read no scalar register (R239, R243, R244, R266, R279) -/

/-- Settles O23, instruction by instruction; a maintenance program's tile decides what MAINTENANCE_OP does. -/
theorem immediateResults : Obligations.ImmediateResults := by
  intro s t w
  refine ⟨?lui, ?addpc, ?rdcnt, ?ptox, ?vrdvl, ?maintenanceOp⟩
  case lui => exact fun h => IssuesAs.goes rfl h fun _ => rfl
  case addpc => exact fun h => IssuesAs.goes rfl h fun _ => rfl
  case rdcnt =>
    refine fun h => IssuesAs.goes rfl h fun bad => ?_
    have counter : (s.readRegs t w []).counter { s.core t with regBad := bad } (wB w) =
        s.counter (s.core t) (wB w) := by
      simp only [State.counter, State.cyclesSince, State.readRegs_clk]
    simp only [counter]
  case ptox => exact fun h => IssuesAs.goes rfl h fun _ => rfl
  case vrdvl => exact fun h => IssuesAs.goes rfl h fun _ => rfl
  case maintenanceOp =>
    rintro u rfl h
    have gate : IssuesAs (.maintenanceOp t w) s t w encMaintenanceOp [] _ := rfl
    exact ⟨fun maint => gate.goes h fun _ => if_pos maint, fun service => gate.raises h fun _ => if_neg service⟩

/-! #### Compares and predicate operations (R240, R243, R244) -/

/-- Settles O24: a compare, a predicate operation and XTOP each write what they form from the registers that they
read. -/
theorem predicateResults : Obligations.PredicateResults := by
  intro s t w
  refine ⟨?cmp, ?cmpi, ?operations, ?xtop⟩
  case cmp => exact fun h => IssuesAs.goes rfl h fun _ => rfl
  case cmpi => exact fun h => IssuesAs.goes rfl h fun _ => rfl
  case operations =>
    intro p row h
    obtain ⟨n, gate, op⟩ : ∃ n, exec (p.1 t w) s = coreStep s.running (fun s => s.predPred t w p.2.1 n) s ∧
        p.2.2 = predOp n := by
      fin_cases row
      · exact ⟨0, rfl, rfl⟩
      · exact ⟨1, rfl, rfl⟩
      · exact ⟨2, rfl, rfl⟩
      · exact ⟨3, rfl, rfl⟩
    have asIssue : IssuesAs (p.1 t w) s t w p.2.1 [predWord (wBits w 14 3), predWord (wBits w 11 3)] _ := gate
    rw [op]
    exact asIssue.goes h fun _ => rfl
  case xtop => exact fun h => IssuesAs.goes rfl h fun _ => rfl

/-! #### Control (R243, R244, R247, R253, R256, R257, R259) -/

/-- Nothing of a task is outstanding: what FENCE, END and an atomic wait for. -/
theorem Core.outstanding_eq_false {c : Core} (vector : c.vectorBusy = false) (accs : c.accs = []) :
    (c.vectorBusy || !c.accs.isEmpty) = false := by
  simp [vector, accs]

theorem Core.outstanding_eq_true {c : Core} (h : c.vectorBusy = true ∨ c.accs ≠ []) :
    (c.vectorBusy || !c.accs.isEmpty) = true := by
  simpa using h

/-- Settles O25, instruction by instruction; FENCE and END turn on what is outstanding, PREFETCH on the address and JR
on its target. -/
theorem controlCompletes : Obligations.ControlCompletes := by
  rintro s t w n rfl
  refine ⟨?nop, ?prefetch, ?fence, ?fenceWaits, ?endTask, ?endWaits, ?trap, ?br, ?call, ?jr⟩
  case nop => exact fun h => IssuesAs.goes rfl h fun _ => rfl
  case prefetch =>
    rintro u ea rfl rfl h
    have gate : IssuesAs (.prefetch t w) s t w encPrefetch [wB w] _ := rfl
    refine ⟨fun va dpa hbm line => gate.goes h fun bad => ?_, fun none => gate.goes h fun bad => ?_⟩
    · have place : space (memEa { s.core t with regBad := bad } w) = .hbm va := hbm
      simp only [place, line]
    · cases place : space (memEa { s.core t with regBad := bad } w) with
      | hbm va =>
        cases line : (s.readRegs t w [wB w]).translate ((s.readRegs t w [wB w]).tileFn t) va .read with
        | ok dpa => exact absurd line (none va dpa place)
        | error cause => simp only [line]
      | ls off => rfl
      | bad => rfl
  case fence =>
    exact fun h vector accs => IssuesAs.goes rfl h fun _ =>
      if_neg (ne_true_of_eq_false (Core.outstanding_eq_false (c := s.core t) vector accs))
  case fenceWaits =>
    exact fun h busy => IssuesAs.waits rfl h fun _ => if_pos (Core.outstanding_eq_true (c := s.core t) busy)
  case endTask =>
    exact fun h vector accs => IssuesAs.goes rfl h fun _ =>
      if_neg (ne_true_of_eq_false (Core.outstanding_eq_false (c := s.core t) vector accs))
  case endWaits =>
    exact fun h busy => IssuesAs.waits rfl h fun _ => if_pos (Core.outstanding_eq_true (c := s.core t) busy)
  case trap => exact fun h => IssuesAs.raises rfl h fun _ => rfl
  case br => exact fun h => IssuesAs.goes rfl h fun _ => rfl
  case call => exact fun h => IssuesAs.goes rfl h fun _ => rfl
  case jr =>
    rintro v rfl h
    have gate : IssuesAs (.jr t w) s t w encJr [wB w] _ := rfl
    exact ⟨fun aligned => gate.goes h fun _ => if_neg (not_not.mpr aligned),
      fun misaligned => gate.raises h fun _ => if_pos misaligned⟩

end Sys2Proof.Machine

/-!
### Operator core (spec/09_operator_core.md): loads, stores, atomics and the vector instruction queue

What these instructions do turns on the space of their address, its alignment, and what of their task is outstanding.
-/

namespace Sys2Proof.Machine

/-! #### What an effect sees of the core: the correction of register errors is not in it (R263) -/

section
variable (c : Core) (bad : NMap Bool)

@[simp] theorem Core.getX_regBad (r : Nat) : ({ c with regBad := bad } : Core).getX r = c.getX r := rfl
@[simp] theorem memEa_regBad (w : Dword) : memEa { c with regBad := bad } w = memEa c w := rfl
@[simp] theorem Core.vectorBusy_regBad : ({ c with regBad := bad } : Core).vectorBusy = c.vectorBusy := rfl
@[simp] theorem Core.storeRoom_regBad (va : Nat) :
    ({ c with regBad := bad } : Core).storeRoom va = c.storeRoom va := rfl

end

/-! #### Reads of local store (R263) -/

/-- Local store without a marked error in the words that a read touches gives its bytes, and corrects nothing. -/
theorem State.lsGet_clean {s : State} {t off n : Nat} (clean : ∀ k ∈ lsWords off n, find (s.core t).lsBad k = none) :
    s.lsGet t off n = some (Mem.bytes (s.core t).ls off n, s) := by
  have good : (lsWords off n).any (fun k => find (s.core t).lsBad k = some true) = false := by
    simp only [List.any_eq_false, decide_eq_true_eq]
    exact fun k word => by simp [clean k word]
  have none : (lsWords off n).filter (fun k => find (s.core t).lsBad k = some false) = [] := by
    simp only [List.filter_eq_nil_iff, decide_eq_true_eq]
    exact fun k word => by simp [clean k word]
  simp only [State.lsGet, good, none]
  rfl

/-- Reading registers leaves the bytes of local store and the marks of its errors. -/
theorem State.readRegs_lsGet_clean {s : State} {t off n : Nat} (w : Dword) (reads : List Nat)
    (clean : ∀ k ∈ lsWords off n, find (s.core t).lsBad k = none) :
    (s.readRegs t w reads).lsGet t off n = some (Mem.bytes (s.core t).ls off n, s.readRegs t w reads) := by
  obtain ⟨bad, core⟩ := s.readRegs_core t w reads
  rw [State.lsGet_clean (by rw [core]; exact clean), core]

/-! #### Loads (R237, R243, R250, R251, R253, R259, R263, R290) -/

/-- Settles O26: the eight outcomes of a load, for every size and extension. -/
theorem loadsComplete : Obligations.LoadsComplete := by
  rintro s t w ea u rfl rfl p row h
  have dispatch : exec (p.1 t w) s = coreStep s.running (fun s => s.load t w p.2.1 p.2.2.1 p.2.2.2) s := by
    fin_cases row <;> rfl
  have gate : IssuesAs (p.1 t w) s t w p.2.1 [wB w] _ := dispatch
  have address : (s.core t).getX (wB w) + wImm12 w = memEa (s.core t) w := rfl
  rw [address]
  refine ⟨?clean, ?corrected, ?uncorrectable, ?lsWaits, ?hbm, ?hbmWaits, ?misaligned, ?badAddress⟩
  case clean =>
    intro off ls aligned idle clean
    exact gate.goes h fun _ => by simp [ls, aligned, idle, State.readRegs_lsGet_clean w [wB w] clean]
  case corrected =>
    intro off r ls aligned idle found
    exact gate.goes h fun _ => by simp [ls, aligned, idle, found]
  case uncorrectable =>
    intro off ls aligned idle bad
    exact gate.raises h fun _ => by simp [ls, aligned, idle, bad]
  case lsWaits =>
    intro off ls aligned busy
    exact gate.waits h fun _ => by simp [ls, aligned, busy]
  case hbm =>
    intro va hbm aligned slot
    exact gate.goes h fun _ => by simp [hbm, aligned, slot]
  case hbmWaits =>
    intro va hbm aligned full
    exact gate.waits h fun _ => by simp [hbm, aligned, full]
  case misaligned =>
    rintro ⟨off, ls | hbm, odd⟩
    · exact gate.raises h fun _ => by simp [ls, odd]
    · exact gate.raises h fun _ => by simp [hbm, odd]
  case badAddress =>
    intro none
    exact gate.raises h fun _ => by simp [none]

/-! #### Stores (R237, R243, R250, R251, R253, R259, R290) -/

/-- Settles O27: the seven outcomes of a store, for every size. -/
theorem storesComplete : Obligations.StoresComplete := by
  rintro s t w ea u rfl rfl p row h
  have dispatch : exec (p.1 t w) s = coreStep s.running (fun s => s.storeX t w p.2.1 p.2.2) s := by
    fin_cases row <;> rfl
  have gate : IssuesAs (p.1 t w) s t w p.2.1 [wB w, wA w] _ := dispatch
  have address : (s.core t).getX (wB w) + wImm12 w = memEa (s.core t) w := rfl
  rw [address]
  refine ⟨?ls, ?lsWaits, ?hbm, ?hbmWaits, ?isProtected, ?misaligned, ?badAddress⟩
  case ls =>
    intro off ls aligned unprotected idle
    exact gate.goes h fun _ => by simp [ls, aligned, unprotected, idle]
  case lsWaits =>
    intro off ls aligned unprotected busy
    exact gate.waits h fun _ => by simp [ls, aligned, unprotected, busy]
  case hbm =>
    intro va hbm aligned room
    exact gate.goes h fun _ => by simp [hbm, aligned, room]
  case hbmWaits =>
    intro va hbm aligned full
    exact gate.waits h fun _ => by simp [hbm, aligned, full]
  case isProtected =>
    intro off ls aligned closed
    exact gate.raises h fun _ => by simp [ls, aligned, closed]
  case misaligned =>
    rintro ⟨off, ls | hbm, odd⟩
    · exact gate.raises h fun _ => by simp [ls, odd]
    · exact gate.raises h fun _ => by simp [hbm, odd]
  case badAddress =>
    intro none
    exact gate.raises h fun _ => by simp [none]

/-! #### Atomics (R245, R250, R251, R254, R255, R259, R263) -/

/-- Settles O28: the eight outcomes of an atomic, for every operation and both sizes. -/
theorem atomicsComplete : Obligations.AtomicsComplete := by
  rintro s t w n ea rfl rfl p row reads u rfl rfl h
  have dispatch : exec (p.1 t w) s = coreStep s.running (fun s => s.atomicOp t w p.2.1 p.2.2) s := by
    fin_cases row <;> rfl
  have gate : IssuesAs (p.1 t w) s t w p.2.1 _ _ := dispatch
  refine ⟨?clean, ?corrected, ?uncorrectable, ?hbm, ?waits, ?isProtected, ?misaligned, ?badAddress⟩
  case clean =>
    rintro off ls aligned unprotected idle none clean v rfl
    have done := Core.outstanding_eq_false idle none
    exact gate.goes h fun _ => by
      simp [ls, aligned, unprotected, done, State.readRegs_lsGet_clean w _ clean]
  case corrected =>
    rintro off r ls aligned unprotected idle none found v rfl
    have done := Core.outstanding_eq_false idle none
    exact gate.goes h fun _ => by simp [ls, aligned, unprotected, done, found]
  case uncorrectable =>
    intro off ls aligned unprotected idle none bad
    have done := Core.outstanding_eq_false idle none
    exact gate.raises h fun _ => by simp [ls, aligned, unprotected, done, bad]
  case hbm =>
    intro va hbm aligned idle none
    have done := Core.outstanding_eq_false idle none
    exact gate.goes h fun _ => by simp [hbm, aligned, done]
  case waits =>
    rintro ⟨off, ⟨ls, unprotected⟩ | hbm, aligned⟩ outstanding
    · have busy := Core.outstanding_eq_true outstanding
      exact gate.waits h fun _ => by simp [ls, aligned, unprotected, busy]
    · have busy := Core.outstanding_eq_true outstanding
      exact gate.waits h fun _ => by simp [hbm, aligned, busy]
  case isProtected =>
    intro off ls aligned closed
    exact gate.raises h fun _ => by simp [ls, aligned, closed]
  case misaligned =>
    rintro ⟨off, ls | hbm, odd⟩
    · exact gate.raises h fun _ => by simp [ls, odd]
    · exact gate.raises h fun _ => by simp [hbm, odd]
  case badAddress =>
    intro none
    exact gate.raises h fun _ => by simp [none]

/-! #### The vector instruction queue (R266, R274, R280, R293) -/

section
variable {c : Instr} {s : State} {t : Nat} {w : Dword} {e : Enc}

/-- A queued instruction takes its operands and joins the queue, or waits while the queue is full (R280). -/
theorem vIssue_leads (gate : exec c s = coreStep s.running (fun s => s.vIssue t w e) s)
    (h : Issues s t w e (scalarReads w)) :
    ((s.core t).vq.length < 8 → Leads c s (s.outsideCores
      (((s.readRegs t w (scalarReads w)).onCore t (fun (d : Core) => d.enqueue w)).nextPc t))) ∧
    (8 ≤ (s.core t).vq.length → Leads c s (s.outsideCores s)) := by
  have asIssue : IssuesAs c s t w e (scalarReads w) _ := gate
  exact ⟨fun room => asIssue.goes h fun _ => if_neg (Nat.not_le.mpr room),
    fun full => asIssue.waits h fun _ => if_pos full⟩

/-- In a tile in MAINTENANCE a structure load is issued as the queued instructions are (R266, R293). -/
theorem segIssue_maintenance (gate : exec c s = coreStep s.running (fun s => s.segIssue t w e) s)
    (maint : s.rd fOCA_TILE_STATE t = tsMaintenance) :
    exec c s = coreStep s.running (fun s => s.vIssue t w e) s := by
  have queued : s.segIssue t w e = s.vIssue t w e := if_pos maint
  rw [gate, coreStep, coreStep, queued]

/-- In service a structure load is issued to its fault (R266). -/
theorem segIssue_service (gate : exec c s = coreStep s.running (fun s => s.segIssue t w e) s)
    (service : s.rd fOCA_TILE_STATE t ≠ tsMaintenance) :
    IssuesAs c s t w e (scalarReads w) (fun _ _ => .raises 0x30 0x02 0 0) := by
  have faults : s.segIssue t w e = s.issue t w e (scalarReads w) (fun _ _ => .raises 0x30 0x02 0 0) := if_neg service
  rw [IssuesAs, gate, coreStep, coreStep, faults]

end

/-- Settles O29: every queued instruction is issued into the queue, a structure load where its tile is in
MAINTENANCE. -/
theorem vectorQueued : Obligations.VectorQueued := by
  refine ⟨?queued, ?structureLoads⟩
  case queued =>
    intro s t w p row h
    have gate : exec (p.1 t w) s = coreStep s.running (fun s => s.vIssue t w p.2) s := by
      fin_cases row <;> rfl
    exact vIssue_leads gate h
  case structureLoads =>
    intro s t w p row h
    have gate : exec (p.1 t w) s = coreStep s.running (fun s => s.segIssue t w p.2) s := by
      fin_cases row <;> rfl
    refine ⟨fun maint => ?_, fun maint => ?_, fun service => ?_⟩
    · exact (vIssue_leads (segIssue_maintenance gate maint) h).1
    · exact (vIssue_leads (segIssue_maintenance gate maint) h).2
    · exact (segIssue_service gate service).raises h fun _ => rfl

end Sys2Proof.Machine

/-!
### Operator core (spec/09_operator_core.md): the encodings

A word belongs to one instruction at most: to those of its major alone, and of two patterns in one major there is a bit
in both masks for which they ask different values.
-/

namespace Sys2Proof.Machine

/-! #### Encodings that share no word (R241, R243, R244, R274, R275) -/

/-- Any pattern of `a` and any of `b` ask for different values of the bits that both masks select. -/
def Enc.apart (a b : Enc) : Bool := a.pats.all (fun p => b.pats.all (fun q => !Nat.beq (p.2 &&& q.1) (q.2 &&& p.1)))

/-- Some pattern of the encoding has major `m`. -/
def Enc.inMajor (m : Nat) (e : Enc) : Bool := e.pats.any (fun p => Nat.beq (p.2 / 2 ^ 22) m)

/-- A word that meets two patterns has the values of both in the bits that both masks select. -/
theorem masked_agree {w m n v u : Nat} (hv : w &&& m = v) (hu : w &&& n = u) : v &&& n = u &&& m := by
  rw [← hv, ← hu, Nat.and_right_comm]

theorem Enc.not_has_of_apart {a b : Enc} {w : Dword} (apart : a.apart b = true) (first : a.has w = true) :
    b.has w = false := by
  rw [Bool.eq_false_iff]
  intro second
  simp only [Enc.has, Bool.and_eq_true, List.any_eq_true, decide_eq_true_eq] at first second
  obtain ⟨⟨p, hp, meetsP⟩, -⟩ := first
  obtain ⟨⟨q, hq, meetsQ⟩, -⟩ := second
  have differ := List.all_eq_true.mp (List.all_eq_true.mp apart p hp) q hq
  rw [masked_agree meetsP meetsQ, Nat.beq_refl] at differ
  cases differ

/-- A word of an encoding whose masks all select the major lies in a major of the encoding. -/
theorem Enc.inMajor_of_has {e : Enc} {w : Dword} (masks : ∀ p ∈ e.pats, p.1 / 2 ^ 22 = 2 ^ 6 - 1)
    (has : e.has w = true) : e.inMajor (wMajor w) = true := by
  simp only [Enc.has, Bool.and_eq_true, List.any_eq_true, decide_eq_true_eq] at has
  obtain ⟨⟨p, hp, meets⟩, -⟩ := has
  have major : p.2 / 2 ^ 22 = wMajor w := by
    rw [← meets, Nat.and_div_two_pow, masks p hp, Nat.and_two_pow_sub_one_eq_mod]
    rfl
  exact List.any_eq_true.mpr ⟨p, hp, by rw [major]; exact Nat.beq_refl _⟩

theorem encodings_select_major : ∀ e ∈ encodings, ∀ p ∈ e.pats, p.1 / 2 ^ 22 = 2 ^ 6 - 1 := by decide +kernel

/-- Of the encodings in one major, each is apart from those that stand after it. -/
theorem majors_apart : ∀ m < 64, (encodings.filter (Enc.inMajor m)).Pairwise (fun a b => a.apart b = true) := by
  decide +kernel

/-- A word of an encoding is no word of one that stands after it. -/
theorem encodings_earlier {w : Dword} {i j : Nat} (before : i < j) (bound : j < encodings.length)
    (first : (encodings.getD i encNop).has w = true) : (encodings.getD j encNop).has w = false := by
  have here : i < encodings.length := Nat.lt_trans before bound
  rw [List.getD_eq_getElem _ _ here] at first
  rw [List.getD_eq_getElem _ _ bound, Bool.eq_false_iff]
  intro second
  have major : wMajor w < 64 := Nat.mod_lt _ (by decide)
  have inMajor : ∀ e ∈ encodings, e.has w = true → e.inMajor (wMajor w) = true :=
    fun e he => Enc.inMajor_of_has (encodings_select_major e he)
  have apart := List.pairwise_iff_getElem.mp (List.pairwise_filter.mp (majors_apart _ major)) i j here bound before
    (inMajor _ (List.getElem_mem here) first) (inMajor _ (List.getElem_mem bound) second)
  exact absurd second (ne_true_of_eq_false (Enc.not_has_of_apart apart first))

/-- Settles O39: of two places in the list the earlier one's encoding has no word of the later one's. -/
theorem encodingsDisjoint : Obligations.EncodingsDisjoint := by
  intro w i j hi hj hasI hasJ
  obtain before | same | after := Nat.lt_trichotomy i j
  · exact absurd hasJ (ne_true_of_eq_false (encodings_earlier before hj hasI))
  · exact same
  · exact absurd hasI (ne_true_of_eq_false (encodings_earlier after hi hasJ))

end Sys2Proof.Machine

/-!
### Scavex (spec/10_scavex_vector.md): elementwise instructions and configuration

Every elementwise major executes as `Core.vMap` with a function of its own, so one lemma about `Core.vMap` says what
each of them writes and keeps. The configuration instructions do not enter the vector instruction queue: they are issues
as those of the scalar pipeline are.
-/

namespace Sys2Proof.Machine

/-! #### Elementwise instructions (R270 to R272, R274, R276) -/

/-- The code of an element width has two bits: 1, 2, 4 or 8 bytes (R270). -/
theorem wEw_lt (w : Dword) : wEw w < 4 := Nat.mod_lt _ (by decide)

/-- Elements of a width that an instruction can name fill a vector register (R270). -/
theorem VEntry.elements_fill (e : VEntry) : 8 * e.width * maxEl e.width = 4096 := by
  have fill : ∀ ew < 4, 8 * ewBytes ew * maxEl (ewBytes ew) = 4096 := by decide
  exact fill _ (wEw_lt e.word)

/-- Element `i` of vd after a map: what the function makes of element `i` of vd, vs1 and the operand, where `i` is
active (R272). -/
theorem Core.el_vMap (c : Core) (e : VEntry) (scalar : Bool) (f : Nat → Nat → Nat → Nat) {i : Nat}
    (h : i < maxEl e.width) :
    el e.width ((c.vMap e scalar f).getV (wA e.word)) i =
      if active e.width e.count (c.getM (wVm e.word)) i = true then
        f (el e.width (c.getV (wA e.word)) i) (el e.width (c.getV (wB e.word)) i) (e.operand c scalar i)
          % 2 ^ (8 * e.width)
      else el e.width (c.getV (wA e.word)) i := by
  rw [Core.vMap, Core.getV_putV, el_overlayV e.elements_fill _ _ _ _ h]

/-- A map writes no vector register but vd. -/
theorem Core.getV_vMap_other (c : Core) (e : VEntry) (scalar : Bool) (f : Nat → Nat → Nat → Nat) {r : Nat}
    (h : r ≠ wA e.word) : (c.vMap e scalar f).getV r = c.getV r :=
  Core.getV_putV_other c _ h

/-- Settles O51: each row of the table is the function with which its major maps, and a map changes vector registers
only. -/
theorem vectorElements : Obligations.VectorElements := by
  intro c e i below q row major
  have maps : c.vExec e = c.vMap e q.2.1 (q.2.2 e e.width) := by
    fin_cases row <;> simp only [Core.vExec, major]
  rw [maps]
  exact ⟨c.el_vMap e _ _ below, fun r other => c.getV_vMap_other e _ _ other, rfl, rfl, rfl, rfl⟩

/-! #### Configuration (R270, R279, R280, R288, R296) -/

/-- What VRDRS waits for: a vector memory instruction, queued or outstanding. -/
theorem Core.vrsUnsettled_iff {c : Core} :
    (c.memQueued || !c.vmem.isEmpty) = true ↔ c.memQueued = true ∨ c.vmem ≠ [] := by
  simp

/-- What VWRRS waits for: a queued vector memory instruction or an outstanding first-fault load. -/
theorem Core.vrsInUse_iff {c : Core} :
    (c.memQueued || c.vmem.any VMem.firstFault) = true ↔
      c.memQueued = true ∨ ∃ v ∈ c.vmem, v.firstFault = true := by
  simp

/-- Settles O30, instruction by instruction; VRDRS and VWRRS turn on what may still change or use vrs. -/
theorem vectorConfiguration : Obligations.VectorConfiguration := by
  intro s t w
  refine ⟨?vsetvl, ?vrdrs, ?vrdrsWaits, ?vwrrsWaits, ?vwrrs⟩
  case vsetvl =>
    rintro h v rfl
    exact IssuesAs.goes rfl h fun _ => rfl
  case vrdrs =>
    intro h queued outstanding
    have settled : ¬ ((s.core t).memQueued || !(s.core t).vmem.isEmpty) = true :=
      mt Core.vrsUnsettled_iff.mp (by simp [queued, outstanding])
    exact IssuesAs.goes rfl h fun _ => if_neg settled
  case vrdrsWaits =>
    exact fun h busy => IssuesAs.waits rfl h fun _ => if_pos (Core.vrsUnsettled_iff (c := s.core t) |>.mpr busy)
  case vwrrsWaits =>
    exact fun h busy => IssuesAs.waits rfl h fun _ => if_pos (Core.vrsInUse_iff (c := s.core t) |>.mpr busy)
  case vwrrs =>
    intro h queued noFirstFault
    have free : ¬ ((s.core t).memQueued || (s.core t).vmem.any VMem.firstFault) = true :=
      mt Core.vrsInUse_iff.mp (by simpa [queued] using noFirstFault)
    exact IssuesAs.goes rfl h fun _ => if_neg free

end Sys2Proof.Machine

/-!
### Match, Mangle and MOVE engines (spec/11_associative_match.md, spec/12_mangle_compression.md, spec/13_halyard_dma.md)

Tasks run on their engines and end with the results of their work (R216, R328); banks and engines are cleared (R304,
R320) and swapped (R464), and errors are injected (R315, R330). The gates that several clauses share have a lemma of
their own, and what an effect does in each of its branches is a lemma about that effect.
-/

namespace Sys2Proof.Machine

/-! #### Tasks on a Mangle engine or a channel (R215, R325, R326, R350, R351) -/

section
variable {s u : State} {k : Nat} {x : Task}

/-- A task at the head of the engine it is for: the engine takes it, does its work and counts a failed check. -/
theorem State.mangleTask_of {e : Nat} (engine : s.engineOfTask k = some e) (task : s.task k = some x)
    (takes : u = s.engineTakes e x.fn) (work : Nat → Task → Run → Graph → Job (List (Nat × Token))) :
    s.mangleTask k work = (u.engineTask k 9 (work e)).checkFail
      ((((u.engineTask k 9 (work e)).task k).bind Task.result).getD (0, 0, [])).1 := by
  subst takes
  simp only [State.mangleTask, engine, task]

theorem State.moveTask_of {c : Nat} (channel : s.channelOfTask k = some c)
    (work : Nat → Task → Run → Graph → Job (List (Nat × Token))) :
    s.moveTask k work = s.engineTask k 0 (work c) := by
  simp only [State.moveTask, channel]

/-- A MOVE task may run: its channel is not stalled, and the side of the link that its direction uses is free. -/
theorem State.moveReady_of {c dir : Nat} (ready : s.engineReady k [6] = true) (starts : s.starts 7 = true)
    (task : s.task k = some x) (direction : s.moveDir x = dir)
    (side : (if dir = 0 then s.rxFree x.fn else s.txFree x.fn) = true) (channel : s.channelOfTask k = some c)
    (flows : s.chStalled c = false) : s.moveReady k dir = true := by
  simp [State.moveReady, ready, starts, task, direction, side, channel, flows]

end

/-! #### Ends of jobs (R216, R328, R331) -/

theorem taskJobEnd_leads {s u : State} {k : Nat} (running : s.running = true) (effect : s.taskJobEnd k = u) :
    Leads (.engineJobEnd 0 k) s (s.kept u) :=
  leads_of_steady (show _ = execEngineJobEnd 0 k s from rfl) running (congrArg s.kept effect)

section
variable {s : State} {k : Nat} {x : Task} {r : Nat × Nat × List (Nat × Token)}

theorem State.taskJobEnd_amu {tb : Nat} (task : s.task k = some x) (result : x.result = some r)
    (place : x.place = .amu tb) : s.taskJobEnd k = s.endTask k r.1 r.2.1 8 r.2.2 := by
  simp only [State.taskJobEnd, task, result, place]

theorem State.taskJobEnd_halyard {c : Nat} (task : s.task k = some x) (result : x.result = some r)
    (place : x.place = .halyard c) :
    s.taskJobEnd k = ((s.lastStatus c r.1 r.2.1).nextJob c).endTask k r.1 r.2.1 7 r.2.2 := by
  simp only [State.taskJobEnd, task, result, place]

theorem State.taskJobEnd_mangle {e : Nat} (task : s.task k = some x) (result : x.result = some r)
    (place : x.place = .mangle e) : s.taskJobEnd k = (s.engineIdle e).endTask k r.1 r.2.1 9 r.2.2 := by
  simp only [State.taskJobEnd, task, result, place]

end

/-- A descriptor job that has run saves its stream's state and writes its result record (R328, R331). -/
theorem State.descJobEnd_of {s : State} {e : Nat} {j : MglJob} {r : MglResult}
    (head : (s.engineJobs e).head? = some j) (result : j.result = some r) :
    s.descJobEnd e = ((s.engineIdle e).saveState j.fn r).2.endDesc j ((s.engineIdle e).saveState j.fn r).1 := by
  obtain ⟨rest, jobs⟩ := List.head?_eq_some_iff.mp head
  simp only [State.descJobEnd, jobs, result]

/-! #### Banks (R304, R314 to R316, R464) -/

/-- A clear whose 4,096 ticks have passed ends: Darning replaces a bank that leaves service, and must then be able to
start work; another bank is free (R304, R316). -/
theorem bankClearDone_leads {s u : State} {b t0 : Nat} (running : s.running = true)
    (clearing : s.rd fAMU_BANK_STATE b = 1) (begun : find s.amu.clearAt b = some t0) (past : t0 + 4096 ≤ s.clk.tsu)
    (may : s.starts 15 = true ∨ s.bankGoes b = false)
    (effect : (if s.bankGoes b then
        ({ s with amu := { s.amu with clearAt := del s.amu.clearAt b } } : State).replaceBank b
      else ({ s with amu := { s.amu with clearAt := del s.amu.clearAt b } } : State).wr fAMU_BANK_STATE b 0) = u) :
    Leads (.bankClearDone b) s (s.kept u) :=
  leads_of_steady (show _ = execBankClearDone b s from rfl)
    (by simpa [running, clearing, any_past begun past] using may) (congrArg s.kept effect)

theorem amuInject_leads {s u : State} {b e : Nat} {copyBits : Bool} (reach : s.reaches 0 = true)
    (ready : s.ready 8 = true)
    (effect : (s.atRegion 8 0x904).expertWrite 8 (fun s => s.amuInject b e copyBits) = u) :
    Leads (.amuInject b e copyBits) s (s.kept u) :=
  leads_of_steady (show _ = execAmuInject b e copyBits s from rfl) (by simp [reach, ready]) (congrArg s.kept effect)

section
variable {s : State} {b e : Nat}

theorem State.amuInject_copy {x : AmuEntry} (table : (s.tableOf b).isSome = true) (entry : s.amuEntry b e = some x) :
    s.amuInject b e true = s.putEntry b e { x with bad := true } := by
  simp [State.amuInject, Option.isNone_eq_false_iff.mpr table, entry]

theorem State.amuInject_cells {x : AmuEntry} (table : (s.tableOf b).isSome = true) (entry : s.amuEntry b e = some x) :
    s.amuInject b e false = (s.putEntry b e { x with cells := x.cells ^^^ 2 ^ (s.free % 64) }).drawn := by
  simp [State.amuInject, Option.isNone_eq_false_iff.mpr table, entry]

theorem State.amuInject_empty {copyBits : Bool} (table : (s.tableOf b).isSome = true) (entry : s.amuEntry b e = none) :
    s.amuInject b e copyBits = s := by
  simp [State.amuInject, Option.isNone_eq_false_iff.mpr table, entry]

theorem State.amuInject_noTable {copyBits : Bool} (table : s.tableOf b = none) :
    s.amuInject b e copyBits = s.notice 8 b := if_pos (by rw [table]; rfl)

end

/-! #### Engines (R320, R327, R330, R464) -/

theorem engineClearDone_leads {s : State} {e p : Nat} (running : s.running = true) (due : s.clearDue e = true)
    (carried : s.physEngine e = some p) : Leads (.engineClearDone e) s (s.kept (s.clearEngine p)) :=
  leads_of_steady (show _ = execEngineClearDone e s from rfl) (by simp [running, due])
    (congrArg s.kept (by simp only [carried]))

section
variable {s : State} {e : Nat}

/-- A clear before a staged job is due 4,096 ticks after the engine became idle or the job came, whichever is later. -/
theorem State.clearDue_staged {j : MglJob} (head : (s.engineJobs e).head? = some j)
    (other : s.engineClear e j.fn = false) (idle : getD 0 s.mgl.idleAt e + 4096 ≤ s.clk.tsu)
    (came : j.since + 4096 ≤ s.clk.tsu) : s.clearDue e = true := by
  have late : max (getD 0 s.mgl.idleAt e) j.since + 4096 ≤ s.clk.tsu := by omega
  simp [State.clearDue, head, other, late]

theorem State.clearDue_idle {p : Nat} (empty : s.engineJobs e = []) (carried : s.physEngine e = some p)
    (held : s.rd fMGL_ENGINE_FN_VALID p = 1) (idle : getD 0 s.mgl.idleAt e + 4096 ≤ s.clk.tsu) :
    s.clearDue e = true := by
  simp [State.clearDue, empty, carried, held, idle]

end

theorem mglInject_leads {s u : State} {p : Nat} (reach : s.reaches 0 = true) (ready : s.ready 9 = true)
    (effect : (s.atRegion 9 0x904).expertWrite 9 (fun s => s.mglInject p) = u) :
    Leads (.mglInject p) s (s.kept u) :=
  leads_of_steady (show _ = execMglInject p s from rfl) (by simp [reach, ready]) (congrArg s.kept effect)

/-- Settles O12, clause by clause: tasks run and end; descriptor jobs end; banks are cleared, scrubbed and injected;
engines are cleared, run their descriptor jobs, and are injected and swapped. -/
theorem engineCommandsComplete : Obligations.EngineCommandsComplete := by
  refine ⟨?_, ?_, ?_, ?_, ?_, ?_, ?_, ?_, ?_, ?_, ?_, ?_, ?_, ?_, ?_, ?_, ?_, ?_, ?_, ?_, ?_, ?_, ?_, ?_, ?_, ?_⟩
  · intro s k ready starts
    exact leads_of_steady (show _ = execMatchBuildTask k s from rfl) (by simp [ready, starts]) rfl
  · intro s k ready starts
    exact leads_of_steady (show _ = execMatchProbeTask k s from rfl) (by simp [ready, starts]) rfl
  · intro s k e x u ready starts engine task takes
    exact leads_of_steady (show _ = execDecompTask k s from rfl) (by simp [ready, starts, engine])
      (congrArg s.kept (State.mangleTask_of engine task takes decompJob))
  · intro s k e x u ready starts engine task takes
    exact leads_of_steady (show _ = execCompTask k s from rfl) (by simp [ready, starts, engine])
      (congrArg s.kept (State.mangleTask_of engine task takes compJob))
  · intro s k host c x ready starts task direction side channel flows
    exact leads_of_steady (show _ = execMoveTaskIn k host s from rfl)
      (State.moveReady_of ready starts task direction side channel flows)
      (congrArg s.kept (State.moveTask_of channel fun c => moveInJob c host))
  · intro s k host c x ready starts task direction side channel flows
    exact leads_of_steady (show _ = execMoveTaskOut k s host from rfl)
      (State.moveReady_of ready starts task direction side channel flows)
      (congrArg s.kept (State.moveTask_of channel fun c => moveOutJob c host))
  · intro s k tb x r running task result place
    exact taskJobEnd_leads running (State.taskJobEnd_amu task result place)
  · intro s k c x r running task result place
    exact taskJobEnd_leads running (State.taskJobEnd_halyard task result place)
  · intro s k e x r running task result place
    exact taskJobEnd_leads running (State.taskJobEnd_mangle task result place)
  · rintro s e j r p running head result rfl
    exact leads_of_steady (show _ = execEngineJobEnd 1 e s from rfl) running
      (congrArg s.kept (State.descJobEnd_of head result))
  · intro s b t0 running clearing begun past stays
    exact bankClearDone_leads running clearing begun past (.inr stays) (if_neg (ne_true_of_eq_false stays))
  · intro s b t0 running clearing begun past goes starts
    exact bankClearDone_leads running clearing begun past (.inl starts) (if_pos goes)
  · intro s b found kt running ready table
    exact leads_of_steady (show _ = execAmuScrubEntry b s found from rfl) (by simp [running, ready, table]) rfl
  · rintro s b e x u reach ready rfl unlocked table entry
    exact amuInject_leads reach ready ((State.expertWrite_open unlocked).trans (State.amuInject_copy table entry))
  · rintro s b e x u reach ready rfl unlocked table entry
    exact amuInject_leads reach ready ((State.expertWrite_open unlocked).trans (State.amuInject_cells table entry))
  · rintro s b e copyBits u reach ready rfl unlocked table entry
    exact amuInject_leads reach ready ((State.expertWrite_open unlocked).trans (State.amuInject_empty table entry))
  · rintro s b e copyBits u reach ready rfl unlocked table
    exact amuInject_leads reach ready ((State.expertWrite_open unlocked).trans (State.amuInject_noTable table))
  · rintro s b e copyBits u reach ready rfl locked
    exact amuInject_leads reach ready (State.expertWrite_locked locked)
  · intro s e p j running head other idle came carried
    exact engineClearDone_leads running (State.clearDue_staged head other idle came) carried
  · intro s e p running empty carried held idle
    exact engineClearDone_leads running (State.clearDue_idle empty carried held idle) carried
  · intro s e j ready head op
    exact leads_of_steady (show _ = execDecompress e s from rfl) (by simp [ready, head, op]) rfl
  · intro s e j ready head op
    exact leads_of_steady (show _ = execCompress e s from rfl) (by simp [ready, head, op]) rfl
  · rintro s p u reach ready rfl unlocked known
    exact mglInject_leads reach ready ((State.expertWrite_open unlocked).trans (if_pos known))
  · rintro s p u reach ready rfl unlocked absent
    exact mglInject_leads reach ready ((State.expertWrite_open unlocked).trans (if_neg (Nat.not_lt.mpr absent)))
  · rintro s p u reach ready rfl locked
    exact mglInject_leads reach ready (State.expertWrite_locked locked)
  · intro s p ready starts calm marked
    refine leads_of_steady (show _ = execEngineSwap s from rfl) (by simp [ready, starts, calm]) (congrArg s.kept ?_)
    simp only [marked]

end Sys2Proof.Machine

/-!
### Scope (spec/00_scope.md, spec/95_what_each_step_holds.md): a step and the queue of waiting commands
-/

namespace Sys2Proof.Machine

/-- Settles O31: `step` takes the command at the front of the queue and runs `exec` on the state with the rest. -/
theorem stepRunsFront : Obligations.StepRunsFront := fun _ _ => rfl

/-- Settles O33: above 80 V there is no next state, and every other command goes through a gate, which puts the queue
back. -/
theorem queueIsTheSenders : Obligations.QueueIsTheSenders := by
  intro c s t e
  cases v : overvoltage c with
  | true => rw [exec_overvoltage c s v] at e; cases e
  | false =>
    obtain ⟨u, answer, queue⟩ := exec_next c s v
    obtain rfl : u = t := Host.Outcome.next.inj (answer.symm.trans e)
    exact queue

end Sys2Proof.Machine

/-!
### Digest engine (spec/15_digest_engine.md): reach, and the commands of the digest slots
-/

namespace Sys2Proof.Machine

/-! #### What a command of the digest slots reaches (R402 to R404) -/

/-- A command that goes through the gate of the digest slots reaches nothing outside the digest engine, whether or not
its condition holds. -/
theorem outsideDigest_of_digestStep {b : Bool} {f : State → State} {s t : State} (e : digestStep b f s = .next t) :
    t = s.outsideDigest t := by
  obtain ⟨u, answer, frame⟩ := digestStep_next b f s
  obtain rfl : u = t := Host.Outcome.next.inj (answer.symm.trans e)
  exact frame

/-- Settles O37: every command of the digest slots goes through their gate. -/
theorem digestReachesOnlyItself : Obligations.DigestReachesOnlyItself := by
  intro c s t slots e
  obtain ⟨b, f, gate⟩ := exec_digestCommand c s slots
  exact outsideDigest_of_digestStep (gate.symm.trans e)

/-- A command with which a function acts on one of its slots, behind the gate of the digest slots, leaves every slot of
another function. -/
theorem dslot_of_slotAction {c : Instr} {b : Bool} {s t : State} {fn sl g q : Nat} (f : State → State)
    (gate : exec c s = digestStep (b && decide (sl < 16)) (fun s => f (s.atSlot fn sl)) s) (e : exec c s = .next t)
    (one : ∀ u : State, u.OneSlot (f u) fn sl) (other : g ≠ fn) (known : q < 16) : t.dslot g q = s.dslot g q := by
  rw [gate] at e
  cases met : b && decide (sl < 16) with
  | false =>
    rw [digestStep_off met] at e
    cases e; rfl
  | true =>
    rw [digestStep_on met] at e
    cases e
    have slot : sl < 16 := of_decide_eq_true (Bool.and_eq_true_iff.mp met).2
    exact (one (s.atSlot fn sl)).other (slotKey_ne slot known (.inl other))

/-- Settles O52: each of the eight commands is an action on the slot it names. -/
theorem digestSlotsIsolated : Obligations.DigestSlotsIsolated := by
  intro s t fn slot x g q other known e
  obtain e | e | e | e | e | e | e | e := e
  · exact dslot_of_slotAction (fun u => u.claim fn slot (lowBits 3 x)) (show _ = execClaim fn slot x s from rfl) e
      (fun u => u.claim_one fn slot (lowBits 3 x)) other known
  · exact dslot_of_slotAction (fun u => u.releaseSlot fn slot) (show _ = execRelease fn slot s from rfl) e
      (fun u => u.releaseSlot_one fn slot) other known
  · exact dslot_of_slotAction (fun u => u.keySlot fn slot) (show _ = execKeyed fn slot s from rfl) e
      (fun u => u.keySlot_one fn slot) other known
  · exact dslot_of_slotAction (fun u => u.lastSlot fn slot) (show _ = execLast fn slot s from rfl) e
      (fun u => u.lastSlot_one fn slot) other known
  · exact dslot_of_slotAction (fun u => u.exportSlot fn slot) (show _ = execExportContext fn slot s from rfl) e
      (fun u => u.exportSlot_one fn slot) other known
  · exact dslot_of_slotAction (fun u => u.importSlot fn slot) (show _ = execImportContext fn slot s from rfl) e
      (fun u => u.importSlot_one fn slot) other known
  · exact dslot_of_slotAction (fun u => u.restartSlot fn slot) (show _ = execRestart fn slot s from rfl) e
      (fun u => u.restartSlot_one fn slot) other known
  · exact dslot_of_slotAction (fun u => u.slotData fn slot x) (show _ = execDgeSlotData fn slot x s from rfl) e
      (fun u => u.slotData_one fn slot x) other known

/-! #### From the gate of a slot to the next state (R402, R403) -/

theorem leads_of_digestStep {c : Instr} {b : Bool} {f : State → State} {s u : State} (gate : exec c s = digestStep b f s)
    (met : b = true) (effect : f s = u) : Leads c s (s.outsideDigest u) := gate.trans (digestStep_leads met effect)

/-- A command with which a function acts on one of its slots acts on the slot as the access leaves it. -/
theorem slotAction_leads {c : Instr} {s u : State} {fn sl : Nat} (f : State → State)
    (gate : exec c s = digestStep (s.dgeReaches fn && decide (sl < 16)) (fun s => f (s.atSlot fn sl)) s)
    (reach : s.dgeReaches fn = true) (slot : sl < 16) (effect : f (s.atSlot fn sl) = u) :
    Leads c s (s.outsideDigest u) :=
  leads_of_digestStep gate (by simp [reach, slot]) effect

/-! #### The actions of a slot (R402 to R405, R407 to R409, R411) -/

section
variable {s : State} {fn sl alg : Nat}

theorem State.claim_gives (free : (s.dslot fn sl).st = 0) (low : 1 ≤ alg) (high : alg ≤ 4) (context : s.ctxFree ≠ 0)
    (allowed : s.slotsHeld fn < min 16 (s.rd fDGE_FN_LIMIT fn)) :
    s.claim fn sl alg = s.setDslot fn sl { DgeSlot.blank with st := 1, alg := alg, chain := algInit alg } := by
  have known : ¬(alg = 0 ∨ 4 < alg) := by omega
  simp only [State.claim, free, known, context, Nat.not_le.mpr allowed, if_false, OfNat.zero_ne_ofNat, ne_eq,
    not_true_eq_false]

theorem State.claim_held (used : 1 ≤ (s.dslot fn sl).st) (live : (s.dslot fn sl).st ≤ 3) :
    s.claim fn sl alg = s.setDslot fn sl ((s.dslot fn sl).note 0x10 0xA1) :=
  (if_neg (by omega)).trans (if_pos (by omega))

theorem State.claim_lost (lost : (s.dslot fn sl).st = 4) : s.claim fn sl alg = s := if_pos lost

theorem State.claim_unknown (free : (s.dslot fn sl).st = 0) (unknown : alg = 0 ∨ 4 < alg) :
    s.claim fn sl alg = s.setDslot fn sl ((s.dslot fn sl).note 0x10 0xA2) := by
  simp [State.claim, free, unknown]

theorem State.claim_noContext (free : (s.dslot fn sl).st = 0) (low : 1 ≤ alg) (high : alg ≤ 4)
    (exhausted : s.ctxFree = 0) :
    s.claim fn sl alg = (s.setDslot fn sl ((s.dslot fn sl).note 0x17 0x01)).raise 12 4 := by
  have known : ¬(alg = 0 ∨ 4 < alg) := by omega
  simp [State.claim, free, known, exhausted]

theorem State.claim_limited (free : (s.dslot fn sl).st = 0) (low : 1 ≤ alg) (high : alg ≤ 4) (context : s.ctxFree ≠ 0)
    (limited : min 16 (s.rd fDGE_FN_LIMIT fn) ≤ s.slotsHeld fn) :
    s.claim fn sl alg = s.setDslot fn sl ((s.dslot fn sl).note 0x17 0x02) := by
  have known : ¬(alg = 0 ∨ 4 < alg) := by omega
  simp only [State.claim, free, known, context, limited, if_true, if_false, OfNat.zero_ne_ofNat, ne_eq,
    not_true_eq_false]

/-- The context of a claimed slot goes to zeroing (R411). -/
theorem State.releaseSlot_claimed (used : 1 ≤ (s.dslot fn sl).st) (live : (s.dslot fn sl).st ≤ 3) :
    s.releaseSlot fn sl = { s with dge := { s.dge with
      slots := setD DgeSlot.blank s.dge.slots (slotKey fn sl) DgeSlot.blank,
      ready := s.dge.ready.filter (fun (r : Nat × List Byte × Bool) => decide (r.1 ≠ slotKey fn sl)),
      zeroing := s.dge.zeroing ++ [s.clk.tsu] } } := by
  simp only [State.releaseSlot, used, live, and_self, if_true]

theorem State.releaseSlot_unclaimed (unclaimed : (s.dslot fn sl).st = 0 ∨ 4 ≤ (s.dslot fn sl).st) :
    s.releaseSlot fn sl = { s with dge := { s.dge with
      slots := setD DgeSlot.blank s.dge.slots (slotKey fn sl) DgeSlot.blank,
      ready := s.dge.ready.filter (fun (r : Nat × List Byte × Bool) => decide (r.1 ≠ slotKey fn sl)) } } := by
  have noContext : ¬(1 ≤ (s.dslot fn sl).st ∧ (s.dslot fn sl).st ≤ 3) := by omega
  simp only [State.releaseSlot, noContext, if_false]

theorem State.keySlot_keys (active : (s.dslot fn sl).st = 1) (idle : (s.dslot fn sl).busy = 0)
    (empty : (s.dslot fn sl).buf = []) :
    s.keySlot fn sl = s.setDslot fn sl { (s.dslot fn sl).note 0 0 with keyed := true } :=
  (if_neg (by omega)).trans (if_pos ⟨active, idle, empty⟩)

theorem State.keySlot_refused (held : (s.dslot fn sl).st ≠ 4)
    (begun : ¬((s.dslot fn sl).st = 1 ∧ (s.dslot fn sl).busy = 0 ∧ (s.dslot fn sl).buf = [])) :
    s.keySlot fn sl = s.setDslot fn sl ((s.dslot fn sl).note 0x10 0xA6) := (if_neg held).trans (if_neg begun)

theorem State.keySlot_lost (lost : (s.dslot fn sl).st = 4) : s.keySlot fn sl = s := if_pos lost

/-- An action that neither a FREE nor a LOST slot takes does nothing on them. -/
theorem State.onSlot_off {f : DgeSlot → State → State} (off : (s.dslot fn sl).st = 0 ∨ (s.dslot fn sl).st = 4) :
    s.onSlot fn sl f = s := if_pos off

theorem State.onSlot_on {f : DgeSlot → State → State} (used : (s.dslot fn sl).st ≠ 0) (held : (s.dslot fn sl).st ≠ 4) :
    s.onSlot fn sl f = f (s.dslot fn sl) s := if_neg (not_or_intro used held)

theorem State.lastSlot_marks (active : (s.dslot fn sl).st = 1 ∨ (s.dslot fn sl).st = 2)
    (more : ¬((s.dslot fn sl).buf = [] ∧ (s.dslot fn sl).wasLast = true)) :
    s.lastSlot fn sl = s.setDslot fn sl { (s.dslot fn sl).note 0 0 with last := true } :=
  (State.onSlot_on (by omega) (by omega)).trans ((if_neg (by omega)).trans (if_neg more))

theorem State.lastSlot_again (active : (s.dslot fn sl).st = 1 ∨ (s.dslot fn sl).st = 2)
    (empty : (s.dslot fn sl).buf = []) (ended : (s.dslot fn sl).wasLast = true) :
    s.lastSlot fn sl = s.slotError fn sl 0xA4 :=
  (State.onSlot_on (by omega) (by omega)).trans ((if_neg (by omega)).trans (if_pos ⟨empty, ended⟩))

theorem State.lastSlot_ignored (out : (s.dslot fn sl).st = 0 ∨ (s.dslot fn sl).st = 3 ∨ (s.dslot fn sl).st = 4) :
    s.lastSlot fn sl = s := by
  by_cases error : (s.dslot fn sl).st = 3
  · exact (State.onSlot_on (by omega) (by omega)).trans (if_pos error)
  · exact State.onSlot_off (by omega)

theorem State.exportSlot_begins (active : (s.dslot fn sl).st = 1 ∨ (s.dslot fn sl).st = 2)
    (idle : (s.dslot fn sl).busy = 0) : s.exportSlot fn sl = s.setDslot fn sl { s.dslot fn sl with busy := 2 } :=
  (State.onSlot_on (by omega) (by omega)).trans (if_neg (by omega))

theorem State.exportSlot_ignored
    (out : (s.dslot fn sl).st = 0 ∨ (s.dslot fn sl).st = 3 ∨ (s.dslot fn sl).st = 4 ∨ (s.dslot fn sl).busy ≠ 0) :
    s.exportSlot fn sl = s := by
  by_cases off : (s.dslot fn sl).st = 0 ∨ (s.dslot fn sl).st = 4
  · exact State.onSlot_off off
  · exact (State.onSlot_on (by omega) (by omega)).trans (if_pos (by omega))

theorem State.importSlot_begins (active : (s.dslot fn sl).st = 1) (plain : (s.dslot fn sl).keyed = false)
    (idle : (s.dslot fn sl).busy = 0) (empty : (s.dslot fn sl).buf = []) :
    s.importSlot fn sl = s.setDslot fn sl { s.dslot fn sl with busy := 3 } := by
  simp [State.importSlot, active, plain, idle, empty]

theorem State.importSlot_free (free : (s.dslot fn sl).st = 0) :
    s.importSlot fn sl = s.setDslot fn sl ((s.dslot fn sl).note 0x10 0xA7) := (if_neg (by omega)).trans (if_pos free)

theorem State.importSlot_begun (used : (s.dslot fn sl).st ≠ 0) (held : (s.dslot fn sl).st ≠ 4)
    (begun : ¬((s.dslot fn sl).st = 1 ∧ (s.dslot fn sl).keyed = false ∧ (s.dslot fn sl).busy = 0 ∧
      (s.dslot fn sl).buf = [])) : s.importSlot fn sl = s.slotError fn sl 0xA7 :=
  (if_neg held).trans ((if_neg used).trans (if_neg (by simpa using begun)))

theorem State.importSlot_lost (lost : (s.dslot fn sl).st = 4) : s.importSlot fn sl = s := if_pos lost

/-! #### Blocks (R405, R406) -/

variable {v : Nat}

theorem State.slotData_fills (active : (s.dslot fn sl).st = 1) (idle : (s.dslot fn sl).busy = 0)
    (room : (s.dslot fn sl).buf.length + 8 < algBlock (s.dslot fn sl).alg) :
    s.slotData fn sl v = s.setDslot fn sl { s.dslot fn sl with buf := (s.dslot fn sl).buf ++ leBytes 8 v } := by
  simp [State.slotData, active, idle, room]

theorem State.slotData_passes (active : (s.dslot fn sl).st = 1) (idle : (s.dslot fn sl).busy = 0)
    (full : algBlock (s.dslot fn sl).alg ≤ (s.dslot fn sl).buf.length + 8) {w : State}
    (passed : w = s.setDslot fn sl { s.dslot fn sl with
      buf := [], busy := 1, last := false, wasLast := (s.dslot fn sl).last }) :
    s.slotData fn sl v = { w with dge := { w.dge with
      ready := w.dge.ready ++ [(slotKey fn sl, (s.dslot fn sl).buf ++ leBytes 8 v, (s.dslot fn sl).last)] } } := by
  simp [State.slotData, active, idle, Nat.not_lt.mpr full, passed]

theorem State.slotData_free (free : (s.dslot fn sl).st = 0) :
    s.slotData fn sl v = s.denied fn true 1 (slotOffset sl 8) (windowSpace fn) := if_pos free

theorem State.slotData_ignored (out : (s.dslot fn sl).st = 3 ∨ (s.dslot fn sl).st = 4) : s.slotData fn sl v = s :=
  (if_neg (by omega)).trans (if_pos out)

theorem State.slotData_early
    (early : (s.dslot fn sl).st = 2 ∨ ((s.dslot fn sl).st = 1 ∧ (s.dslot fn sl).busy ≠ 0)) :
    s.slotData fn sl v = s.slotError fn sl 0xA3 :=
  (if_neg (by omega)).trans ((if_neg (by omega)).trans (if_pos (by omega)))

/-- A block that a pipeline works on goes into the chain and leaves the list of ready blocks; `done` is the slot after
it. -/
theorem State.absorbed_of {b : List Byte} {last : Bool} {key : Nat} {d e : DgeSlot}
    (block : s.pipelined fn sl = some (key, b, last)) (slot : d = s.dslot fn sl)
    (done : e = { d with chain := algAbsorb d.alg d.chain b, blocks := (d.blocks + 1) % 2 ^ 64, busy := 0 }) {u : State}
    (counted : u = (s.setDslot fn sl (if last then { e with st := 2, digest := e.chain.take (algDigest d.alg) }
      else e)).bumpWrap fDGE_BLOCKS_COUNT 0 1) :
    s.absorbed fn sl = { u with dge := { u.dge with
      ready := u.dge.ready.filter (fun (r : Nat × List Byte × Bool) => decide (r.1 ≠ slotKey fn sl)) } } := by
  subst counted done slot
  simp only [State.absorbed, block]

/-! #### State records and comparison (R408, R409) -/

theorem State.transferDone_export (exports : (s.dslot fn sl).busy = 2) :
    s.transferDone fn sl = (s.exportRecord fn (s.dslot fn sl)).2.setDslot fn sl
      { (s.dslot fn sl).note 0 0 with busy := 0, image := (s.exportRecord fn (s.dslot fn sl)).1 } := if_pos exports

theorem State.transferDone_refused {e : Nat × Nat} (imports : (s.dslot fn sl).busy = 3)
    (error : s.importError fn (s.dslot fn sl) (s.dslot fn sl).record = some e) :
    s.transferDone fn sl = s.setDslot fn sl { (s.dslot fn sl).note e.1 e.2 with st := 3, busy := 0 } := by
  simp [State.transferDone, imports, error]

theorem State.transferDone_import (imports : (s.dslot fn sl).busy = 3)
    (valid : s.importError fn (s.dslot fn sl) (s.dslot fn sl).record = none) :
    s.transferDone fn sl = s.setDslot fn sl (s.imported (s.dslot fn sl) (s.dslot fn sl).record) := by
  simp [State.transferDone, imports, valid]

variable {disagree : Bool}

theorem State.readCmp_free (free : (s.dslot fn sl).st = 0) :
    s.readCmp fn sl disagree =
      (s.denied fn false 1 (slotOffset sl 0x18) (windowSpace fn)).emit (.readData fn 0) := if_pos free

theorem State.readCmp_disagrees (used : (s.dslot fn sl).st ≠ 0) (fault : (s.dslot fn sl).cmp disagree = 3) :
    s.readCmp fn sl disagree = (s.fault 12 { s.entry 12 1 with fn := some fn, cause := 3 }).emit (.readData fn 3) :=
  (if_neg used).trans (if_pos fault)

theorem State.readCmp_answers (used : (s.dslot fn sl).st ≠ 0) (good : (s.dslot fn sl).cmp disagree ≠ 3) :
    s.readCmp fn sl disagree = s.emit (.readData fn ((s.dslot fn sl).cmp disagree)) :=
  (if_neg used).trans (if_neg good)

end

section
variable {s u : State} {fn sl : Nat}

theorem recordTransferDone_leads (running : s.running = true) (ready : s.ready 12 = true) (slot : sl < 16)
    (effect : s.transferDone fn sl = u) : Leads (.recordTransferDone fn sl) s (s.outsideDigest u) :=
  leads_of_digestStep (show _ = execRecordTransferDone fn sl s from rfl) (by simp [running, ready, slot]) effect

theorem blockAbsorbed_leads (digests : s.digests fn sl = true) (awake : s.psState = 0)
    (effect : s.absorbed fn sl = u) : Leads (.blockAbsorbed fn sl) s (s.outsideDigest u) :=
  leads_of_digestStep (show _ = execBlockAbsorbed fn sl s from rfl) (by simp [digests, awake]) effect

theorem dgeSlotCmp_leads {disagree : Bool} (reach : s.dgeReaches fn = true) (slot : sl < 16)
    (effect : (s.atSlot fn sl).readCmp fn sl disagree = u) : Leads (.dgeSlotCmp fn sl disagree) s (s.kept u) :=
  leads_of_steady (show _ = execDgeSlotCmp fn sl disagree s from rfl) (by simp [reach, slot]) (congrArg s.kept effect)

end

/-! #### Clearing (R410, R411) -/

theorem dgeAlarmTest_leads {s u : State} (reach : s.reaches 0 = true) (ready : s.ready 12 = true)
    (effect : (s.atRegion 12 0x900).expertWrite 12 (fun s => s.clearContexts 3) = u) :
    Leads .dgeAlarmTest s (s.outsideDigest u) :=
  leads_of_digestStep (show _ = execDgeAlarmTest s from rfl) (by simp [reach, ready]) effect

/-- A clear frees every context, drops every block and leaves each slot in use LOST. -/
theorem State.clearContexts_dge (s : State) (cause : Nat) :
    (s.clearContexts cause).dge.zeroing = [] ∧ (s.clearContexts cause).dge.ready = [] ∧
      ∀ ks ∈ (s.clearContexts cause).dge.slots, ks.2.st = 4 := by
  have cleared : (s.clearContexts cause).dge = _ := State.fault_dge _ _ _
  rw [cleared]
  refine ⟨rfl, rfl, fun ks used => ?_⟩
  obtain ⟨old, -, rfl⟩ := List.mem_map.mp used
  rfl

/-- Settles O16, clause by clause: the actions of a slot, its blocks, its records and comparisons, and clearing. -/
theorem digestCommandsComplete : Obligations.DigestCommandsComplete := by
  refine ⟨?_, ?_, ?_, ?_, ?_, ?_, ?_, ?_, ?_, ?_, ?_, ?_, ?_, ?_, ?_, ?_, ?_, ?_, ?_, ?_, ?_, ?_, ?_, ?_, ?_, ?_, ?_, ?_,
    ?_, ?_, ?_, ?_, ?_, ?_, ?_, ?_, ?_, ?_, ?_, ?_⟩
  · rintro s fn sl alg u d reach slot rfl rfl free low high context allowed
    exact slotAction_leads (fun u => u.claim fn sl (lowBits 3 alg)) (show _ = execClaim fn sl alg s from rfl) reach slot
      (State.claim_gives free low high context allowed)
  · rintro s fn sl alg u d reach slot rfl rfl used live
    exact slotAction_leads (fun u => u.claim fn sl (lowBits 3 alg)) (show _ = execClaim fn sl alg s from rfl) reach slot
      (State.claim_held used live)
  · rintro s fn sl alg u d reach slot rfl rfl lost
    exact slotAction_leads (fun u => u.claim fn sl (lowBits 3 alg)) (show _ = execClaim fn sl alg s from rfl) reach slot
      (State.claim_lost lost)
  · rintro s fn sl alg u d reach slot rfl rfl free unknown
    exact slotAction_leads (fun u => u.claim fn sl (lowBits 3 alg)) (show _ = execClaim fn sl alg s from rfl) reach slot
      (State.claim_unknown free unknown)
  · rintro s fn sl alg u d reach slot rfl rfl free low high exhausted
    exact slotAction_leads (fun u => u.claim fn sl (lowBits 3 alg)) (show _ = execClaim fn sl alg s from rfl) reach slot
      (State.claim_noContext free low high exhausted)
  · rintro s fn sl alg u d reach slot rfl rfl free low high context limited
    exact slotAction_leads (fun u => u.claim fn sl (lowBits 3 alg)) (show _ = execClaim fn sl alg s from rfl) reach slot
      (State.claim_limited free low high context limited)
  · rintro s fn sl u d reach slot rfl rfl used live
    exact slotAction_leads (fun u => u.releaseSlot fn sl) (show _ = execRelease fn sl s from rfl) reach slot
      (State.releaseSlot_claimed used live)
  · rintro s fn sl u d reach slot rfl rfl unclaimed
    exact slotAction_leads (fun u => u.releaseSlot fn sl) (show _ = execRelease fn sl s from rfl) reach slot
      (State.releaseSlot_unclaimed unclaimed)
  · rintro s fn sl u d reach slot rfl rfl active idle empty
    exact slotAction_leads (fun u => u.keySlot fn sl) (show _ = execKeyed fn sl s from rfl) reach slot
      (State.keySlot_keys active idle empty)
  · rintro s fn sl u d reach slot rfl rfl held begun
    exact slotAction_leads (fun u => u.keySlot fn sl) (show _ = execKeyed fn sl s from rfl) reach slot
      (State.keySlot_refused held begun)
  · rintro s fn sl u d reach slot rfl rfl lost
    exact slotAction_leads (fun u => u.keySlot fn sl) (show _ = execKeyed fn sl s from rfl) reach slot
      (State.keySlot_lost lost)
  · rintro s fn sl u d reach slot rfl rfl active more
    exact slotAction_leads (fun u => u.lastSlot fn sl) (show _ = execLast fn sl s from rfl) reach slot
      (State.lastSlot_marks active more)
  · rintro s fn sl u d reach slot rfl rfl active empty ended
    exact slotAction_leads (fun u => u.lastSlot fn sl) (show _ = execLast fn sl s from rfl) reach slot
      (State.lastSlot_again active empty ended)
  · rintro s fn sl u d reach slot rfl rfl out
    exact slotAction_leads (fun u => u.lastSlot fn sl) (show _ = execLast fn sl s from rfl) reach slot
      (State.lastSlot_ignored out)
  · rintro s fn sl u d reach slot rfl rfl active idle
    exact slotAction_leads (fun u => u.exportSlot fn sl) (show _ = execExportContext fn sl s from rfl) reach slot
      (State.exportSlot_begins active idle)
  · rintro s fn sl u d reach slot rfl rfl out
    exact slotAction_leads (fun u => u.exportSlot fn sl) (show _ = execExportContext fn sl s from rfl) reach slot
      (State.exportSlot_ignored out)
  · rintro s fn sl u d reach slot rfl rfl active plain idle empty
    exact slotAction_leads (fun u => u.importSlot fn sl) (show _ = execImportContext fn sl s from rfl) reach slot
      (State.importSlot_begins active plain idle empty)
  · rintro s fn sl u d reach slot rfl rfl free
    exact slotAction_leads (fun u => u.importSlot fn sl) (show _ = execImportContext fn sl s from rfl) reach slot
      (State.importSlot_free free)
  · rintro s fn sl u d reach slot rfl rfl used held begun
    exact slotAction_leads (fun u => u.importSlot fn sl) (show _ = execImportContext fn sl s from rfl) reach slot
      (State.importSlot_begun used held begun)
  · rintro s fn sl u d reach slot rfl rfl lost
    exact slotAction_leads (fun u => u.importSlot fn sl) (show _ = execImportContext fn sl s from rfl) reach slot
      (State.importSlot_lost lost)
  · rintro s fn sl u d reach slot rfl rfl used held
    exact slotAction_leads (fun u => u.restartSlot fn sl) (show _ = execRestart fn sl s from rfl) reach slot
      (State.onSlot_on used held)
  · rintro s fn sl u d reach slot rfl rfl off
    exact slotAction_leads (fun u => u.restartSlot fn sl) (show _ = execRestart fn sl s from rfl) reach slot
      (State.onSlot_off off)
  · intro s fn sl running ready slot exports
    exact recordTransferDone_leads running ready slot (State.transferDone_export exports)
  · rintro s fn sl d e running ready slot rfl imports error
    exact recordTransferDone_leads running ready slot (State.transferDone_refused imports error)
  · rintro s fn sl d running ready slot rfl imports valid
    exact recordTransferDone_leads running ready slot (State.transferDone_import imports valid)
  · rintro s fn sl v u d reach slot rfl rfl active idle room
    exact slotAction_leads (fun u => u.slotData fn sl v) (show _ = execDgeSlotData fn sl v s from rfl) reach slot
      (State.slotData_fills active idle room)
  · rintro s fn sl v w u d reach slot rfl rfl active idle full passed
    exact slotAction_leads (fun u => u.slotData fn sl v) (show _ = execDgeSlotData fn sl v s from rfl) reach slot
      (State.slotData_passes active idle full passed)
  · rintro s fn sl v u d reach slot rfl rfl free
    exact slotAction_leads (fun u => u.slotData fn sl v) (show _ = execDgeSlotData fn sl v s from rfl) reach slot
      (State.slotData_free free)
  · rintro s fn sl v u d reach slot rfl rfl out
    exact slotAction_leads (fun u => u.slotData fn sl v) (show _ = execDgeSlotData fn sl v s from rfl) reach slot
      (State.slotData_ignored out)
  · rintro s fn sl v u d reach slot rfl rfl early
    exact slotAction_leads (fun u => u.slotData fn sl v) (show _ = execDgeSlotData fn sl v s from rfl) reach slot
      (State.slotData_early early)
  · rintro s fn sl b y d c u digests awake block slot rfl counted
    exact blockAbsorbed_leads digests awake (State.absorbed_of block slot rfl counted)
  · rintro s fn sl b y d c u digests awake block slot rfl counted
    exact blockAbsorbed_leads digests awake (State.absorbed_of block slot rfl counted)
  · intro s fn sl disagree reach slot used good
    exact dgeSlotCmp_leads reach slot (State.readCmp_answers used good)
  · intro s fn sl disagree reach slot used fault
    exact dgeSlotCmp_leads reach slot (State.readCmp_disagrees used fault)
  · intro s fn sl disagree reach slot free
    exact dgeSlotCmp_leads reach slot (State.readCmp_free free)
  · intro s a rest running zeroing
    exact leads_of_digestStep (show _ = execContextZeroed s from rfl) (by simp [running, zeroing]) (by simp [zeroing])
  · intro s cause up ready known
    exact leads_of_digestStep (show _ = execContextClear cause s from rfl) (by simp [up, ready, known]) rfl
  · rintro s u reach ready rfl unlocked
    exact dgeAlarmTest_leads reach ready (State.expertWrite_open unlocked)
  · rintro s u reach ready rfl locked
    exact dgeAlarmTest_leads reach ready (State.expertWrite_locked locked)
  · intro s cause up ready known
    exact ⟨_, leads_of_digestStep (show _ = execContextClear cause s from rfl) (by simp [up, ready, known]) rfl,
      s.clearContexts_dge cause⟩

end Sys2Proof.Machine

/-!
### Memory, translation and ECC (spec/16_memory_translation_ecc.md)
-/

namespace Sys2Proof.Machine

/-! #### Bytes written within a good line (R431, R432) -/

/-- Settles O44: what a write stores in a good line is the store itself; the rest is what the write leaves. -/
theorem hbmLineWritten : Obligations.HbmLineWritten := by
  intro s dpa d good
  obtain ⟨stored, stays, -⟩ := State.writeInLine_good (ps := [(dpa, d)]) good
  obtain ⟨host, cores⟩ := State.writeInLine_rest (ps := [(dpa, d)]) good
  have hbm : (s.writeWithinLine dpa d).1.hbm = Mem.store s.hbm dpa d := stored
  refine ⟨?readBack, ?outside, stays, host, cores, s.writeInLine_wf _ _⟩
  case readBack => rw [hbm]; exact Mem.bytes_store s.hbm dpa d
  case outside =>
    intro q away
    rw [hbm]
    exact Mem.byte_store_outside s.hbm dpa q d away

/-! #### Map commands (R376, R419, R420) -/

section
variable {s u : State} {op : Nat} {c : MapCmd}

/-- A write of OP from PF0, whichever of the four commands it names: with none in progress it starts the command. -/
theorem State.mapStart_starts (named : op ≠ 0) (idle : s.hmc.map = none) :
    s.mapStart op =
      ({ s with hmc := { s.hmc with map := some (s.mapArgs op) } } : State).wr fHMC_MAP_STATUS_BUSY 0 1 :=
  (if_neg named).trans (if_neg (by simp [idle]))

theorem State.mapStart_noticed (named : op ≠ 0) (busy : s.hmc.map ≠ none) : s.mapStart op = s.notice 6 0xFFFF :=
  (if_neg named).trans (if_pos (Option.isSome_iff_ne_none.mpr busy))

/-- One of MAP, UNMAP, PROTECT and QUERY. -/
theorem mapCommand_leads {i : Instr}
    (gate : exec i s = steady (s.reaches 0 && s.ready 6) (fun s => (s.atRegion 6 0x94).mapStart op) s)
    (reach : s.reaches 0 = true) (ready : s.ready 6 = true) (effect : (s.atRegion 6 0x94).mapStart op = u) :
    Leads i s (s.kept u) :=
  leads_of_steady gate (by simp [reach, ready]) (congrArg s.kept effect)

theorem mapDone_leads (running : s.running = true) (awake : s.psState < 3) (command : s.hmc.map = some c)
    (unpinned : s.mapPinned c = false) (effect : s.mapDone = u) : Leads .mapDone s (s.kept u) :=
  leads_of_steady (show _ = execMapDone s from rfl) (by simp [running, awake, command, unpinned])
    (congrArg s.kept effect)

theorem State.mapDone_badArgs (command : s.hmc.map = some c) (bad : c.bad = true) :
    s.mapDone = (((({ s with hmc := { s.hmc with map := none } } : State).wr fHMC_MAP_STATUS_BUSY 0 0).wr
      fHMC_MAP_STATUS_RESULT 0 1).wr fHMC_MAP_STATUS_DONE_PAGES 0 0).raise 6 4 := by
  simp only [State.mapDone, command, bad, if_true]

theorem State.mapDone_pages (command : s.hmc.map = some c) (good : c.bad = false) {r : Nat × Nat × State}
    (pages : r = s.doPages c 0 c.count) :
    s.mapDone = (((({ r.2.2 with hmc := { r.2.2.hmc with map := none } } : State).wr fHMC_MAP_STATUS_BUSY 0 0).wr
      fHMC_MAP_STATUS_RESULT 0 r.1).wr fHMC_MAP_STATUS_DONE_PAGES 0 r.2.1).raise 6 4 := by
  simp only [State.mapDone, command, good, pages, Bool.false_eq_true, if_false]

end

/-! #### Scrub (R425, R427, R428) -/

section
variable {s u : State} {st cells line : Nat}

/-- What Scrub does with the line it has read, by what it found there. -/
def State.scrubbed (s : State) (st cells line : Nat) : State :=
  match s.scrubClass line cells with
  | 0 => s.stickyDrop st line
  | 1 =>
    let v := match s.checkOf line with
      | .raw k => s.putLine line (Config.eccData (s.lineData line) k) .good
      | _ => s
    (v.noteCorrected line true).stickyAdd st line
  | 2 => s.noteUncorrectable line
  | _ => s

theorem State.scrubbed_clean (found : s.scrubClass line cells = 0) : s.scrubbed st cells line = s.stickyDrop st line := by
  simp only [State.scrubbed, found]

theorem State.scrubbed_corrected (found : s.scrubClass line cells = 1) (good : s.checkOf line = .good) :
    s.scrubbed st cells line = (s.noteCorrected line true).stickyAdd st line := by
  simp only [State.scrubbed, found, good]

theorem State.scrubbed_uncorrectable (found : s.scrubClass line cells = 2) :
    s.scrubbed st cells line = s.noteUncorrectable line := by
  simp only [State.scrubbed, found]

theorem State.scrubbed_poisoned (found : s.scrubClass line cells = 3) : s.scrubbed st cells line = s := by
  simp only [State.scrubbed, found]

theorem scrubRead_leads (running : s.running = true) (ready : s.ready 6 = true) (known : st < 8)
    (on : s.scrubOn st = true) (effect : s.scrubRead st cells = u) : Leads (.scrubRead st cells) s (s.kept u) :=
  leads_of_steady (show _ = execScrubRead st cells s from rfl) (by simp [running, ready, known, on])
    (congrArg s.kept effect)

/-- The walk goes on with the line behind the one that was read. -/
theorem State.scrubRead_goesOn (place : line = (st * stackBytes + s.rd fHMC_STACK_SCRUB_POS st) / 64)
    (done : s.scrubbed st cells line = u) (more : s.rd fHMC_STACK_SCRUB_POS st + 64 < stackBytes) :
    s.scrubRead st cells = u.wr fHMC_STACK_SCRUB_POS st (s.rd fHMC_STACK_SCRUB_POS st + 64) := by
  subst place done
  exact if_pos more

/-- Behind the last line the walk begins anew and counts a pass. -/
theorem State.scrubRead_wraps (place : line = (st * stackBytes + s.rd fHMC_STACK_SCRUB_POS st) / 64)
    (done : s.scrubbed st cells line = u) (last : stackBytes ≤ s.rd fHMC_STACK_SCRUB_POS st + 64) :
    s.scrubRead st cells = (u.wr fHMC_STACK_SCRUB_POS st 0).bumpSat fHMC_STACK_PASSES st 1 := by
  subst place done
  exact if_neg (Nat.not_lt.mpr last)

end

/-! #### Row repair (R465) -/

theorem State.rowRepaired_of {s : State} {st : Nat} {r : Nat × Nat × Nat × Nat}
    (repair : s.darn.repairs.find? (fun (x : Nat × Nat × Nat × Nat) => decide (x.1 = st)) = some r) :
    s.rowRepaired st = (({ s with
      darn := { s.darn with
        repairs := s.darn.repairs.erase r,
        pprBank := put s.darn.pprBank (bankKey r) (getD 0 s.darn.pprBank (bankKey r) + 1) } } : State).bumpSat
      fDRN_STACK_PPR_USED st 1).history 5 5 0xFFFF st 0xFFFF (rowDetail r) := by
  simp only [State.rowRepaired, repair]

/-! #### The test window (R434) -/

section
variable {s u : State}

theorem writeRaw_leads (reach : s.reaches 0 = true) (ready : s.ready 6 = true)
    (effect : (s.atRegion 6 0x908).expertWrite 6 State.writeRaw = u) : Leads .writeRaw s (s.kept u) :=
  leads_of_steady (show _ = execWriteRaw s from rfl) (by simp [reach, ready]) (congrArg s.kept effect)

theorem readRaw_leads (reach : s.reaches 0 = true) (ready : s.ready 6 = true)
    (effect : (s.atRegion 6 0x908).expertWrite 6 State.readRaw = u) : Leads .readRaw s (s.kept u) :=
  leads_of_steady (show _ = execReadRaw s from rfl) (by simp [reach, ready]) (congrArg s.kept effect)

theorem State.writeRaw_refused (outside : s.testAllowed = false) : s.writeRaw = s.wr fHMC_TEST_RESULT_REFUSED 0 1 :=
  if_neg (ne_true_of_eq_false outside)

theorem State.writeRaw_writes {w : State} (allowed : s.testAllowed = true)
    (written : w = ((s.dropLine s.testLine).putLine s.testLine s.testData
      (.raw (BitVec.ofNat 32 (s.rd fHMC_TEST_CHECK_CHECK 0)))).wr fHMC_TEST_RESULT_REFUSED 0 0) :
    s.writeRaw = { w with hmc := { w.hmc with
      lastOwner := put w.hmc.lastOwner (64 * s.testLine / pageBytes) 1 } } := by
  subst written
  exact if_pos allowed

theorem State.readRaw_refused (outside : s.testAllowed = false) : s.readRaw = s.wr fHMC_TEST_RESULT_REFUSED 0 1 :=
  if_neg (ne_true_of_eq_false outside)

/-- Showing a raw line writes the registers of the window alone: REFUSED is 0, and memory is as before. -/
theorem State.readRaw_shows (allowed : s.testAllowed = true) :
    s.readRaw.rd fHMC_TEST_RESULT_REFUSED 0 = 0 ∧ s.readRaw.hbm = s.hbm ∧ s.readRaw.hmc = s.hmc := by
  rw [State.readRaw, if_pos allowed]
  refine ⟨State.rd_wr_same _ _ _ _, ?_, ?_⟩
  · simp only [State.wr_hbm]
    exact foldl_keeps State.hbm _ (fun t i => t.wr_hbm fHMC_TEST_DATA_BYTES i _) _ s
  · simp only [State.wr_hmc]
    exact foldl_keeps State.hmc _ (fun t i => t.wr_hmc fHMC_TEST_DATA_BYTES i _) _ s

end

/-- Settles O17, clause by clause: map commands, Scrub, row repair, bucket windows, the test window, and marking. -/
theorem memoryCommandsComplete : Obligations.MemoryCommandsComplete := by
  refine ⟨?_, ?_, ?_, ?_, ?_, ?_, ?_, ?_, ?_, ?_, ?_, ?_, ?_, ?_, ?_, ?_, ?_, ?_, ?_, ?_, ?_, ?_, ?_, ?_, ?_⟩
  · rintro s u reach ready rfl idle
    exact mapCommand_leads (show _ = execMap s from rfl) reach ready (State.mapStart_starts (by decide) idle)
  · rintro s u reach ready rfl idle
    exact mapCommand_leads (show _ = execUnmap s from rfl) reach ready (State.mapStart_starts (by decide) idle)
  · rintro s u reach ready rfl idle
    exact mapCommand_leads (show _ = execProtect s from rfl) reach ready (State.mapStart_starts (by decide) idle)
  · rintro s u reach ready rfl idle
    exact mapCommand_leads (show _ = execQuery s from rfl) reach ready (State.mapStart_starts (by decide) idle)
  · rintro s u reach ready rfl busy
    exact mapCommand_leads (show _ = execMap s from rfl) reach ready (State.mapStart_noticed (by decide) busy)
  · rintro s u reach ready rfl busy
    exact mapCommand_leads (show _ = execUnmap s from rfl) reach ready (State.mapStart_noticed (by decide) busy)
  · rintro s u reach ready rfl busy
    exact mapCommand_leads (show _ = execProtect s from rfl) reach ready (State.mapStart_noticed (by decide) busy)
  · rintro s u reach ready rfl busy
    exact mapCommand_leads (show _ = execQuery s from rfl) reach ready (State.mapStart_noticed (by decide) busy)
  · intro s c running awake command unpinned bad
    exact mapDone_leads running awake command unpinned (State.mapDone_badArgs command bad)
  · intro s c r running awake command unpinned good pages
    exact mapDone_leads running awake command unpinned (State.mapDone_pages command good pages)
  · intro s st cells line running ready known on place found more
    exact scrubRead_leads running ready known on (State.scrubRead_goesOn place (State.scrubbed_clean found) more)
  · intro s st cells line running ready known on place found good more
    exact scrubRead_leads running ready known on
      (State.scrubRead_goesOn place (State.scrubbed_corrected found good) more)
  · intro s st cells line running ready known on place found more
    exact scrubRead_leads running ready known on
      (State.scrubRead_goesOn place (State.scrubbed_uncorrectable found) more)
  · intro s st cells line running ready known on place found more
    exact scrubRead_leads running ready known on (State.scrubRead_goesOn place (State.scrubbed_poisoned found) more)
  · intro s st cells line running ready known on place found last
    exact scrubRead_leads running ready known on (State.scrubRead_wraps place (State.scrubbed_clean found) last)
  · intro s st r starts holdup repair
    exact leads_of_steady (show _ = execRowRepairDone st s from rfl) (by simp [starts, holdup])
      (congrArg s.kept (State.rowRepaired_of repair))
  · rintro s w u running ready due rfl rfl
    exact leads_of_steady (show _ = execBucketWindow s from rfl) (by simp [running, ready, due]) rfl
  · rintro s u w reach ready rfl unlocked allowed written
    exact writeRaw_leads reach ready ((State.expertWrite_open unlocked).trans (State.writeRaw_writes allowed written))
  · rintro s u reach ready rfl unlocked outside
    exact writeRaw_leads reach ready ((State.expertWrite_open unlocked).trans (State.writeRaw_refused outside))
  · rintro s u reach ready rfl locked
    exact writeRaw_leads reach ready (State.expertWrite_locked locked)
  · rintro s u reach ready rfl unlocked allowed
    exact readRaw_leads reach ready (State.expertWrite_open unlocked)
  · intro s reach ready unlocked allowed
    have opened : (s.atRegion 6 0x908).expertWrite 6 State.readRaw = (s.atRegion 6 0x908).readRaw :=
      State.expertWrite_open unlocked
    exact ⟨_, readRaw_leads reach ready opened, State.readRaw_shows (s := s.atRegion 6 0x908) allowed⟩
  · rintro s u reach ready rfl unlocked outside
    exact readRaw_leads reach ready ((State.expertWrite_open unlocked).trans (State.readRaw_refused outside))
  · rintro s u reach ready rfl locked
    exact readRaw_leads reach ready (State.expertWrite_locked locked)
  · intro s line running ready poisoned
    exact leads_of_steady (show _ = execPoisonMarking line s from rfl) (by simp [running, ready, poisoned]) rfl

end Sys2Proof.Machine

/-!
### Time and events (spec/17_time_and_events.md): a PTM dialogue that fails
-/

namespace Sys2Proof.Machine

/-- The state that a dialogue without a response leaves (R447). -/
def State.ptmFailed (s : State) : State :=
  ((({ s with tsu := { s.tsu with dialogue := none } } : State).wr fTSU_PTM_STATUS_VALID 0 0).wr fTSU_PTM_STATUS_FAILED 0
    1).raise 13 3

/-- A field of PTM other than VALID and FAILED keeps its value when a dialogue fails. -/
theorem State.rd_ptmFailed {s : State} {f : Field} (quiet : f.quiet = true) (valid : fTSU_PTM_STATUS_VALID.id ≠ f.id)
    (failed : fTSU_PTM_STATUS_FAILED.id ≠ f.id) : s.ptmFailed.rd f 0 = s.rd f 0 := by
  rw [State.ptmFailed, State.rd_raise (by decide) (by decide) quiet,
    State.rd_wr_other (by decide) (by decide) (.inl failed), State.rd_wr_other (by decide) (by decide) (.inl valid)]
  rfl

theorem State.ptmFailed_valid (s : State) : s.ptmFailed.rd fTSU_PTM_STATUS_VALID 0 = 0 := by
  rw [State.ptmFailed, State.rd_raise (by decide) (by decide) (by decide),
    State.rd_wr_other (by decide) (by decide) (.inl (by decide)), State.rd_wr_same]
  rfl

theorem State.ptmFailed_failed (s : State) : s.ptmFailed.rd fTSU_PTM_STATUS_FAILED 0 = 1 := by
  rw [State.ptmFailed, State.rd_raise (by decide) (by decide) (by decide), State.rd_wr_same]
  rfl

theorem State.ptmFailed_raises (s : State) : (s.ptmFailed.irqStatus 13).testBit 3 = true :=
  State.raise_sets _ 13 3 (by decide) (by decide)

theorem State.ptmFailed_tsu (s : State) :
    s.ptmFailed.tsu.dialogue = none ∧ s.ptmFailed.tsu.lastDialogue = s.tsu.lastDialogue := by
  obtain ⟨l, h⟩ := State.raise_tsu ((({ s with tsu := { s.tsu with dialogue := none } } : State).wr
    fTSU_PTM_STATUS_VALID 0 0).wr fTSU_PTM_STATUS_FAILED 0 1) 13 3
  rw [State.ptmFailed, h]
  exact ⟨rfl, rfl⟩

theorem ptmTimeout_leads {s : State} {inv : Bool} (running : s.running = true) (started : s.tsu.dialogue.isSome = true)
    (lost : inv = true ∨ s.tsu.lastDialogue + ticksOfMs 10 ≤ s.clk.tsu) :
    Leads (.ptmTimeout inv) s (s.kept s.ptmFailed) :=
  leads_of_steady (show _ = execPtmTimeout inv s from rfl) (by simpa [running, started] using lost) rfl

/-- Settles O47: PTM_TIMEOUT touches VALID, FAILED and its cause alone and ends the dialogue, and the two other commands
write what the statement reads. -/
theorem ptmTimeoutFails : Obligations.PtmTimeoutFails := by
  refine ⟨?timeout, ?dialogue, ?response⟩
  case timeout =>
    intro s inv running started lost
    obtain ⟨ended, last⟩ := s.ptmFailed_tsu
    exact ⟨_, ptmTimeout_leads running started lost, State.rd_ptmFailed (by decide) (by decide) (by decide),
      State.rd_ptmFailed (by decide) (by decide) (by decide), State.rd_ptmFailed (by decide) (by decide) (by decide),
      s.ptmFailed_valid, s.ptmFailed_failed, s.ptmFailed_raises, ended, last⟩
  case dialogue =>
    intro s running ready host on idle period
    exact completes_of_steady (show _ = execPtmDialogue s from rfl) (by simp [running, ready, host, on, idle, period]) rfl
  case response =>
    intro s host rate running started inTime
    refine completes_of_steady (show _ = execPtmResponse host rate s from rfl) (by simp [running, started, inTime]) ?_
    rw [State.rd_kept, State.rd_record (by decide) (by decide), State.bumpWrap,
      State.rd_wr_other (by decide) (by decide) (.inl (by decide)), State.rd_wr_same]
    rfl

end Sys2Proof.Machine

/-!
### Column volume (spec/14_column_volume.md)
-/

namespace Sys2Proof.Machine

/-! #### Reservations (R31, R382, R384) -/

theorem cvcFnResv_leads {s u : State} {fn v : Nat} (reach : s.reaches 0 = true) (ready : s.ready 10 = true)
    (known : fn ≤ 1024)
    (effect : (s.atRegion 10 (0x10010 + 32 * fn)).expertWrite 10 (fun s => s.writeLockResv fn (lowBits 10 v)) = u) :
    Leads (.cvcFnResv fn v) s (s.kept u) :=
  leads_of_steady (show _ = execCvcFnResv fn v s from rfl) (by simp [reach, ready, known]) (congrArg s.kept effect)

theorem State.writeLockResv_within {s : State} {fn v : Nat} (fits : s.lockResvSum - s.rd fCVC_FN_RESV fn + v ≤ 512) :
    s.writeLockResv fn v = s.wr fCVC_FN_RESV fn v := if_pos fits

theorem State.writeLockResv_beyond {s : State} {fn v : Nat} (large : 512 < s.lockResvSum - s.rd fCVC_FN_RESV fn + v) :
    s.writeLockResv fn v = s.resvRefused fn := if_neg (Nat.not_le.mpr large)

/-- A refused reservation is a NOTICE, which is logged and reported no further (R31, R473). -/
theorem State.resvRefused_logged (s : State) (fn : Nat) :
    s.resvRefused fn = s.writeLog 10 { s.entry 10 5 with fn := some fn, cause := 4 } := s.fault_logged 10 _ rfl

/-- What a refused reservation leaves: the entry at the place of NEXT, its cause raised, RESV and CVC's state. -/
theorem State.resvRefused_response (s : State) {fn : Nat} (known : fn ≤ 1024) :
    (s.resvRefused fn).rd fCVC_FN_RESV fn = s.rd fCVC_FN_RESV fn ∧
      find (s.resvRefused fn).errLog (10 * 16 + s.rd fERR_LOG_PTR_NEXT 10) =
        some { s.entry 10 5 with fn := some fn, cause := 4 } ∧
      ((s.resvRefused fn).irqStatus 10).testBit 4 = true ∧ (s.resvRefused fn).cvc = s.cvc := by
  refine ⟨State.rd_fault (by decide) (by omega) (by decide), ?_, ?_, s.fault_cvc 10 _⟩
  · rw [s.resvRefused_logged]
    exact s.writeLog_entry 10 _
  · rw [s.resvRefused_logged]
    exact s.writeLog_raises 10 { s.entry 10 5 with fn := some fn, cause := 4 } (by decide) (show 4 ≠ 0 by decide)
      (show 4 < 32 by decide)

/-- Settles O48: a write within the sum reaches RESV alone, and one beyond it is refused. -/
theorem reservationSumBounded : Obligations.ReservationSumBounded := by
  intro s fn v reach ready known unlocked
  have opened : ∀ f, (s.atRegion 10 (0x10010 + 32 * fn)).expertWrite 10 f = f (s.atRegion 10 (0x10010 + 32 * fn)) :=
    fun _ => State.expertWrite_open unlocked
  constructor
  · intro large
    obtain ⟨kept, logged, raised, cvc⟩ := (s.atRegion 10 (0x10010 + 32 * fn)).resvRefused_response known
    exact ⟨_, cvcFnResv_leads reach ready known ((opened _).trans (State.writeLockResv_beyond large)), kept,
      congrArg _ logged, raised, cvc⟩
  · intro fits
    refine ⟨_, cvcFnResv_leads reach ready known ((opened _).trans (State.writeLockResv_within fits)), ?_, rfl⟩
    rw [State.rd_kept, State.rd_wr_same]
    exact lowBits_of_lt (lowBits_lt 10 v)

/-! #### Acceptance and admission (R373 to R376, R381) -/

section
variable {s u : State}

theorem State.volEntry_of {fn qid op host : Nat} {e : Entry} (handed : s.handedEntry fn qid 2 = some e)
    (opcode : entryOpcode e.line = op) : s.volEntry fn qid op host = s.acceptVol fn qid op host e := by
  simp only [State.volEntry, handed, opcode, if_true]

theorem admission_admits {n : Nat} {c : VolCmd} (awake : s.cvcAwake = true) (next : s.admitNext = some (n, c))
    (effect : s.admitReady n c = u) : Leads .admission s (s.kept u.pump) :=
  leads_of_steady (show _ = execAdmission s from rfl) awake (congrArg s.kept (by simp only [next, effect]))

theorem State.admitReady_host {n : Nat} {c : VolCmd} (host : c.host = true) :
    s.admitReady n c = s.setVcmd n { c with stage := .admitted } := if_pos host

theorem State.admitReady_hbm {n : Nat} {c : VolCmd} {p : List (Nat × Nat)} (hbm : c.host = false)
    (pages : s.physSegs c.fn (if c.kind = .write then .read else .write) (pagedSegs c.segs) = .ok p) :
    s.admitReady n c = s.setVcmd n { c with stage := .admitted, segs := p } := by
  simp only [State.admitReady, hbm, pages, Bool.false_eq_true, if_false]

theorem State.admitReady_untranslated {n e : Nat} {c : VolCmd} (hbm : c.host = false)
    (pages : s.physSegs c.fn (if c.kind = .write then .read else .write) (pagedSegs c.segs) = .error e) :
    s.admitReady n c = ((s.countFault c.fn).setVcmd n (c.failed 0x22 e)).finishVol n := by
  simp only [State.admitReady, hbm, pages, Bool.false_eq_true, if_false]

end

/-! #### Answers and time limits of drives (R73, R386, R395) -/

theorem State.running_of_dspActs {s : State} (acts : s.dspActs = true) : s.running = true :=
  (Bool.and_eq_true_iff.mp acts).1

section
variable {s u : State} {tag status dword0 : Nat} {data : List Byte} {reinit : Bool} {d : DriveCmd} {j : AdminJob}

theorem driveCompletion_leads (acts : s.dspActs = true) (good : s.board.pwrGood = true)
    (effect : s.driveCompletion tag status dword0 data = u) :
    Leads (.driveCompletion tag status dword0 data) s (s.kept u) :=
  leads_of_steady (show _ = execDriveCompletion tag status dword0 data s from rfl) (by simp [acts, good])
    (congrArg s.kept ((if_pos (State.running_of_dspActs acts)).trans effect))

theorem State.driveCompletion_volume (command : s.cvc.drv.find? (fun (d : DriveCmd) => decide (d.tag = tag)) = some d) :
    s.driveCompletion tag status dword0 data =
      if status = 0 ∧ d.op = 2 ∧ data.length ≠ 4096 * d.count then s else s.driveDone d status data := by
  simp only [State.driveCompletion, command]

theorem State.driveCompletion_admin (other : s.cvc.drv.find? (fun (d : DriveCmd) => decide (d.tag = tag)) = none)
    (job : s.cvc.admin = some j) (same : j.tag = tag) :
    s.driveCompletion tag status dword0 data = s.adminDone j status dword0 data := by
  simp only [State.driveCompletion, other, job, same, if_true]

theorem driveTimeout_leads (acts : s.dspActs = true) (effect : s.driveTimeout tag reinit = u) :
    Leads (.driveTimeout tag reinit) s (s.kept u) :=
  leads_of_steady (show _ = execDriveTimeout tag reinit s from rfl) acts (congrArg s.kept effect)

/-- The time limit of a volume command is counted and logged; `v` is the state with that done (R386). -/
theorem State.driveTimeout_volume {v : State}
    (command : s.cvc.drv.find? (fun (d : DriveCmd) => decide (d.tag = tag)) = some d)
    (late : d.since + s.driveLimit ≤ s.clk.tsu)
    (counted : u = (s.bumpSat fCVC_MEDIA_TIMEOUTS 0 1).bumpSat fDSP_PORT_TIMEOUTS d.port 1)
    (logged : v = u.fault 11 { u.entry 11 1 with status := 0x40, sub := 0x03, unit := d.port, cause := 3 }) :
    s.driveTimeout tag reinit = if d.again then v.memberLost d.port 0x03
      else if !reinit then v.memberLost d.port 0x02 else v.reissue d.port := by
  subst logged counted
  simp only [State.driveTimeout, command, Nat.not_lt.mpr late, if_false]

theorem State.driveTimeout_early (command : s.cvc.drv.find? (fun (d : DriveCmd) => decide (d.tag = tag)) = some d)
    (early : s.clk.tsu < d.since + s.driveLimit) : s.driveTimeout tag reinit = s := by
  simp only [State.driveTimeout, command, early, if_true]

theorem State.driveTimeout_admin (other : s.cvc.drv.find? (fun (d : DriveCmd) => decide (d.tag = tag)) = none)
    (job : s.cvc.admin = some j) (same : j.tag = tag) (late : j.since + s.driveLimit ≤ s.clk.tsu) :
    s.driveTimeout tag reinit = (((s.bumpSat fCVC_MEDIA_TIMEOUTS 0 1).bumpSat fDSP_PORT_TIMEOUTS j.port 1).raise 11
      3).driveAdminEnd j 0x40 0x03 0 0 := by
  simp only [State.driveTimeout, other, job, same, late, and_self, if_true]

end

/-! #### Volume operations (R369, R371) -/

section
variable {s u : State} {v : Volume} {p : Nat}

/-- An operation that PF0 writes to `CVC_VOL_CTRL` acts on the state as the access leaves it. -/
theorem volumeOp_leads {c : Instr} (f : State → State)
    (gate : exec c s = steady (s.reaches 0 && s.ready 10) (fun s => f (s.atRegion 10 0x88)) s)
    (reach : s.reaches 0 = true) (ready : s.ready 10 = true) (effect : f (s.atRegion 10 0x88) = u) :
    Leads c s (s.kept u) :=
  leads_of_steady gate (by simp [reach, ready]) (congrArg s.kept effect)

/-- No grant is enabled and CVC holds none but its own commands, so DESTROY is not refused (R371). -/
theorem State.destroy_allowed (ungranted : s.anyGrant = false) (own : ∀ nc ∈ s.cvc.cmds, nc.2.internal = true) :
    ¬(s.anyGrant = true ∨ s.cvc.cmds.any (fun nc => !nc.2.internal) = true) := by
  simpa [ungranted] using own

theorem State.destroyVolume_empty (ungranted : s.anyGrant = false) (own : ∀ nc ∈ s.cvc.cmds, nc.2.internal = true)
    (empty : s.cvc.vol = none) : s.destroyVolume = s.opDone := by
  simp only [State.destroyVolume, State.destroy_allowed ungranted own, empty, if_false]

theorem State.destroyVolume_destroys (ungranted : s.anyGrant = false) (own : ∀ nc ∈ s.cvc.cmds, nc.2.internal = true)
    (volume : s.cvc.vol = some v) : s.destroyVolume = (s.volumeDestroyed v).opDone := by
  simp only [State.destroyVolume, State.destroy_allowed ungranted own, volume, if_false]

theorem State.addSpare_noVolume (empty : s.cvc.vol = none) : s.addSpare p = s.opRefused := by
  simp only [State.addSpare, empty]

theorem State.addSpare_refused (volume : s.cvc.vol = some v)
    (unfit : v.spare ≠ none ∨ s.portReady p = false ∨ s.rd fDSP_PORT_ROLE p = 1 ∨ s.rd fDSP_PORT_ROLE p = 2 ∨
      v.spareFits (s.drive p).blocks = false ∨ 8 ≤ v.members) : s.addSpare p = s.opRefused := by
  simp only [State.addSpare, volume]
  refine if_pos ?_
  simpa [Option.isSome_iff_ne_none, Nat.lt_succ_iff] using unfit

theorem State.addSpare_adds (volume : s.cvc.vol = some v) (unspared : v.spare = none) (ready : s.portReady p = true)
    (notMember : s.rd fDSP_PORT_ROLE p ≠ 1) (notSpare : s.rd fDSP_PORT_ROLE p ≠ 2)
    (fits : v.spareFits (s.drive p).blocks = true) (room : v.members < 8)
    (added : u = (((s.sendPlain p 1 0 256 (List.replicate (4096 * 256) 0)).membership
      { v with spare := some p }).setRole p 2 0).opDone) :
    s.addSpare p = if u.volState = 2 then u.startRebuild { v with spare := some p } else u := by
  have fit : ¬8 < v.members + 1 := by omega
  subst added
  simp only [State.addSpare, volume]
  exact if_neg (by simp [unspared, ready, notMember, notSpare, fits, fit])

theorem State.removeSpare_noVolume (empty : s.cvc.vol = none) : s.removeSpare = s.opRefused := by
  simp only [State.removeSpare, empty]

theorem State.removeSpare_none (volume : s.cvc.vol = some v) (unspared : v.spare = none) :
    s.removeSpare = s.opRefused := by
  simp only [State.removeSpare, volume, unspared]

theorem State.removeSpare_of (volume : s.cvc.vol = some v) (spare : v.spare = some p) :
    s.removeSpare = if s.volState = 3 then s.opRefused
      else (((s.sendPlain p 1 0 1 (List.replicate 4096 0)).membership { v with spare := none }).setRole p 0 0).opDone := by
  simp only [State.removeSpare, volume, spare]

end

/-! #### Reservations of commands (R384) -/

theorem cmdResv_leads {s u : State} {fn v : Nat} (reach : s.reaches 0 = true) (ready : s.ready 10 = true)
    (known : fn ≤ 1024)
    (effect : (s.atRegion 10 (0x10018 + 32 * fn)).expertWrite 10 (fun s => s.writeCmdResv fn (lowBits 12 v)) = u) :
    Leads (.cmdResv fn v) s (s.kept u) :=
  leads_of_steady (show _ = execCmdResv fn v s from rfl) (by simp [reach, ready, known]) (congrArg s.kept effect)

/-- Settles O14, clause by clause: acceptance, admission, the drives' answers and limits, rebuild and resync, the volume
operations, and reservations. -/
theorem volumeCommandsComplete : Obligations.VolumeCommandsComplete := by
  refine ⟨?_, ?_, ?_, ?_, ?_, ?_, ?_, ?_, ?_, ?_, ?_, ?_, ?_, ?_, ?_, ?_, ?_, ?_, ?_, ?_, ?_, ?_, ?_, ?_, ?_, ?_, ?_, ?_,
    ?_, ?_, ?_, ?_, ?_, ?_, ?_, ?_, ?_, ?_⟩
  · intro s fn qid host e awake handed opcode
    exact leads_of_steady (show _ = execRead fn qid host s from rfl) awake
      (congrArg s.kept (State.volEntry_of handed opcode))
  · intro s fn qid host e awake handed opcode
    exact leads_of_steady (show _ = execWrite fn qid host s from rfl) awake
      (congrArg s.kept (State.volEntry_of handed opcode))
  · intro s fn qid e awake handed opcode
    exact leads_of_steady (show _ = execFlush fn qid s from rfl) awake
      (congrArg s.kept (State.volEntry_of handed opcode))
  · intro s fn qid e awake handed opcode
    exact leads_of_steady (show _ = execDeallocate fn qid s from rfl) awake
      (congrArg s.kept (State.volEntry_of handed opcode))
  · intro s awake waiting
    exact leads_of_steady (show _ = execAdmission s from rfl) awake (congrArg s.kept (by simp only [waiting]))
  · intro s n c awake next host
    exact admission_admits awake next (State.admitReady_host host)
  · intro s n c p awake next hbm pages
    exact admission_admits awake next (State.admitReady_hbm hbm pages)
  · intro s n c e awake next hbm pages
    exact admission_admits awake next (State.admitReady_untranslated hbm pages)
  · intro s tag status dword0 data d acts good command whole
    exact driveCompletion_leads acts good ((State.driveCompletion_volume command).trans (if_neg whole))
  · intro s tag status dword0 data d acts good command success read short
    exact driveCompletion_leads acts good
      ((State.driveCompletion_volume command).trans (if_pos ⟨success, read, short⟩))
  · intro s tag status dword0 data j acts good other job same
    exact driveCompletion_leads acts good (State.driveCompletion_admin other job same)
  · intro s tag status dword0 data warm good
    exact leads_of_steady (show _ = execDriveCompletion tag status dword0 data s from rfl) (by simp [warm, good])
      (congrArg s.kept (if_neg (by simp [State.running, warm])))
  · intro s tag reinit d u v acts command late counted logged first comesBack
    exact driveTimeout_leads acts ((State.driveTimeout_volume command late counted logged).trans
      (by simp [first, comesBack]))
  · intro s tag reinit d u v acts command late counted logged first gone
    exact driveTimeout_leads acts ((State.driveTimeout_volume command late counted logged).trans
      (by simp [first, gone]))
  · intro s tag reinit d u v acts command late counted logged again
    exact driveTimeout_leads acts ((State.driveTimeout_volume command late counted logged).trans (if_pos again))
  · intro s tag reinit d acts command early
    exact driveTimeout_leads acts (State.driveTimeout_early command early)
  · intro s tag reinit j acts other job same late
    exact driveTimeout_leads acts (State.driveTimeout_admin other job same late)
  · intro s v awake ready rebuilding idle volume spaced
    exact leads_of_steady (show _ = execRebuildStripe s from rfl) (by simp [awake, ready, rebuilding, idle])
      (congrArg s.kept (by simp only [volume, Nat.not_lt.mpr spaced, if_false]))
  · intro s v st n rest awake ready idle volume stripes whole
    exact leads_of_steady (show _ = execResyncStripe s from rfl) (by simp [awake, ready, idle])
      (congrArg s.kept (by simp only [volume, stripes, whole]))
  · rintro s d reach ready rfl bad
    exact volumeOp_leads State.createVolume (show _ = execCreate s from rfl) reach ready (if_pos bad)
  · rintro s d reach ready rfl good
    exact volumeOp_leads State.createVolume (show _ = execCreate s from rfl) reach ready
      (if_neg (ne_true_of_eq_false good))
  · rintro s d reach ready rfl ungranted own empty
    exact volumeOp_leads State.destroyVolume (show _ = execDestroy s from rfl) reach ready
      (State.destroyVolume_empty ungranted own empty)
  · rintro s d reach ready rfl granted
    exact volumeOp_leads State.destroyVolume (show _ = execDestroy s from rfl) reach ready (if_pos (.inl granted))
  · rintro s d reach ready rfl busy
    exact volumeOp_leads State.destroyVolume (show _ = execDestroy s from rfl) reach ready (if_pos (.inr busy))
  · rintro s v d reach ready rfl ungranted own volume
    exact volumeOp_leads State.destroyVolume (show _ = execDestroy s from rfl) reach ready
      (State.destroyVolume_destroys ungranted own volume)
  · rintro s p d reach ready rfl empty
    exact volumeOp_leads (fun s => s.addSpare p) (show _ = execAddSpare p s from rfl) reach ready
      (State.addSpare_noVolume empty)
  · rintro s p v d reach ready rfl volume unfit
    exact volumeOp_leads (fun s => s.addSpare p) (show _ = execAddSpare p s from rfl) reach ready
      (State.addSpare_refused volume unfit)
  · rintro s p v u d reach ready rfl volume unspared port notMember notSpare fits room added
    exact volumeOp_leads (fun s => s.addSpare p) (show _ = execAddSpare p s from rfl) reach ready
      (State.addSpare_adds volume unspared port notMember notSpare fits room added)
  · rintro s d reach ready rfl empty
    exact volumeOp_leads State.removeSpare (show _ = execRemoveSpare s from rfl) reach ready
      (State.removeSpare_noVolume empty)
  · rintro s v d reach ready rfl volume unspared
    exact volumeOp_leads State.removeSpare (show _ = execRemoveSpare s from rfl) reach ready
      (State.removeSpare_none volume unspared)
  · rintro s v p d reach ready rfl volume spare rebuilding
    exact volumeOp_leads State.removeSpare (show _ = execRemoveSpare s from rfl) reach ready
      ((State.removeSpare_of volume spare).trans (if_pos rebuilding))
  · rintro s v p d reach ready rfl volume spare calm
    exact volumeOp_leads State.removeSpare (show _ = execRemoveSpare s from rfl) reach ready
      ((State.removeSpare_of volume spare).trans (if_neg calm))
  · rintro s fn v d reach ready known rfl unlocked fits
    exact cvcFnResv_leads reach ready known ((State.expertWrite_open unlocked).trans (State.writeLockResv_within fits))
  · rintro s fn v d reach ready known rfl unlocked large
    exact cvcFnResv_leads reach ready known ((State.expertWrite_open unlocked).trans (State.writeLockResv_beyond large))
  · rintro s fn v d reach ready known rfl locked
    exact cvcFnResv_leads reach ready known (State.expertWrite_locked locked)
  · rintro s fn v d reach ready known rfl unlocked fits
    exact cmdResv_leads reach ready known ((State.expertWrite_open unlocked).trans (if_pos fits))
  · rintro s fn v d reach ready known rfl unlocked large
    exact cmdResv_leads reach ready known ((State.expertWrite_open unlocked).trans (if_neg (Nat.not_le.mpr large)))
  · rintro s fn v d reach ready known rfl locked
    exact cmdResv_leads reach ready known (State.expertWrite_locked locked)

end Sys2Proof.Machine

/-!
### Halyard (spec/13_halyard_dma.md): entries, channels, bursts, halts and stops
-/

namespace Sys2Proof.Machine

/-! #### COPY (R348, R349) -/

theorem copy_leads {s u : State} {fn qid : Nat} {e : Entry} (starts : s.halStarts = true)
    (entry : s.moveEntry fn qid false = some e) (effect : s.copyEntry fn qid e = u) : Leads (.copy fn qid) s (s.kept u) :=
  leads_of_steady (show _ = execCopy fn qid s from rfl) starts (congrArg s.kept (by simp only [entry, effect]))

section
variable {s : State} {fn qid : Nat} {e : Entry}

theorem State.copyEntry_refused {x : Nat × Nat} (error : s.moveError fn e.line = some x) :
    s.copyEntry fn qid e = s.complete ⟨fn, qid, e.tag⟩ x.1 x.2 0 0 := by
  simp only [State.copyEntry, error]

theorem State.copyEntry_placed {c : Nat} (valid : s.moveError fn e.line = none)
    (channel : s.moveChannel fn e.line = some c) :
    s.copyEntry fn qid e = (s.addJob c ⟨fn, .copy qid e.tag, copyXfer e.line, 0, 0, [], none, false⟩).setStage
      ⟨fn, qid, e.tag⟩ .started := by
  simp only [State.copyEntry, valid, channel]

theorem State.copyEntry_waits (valid : s.moveError fn e.line = none) (full : s.moveChannel fn e.line = none) :
    s.copyEntry fn qid e = s := by
  simp only [State.copyEntry, valid, full]

end

/-! #### The registers of a channel (R342, R355, R361) -/

section
variable {s u : State} {c v : Nat}

theorem halChCfg_leads (reach : s.reaches 0 = true) (ready : s.ready 7 = true) (known : c < 64)
    (effect : (s.atRegion 7 (0x10000 + 64 * c)).chCfg c v = u) : Leads (.halChCfg c v) s (s.kept u) :=
  leads_of_steady (show _ = execHalChCfg c v s from rfl) (by simp [reach, ready, known]) (congrArg s.kept effect)

theorem start_leads (reach : s.reaches 0 = true) (ready : s.ready 7 = true) (known : c < 64)
    (effect : (s.atRegion 7 (0x1000C + 64 * c)).startChannel c = u) : Leads (.start c) s (s.kept u) :=
  leads_of_steady (show _ = execStart c s from rfl) (by simp [reach, ready, known]) (congrArg s.kept effect)

theorem clear_leads (reach : s.reaches 0 = true) (ready : s.ready 7 = true) (known : c < 64)
    (effect : (s.atRegion 7 (0x1000C + 64 * c)).clearChannel c = u) : Leads (.clear c) s (s.kept u) :=
  leads_of_steady (show _ = execClear c s from rfl) (by simp [reach, ready, known]) (congrArg s.kept effect)

theorem stop_leads (reach : s.reaches 0 = true) (ready : s.ready 7 = true) (known : c < 64)
    (effect : (s.atRegion 7 (0x1000C + 64 * c)).stopChannel c = u) : Leads (.stop c) s (s.kept u) :=
  leads_of_steady (show _ = execStop c s from rfl) (by simp [reach, ready, known]) (congrArg s.kept effect)

/-- START begins the transfer in the registers of an idle channel of register mode that passes every check (R355). -/
theorem State.startChannel_begins (mode : s.rd fHAL_CH_CFG_MODE c ≠ 0) (idle : s.chState c = chIdle)
    (codes : codesBad (s.rd fHAL_CH_FORMAT_SW c) (s.rd fHAL_CH_FORMAT_DW c) (s.rd fHAL_CH_FORMAT_SRC_SPACE c)
      (s.rd fHAL_CH_FORMAT_DST_SPACE c) = false)
    (valid : s.xferError (s.regXfer c) = none) :
    s.startChannel c = s.addJob c ⟨0, .register, s.regXfer c, 0, 0, [], none, false⟩ := by
  simp [State.startChannel, mode, idle, codes, valid]

theorem State.startChannel_noticed (busy : s.rd fHAL_CH_CFG_MODE c = 0 ∨ s.chState c ≠ chIdle) :
    s.startChannel c = s.notice 7 c := if_pos busy

theorem State.startChannel_badCodes (mode : s.rd fHAL_CH_CFG_MODE c ≠ 0) (idle : s.chState c = chIdle)
    (codes : codesBad (s.rd fHAL_CH_FORMAT_SW c) (s.rd fHAL_CH_FORMAT_DW c) (s.rd fHAL_CH_FORMAT_SRC_SPACE c)
      (s.rd fHAL_CH_FORMAT_DST_SPACE c) = true) :
    s.startChannel c = s.lastStatus c 0x10 0x70 := by
  simp [State.startChannel, mode, idle, codes]

theorem State.startChannel_refused {x : Nat × Nat} (mode : s.rd fHAL_CH_CFG_MODE c ≠ 0) (idle : s.chState c = chIdle)
    (codes : codesBad (s.rd fHAL_CH_FORMAT_SW c) (s.rd fHAL_CH_FORMAT_DW c) (s.rd fHAL_CH_FORMAT_SRC_SPACE c)
      (s.rd fHAL_CH_FORMAT_DST_SPACE c) = false)
    (error : s.xferError (s.regXfer c) = some x) : s.startChannel c = s.lastStatus c x.1 x.2 := by
  simp [State.startChannel, mode, idle, codes, error]

theorem State.clearChannel_ignored (other : s.chState c ≠ chHalted ∨ s.rd fHAL_CH_CFG_MODE c ≠ 1) :
    s.clearChannel c = s := if_neg (not_and_or.mpr other)

theorem State.stopChannel_stops (mode : s.rd fHAL_CH_CFG_MODE c ≠ 0)
    (live : s.chState c = chArmed ∨ s.chState c = chActive) :
    s.stopChannel c = s.drawn.stopJob c (s.free % 256) (s.free / 256 % 256) := (if_neg mode).trans (if_pos live)

theorem State.stopChannel_ignored (mode : s.rd fHAL_CH_CFG_MODE c ≠ 0) (unarmed : s.chState c ≠ chArmed)
    (inactive : s.chState c ≠ chActive) : s.stopChannel c = s :=
  (if_neg mode).trans (if_neg (not_or_intro unarmed inactive))

end

/-! #### The oldest burst of a channel (R345, R357, R362) -/

section
variable {s u : State} {c host : Nat} {j : HalJob} {rest : List HalJob} {b : Burst}

theorem burstEnd_leads (running : s.running = true) (effect : s.burstEnd c = u) : Leads (.burstEnd c) s (s.kept u) :=
  leads_of_steady (show _ = execBurstEnd c s from rfl) running (congrArg s.kept effect)

theorem channelHalt_leads (running : s.running = true) (effect : s.channelHalt c host = u) :
    Leads (.channelHalt c host) s (s.kept u) :=
  leads_of_steady (show _ = execChannelHalt c host s from rfl) running (congrArg s.kept effect)

theorem State.burstEnd_of (jobs : s.chJobs c = j :: rest) (oldest : j.bursts.head? = some b) :
    s.burstEnd c = if (s.burstBad j b).isSome then s else (s.burstMoved c rest j b.len).settle c := by
  obtain ⟨later, bursts⟩ := List.head?_eq_some_iff.mp oldest
  simp only [State.burstEnd, jobs, bursts]

theorem State.burstEnd_moves (jobs : s.chJobs c = j :: rest) (oldest : j.bursts.head? = some b)
    (good : s.burstBad j b = none) : s.burstEnd c = (s.burstMoved c rest j b.len).settle c := by
  rw [State.burstEnd_of jobs oldest, good]; rfl

theorem State.burstEnd_fails (jobs : s.chJobs c = j :: rest) (oldest : j.bursts.head? = some b)
    (bad : s.burstBad j b ≠ none) : s.burstEnd c = s := by
  rw [State.burstEnd_of jobs oldest, if_pos (Option.isSome_iff_ne_none.mpr bad)]

/-- The HBM side of the oldest burst fails, whatever the host side meets. -/
theorem State.channelHalt_hbm {e : Nat × Nat × Nat × Nat} (jobs : s.chJobs c = j :: rest)
    (oldest : j.bursts.head? = some b) (bad : s.burstBad j b = some e) :
    s.channelHalt c host = s.chHalt c rest j e.1 e.2.1 e.2.2.1 e.2.2.2 false := by
  obtain ⟨later, bursts⟩ := List.head?_eq_some_iff.mp oldest
  simp only [State.channelHalt, jobs, bursts, bad]

/-- A read of the source in host memory fails, at an element that is open. -/
theorem State.channelHalt_hostSource {e : Nat × Nat} {es : List Nat} {i : Nat} (jobs : s.chJobs c = j :: rest)
    (oldest : j.bursts.head? = some b) (good : s.burstBad j b = none) (fails : hostFailure host = some e)
    (source : j.x.srcHost = true) (elements : es = j.x.srcElems b.off b.len) (failed : i = s.free % max 1 es.length) :
    s.channelHalt c host = s.drawn.chHalt c rest j (i * j.x.sw) (es.getD i 0) e.1 e.2 true := by
  obtain ⟨later, bursts⟩ := List.head?_eq_some_iff.mp oldest
  simp only [State.channelHalt, jobs, bursts, good, fails, source, elements, failed, true_or, if_true]

/-- A translation of the destination in host memory fails, at an element that is open. -/
theorem State.channelHalt_hostDestination {e : Nat × Nat} {es : List Nat} {i : Nat} (jobs : s.chJobs c = j :: rest)
    (oldest : j.bursts.head? = some b) (good : s.burstBad j b = none) (fails : hostFailure host = some e)
    (source : j.x.srcHost = false) (destination : j.x.dstHost = true) (translation : e.1 = 0x22)
    (elements : es = j.x.dstElems b.off b.len) (failed : i = s.free % max 1 es.length) :
    s.channelHalt c host = s.drawn.chHalt c rest j (i * j.x.dw) (es.getD i 0) e.1 e.2 true := by
  obtain ⟨later, bursts⟩ := List.head?_eq_some_iff.mp oldest
  simp only [State.channelHalt, jobs, bursts, good, fails, source, destination, translation, elements, failed,
    Bool.false_eq_true, false_or, and_self, if_true, if_false]

/-- 10 µs after a stop the open bursts of the head job are dropped (R361). -/
theorem State.stopTimeout_of (jobs : s.chJobs c = j :: rest) :
    s.stopTimeout c = ({ s.setChJobs c ({ j with bursts := [] } :: rest) with
      hal := { (s.setChJobs c ({ j with bursts := [] } :: rest)).hal with stopAt := del s.hal.stopAt c } } :
        State).settle c := by
  simp only [State.stopTimeout, jobs]

end

/-- Settles O13, clause by clause: entries, the registers of a channel, its bursts, its halts and stops, and pulses. -/
theorem halyardCommandsComplete : Obligations.HalyardCommandsComplete := by
  refine ⟨?_, ?_, ?_, ?_, ?_, ?_, ?_, ?_, ?_, ?_, ?_, ?_, ?_, ?_, ?_, ?_, ?_, ?_, ?_, ?_, ?_, ?_, ?_⟩
  · intro s fn qid e x starts entry error
    exact copy_leads starts entry (State.copyEntry_refused error)
  · intro s fn qid e c starts entry valid channel
    exact copy_leads starts entry (State.copyEntry_placed valid channel)
  · intro s fn qid e starts entry valid full
    exact copy_leads starts entry (State.copyEntry_waits valid full)
  · intro s fn qid starts
    exact leads_of_steady (show _ = execMangleJob fn qid s from rfl) starts rfl
  · rintro s c v u reach ready known rfl accepted
    exact halChCfg_leads reach ready known (if_neg (ne_true_of_eq_false accepted))
  · rintro s c v u reach ready known rfl refused
    exact halChCfg_leads reach ready known (if_pos refused)
  · rintro s c u reach ready known rfl mode idle codes valid
    exact start_leads reach ready known (State.startChannel_begins mode idle codes valid)
  · rintro s c u reach ready known rfl busy
    exact start_leads reach ready known (State.startChannel_noticed busy)
  · rintro s c u reach ready known rfl mode idle codes
    exact start_leads reach ready known (State.startChannel_badCodes mode idle codes)
  · rintro s c x u reach ready known rfl mode idle codes error
    exact start_leads reach ready known (State.startChannel_refused mode idle codes error)
  · rintro s c u reach ready known rfl halted mode
    exact clear_leads reach ready known (if_pos ⟨halted, mode⟩)
  · rintro s c u reach ready known rfl other
    exact clear_leads reach ready known (State.clearChannel_ignored other)
  · rintro s c u reach ready known rfl mode live
    exact stop_leads reach ready known (State.stopChannel_stops mode live)
  · rintro s c u reach ready known rfl mode
    exact stop_leads reach ready known (if_pos mode)
  · rintro s c u reach ready known rfl mode unarmed inactive
    exact stop_leads reach ready known (State.stopChannel_ignored mode unarmed inactive)
  · intro s c level may
    exact leads_of_steady (show _ = execBurstStart c level s from rfl) may rfl
  · intro s c j rest b running jobs oldest good
    exact burstEnd_leads running (State.burstEnd_moves jobs oldest good)
  · intro s c j rest b running jobs oldest bad
    exact burstEnd_leads running (State.burstEnd_fails jobs oldest bad)
  · intro s c host j rest b e running jobs oldest bad
    exact channelHalt_leads running (State.channelHalt_hbm jobs oldest bad)
  · intro s c host j rest b e es i running jobs oldest good fails source elements failed
    exact channelHalt_leads running (State.channelHalt_hostSource jobs oldest good fails source elements failed)
  · intro s c host j rest b e es i running jobs oldest good fails source destination translation elements failed
    exact channelHalt_leads running
      (State.channelHalt_hostDestination jobs oldest good fails source destination translation elements failed)
  · intro s c j rest t0 running stopping stopped past jobs
    exact leads_of_steady (show _ = execStopTimeout c s from rfl) (by simp [running, stopping, stopped, past])
      (congrArg s.kept (State.stopTimeout_of jobs))
  · intro s line running ready known
    exact leads_of_steady (show _ = execEventPulse line s from rfl) (by simp [running, ready, known]) rfl

end Sys2Proof.Machine

/-!
### Power, reefing and spares (spec/18_power_reefing_and_spares.md): the limit, temperature, the reef level and Darning
-/

namespace Sys2Proof.Machine

/-! #### The power limit (R454) -/

theorem pwrLimit_leads {s u : State} {watts hyst : Nat} (reach : s.reaches 0 = true) (ready : s.ready 14 = true)
    (effect : (s.atRegion 14 0x80).writeLimit fPWR_LIMIT_LIMIT_W fPWR_LIMIT_HYST_W (lowBits 10 watts) (lowBits 8 hyst) =
      u) : Leads (.pwrLimit watts hyst) s (s.kept u) :=
  leads_of_steady (show _ = execPwrLimit watts hyst s from rfl) (by simp [reach, ready]) (congrArg s.kept effect)

theorem State.writeLimit_refused {s : State} {fw fh : Field} {watts hyst : Nat} (outside : watts < 300 ∨ 800 < watts) :
    s.writeLimit fw fh watts hyst = s.notice 14 0xFFFF := if_neg (by omega)

/-! #### Temperature (R456) -/

section
variable {s t u : State} {die hbm : Nat}

/-- A sample of the temperatures begins with the registers that show it; `t` is the state with them written. -/
theorem thermalSample_warns (clocked : s.clocked = true)
    (shown : t = (s.wr fPWR_TEMP_DIE_MAX_C 0 die).wr fPWR_TEMP_HBM_MAX_C 0 hbm) (hot : s.warnC ≤ max die hbm) :
    Leads (.thermalSample die hbm) s (s.queued (({ t with
      reef := { t.reef with thermal := true, coolSince := none } } : State).reefAgain.alert
        fPWR_ALERT_STATUS_THERMAL_WARN)) := by
  subst shown
  exact leads_of_enabled (show _ = execThermalSample die hbm s from rfl) clocked (congrArg s.queued (if_pos hot))

theorem thermalSample_quiet (clocked : s.clocked = true)
    (shown : t = (s.wr fPWR_TEMP_DIE_MAX_C 0 die).wr fPWR_TEMP_HBM_MAX_C 0 hbm) (cooler : max die hbm < s.warnC)
    (calm : s.reef.thermal = false) : Leads (.thermalSample die hbm) s (s.queued t) := by
  subst shown
  exact leads_of_enabled (show _ = execThermalSample die hbm s from rfl) clocked
    (congrArg s.queued ((if_neg (Nat.not_le.mpr cooler)).trans (if_pos (by simp [calm]))))

/-- While the demand lasts, a sample below the warning is cool, by the release margin, or lies between. -/
theorem thermalSample_demand (clocked : s.clocked = true)
    (shown : t = (s.wr fPWR_TEMP_DIE_MAX_C 0 die).wr fPWR_TEMP_HBM_MAX_C 0 hbm) (cooler : max die hbm < s.warnC)
    (demand : s.reef.thermal = true)
    (effect : (if max die hbm + t.setting fPWR_THERMAL_CFG_RELEASE_C 0 < s.warnC then
        if t.reef.coolSince.getD t.clk.tsu + ticksOfMs 1 ≤ t.clk.tsu then
          ({ t with reef := { t.reef with thermal := false, coolSince := none } } : State).reefAgain
        else { t with reef := { t.reef with coolSince := some (t.reef.coolSince.getD t.clk.tsu) } }
      else { t with reef := { t.reef with coolSince := none } }) = u) :
    Leads (.thermalSample die hbm) s (s.queued u) := by
  subst shown
  exact leads_of_enabled (show _ = execThermalSample die hbm s from rfl) clocked
    (congrArg s.queued ((if_neg (Nat.not_le.mpr cooler)).trans ((if_neg (by simp [demand])).trans effect)))

end

/-! #### Windows of the controller (R454, R455) -/

/-- A controller window: kept, decided by, and shown; `w` is the state with that done. Its cause is raised where the
mean of 10 ms lies over the limit at the last level. -/
theorem controllerWindowEnd_leads {s u w x : State} {dw mv uj lim : Nat} {ws : List Nat} {r : Nat × Nat}
    (clocked : s.clocked = true) (ended : s.reef.lastWindow < s.clk.tsu / 8000)
    (windows : ws = (dw :: s.reef.windows).take 1000) (limit : lim = s.setting fPWR_LIMIT_LIMIT_W 0)
    (decided : r = controllerStep lim (s.setting fPWR_LIMIT_HYST_W 0) ws s.demandController s.reef.sinceRise)
    (kept : u = (({ s with
      reef := { s.reef with windows := ws, sinceRise := r.2, lastWindow := s.reef.lastWindow + 1 },
      board := { s.board with inputMv := mv } } : State).wr fPWR_REEF_STATUS_CONTROLLER 0 r.1).reefAgain)
    (shown : w = ((((u.wr fPWR_INPUT_MILLIVOLTS 0 mv).wr fPWR_INPUT_WATTS_X10 0 dw).wr fPWR_INPUT_MEAN_10MS_X10 0
      (windowSum 1000 ws / ws.length)).bumpWrap fPWR_ENERGY_MICROJOULES 0 uj).railPowers)
    (effect : (if ws.length = 1000 ∧ windowSum 1000 ws > lim * 10 * 1000 ∧ r.1 = 3 then w.raise 14 3 else w) = x) :
    Leads (.controllerWindowEnd dw mv uj) s (s.queued x) := by
  subst effect shown kept decided limit windows
  exact leads_of_enabled (show _ = execControllerWindowEnd dw mv uj s from rfl) (by simp [clocked, ended]) rfl

/-! #### Darning: swaps of tiles (R462, R463) -/

/-- Darning acts: it is ready, or a soft reset of it waits for the swap in progress (R76). -/
theorem State.drnActs_of {s : State} (acts : s.ready 15 = true ∨ (15 ∈ s.softPending ∧ s.darn.current ≠ none)) :
    s.drnActs = true := by
  simpa [State.drnActs, Option.isSome_iff_ne_none] using acts

section
variable {s u : State} {m : Swap}

theorem tileSwap_leads (running : s.running = true)
    (acts : s.ready 15 = true ∨ (15 ∈ s.softPending ∧ s.darn.current ≠ none)) (tiles : s.ready 4 = true)
    (effect : s.tileSwap = u) : Leads .tileSwap s (s.kept u) :=
  leads_of_steady (show _ = execTileSwap s from rfl) (by simp [running, State.drnActs_of acts, tiles])
    (congrArg s.kept effect)

theorem State.tileSwap_finishes (current : s.darn.current = some m) (ended : s.tileTask m.unit = none) :
    s.tileSwap = s.swapFinish m := by
  simp [State.tileSwap, current, ended]

theorem State.tileSwap_begins (starts : s.starts 15 = true) (calm : s.darn.current = none)
    (marked : s.tileMarked = some m) : s.tileSwap = s.swapBegin m := by
  simp only [State.tileSwap, calm, marked, starts, if_true]

theorem State.drainTimeout_kills {kx : Nat × Task} (current : s.darn.current = some m)
    (task : s.tileTask m.unit = some kx)
    (late : m.since + ticksOfUs (s.setting1 fDRN_POLICY_DRAIN_US 0) ≤ s.clk.tsu) :
    s.drainTimeout = (s.endOnTile m.unit 0x32 0x04 []).scrub m.unit := by
  simp only [State.drainTimeout, current]
  exact if_pos ⟨Option.isSome_of_eq_some task, late⟩

end

/-! #### Darning: requests of PF0 (R461) -/

section
variable {s u : State} {kind unit : Nat}

theorem drnSwapCtrl_leads (reach : s.reaches 0 = true) (ready : s.ready 15 = true)
    (effect : (s.atRegion 15 0x84).swapRequest kind unit = u) : Leads (.drnSwapCtrl kind unit) s (s.kept u) :=
  leads_of_steady (show _ = execDrnSwapCtrl kind unit s from rfl) (by simp [reach, ready]) (congrArg s.kept effect)

theorem State.swapRequest_refused (refused : s.swappable kind unit = false) :
    s.swapRequest kind unit = (s.wr fDRN_SWAP_STATUS_LAST_RESULT 0 2).notice 15 unit := if_pos (by simp [refused])

theorem State.swapRequest_tile (able : s.swappable 0 unit = true) : s.swapRequest 0 unit = s.mark 0 unit 3 :=
  if_neg (by simp [able])

theorem State.swapRequest_engine (able : s.swappable 2 unit = true) :
    s.swapRequest 2 unit = (s.mark 2 unit 3).wr fMGL_ENGINE_RETIRE_MARK unit 1 := if_neg (by simp [able])

/-- A bank that is FREE is cleared at once (R316). -/
theorem State.swapRequest_bank {v : State} (able : s.swappable 1 unit = true)
    (marked : v = (s.mark 1 unit 3).wr fAMU_BANK_RETIRE_MARK unit 1) :
    s.swapRequest 1 unit = if v.rd fAMU_BANK_STATE unit = 0 then v.clearBank unit else v := by
  subst marked
  exact if_neg (by simp [able])

end

/-! #### Darning: wire groups (R467) -/

/-- A CRC error counts for its group and its link direction; `n` is the group's count with it. At the threshold the
group is repaired, where repair is on. -/
theorem linkCrcError_leads {s u : State} {l g n : Nat} (running : s.running = true) (rig : s.ready 5 = true)
    (known : l < 224) (used : s.groupUsed l g = true) (count : n = getD 0 s.darn.groupErr (l * 64 + g) + 1)
    (effect : (if s.setting1 fDRN_THRESH_LINK_ERR 0 ≤ n ∧ s.setting fDRN_POLICY_LINK_REPAIR 0 = 1 then
        (({ s with darn := { s.darn with groupErr := put s.darn.groupErr (l * 64 + g) n } } : State).bumpSat
          fDRN_LINK_ERRORS l 1).groupWorn l g
      else ({ s with darn := { s.darn with groupErr := put s.darn.groupErr (l * 64 + g) n } } : State).bumpSat
        fDRN_LINK_ERRORS l 1) = u) : Leads (.linkCrcError l g) s (s.kept u) := by
  subst effect count
  exact leads_of_steady (show _ = execLinkCrcError l g s from rfl) (by simp [running, rig, known, used]) rfl

/-- Settles O19, clause by clause: the limit and the reef level, temperature, controller and wear windows, swaps and
requests for them, and wire groups. -/
theorem powerCommandsComplete : Obligations.PowerCommandsComplete := by
  refine ⟨?_, ?_, ?_, ?_, ?_, ?_, ?_, ?_, ?_, ?_, ?_, ?_, ?_, ?_, ?_, ?_, ?_, ?_, ?_, ?_, ?_, ?_⟩
  · rintro s watts hyst d reach ready rfl low high
    exact pwrLimit_leads reach ready (if_pos ⟨low, high⟩)
  · rintro s watts hyst d reach ready rfl outside
    exact pwrLimit_leads reach ready (State.writeLimit_refused outside)
  · rintro s level d reach ready rfl
    exact leads_of_enabled (show _ = execPwrReefFloor level s from rfl) (by simp [reach, ready]) rfl
  · intro s clocked stepping spaced
    exact leads_of_enabled (show _ = execStepDown s from rfl) (by simp only [clocked, stepping, spaced]; rfl) rfl
  · intro s die hbm t clocked shown hot
    exact thermalSample_warns clocked shown hot
  · intro s die hbm t clocked shown cooler calm
    exact thermalSample_quiet clocked shown cooler calm
  · rintro s die hbm t since clocked shown cooler demand cool rfl passed
    exact thermalSample_demand clocked shown cooler demand ((if_pos cool).trans (if_pos passed))
  · rintro s die hbm t since clocked shown cooler demand cool rfl early
    exact thermalSample_demand clocked shown cooler demand ((if_pos cool).trans (if_neg (Nat.not_le.mpr early)))
  · intro s die hbm t clocked shown cooler demand warm
    exact thermalSample_demand clocked shown cooler demand (if_neg (Nat.not_lt.mpr warm))
  · intro s dw mv uj ws lim r u w clocked ended windows limit decided kept shown within_limit
    exact controllerWindowEnd_leads clocked ended windows limit decided kept shown (if_neg within_limit)
  · intro s dw mv uj ws lim r u w clocked ended windows limit decided kept shown exceeded
    exact controllerWindowEnd_leads clocked ended windows limit decided kept shown (if_pos exceeded)
  · intro s u running ended cleared
    exact leads_of_steady (show _ = execWearWindow s from rfl) (by simp [running, ended])
      (congrArg s.kept (by simp only [State.wearWindow, cleared]))
  · intro s m running acts tiles current ended
    exact tileSwap_leads running acts tiles (State.tileSwap_finishes current ended)
  · intro s m running acts tiles starts calm marked
    exact tileSwap_leads running acts tiles (State.tileSwap_begins starts calm marked)
  · intro s m kx running acts current task late
    exact leads_of_steady (show _ = execDrainTimeout s from rfl) (by simp [running, State.drnActs_of acts])
      (congrArg s.kept (State.drainTimeout_kills current task late))
  · rintro s kind unit d reach ready rfl refused
    exact drnSwapCtrl_leads reach ready (State.swapRequest_refused refused)
  · rintro s unit d reach ready rfl able
    exact drnSwapCtrl_leads reach ready (State.swapRequest_engine able)
  · rintro s unit d reach ready rfl able
    exact drnSwapCtrl_leads reach ready (State.swapRequest_tile able)
  · rintro s unit v d reach ready rfl able marked free
    exact drnSwapCtrl_leads reach ready ((State.swapRequest_bank able marked).trans (if_pos free))
  · rintro s unit v d reach ready rfl able marked used
    exact drnSwapCtrl_leads reach ready ((State.swapRequest_bank able marked).trans (if_neg used))
  · rintro s l g n running rig known used rfl below
    exact linkCrcError_leads running rig known used rfl (if_neg below)
  · rintro s l g n running rig known used rfl worn repairs
    exact linkCrcError_leads running rig known used rfl (if_pos ⟨worn, repairs⟩)

end Sys2Proof.Machine
